-- ==== Sys2Proof/Word.lean ====
section
/-! DEFINITION. The word types of the Coeth C4 and the plainest helpers over them (spec/00_scope.md R6, R10). -/

namespace Sys2Proof

/-- A byte. -/
abbrev Byte := BitVec 8
/-- A 32-bit word of a scalar register, an instruction store or a scratchpad line. -/
abbrev W32 := BitVec 32
/-- A device register or a predicate mask (R10: every device register is 64 bits wide). -/
abbrev W64 := BitVec 64

/-- Bits [msb:lsb] of a number, inclusive (R6). -/
def bits (x msb lsb : Nat) : Nat := (x >>> lsb) % 2 ^ (msb + 1 - lsb)

/-- One bit of a number. -/
def bit (x i : Nat) : Bool := x.testBit i

/-- 1 for true, 0 for false. -/
def b2n (b : Bool) : Nat := if b then 1 else 0

/-- A number held in `w` bits read as two's complement. -/
def signed (w x : Nat) : Int :=
  let y := x % 2 ^ w
  if y < 2 ^ (w - 1) then (y : Int) else (y : Int) - (2 ^ w : Nat)

/-- An integer stored in `w` bits, two's complement. -/
def wrap (w : Nat) (z : Int) : Nat := (z % ((2 ^ w : Nat) : Int)).toNat

end Sys2Proof
end

