-- ==== Sys2Proof/Machine/Record.lean ====
section
/-! DEFINITION. The records that commands carry as operands. -/

namespace Sys2Proof

/-- A context of a physical cell (03 R57, R77). -/
structure CtxRef where
  cell : Nat
  ctx : Nat
deriving DecidableEq, Repr

/-- A line of 64 bytes with its poison, one bit a 32-bit word. -/
structure LineRec where
  v : BitVec 512
  p : BitVec 16 := 0
deriving DecidableEq, Repr

/-! ### Zovar frames and packets (12 R354, R361) -/

/-- A frame with a good CRC. `payload` holds LEN bytes, `info` what its packet's `info` holds. -/
structure Frame where
  ftype : Nat
  vl : Nat := 0
  sop : Bool := false
  eop : Bool := false
  seq : Nat := 0
  ack : Nat := 0
  crd : List Nat := [0, 0, 0, 0]
  ackv : Bool := false
  nak : Bool := false
  payload : List (BitVec 8) := []
  info : List Nat := []
deriving DecidableEq, Repr

/-- A packet. `via` is the package link + 1 whose receive buffers a forwarded packet holds (R362). `info` holds what a collective segment carries beside N and has no place in 13 R403: the special states of
its partials. -/
structure Packet where
  mclass : Nat
  vl : Nat
  retryOk : Bool := false
  poison : Bool := false
  nhops : Nat := 1
  hidx : Nat := 1
  route : List Nat := []
  dest : Nat := 0
  src : Nat := 0
  dst : Nat := 0
  payload : List (BitVec 8) := []
  info : List Nat := []
  via : Nat := 0
deriving DecidableEq, Repr

/-! ### Casts (10 R292 to R298, 13 R393, R394, R399) -/

/-- An entry of the section table (10 R293). -/
structure CastSection where
  type : Nat
  sflags : Nat
  offset : Nat
  length : Nat
  crc : Nat
deriving DecidableEq, Repr

/-- A place of a niche: a cell by coordinates relative to the north-west cell, or a court relative to the anchor. -/
structure Rel where
  x : Nat
  y : Nat
deriving DecidableEq, Repr

/-- A record of CELL_TABLE: contexts in use, CTX3_ROLE and, per context, PRIO, ENTRY and CTX_TIMEOUT. -/
structure CellRec where
  at' : Rel
  used : Nat
  role3 : Bool
  prio : List Nat
  entry : List Nat
  timeout : List W64
deriving DecidableEq, Repr

/-- A 64-bit register value of a cell window. -/
structure RegRec where
  at' : Rel
  off : Nat
  v : W64
deriving DecidableEq, Repr

/-- An instruction word or a route entry. -/
structure WordRec (w : Nat) where
  at' : Rel
  ctx : Nat
  index : Nat
  v : BitVec w
deriving DecidableEq, Repr

/-- A line of a scratchpad, a plinth or, with `at'` unused, of the niche's HBM allocation, by its byte address. -/
structure DataRec where
  at' : Rel
  addr : Nat
  line : LineRec
deriving DecidableEq, Repr

/-- SYN_CFG and SYN_STATE of an object. -/
structure SyncRec where
  at' : Rel
  k : Nat
  cfg : W64
  st : W64
deriving DecidableEq, Repr

/-- A test window (10 R311). -/
structure TestWindow where
  at' : Rel
  frame : Nat
  start : Nat
  len : Nat
deriving DecidableEq, Repr

/-- A relocation entry (10 R298): the section, the byte offset of a 32-bit word in it, the bit position and the kind. -/
structure Reloc where
  type : Nat
  off : Nat
  pos : Nat
  kind : Nat
deriving DecidableEq, Repr

/-- A slot of a cross-device plan (13 R394). -/
structure SlotRec where
  sendOfs : Nat
  delivOfs : Nat
  fromP : Nat
  toP : Nat
  plen : Nat
  dest : Nat
  court : Rel
  addr : Nat
  routeA : W64
  routeB : W64
deriving DecidableEq, Repr

/-- A collective plan (13 R399). -/
structure PlanRec where
  op : Nat
  fmt : Nat
  ofmt : Nat
  flags : Nat
  w : Int
  root : Nat
  home : Rel
  elems : Nat
  startOfs : Nat
  src : W64
  dst : W64
  status : W64
  trig : Nat
  trigStep : Nat
  cpl : Nat
  cplAdd : Nat
  mask : W64
  routeA : W64
  routeB : W64
  bind : Nat
deriving DecidableEq, Repr

/-- The XDEV section with the device IDs that the loader writes. -/
structure Xdev where
  me : Nat
  parts : List Nat
  slots : List SlotRec
  plans : List PlanRec
deriving DecidableEq, Repr

/-- A binding, ring or egress target as BIND writes it (14 R428): 0 NCH_BIND, 1 NCH_RING, 2 NCH_EGR, 3 LNK_CTRL. -/
structure BindRec where
  kind : Nat
  index : Nat
  v : W64
deriving DecidableEq, Repr

/-- A cast: its bytes, and what they hold: the header, the section table and the records of the sections. -/
structure CastFile where
  raw : List (BitVec 8) := []
  header : List (BitVec 8)
  sections : List CastSection
  cells : List CellRec := []
  istore : List (WordRec 32) := []
  rsched : List (WordRec 64) := []
  armreg : List RegRec := []
  cellreg : List RegRec := []
  scratch : List DataRec := []
  plinth : List DataRec := []
  hbm : List DataRec := []
  sync : List SyncRec := []
  dmaq : List SyncRec := []
  buckets : List (List Nat) := []
  windows : List TestWindow := []
  timing : List Nat := []
  xdev : Option Xdev := none
  rings : List BindRec := []
  mqWords : List (WordRec 32) := []
  mqSched : List (WordRec 64) := []
  mqReg : List RegRec := []
  reloc : List Reloc := []
deriving DecidableEq, Repr

/-! ### Host commands (14 R417, R418) -/

/-- A submission entry that the C4 fetches from SQ `q` of function `fn` (port * 17 + number), with the host data it reads
and whether the host's reads succeed. -/
structure SqEntry where
  fn : Nat
  q : Nat
  cid : Nat
  niche : Nat
  host : Nat
  offset : Nat
  length : Nat
  ops : List (BitVec 8)
  clean : Bool := true          -- unused bytes are 0
  hostOk : Bool := true
  data : List (BitVec 8) := []
deriving DecidableEq, Repr

/-! ### Bring-up (18 R502 to R518) -/

/-- The straps, with PWR_GOOD and the presence of REFCLK, when SYS_RST# is deasserted. -/
structure Straps where
  boot : Nat
  slot : Nat
  profile : Nat
  hostport : Bool
  linkfec : Bool
  pwrGood : Bool := true
  refclk : Bool := true
deriving DecidableEq, Repr

/-- What a bring-up finds: lists of dies, seams (0 to 3), stacks, physical cells and courts. -/
structure Boot where
  variants : List Nat := [1, 1, 1, 1]   -- VARIANT code of each die
  seqBad : Bool := false                -- a power sequence out of order (21 R577)
  railBad : List Nat := []              -- dies with a rail outside its thresholds, or whose setpoint write failed
  avsBad : List Nat := []               -- of those, dies whose setpoint write failed (21 R574)
  fuseBad : List Nat := []              -- dies with a bad identity or key-hash block
  fuseCells : List Nat := []            -- cells that fuses fence
  fuseRest : List (Nat × Nat) := []     -- row repairs and lanes that fuses hold: KIND and LOC of 16 R459
  fuseCourts : List Nat := []           -- courts whose repair block is bad in both copies
  bootBad : List Nat := []              -- dies whose images both fail
  fallback : Bool := false              -- the primary's active image failed and the other runs
  pllBad : List Nat := []
  seamBad : List Nat := []
  hbmBad : List Nat := []               -- stacks whose training failed twice
  cellBad : List Nat := []              -- cells that fail the cell test
  rows : List (Nat × Nat) := []         -- rows repaired: KIND and LOC of 16 R459
  rowsOver : List Nat := []             -- segments of HBM rows beyond their stack's repair capacity
  old : Bool := false                   -- saved settings older than FULL_AGE, or measured at another temperature
  shortFail : Bool := false             -- a shortened check fails
  vcore : List Nat := []                -- operating VDD_CORE in mV, by 4 * profile + die
  elapsed : Nat := 0                    -- units of 100 ms
deriving DecidableEq, Repr

/-! ### The Catalogue (19 R521 to R549) -/

/-- What the SPDM responder makes of a request (DSP0274): `op` 0 no change of the sessions, 1 session `sid` opens, 2 it
ends; `anchor` says where the requester's chain ends: 0 at none known, 1 in object 0x7030, 2 at the vendor anchor. -/
structure Spdm where
  op : Nat := 0
  sid : Nat := 0
  anchor : Nat := 0
  resp : List (BitVec 8) := []
deriving DecidableEq, Repr

/-- What a message finds beside its bytes: the anchor that a token's signature verifies with (1 vendor, 2 DEBUG_ANCHOR, 0
none), an image's signature and SVN, the responder's result, and for COMMAND the staged cast, a failing load write and the
host data. -/
structure CapFacts where
  sigBy : Nat := 0
  good : Bool := false
  svn : Nat := 0
  spdm : Spdm := {}
  cast : Option (List (BitVec 8)) := none
  fault : Bool := false
  hostOk : Bool := true
  data : List (BitVec 8) := []
deriving DecidableEq, Repr

/-- A CAP message at a transport `via`: 0 I3C0_, 1 I3C3_, 2 port A, 3 port B, 4 UDP, 5 Zovar, 6 the JTAG TAP (a token only).
`who` is the requester of R527, over Zovar the package link, whose mailbox holds the bytes; `port` is a datagram's
destination port; `session` the secured session that carries it. -/
structure CapMsg where
  via : Nat
  who : Nat := 0
  port : Nat := 7710
  session : Option Nat := none
  bytes : List (BitVec 8) := []
  facts : CapFacts := {}
deriving DecidableEq, Repr

/-! ### Counters and registers (20 R554 to R566, 00 R588) -/

/-- `n` qualifying events in a cycle at a bank: `kind` 0 the cell bank of cell `unit`, 1 of a court, 2 of a die; the event's
code, its master (a bit number, for class 7 the die link), its source (0 for the niche, 1 the Restorer, 2 the Ateliers) and its
address; `detail` to `instr` are what a sample record of it holds (R563). -/
structure PmcEvent where
  kind : Nat
  unit : Nat
  code : Nat
  n : Nat := 1
  master : Nat := 0
  src : Nat := 0
  addr : Option Nat := none
  ctx : Nat := 0
  pc : Nat := 0
  detail : Nat := 0
  at' : Nat := 0
  latency : Nat := 0
  instr : Nat := 0
  poison : Bool := false
deriving DecidableEq, Repr

/-- A write to the register at `off` of a window: `space` 0 the package block, 1 a die block, 2 a court block, 3 a cell
window, 4 a function page, of which `unit` is the number; `half` names the half that a 32-bit access writes (true: the high
one). `who` is the function that writes (port * 17 + number), none for the die's Atelier. `odd` says that the access has 8 or 16
bits or is misaligned. -/
structure RegAcc where
  space : Nat
  unit : Nat
  off : Nat
  half : Option Bool := none
  v : W64
  who : Option Nat := none
  odd : Bool := false
deriving DecidableEq, Repr

end Sys2Proof
end

