-- ==== Sys2Proof/Syntax.lean ====
section
/-! DEFINITION. The commands of the block: one constructor for each row of spec/opcode_table.json, with the operands
that say which unit the command acts on and what the outside brings with it (log 20). -/

namespace Sys2Proof

/-- The commands. -/
inductive Instr where
  /-- SALU (R92): Scalar integer register operation (ADD, SUB, logic, shifts, compares, MIN/MAX, saturating, 64-bit pair ops, MOVA, MOVS, CLZ, POPC) writes rd. -/
  | salu (x : CtxRef)
  /-- SALUI (R92): Scalar integer operation with a sign-extended 11-bit immediate in place of rs2. -/
  | salui (x : CtxRef)
  /-- LUI (R93): Writes a 16-bit immediate into bits [31:16] of rd and zeroes the low half. -/
  | lui (x : CtxRef)
  /-- SMUL (R94): Multiply, divide or remainder with the fixed results for division by zero and overflow. -/
  | smul (x : CtxRef)
  /-- BR (R95): Conditional branch on a register or predicate compare; a taken branch costs one issue cycle. -/
  | br (x : CtxRef)
  /-- J (R96): PC-relative jump modulo 1,024. -/
  | j (x : CtxRef)
  /-- JAL (R96): Writes the return address to rd, then jumps PC-relative. -/
  | jal (x : CtxRef)
  /-- JR (R96): Jumps to the address in rs1[9:0]. -/
  | jr (x : CtxRef)
  /-- LOOP (R97): Sets loop counter ln and CTX_LOOPn START and END, or skips the body when the count is 0. -/
  | loop (x : CtxRef)
  /-- SFP (R98): Scalar FP16, BF16 or FP32 arithmetic, min/max, divide, sqrt or compare, flags into CTX_FPFLAGS. -/
  | sfp (x : CtxRef)
  /-- DFP (R98): Scalar FP64 arithmetic on register pairs, flags into CTX_FPFLAGS. -/
  | dfp (x : CtxRef)
  /-- CVT (R99): Scalar conversion between formats with O = 0 under R32 to R35. -/
  | cvt (x : CtxRef)
  /-- CVTX (R99): Two-word scalar conversion with an output exponent O from the extension word. -/
  | cvtx (x : CtxRef)
  /-- LD (R100): Scalar load of a byte, half, word or double from the scratchpad. -/
  | ld (x : CtxRef)
  /-- ST (R100): Scalar store of a byte, half, word or double to the scratchpad. -/
  | st (x : CtxRef)
  /-- VMEM_LOAD (R101): Loads 64 bytes in row or column view into a v register. -/
  | vmemLoad (x : CtxRef)
  /-- VMEM_STORE (R101): Stores a v register as a 64-byte row or column view. -/
  | vmemStore (x : CtxRef)
  /-- TILE_LOAD (R102): Loads n lines at a pitch into consecutive v registers, one per cycle from issue + 4. -/
  | tileLoad (x : CtxRef)
  /-- TILE_STORE (R102): Stores n consecutive v registers to lines at a pitch over n issue cycles. -/
  | tileStore (x : CtxRef)
  /-- AADD (R103): Atomic add of a 32-bit or 64-bit operand to a scratchpad word, returning the old value. -/
  | aadd (x : CtxRef)
  /-- ASWAP (R103): Atomic swap of a 32-bit or 64-bit scratchpad word, returning the old value. -/
  | aswap (x : CtxRef)
  /-- SLOT_TAKE (R104): Core take from a slot ring: reads the slot and marks it empty, or blocks until it is full. -/
  | slotTake (x : CtxRef)
  /-- SLOT_PUT (R104): Core put into a slot ring: writes the slot and marks it full, or blocks until it is empty. -/
  | slotPut (x : CtxRef)
  /-- SLOT_TIMEOUT (R104): A blocked slot access passes its timeout and raises SLOT_UNDERRUN or SLOT_OVERRUN with no effect. -/
  | slotTimeout (x : CtxRef)
  /-- VALU (R106): Vector integer lane operation under the predicate mode. -/
  | valu (x : CtxRef)
  /-- VFP (R106): Vector FP16, BF16 or FP32 lane arithmetic under IEEE rules. -/
  | vfp (x : CtxRef)
  /-- VCMP (R107): Lane-wise compare writing a predicate mask. -/
  | vcmp (x : CtxRef)
  /-- VSEL (R107): Selects lanes from va or vb by a predicate. -/
  | vsel (x : CtxRef)
  /-- PERM (R108): Permutes lanes of va by indices in vb. -/
  | perm (x : CtxRef)
  /-- BCAST (R108): Broadcasts a scalar or pair to every lane. -/
  | bcast (x : CtxRef)
  /-- EXTRACT (R108): Copies one lane of va into a scalar register or pair. -/
  | extract (x : CtxRef)
  /-- SLIDE (R108): Shifts va down by a count of 4-byte units with zero fill. -/
  | slide (x : CtxRef)
  /-- LXSUM (R109): Adds the exact sum of active lanes into an LX128 lane at window W, ORing flags. -/
  | lxsum (x : CtxRef)
  /-- LXADD (R109): Adds LX128 lanes exactly at a common window. -/
  | lxadd (x : CtxRef)
  /-- LXOUT (R109): Rounds four LX128 lanes once into a target format. -/
  | lxout (x : CtxRef)
  /-- LXSHR (R109): Shifts LX128 lanes right with round-to-nearest-even. -/
  | lxshr (x : CtxRef)
  /-- VCVT (R110): Vector conversion, optionally producing an MX block with its scale. -/
  | vcvt (x : CtxRef)
  /-- PRED (R111): Predicate mask logic, set, clear, move to or from scalars, count or first bit. -/
  | pred (x : CtxRef)
  /-- RECV (R112): Receives a matching operand-port or receive-buffer entry into registers, or blocks. -/
  | recv (x : CtxRef)
  /-- RECV_TIMEOUT (R65): A blocked receive finds no match within 2^EXP mesh cycles and faults the context. -/
  | recvTimeout (x : CtxRef)
  /-- SEND_POSTED (R113): Injects a posted Sprue message with a software tag. -/
  | sendPosted (x : CtxRef)
  /-- SEND_REQUEST (R113): Allocates a request tag and injects a Sprue request, or blocks when 8 requests are outstanding. -/
  | sendRequest (x : CtxRef)
  /-- SEND_RESPONSE (R113): Sends a response to the source of a received request at port RSP. -/
  | sendResponse (x : CtxRef)
  /-- SYNC (R116): Sends one sync operation to a court sync store, posted or awaiting its result. -/
  | sync (x : CtxRef)
  /-- RIF (R117): Allocates a tag and sends a Riffler request to the cell's own court. -/
  | rif (x : CtxRef)
  /-- DMA (R118): Reads a descriptor from the scratchpad and posts it to a court DMA queue. -/
  | dma (x : CtxRef)
  /-- TMAC (R119): Checks and starts a tile multiply-accumulate, in a slab from the origin, on the MAC block. -/
  | tmac (x : CtxRef)
  /-- MWAIT (R123): Blocks the context until every MAC operation and drain of it has finished. -/
  | mwait (x : CtxRef)
  /-- PCFG (R124): Writes one patina stage parameter for the next drain. -/
  | pcfg (x : CtxRef)
  /-- NOP (R125): Does nothing for one issue cycle. -/
  | nop (x : CtxRef)
  /-- HALT (R125): The context enters HALTED once its in-flight instructions complete. -/
  | halt (x : CtxRef)
  /-- YIELD (R125): Leaves the context out of selection for the next cycle. -/
  | yield (x : CtxRef)
  /-- FENCE (R125): Stalls until the context's stores are performed and its messages have left the stop. -/
  | fence (x : CtxRef)
  /-- WAITT (R125): Blocks the context until the timebase reaches a target tick. -/
  | waitt (x : CtxRef)
  /-- WAITT_WAKE (R125): The timebase reaches a waiting context's target tick and the context becomes READY. -/
  | waittWake (x : CtxRef)
  /-- WAITF (R125): Blocks the context until the next frame edge of its niche. -/
  | waitf (x : CtxRef)
  /-- RDTICK (R125): Reads the 64-bit timebase into a register pair. -/
  | rdtick (x : CtxRef)
  /-- RDCTX (R125): Reads the context number, niche, binding and logical cell ID. -/
  | rdctx (x : CtxRef)
  /-- BRK (R125): Halts like HALT and sets STEP_DONE for a debugger. -/
  | brk (x : CtxRef)
  /-- RSIG (R126): Folds a register into the court's rasp signature. -/
  | rsig (x : CtxRef)
  /-- RASPEND (R126): Ends the rasp pass, checks the signature after the last step, and restores or reinitialises context 3 and the MAC block. -/
  | raspend (x : CtxRef)
  /-- CTX_START (R69): CTX_CTRL START moves a HALTED context to READY. -/
  | ctxStart (x : CtxRef)
  /-- CTX_HALT (R69): CTX_CTRL HALT stops an active context after in-flight instructions, abandoning a blocked operation. -/
  | ctxHalt (x : CtxRef)
  /-- CTX_STEP (R69): CTX_CTRL STEP issues one instruction from HALTED and sets STEP_DONE. -/
  | ctxStep (x : CtxRef)
  /-- CTX_RESET (R70): Context reset clears registers, abandons tags, orphans locks and returns the context to HALTED or OFF. -/
  | ctxReset (x : CtxRef)
  /-- PROG_VALID_WRITE (R66): Setting or clearing CTX_CONFIG.PROG_VALID moves a context between OFF and HALTED. -/
  | progValidWrite (x : CtxRef) (v : Bool)
  /-- CELL_IS_DATA_ACCESS (R59): Reads or writes an instruction word through CELL_IS_DATA with auto-increment, discarding writes to busy stores. -/
  | cellIsDataAccess (n : Nat) (w : Option W64)
  /-- CELL_REG_DATA_ACCESS (R57): Reads or writes a selected core register of a HALTED or FAULTED context and updates its poison report. -/
  | cellRegDataAccess (n : Nat) (w : Option W64)
  /-- FREEZE_WRITE (R82): Setting CELL_CTRL.FREEZE stops issue and holds the MAC pipeline; clearing it resumes. -/
  | freezeWrite (n : Nat) (v : Bool)
  /-- FREEZE_COMPLETE (R82): In-flight instructions complete or are abandoned and FROZEN is set within 16 cycles. -/
  | freezeComplete (n : Nat) (late : BitVec 4)
  /-- SCAN_GO (R81): A write of GO starts a scan-out or scan-in of the selected sections, or refuses it. -/
  | scanGo (n : Nat) (v : W64)
  /-- SCAN_DONE (R80): The destination accepts the last scan line and DONE is set. -/
  | scanDone (n : Nat)
  /-- MAC_FLAGS_RESTART (R145): CELL_MAC_FLAGS.RESTART resets TRAIL and HEADROOM. -/
  | macFlagsRestart (n : Nat)
  /-- SPD_OWN_WRITE (R189): A write to SPD_OWN hands address banks over to new ownership states, with a clear from NONE. -/
  | spdOwnWrite (n : Nat) (v : W64)
  /-- BANK_CLEAR_END (R198): A scratchpad clear of 96 cycles ends and the new ownership state is checked. -/
  | bankClearEnd (n : Nat)
  /-- SPD_CLEAR_WRITE (R198): SPD_CLEAR starts a clear of address banks in NONE and refuses others. -/
  | spdClearWrite (n : Nat) (v : W64)
  /-- SPD_RING_CFG_WRITE (R191): Configures or enables a slot ring, refusing a ring past line 3,071. -/
  | spdRingCfgWrite (n : Nat) (r : Nat) (v : W64)
  /-- SPD_RING_RESET (R195): Empties a disabled ring and zeroes its pointers. -/
  | spdRingReset (n : Nat) (r : Nat)
  /-- SPD_HOST_DATA_ACCESS (R197): Host class-7 word read or write of the scratchpad with auto-increment. -/
  | spdHostDataAccess (n : Nat) (w : Option W64)
  /-- SPD_ECC_WRITEBACK (R196): A corrected scratchpad word is written back in the bank's next free write cycle. -/
  | spdEccWriteback (n : Nat) (word : Nat)
  /-- ARM_RS_DATA_ACCESS (R213): Reads or writes a route schedule entry of an IDLE schedule. -/
  | armRsDataAccess (n : Nat) (w : Option W64)
  /-- ARM_GO (R219): GO starts an IMMEDIATE schedule 4 cycles later, or faults a running one. -/
  | armGo (x : CtxRef)
  /-- ARM_STOP (R219): STOP ends a schedule at the end of the cycle and returns it to IDLE. -/
  | armStop (x : CtxRef)
  /-- ARM_ENABLE_WRITE (R219): Setting or clearing ENABLE arms a schedule for frame edges or prevents its next start. -/
  | armEnableWrite (x : CtxRef) (v : Bool)
  /-- SCHED_START (R219): A route schedule starts at frame edge + OFFSET with fresh loops and address generators, or faults FRAME_OVERRUN. -/
  | schedStart (x : CtxRef)
  /-- ARM_SHIFT (R210): ARM_CTRL.SHIFT moves a cell's scratchpad and state to its east neighbour. -/
  | armShift (n : Nat) (v : Bool)
  /-- SEAM_ALARM (R212): A seam bridge's clock phase leaves its window; words are poisoned and ALARM set. -/
  | seamAlarm (seam : Nat)
  /-- SPR_RT_DATA_WRITE (R248): Writes a route-table entry, discarding writes to the active or busy version. -/
  | sprRtDataWrite (court : Nat) (v : W64)
  /-- EPOCH_ACTIVE_WRITE (R249): Switches a niche's active route-table version 8 cycles later, or refuses it. -/
  | epochActiveWrite (niche : Nat) (v : Bool)
  /-- PRIV_HOLD_WRITE (R249): Holds or releases injection by privileged units of a niche. -/
  | privHoldWrite (niche : Nat) (v : Bool)
  /-- SPRUE_MESSAGE_ARRIVE (R241): A message's head reaches a stop and is forwarded, delivered, held or refused. -/
  | sprueMessageArrive (n : Nat) (input : Nat) (vc : Nat) (err : Nat)
  /-- NACK_RECEIVE (R238): A NACK arrives at the source stop, frees the tag and raises SPR_REFUSED. -/
  | nackReceive (n : Nat) (input : Nat) (vc : Nat)
  /-- RESPONSE_RECEIVE (R251): A response reaches the receive buffer, or is discarded as stale, and completes its tag. -/
  | responseReceive (n : Nat) (input : Nat) (vc : Nat)
  /-- SPR_RSP_TIMEOUT (R252): A request's response timeout expires; the tag is quarantined and the context faults. -/
  | sprRspTimeout (n : Nat) (tag : Nat)
  /-- SYNC_READ (R257): Sync store returns an object's value. -/
  | syncRead (court : Nat)
  /-- SYNC_ADD (R257): Adds op1 to a counter and answers satisfied waiters. -/
  | syncAdd (court : Nat)
  /-- SYNC_SET (R257): Sets a counter or flag to op1. -/
  | syncSet (court : Nat)
  /-- SYNC_CAS (R257): Compares with op1 and sets op2, or reports COMPARE_FAIL. -/
  | syncCas (court : Nat)
  /-- SYNC_WAIT_GE (R257): Answers or enqueues a waiter until the value reaches op1. -/
  | syncWaitGe (court : Nat)
  /-- SYNC_ARRIVE (R257): Counts a barrier arrival and completes the phase at TARGET. -/
  | syncArrive (court : Nat)
  /-- SYNC_ACQUIRE (R257): Acquires a free or orphaned lock or queues for it. -/
  | syncAcquire (court : Nat)
  /-- SYNC_RELEASE (R257): Releases a lock to the next waiter or to FREE, or reports NOT_OWNER. -/
  | syncRelease (court : Nat)
  /-- SYNC_FLAG_SET (R257): ORs op1 into a flag. -/
  | syncFlagSet (court : Nat)
  /-- SYNC_FLAG_CLEAR (R257): Clears op1 bits of a flag. -/
  | syncFlagClear (court : Nat)
  /-- SYNC_FLAG_WAIT (R257): Answers or enqueues a waiter until the masked flag equals op2. -/
  | syncFlagWait (court : Nat)
  /-- ORPHAN_NOTICE (R261): An orphan notice orphans a context's held locks and removes its waiters. -/
  | orphanNotice (court : Nat)
  /-- SYNC_WAIT_TIMEOUT (R258): A sync waiter exceeds 2^WAIT_EXP cycles and is answered WAIT_TIMEOUT. -/
  | syncWaitTimeout (court : Nat) (waiter : Nat)
  /-- SYN_STATE_WRITE (R260): Software writes a sync object's state, replacing its value. -/
  | synStateWrite (court : Nat) (k : Nat) (v : W64)
  /-- RIF_REQUEST_ARRIVE (R276): A Riffler request reaches the court port and is accepted or refused RIF_QFULL. -/
  | rifRequestArrive (court : Nat)
  /-- RIF_PROLOGUE (R277): The Riffler reads and checks the descriptor and lists and divides moves into rounds before launch. -/
  | rifPrologue (court : Nat)
  /-- GATHER (R284): Copies indexed table rows from the plinth into destination scratchpads. -/
  | gather (court : Nat)
  /-- SCADD (R285): Exactly adds scratchpad rows into indexed table rows. -/
  | scadd (court : Nat)
  /-- SEGRED (R286): Reduces segments of source rows into output rows with one rounding. -/
  | segred (court : Nat)
  /-- SORT (R287): Stably sorts up to 4,096 key-payload pairs. -/
  | sort (court : Nat)
  /-- TOPK (R288): Writes the first k sorted pairs, optionally inline in the completion. -/
  | topk (court : Nat)
  /-- RIF_COMPLETE (R279): An operation completes at L + T and its completion response leaves the court port. -/
  | rifComplete (court : Nat)
  /-- XBAR_ROUND (R275): A crossbar round at a boundary carries DMA and scan line moves. -/
  | xbarRound (court : Nat)
  /-- CRT_CLEAR (R269): CRT_CTRL.CLEAR starts a plinth clear, or refuses it. -/
  | crtClear (court : Nat)
  /-- PLINTH_CLEAR_END (R269): The plinth clear writes its last row and held accesses are served. -/
  | plinthClearEnd (court : Nat)
  /-- CRT_HOST_DATA_ACCESS (R266): Host word read or write of the plinth on port B. -/
  | crtHostDataAccess (court : Nat) (fn : Nat) (w : Option W64)
  /-- DMA_DESC_ARRIVE (R333): A DMA descriptor reaches its queue and is accepted or refused. -/
  | dmaDescArrive (court : Nat)
  /-- DMA_SPD_TO_PLN (R335): Moves scratchpad lines to the plinth over the crossbar. -/
  | dmaSpdToPln (court : Nat) (queue : Nat)
  /-- DMA_PLN_TO_SPD (R335): Moves plinth lines to a scratchpad over the crossbar. -/
  | dmaPlnToSpd (court : Nat) (queue : Nat)
  /-- DMA_PLN_TO_HBM (R335): Moves plinth lines to HBM with block checks. -/
  | dmaPlnToHbm (court : Nat) (queue : Nat)
  /-- DMA_HBM_TO_PLN (R335): Moves HBM lines to the plinth with block checks. -/
  | dmaHbmToPln (court : Nat) (queue : Nat)
  /-- DMA_SPD_TO_HBM (R335): Moves scratchpad lines to HBM through the staging area. -/
  | dmaSpdToHbm (court : Nat) (queue : Nat)
  /-- DMA_HBM_TO_SPD (R335): Moves HBM lines to a scratchpad through the staging area. -/
  | dmaHbmToSpd (court : Nat) (queue : Nat)
  /-- ZERO_H (R335): Writes zeros with checks to an HBM area. -/
  | zeroH (court : Nat) (queue : Nat)
  /-- DMA_COMPLETE (R340): A descriptor completes, sends its status and performs its notification. -/
  | dmaComplete (court : Nat) (queue : Nat)
  /-- HBM_PATROL_SCRUB (R326): The patrol scrub reads a line and corrects or poisons it. -/
  | hbmPatrolScrub (line : Nat)
  /-- MAC_OP_COMPLETE (R123): The last output row leaves the array at the end of FILL. -/
  | macOpComplete (n : Nat)
  /-- CHECKPOINT_RESULT (R443): An intermediate checksum checkpoint result forms, passing or failing. -/
  | checkpointResult (n : Nat) (block : Nat) (fails : List (Nat × Nat × Nat))
  /-- ARBITRATION (R450): The sequencer recomputes suspects' last blocks and decides which cell is at fault. -/
  | arbitration (n : Nat) (outs : List Nat)
  /-- FRAME_TRIGGER_FREE (R390): A FREE-mode generator raises an edge every FRAME_LEN cycles. -/
  | frameTriggerFree (niche : Nat)
  /-- FRAME_TRIGGER_EVENT (R390): An EVENT-mode edge is raised for an ingress slot marked full, after FRAME_LEN. -/
  | frameTriggerEvent (niche : Nat)
  /-- FRAME_TRIGGER_POD (R390): A POD-mode edge is raised when TICK reaches START_TICK + k × FRAME_TICKS. -/
  | frameTriggerPod (niche : Nat)
  /-- FRAME_EDGE (R390): Every cell of the niche sees the frame edge 16 cycles after its trigger. -/
  | frameEdge (niche : Nat)
  /-- TMB_NFRAME_MODE_WRITE (R390): Writes a niche frame generator's mode, or refuses it. -/
  | tmbNframeModeWrite (niche : Nat) (v : BitVec 32)
  /-- INGRESS_ENTRY_ARRIVE (R431): An ingress entry is written into its ring and marked full, or dropped. -/
  | ingressEntryArrive (ring : Nat) (src : Nat) (entry : List (BitVec 8)) (poison : Bool)
  /-- EGRESS_SLOT_WRITE (R431): The write of line 3 marks an egress slot full; the rim sends it or drops it. -/
  | egressSlotWrite (ring : Nat) (slot : Nat)
  /-- PEND_WAIT_EXPIRY (R473): No matching answer within PEND_WAIT; SINGLE or UNCOMPARED is counted. -/
  | pendWaitExpiry (p : Nat)
  /-- SQ_TAIL_DOORBELL (R422): A new SQ tail lets the C4 fetch submission entries. -/
  | sqTailDoorbell (fn : Nat) (q : Nat) (v : Nat)
  /-- CQ_HEAD_DOORBELL (R422): Host reports CQ entries consumed. -/
  | cqHeadDoorbell (fn : Nat) (q : Nat) (v : Nat)
  /-- EGR_HEAD_DOORBELL (R422): Host reports egress ring slots consumed. -/
  | egrHeadDoorbell (fn : Nat) (q : Nat) (v : Nat)
  /-- CMD_NOP (R418): Host command that does nothing and completes. -/
  | cmdNop (e : SqEntry)
  /-- WRITE_HBM (R418): Copies host data into HBM with block checks. -/
  | writeHbm (e : SqEntry)
  /-- READ_HBM (R418): Copies HBM data to the host with poison as EP. -/
  | readHbm (e : SqEntry)
  /-- LOAD_CAST (R317): Checks and loads a cast into a niche, reporting the load status. -/
  | loadCast (cast : List (BitVec 8)) (e : SqEntry) (fault : Bool)
  /-- CMD_START (R418): Sets the niche's frame mode and start tick. -/
  | cmdStart (e : SqEntry)
  /-- CMD_STOP (R418): Sets the frame mode OFF, completing after the frame in progress. -/
  | cmdStop (e : SqEntry)
  /-- NICHE_RESET (R432): Resets a niche within 200 µs without touching any other niche. -/
  | nicheReset (niche : Nat) (e : Option SqEntry)
  /-- INGRESS_POST (R418): Host writes one entry into a binding's ingress ring. -/
  | ingressPost (e : SqEntry)
  /-- NICHE_CREATE (R424): Creates a niche on a rectangle of courts. -/
  | nicheCreate (e : SqEntry)
  /-- NICHE_DESTROY (R425): Resets and clears a niche and frees its courts. -/
  | nicheDestroy (e : SqEntry)
  /-- BIND_VF (R418): Binds or unbinds a VF to a niche. -/
  | bindVf (e : SqEntry)
  /-- SET_WINDOW (R427): Writes a niche's HBM window after zeroing dirty segments. -/
  | setWindow (e : SqEntry)
  /-- BIND (R428): Writes an ingress binding, ring, egress target or link binding. -/
  | bind (e : SqEntry)
  /-- HOST_BAR2_READ (R327): Host reads HBM through BAR2, with EP for poisoned lines. -/
  | hostBar2Read (fn : Nat) (off : Nat) (len : Nat)
  /-- HOST_BAR2_WRITE (R330): Host writes HBM through BAR2 with a partial check update. -/
  | hostBar2Write (fn : Nat) (off : Nat) (data : List (BitVec 8)) (ep : Bool)
  /-- FUNCTION_LEVEL_RESET (R433): Resets one function's queues without touching any niche. -/
  | functionLevelReset (fn : Nat)
  /-- PERST_ASSERT (R411): PERST#, hot reset or link-down resets a port's functions. -/
  | perstAssert (port : Nat)
  /-- REG_WRITE (R588): A write to a register with no behaviour of its own takes effect by owner and access code. -/
  | regWrite (a : RegAcc)
  /-- TMB_TICK_LOW_READ (R380): A 32-bit read of the low half latches the high half. -/
  | tmbTickLowRead (high : Bool)
  /-- PMC_CNT_LOW_READ (R558): A 32-bit read of a counter's low half latches its high half. -/
  | pmcCntLowRead (kind : Nat) (unit : Nat) (k : Nat) (high : Bool)
  /-- PMC_SAMP_DATA_READ (R564): A read of word 0 latches the selected sample record. -/
  | pmcSampDataRead (n : Nat) (fn : Option Nat)
  /-- PMC_SNAP_GO (R560): Latches a bank's counters, queue views and tick. -/
  | pmcSnapGo (kind : Nat) (unit : Nat)
  /-- PMC_GSNAP_LATCH (R560): Every bank latches a snapshot when TICK reaches AT. -/
  | pmcGsnapLatch
  /-- PMC_OVERFLOW (R559): A counter wraps past 2^48 − 1, sets OVF and optionally logs. -/
  | pmcOverflow (e : PmcEvent)
  /-- PMC_SAMPLE (R562): The sample source counter wraps, reloads and writes a sample record. -/
  | pmcSample (e : PmcEvent)
  /-- BW_WINDOW_LATCH (R566): Derived byte counters are latched at each BW_WIN tick. -/
  | bwWindowLatch (l : List (Nat × Nat × Nat))
  /-- FAULT_LOG_ENTRY (R456): The Atelier writes a received fault record into the die's log. -/
  | faultLogEntry (source : Nat) (index : Nat)
  /-- ZOVAR_DATA_FRAME (R359): A good DATA frame is accepted, discarded as duplicate or NAKed, with ACK and credit update. -/
  | zovarDataFrame (link : Nat) (f : Frame)
  /-- ZOVAR_IDLE_FRAME (R355): An IDLE frame updates ACK and credits. -/
  | zovarIdleFrame (link : Nat) (f : Frame)
  /-- ZOVAR_HELLO (R367): A HELLO is received and drives negotiation, identity check or recovery. -/
  | zovarHello (link : Nat) (f : Frame)
  /-- ZOVAR_PING (R373): A PING is answered with a PONG carrying TURN_PS. -/
  | zovarPing (link : Nat) (f : Frame) (turn : Nat)
  /-- ZOVAR_PONG (R373): A PONG gives a delay measurement for the running average. -/
  | zovarPong (link : Nat) (f : Frame) (t4 : Nat)
  /-- ZOVAR_BAD_FRAME (R355): A frame with bad CRC or reserved type is discarded. -/
  | zovarBadFrame (link : Nat) (crc : Bool)
  /-- TX_FRAME_SLOT (R356): The transmitter sends the highest-priority ready frame in a frame slot. -/
  | txFrameSlot (link : Nat)
  /-- REPLAY_TIMEOUT (R360): REPLAY_T expires with frames outstanding and a replay starts. -/
  | replayTimeout (link : Nat)
  /-- LINK_ENABLE_WRITE (R366): Enabling or disabling a link moves it to DETECT or DISABLED. -/
  | linkEnableWrite (link : Nat) (v : Bool)
  /-- LINK_RETRAIN (R371): RETRAIN moves a link from UP to RECOVER, or to DETECT. -/
  | linkRetrain (link : Nat)
  /-- LINK_DETECT (R366): Termination test every DETECT_T moves the link to EQ. -/
  | linkDetect (link : Nat) (lane0 : Bool) (lane1 : Bool)
  /-- LINK_EQ_DONE (R370): Equalisation from saved settings or full training ends. -/
  | linkEqDone (link : Nat) (res : Nat) (lane : Nat)
  /-- BER_WINDOW_END (R352): The BER measurement chooses rate and FEC request. -/
  | berWindowEnd (link : Nat) (ber0 : W32) (ber1 : W32)
  /-- LINK_LOCK (R351): Codeword and block lock are acquired. -/
  | linkLock (link : Nat)
  /-- LINK_LOCK_LOST (R351): Lock is lost and the link enters RECOVER. -/
  | linkLockLost (link : Nat)
  /-- LOCK_T_EXPIRY (R366): LOCK_T expires and the link returns to EQ or goes DOWN. -/
  | lockTExpiry (link : Nat)
  /-- NEG_T_EXPIRY (R366): NEG_T expires in NEGOTIATE and the link goes DOWN. -/
  | negTExpiry (link : Nat)
  /-- HOLD_T_EXPIRY (R369): HOLD_T expires and the held link enters UP. -/
  | holdTExpiry (link : Nat)
  /-- HELLO_T_SEND (R366): A HELLO is sent every HELLO_T in negotiation. -/
  | helloTSend (link : Nat)
  /-- DEAD_T_EXPIRY (R371): No good frame for DEAD_T moves the link to RECOVER. -/
  | deadTExpiry (link : Nat)
  /-- RECOVER_T_EXPIRY (R371): A recovery attempt fails; after RECOVER_MAX the link is DOWN. -/
  | recoverTExpiry (link : Nat)
  /-- DOWN_HOLD_EXPIRY (R366): DOWN_HOLD expires and the link restarts at DETECT. -/
  | downHoldExpiry (link : Nat)
  /-- MEAS_T_PING (R373): A delay measurement PING is sent every MEAS_T. -/
  | measTPing (link : Nat) (t1 : Nat)
  /-- FEC_DEGRADE (R352): Too many heavy codeword corrections in 1 s force RS(544,514). -/
  | fecDegrade (link : Nat) (lane : Option Nat)
  /-- LINK_DOWN (R363): A link enters DOWN; retry-buffer packets are handed back or lost. -/
  | linkDown (link : Nat)
  /-- PACKET_RECEIVE (R362): A packet is delivered, forwarded or discarded as misrouted. -/
  | packetReceive (link : Nat)
  /-- PKT_DESC (R364): A DESC packet is written into a window with optional sync ADD. -/
  | pktDesc (link : Nat)
  /-- PKT_SYNC (R364): A SYNC packet request or response is applied. -/
  | pktSync (link : Nat)
  /-- PKT_EDGE_IN (R365): An EDGE_IN packet is delivered into its ingress ring. -/
  | pktEdgeIn (link : Nat)
  /-- PKT_MGMT (R364): A MGMT packet is handed to the Atelier as a CAP message. -/
  | pktMgmt (link : Nat)
  /-- VL0_DELIVER (R364): A held VL0 packet is delivered when TICK reaches its tick. -/
  | vl0Deliver (link : Nat)
  /-- ANNOUNCE_SEND (R383): An ANNOUNCE is sent on each time link every ANNOUNCE_T. -/
  | announceSend
  /-- ANNOUNCE (R383): An ANNOUNCE is received and updates leader and parent. -/
  | announce (link : Nat)
  /-- PARENT_LOSS (R384): No announce for 3 × ANNOUNCE_T; another parent or HOLDOVER. -/
  | parentLoss
  /-- TIME_SYNC_SEND (R385): A parent sends SYNC with T_TX every SYNC_T. -/
  | timeSyncSend (link : Nat) (ttx : Nat)
  /-- TIME_SYNC (R385): A child computes θ and steps or adjusts RATE_ADJ. -/
  | timeSync (link : Nat) (trx : Nat)
  /-- HOLDOVER_EXPIRY (R384): HOLDOVER_T expires; the timebase becomes FREE. -/
  | holdoverExpiry
  /-- FALLBACK (R398): A FALLBACK message is received and forwarded, scheduling maquette activation. -/
  | fallback (link : Nat)
  /-- SLOT_SEND (R395): A time-triggered slot reads its data and sends a VL0 COLL packet. -/
  | slotSend (niche : Nat) (slot : Nat)
  /-- COLL_INSTANCE_START (R400): A collective instance starts on its trigger or tick. -/
  | collInstanceStart (niche : Nat) (plan : Nat)
  /-- COLL_SEGMENT (R404): A DATA segment is merged once and acknowledged. -/
  | collSegment (link : Nat)
  /-- COLL_ACK (R404): An ACK releases held segments. -/
  | collAck (link : Nat)
  /-- COLL_LOST (R405): A LOST segment ends the instance and is forwarded once. -/
  | collLost (link : Nat)
  /-- COLL_RETX_EXPIRY (R404): An unacknowledged segment is replayed on ROUTE_B. -/
  | collRetxExpiry (niche : Nat) (plan : Nat) (seq : Nat) (step : Nat) (idx : Nat)
  /-- COLL_T_EXPIRY (R405): The instance is declared lost after its link went down. -/
  | collTExpiry (niche : Nat) (plan : Nat) (seq : Nat)
  /-- INST_T_EXPIRY (R405): The instance has not ended INST_T after start and is lost. -/
  | instTExpiry (niche : Nat) (plan : Nat) (seq : Nat)
  /-- STRAGGLER_WINDOW_END (R406): A 1 s window ends and straggler statistics move to PREV. -/
  | stragglerWindowEnd
  /-- HEAL (R464): A decided faulty cell pauses its niche for healing. -/
  | heal (n : Nat)
  /-- HEAL_SHIFT (R464): Once paused, rows shift, remap and the niche restarts with replay. -/
  | healShift (niche : Nat)
  /-- MAQUETTE_ACTIVATE (R471): At a frame edge context 3 takes over with the maquette. -/
  | maquetteActivate (niche : Nat)
  /-- RELOCATE (R475): A niche is copied to a reserve rectangle and resumes. -/
  | relocate (niche : Nat)
  /-- RASP_PASS_START (R476): A rasp pass starts in context 3 within a test window. -/
  | raspPassStart (court : Nat) (steps : Nat)
  /-- CONFIRMATION_TEST (R481): A fenced cell's full test confirms or not the decision. -/
  | confirmationTest (n : Nat) (pass : Bool)
  /-- CONTEXT_WATCHDOG (R486): A context watchdog expires and raises WATCHDOG. -/
  | contextWatchdog (x : CtxRef)
  /-- NICHE_WATCHDOG (R486): No frame edge within the limit; NICHE_HANG and a niche reset. -/
  | nicheWatchdog (niche : Nat)
  /-- ATELIER_WATCHDOG (R486): The Atelier is not kicked; its die is reset. -/
  | atelierWatchdog (die : Nat)
  /-- ESCALATION_TIMEOUT (R489): A reset step passes its bound and the next step begins. -/
  | escalationTimeout (level : Nat) (unit : Nat)
  /-- CELL_RESET (R487): Resets one physical cell. -/
  | cellReset (n : Nat)
  /-- DIE_RESET (R487): Resets a die and its niches. -/
  | dieReset (die : Nat)
  /-- PACKAGE_RESET (R487): Resets all four dies, the ports and the timebase. -/
  | packageReset
  /-- POWER_CYCLE (R497): Writes a crash summary and asserts PWR_CYCLE_REQ#. -/
  | powerCycle
  /-- CRASH_CAST (R493): Freezes the cells involved and writes their records to HBM. -/
  | crashCast (level : Nat) (unit : Nat) (k : Nat)
  /-- CRASH_CAST_ABANDON (R496): A crash cast unfinished after 1 ms is marked INCOMPLETE. -/
  | crashCastAbandon
  /-- DIE_RESET_REQ (R500): RST_CTRL.DIE_REQ requests die resets. -/
  | dieResetReq (mask : Nat)
  /-- PKG_RESET_REQ (R500): RST_CTRL.PKG_REQ requests a package reset. -/
  | pkgResetReq
  /-- PWRCYC_REQ (R500): RST_CTRL.PWRCYC_REQ requests a power cycle. -/
  | pwrcycReq
  /-- SYS_RST_DEASSERT (R502): Samples the straps and starts bring-up. -/
  | sysRstDeassert (b : Straps)
  /-- SYS_RST_ASSERT (R577): Every die halts without a crash cast. -/
  | sysRstAssert
  /-- BRINGUP (R501): Bring-up runs fuses, boot, clocks, memory, fabric and links to SERVICE or DIAG. -/
  | bringup (b : Boot)
  /-- BOOT_TAKEOVER (R507): Die 3 boots as primary when die 0 has not signalled BOOT_OK in 2 s. -/
  | bootTakeover
  /-- BROWN_OUT (R538): A rail below its brown-out threshold halts every die. -/
  | brownOut (rail : Nat)
  /-- OVERVOLTAGE (R538): A rail above its overvoltage threshold halts and requests a power cycle. -/
  | overvoltage (rail : Nat)
  /-- NV_WRITE_BLOCK (R538): NV writes are blocked under low VDD_AUX, VDD_IO or PWR_GOOD. -/
  | nvWriteBlock
  /-- NV_WRITE_RESUME (R538): NV writes resume after conditions clear for 10 ms. -/
  | nvWriteResume
  /-- NV_JOURNAL_WRITE (R544): A journal record is written with CRC and commit word. -/
  | nvJournalWrite (done : Bool)
  /-- REFCLK_LOSS (R579): Reference clock lost; dies halt and reset waits for its return. -/
  | refclkLoss
  /-- THERM_HOT (R539): Tj at THROTTLE_C for 10 ms requests a lower profile. -/
  | thermHot (tj : List Nat)
  /-- THERM_COOL (R539): Tj low for 10 s requests a step back up. -/
  | thermCool (tj : List Nat)
  /-- THERM_LIMIT (R539): At 100 °C niches stop starting frames. -/
  | thermLimit (tj : List Nat)
  /-- THERM_TRIP (R539): At 110 °C THERM_TRIP# stops every clock. -/
  | thermTrip (tj : List Nat)
  /-- POWER_CAP_CHECK (R540): Average power against the cap requests a step down or up. -/
  | powerCapCheck (avg : Nat) (low : Bool)
  /-- PROFILE_CHANGE (R542): An accepted profile change moves VDD_CORE and switches dividers. -/
  | profileChange (avs : List Nat)
  /-- CAP_READ (R525): Reads a Catalogue object. -/
  | capRead (m : CapMsg)
  /-- CAP_WRITE (R525): Writes a Catalogue object with level and range checks. -/
  | capWrite (m : CapMsg)
  /-- CAP_INFO (R525): Returns an object's type, levels and size. -/
  | capInfo (m : CapMsg)
  /-- CAP_NEXT (R525): Returns the next readable object. -/
  | capNext (m : CapMsg)
  /-- CAP_TUNNEL (R525): Carries an SPDM message over UDP or Zovar. -/
  | capTunnel (m : CapMsg)
  /-- SPDM_MESSAGE (R523): The SPDM responder handles a request. -/
  | spdmMessage (m : CapMsg)
  /-- SPDM_HEARTBEAT_EXPIRY (R523): Three heartbeat periods without traffic end a session. -/
  | spdmHeartbeatExpiry (id : Nat)
  /-- CAP_COMMAND (R535): COMMAND object runs a host command for a niche. -/
  | capCommand (m : CapMsg)
  /-- PROFILE_WRITE (R541): Object 0x2020 requests a profile change. -/
  | profileWrite (m : CapMsg)
  /-- FLAW_MAP_WRITE (R534): VENDOR write adds or removes a flaw map entry. -/
  | flawMapWrite (m : CapMsg)
  /-- DEVICE_ID_WRITE (R513): Sets the device ID and enables links. -/
  | deviceIdWrite (m : CapMsg)
  /-- FW_DATA (R549): Writes an image chunk to the inactive slot. -/
  | fwData (m : CapMsg)
  /-- FW_VERIFY (R549): Checks the image signature and SVN. -/
  | fwVerify (m : CapMsg)
  /-- FW_ACTIVATE (R549): Restarts a die's Atelier into the new image. -/
  | fwActivate (m : CapMsg)
  /-- FW_COMMIT (R549): Commits the image in the active-slot record. -/
  | fwCommit (m : CapMsg)
  /-- COMMIT_T_EXPIRY (R549): No commit in time; the Atelier returns to the previous image. -/
  | commitTExpiry (die : Nat)
  /-- SVN_RAISE (R549): Blows fuses to raise SVN_MIN. -/
  | svnRaise (m : CapMsg)
  /-- DEBUG_TOKEN (R548): A debug token unlocks a scope or is refused. -/
  | debugToken (m : CapMsg)
  /-- KEY_ZEROISE (R547): A scan gate request zeroises the key store and opens the gate. -/
  | keyZeroise
  /-- GPIO_FUNC_WRITE (R583): Switches a GPIO pin's function through a hold. -/
  | gpioFuncWrite (v : W64)
  /-- THERM_LIMIT_END (R539): When Tj has been below 95 °C for 1 s after THERM_LIMIT, niches resume starting frames and START is admitted again. -/
  | thermLimitEnd (tj : List Nat)
  /-- MGMT_PHY_LINK_UP (R536): On link-up of the management Ethernet PHY, the MGMT_NET settings written earlier are applied. -/
  | mgmtPhyLinkUp
  /-- PLINTH_ECC_WRITEBACK (R268): A corrected plinth word is written back in the next free write cycle of its bank. -/
  | plinthEccWriteback (court : Nat) (word : Nat)
deriving DecidableEq, Repr

end Sys2Proof
end

