-- ==== Sys2Proof/Decode.lean ====
section
/-! DEFINITION. The command that a word spells by the bits of spec/opcode_table.json. The table gives no row any bits
(every row's "fields" is empty), so no word spells a command; a cell's instruction words are classified by
`Machine.rowOf` (spec/04_cell_instructions.md R84 to R86). -/

namespace Sys2Proof

/-- The command a word spells: none. -/
def decodeTableWord (_nbits _w : Nat) : Option Instr := none

end Sys2Proof
end

