-- ==== Sys2Proof/Config.lean ====
section
/-! DEFINITION. What an implementation fixes and the spec does not state, and the free values. Every constant here is
opaque: no proof can see a value of it. -/

namespace Sys2Proof

/-- A free value: the result of an operation whose result the spec leaves undefined, at a counter of State (log 3). -/
opaque Config.freeValue : Nat → Nat

/-- The rasp store's words: a read-only store of 512 words whose contents the spec does not list (03 R56, 16 R479) (log 23). -/
opaque Config.raspWord : Nat → BitVec 32

/-- The value of a fuse-held or implementation-defined Catalogue object the spec gives no value for, by index and
subindex (log 28). -/
opaque Config.objectValue : Nat → Nat → Nat

/-- Whether a fused multiply-add of infinity times zero plus a NaN sets INVALID: IEEE 754-2019 leaves it open (log 8). -/
opaque Config.fmaNaNInvalid : Bool

/-- An 8-bit or 16-bit vector lane shifted by its width or more, which 04 R106 does not state: minor, lane bits, lane,
amount (log 6). -/
opaque Config.laneShift : Nat → Nat → Nat → Nat → Nat

/-- Source elements 16 to 31 of a VCVT with MX = 1 from INT64, for which 04 R110 names no register: index, source (log 7). -/
opaque Config.vcvtMissing : Nat → Nat → Nat

/-- The value SYNC writes to s(R) beside HELD_LIMIT, for which nothing was sent and 08 R258 states no value (log 22). -/
opaque Config.heldLimitValue : Nat → Nat

/-- The values of the cell of an MX pair that sends none, as FP32 encodings: 05 R157 gives none for a cell whose own drain
raised PATINA_PARAM: iteration, 16 * row + column (log 118). -/
opaque Config.pairMissing : Nat → Nat → Nat

/-- LOGICAL_ID of a cell that carries no logical cell, valid only with MAPPED = 1 (03, CELL_ID): physical cell (log 24). -/
opaque Config.unmappedId : Nat → Nat

/-- The value a sync operation returns beside TYPE_MISMATCH, which 08 R257 does not state: object, operation (log 22). -/
opaque Config.mismatchValue : Nat → Nat → Nat

/-- LAUNCH_OFS of a completion without a launch cycle (0) and FACT of one whose fan-in was not counted (1), which 09 R280
does not state: field, cycle of the request (log 25). -/
opaque Config.rifOpen : Nat → Nat → Nat

/-- The fault log code of an event the spec gives none for: 0 an uncorrectable HBM error (11 R325); of bring-up
(18 R503 to R516): 1 STRAP_RSV, 2 FUSE_UE, 3 FUSE_MISMATCH, 4 IMAGE_FALLBACK, 5 NO_DEVICE_ID, 6 SUPPLY_FAULT, 7 HBM_TRAIN,
8 PLL_LOCK, 9 SEAM_ALIGN, 10 NO_IMAGE; 11 an imbalance of a slot ring (01 R22, 06 R195) (log 26). -/
opaque Config.eventCode : Nat → Nat

/-- The row of a pseudo-channel that holds a byte of it, by the byte's number: 16 R459 names the row, and no rule maps a byte to one (log 158). -/
opaque Config.hbmRow : Nat → Nat

/-- RATE_ADJ that the servo sets from an offset, before its clamp: 13 R385 names the inputs and no law: offset, RATE_ADJ (log 27). -/
opaque Config.servo : Int → Int → Int

/-- Parent hops between two devices of the pod, which no register of either holds (13 R387, R397): FROM, TO (log 27). -/
opaque Config.podHops : Nat → Nat → Nat

/-- Time, in picoseconds, that a hop after the first of a route takes with its forwarding, which no register of this device
holds (13 R397): the first device, ROUTE, the hop (log 27). -/
opaque Config.remoteHop : Nat → Nat → Nat → Nat

end Sys2Proof
end

