-- ==== Sys2Proof/Machine/FMap.lean ====
section
/-! DEFINITION. Sparse stores: a list of (key, value) pairs in one canonical form, keys strictly rising and no entry
equal to what an unlisted key reads as. Every memory, register bank and unit table of State is one. -/

namespace Sys2Proof.Machine

/-- A sparse store. An unlisted key reads as the default function says. -/
abbrev FMap (α : Type) := List (Nat × α)

/-- The value at a key. -/
def fget {α : Type} (d : Nat → α) : FMap α → Nat → α
  | [], k => d k
  | (j, v) :: m, k => if j = k then v else fget d m k

/-- The store without a key. -/
def ferase {α : Type} (m : FMap α) (k : Nat) : FMap α := m.filter (fun e => e.1 != k)

/-- A key put before the first greater one. -/
def finsert {α : Type} (k : Nat) (v : α) : FMap α → FMap α
  | [] => [(k, v)]
  | (j, w) :: m => if k < j then (k, v) :: (j, w) :: m else (j, w) :: finsert k v m

/-- Writing a key: writing what an unlisted key reads as removes the entry. -/
def fset {α : Type} [DecidableEq α] (d : Nat → α) (m : FMap α) (k : Nat) (v : α) : FMap α :=
  if v = d k then ferase m k else finsert k v (ferase m k)

/-- Changing the value at a key. -/
def fmod {α : Type} [DecidableEq α] (d : Nat → α) (m : FMap α) (k : Nat) (f : α → α) : FMap α :=
  fset d m k (f (fget d m k))

/-- Changing the values at several keys, in order. -/
def fmodAll {α : Type} [DecidableEq α] (d : Nat → α) (m : FMap α) (ks : List Nat) (f : Nat → α → α) : FMap α :=
  ks.foldl (fun m k => fmod d m k (f k)) m

/-- Dropping every key that satisfies a test: those keys read as the default again. -/
def fdrop {α : Type} (p : Nat → Bool) (m : FMap α) : FMap α := m.filter (fun e => !p e.1)

/-- The canonical form. -/
abbrev fwf {α : Type} [DecidableEq α] (d : Nat → α) (m : FMap α) : Prop :=
  m.Pairwise (fun a b => a.1 < b.1) ∧ ∀ e ∈ m, e.2 ≠ d e.1

/-- Byte memory: `Host.Cell` pairs. A byte nothing has written reads as 0 (log 1, DESIGN CHOICE). -/
abbrev Memory := List (Nat × BitVec 8)

/-- What an unlisted byte of memory reads as (log 1, DESIGN CHOICE). -/
def byteDefault : Nat → BitVec 8 := fun _ => 0

/-- One byte of memory. -/
def memByte (m : Memory) (a : Nat) : BitVec 8 := fget byteDefault m a

/-- Write one byte. -/
def memSetByte (m : Memory) (a : Nat) (b : BitVec 8) : Memory := fset byteDefault m a b

/-- `n` bytes from address `a`, little-endian, as a number (R10, R24). -/
def memRead (m : Memory) (a : Nat) : Nat → Nat
  | 0 => 0
  | n + 1 => (memByte m a).toNat + 256 * memRead m (a + 1) n

/-- Write `n` bytes of a number at address `a`, little-endian. -/
def memWrite (m : Memory) (a : Nat) : Nat → Nat → Memory
  | 0, _ => m
  | n + 1, v => memWrite (memSetByte m a (BitVec.ofNat 8 v)) (a + 1) n (v / 256)

/-- Bytes of memory as a list. -/
def memBytes (m : Memory) (a n : Nat) : List (BitVec 8) := (List.range n).map (fun i => memByte m (a + i))

/-- Write a list of bytes. -/
def memPut (m : Memory) (a : Nat) : List (BitVec 8) → Memory
  | [] => m
  | b :: bs => memPut (memSetByte m a b) (a + 1) bs

/-- Zero the bytes from `a` to `a + n - 1`. -/
def memZero (m : Memory) (a n : Nat) : Memory := fdrop (fun k => decide (a ≤ k ∧ k < a + n)) m

/-- The memory is in canonical form. -/
abbrev Memory.wf (m : Memory) : Prop := fwf byteDefault m

/-- Default of a poison or mark map. -/
def noMark : Nat → Bool := fun _ => false

/-- Set or clear the marks of keys `a` to `a + n - 1`. -/
def markRange (m : FMap Bool) (a : Nat) (v : Bool) : Nat → FMap Bool
  | 0 => m
  | n + 1 => markRange (fset noMark m a v) (a + 1) v n

/-- A mark anywhere in `a` to `a + n - 1`. -/
def markAny (m : FMap Bool) (a n : Nat) : Bool := (List.range n).any (fun i => fget noMark m (a + i))

end Sys2Proof.Machine
end

