-- ==== Sys2Proof/Machine/Numeric.lean ====
section
/-! DEFINITION. Number formats, exact values, the single rounding, block sums and the LX128 accumulator
(spec/02_number_formats.md R23 to R55). -/

namespace Sys2Proof.Machine
open Sys2Proof

/-- An exact value of a number: a NaN, an infinity, or `(-1)^neg * s * 2^q` (R26, R28). -/
inductive Val where
  | nan
  | inf (neg : Bool)
  | fin (neg : Bool) (s : Nat) (q : Int)
deriving DecidableEq, Repr

/-- Whether a value is a NaN. -/
def Val.isNaN : Val → Bool
  | .nan => true
  | _ => false

/-- Storage bits of a format code (R23). -/
def fmtBits : Nat → Nat
  | 0 => 4 | 1 => 8 | 2 => 8 | 3 => 16 | 4 => 32 | 5 => 64 | 6 => 4 | 7 => 6 | 8 => 6 | 9 => 8 | 10 => 8
  | 11 => 16 | 12 => 16 | 13 => 32 | 14 => 64 | _ => 128

/-- Codes 0x0 to 0x5 are integers (R23). -/
def fmtIsInt (c : Nat) : Bool := decide (c ≤ 5)
/-- Codes 0x6 to 0xE are floating point (R23). -/
def fmtIsFlt (c : Nat) : Bool := decide (6 ≤ c ∧ c ≤ 14)

/-- Exponent width of a floating-point format (R27). -/
def fmtE : Nat → Nat
  | 6 => 2 | 7 => 2 | 8 => 3 | 9 => 4 | 10 => 5 | 11 => 5 | 12 => 8 | 13 => 8 | _ => 11
/-- Mantissa width (R27). -/
def fmtM : Nat → Nat
  | 6 => 1 | 7 => 3 | 8 => 2 | 9 => 3 | 10 => 2 | 11 => 10 | 12 => 7 | 13 => 23 | _ => 52
/-- Bias (R27). -/
def fmtBias : Nat → Nat
  | 6 => 1 | 7 => 1 | 8 => 3 | 9 => 7 | 10 => 15 | 11 => 15 | 12 => 127 | 13 => 127 | _ => 1023
/-- Smallest grid exponent of a floating-point format (R27). -/
def fmtQmin (c : Nat) : Int := 1 - (fmtBias c : Int) - (fmtM c : Int)

/-- Formats whose top exponent holds infinities and NaNs (R28). -/
def fmtIeee (c : Nat) : Bool := decide (10 ≤ c ∧ c ≤ 14)

/-- Encoding of the largest finite value, sign 0 (R27). -/
def fmtMaxEnc (c : Nat) : Nat :=
  if fmtIeee c then (2 ^ fmtE c - 1) * 2 ^ fmtM c - 1
  else if c = 9 then 0x7E
  else 2 ^ (fmtE c + fmtM c) - 1

/-- The canonical NaN of a format that has one (R29). -/
def canonNaN (c : Nat) : Nat :=
  if c = 9 then 0x7F else (2 ^ fmtE c - 1) * 2 ^ fmtM c + 2 ^ (fmtM c - 1)

/-- A stored element as an exact value (R25, R26, R28). -/
def unpack (c x0 : Nat) : Val :=
  let x := x0 % 2 ^ fmtBits c
  if c = 2 then .fin false x 0
  else if fmtIsInt c || c == 15 then
    let z := signed (fmtBits c) x
    .fin (decide (z < 0)) z.natAbs 0
  else
    let m := fmtM c
    let neg := bit x (fmtBits c - 1)
    let e := bits x (fmtBits c - 2) m
    let f := x % 2 ^ m
    if c == 9 && e == 15 && f == 7 then .nan
    else if fmtIeee c && e == 2 ^ fmtE c - 1 then (if f = 0 then .inf neg else .nan)
    else if e = 0 then .fin neg f (fmtQmin c)
    else .fin neg (2 ^ m + f) ((e : Int) - fmtBias c - m)

/-- An MXINT8 element is its integer times 2^-6 (R25). -/
def unpackMx (c : Nat) (mx : Bool) (x : Nat) : Val :=
  match unpack c x with
  | .fin n s q => .fin n s (if mx && c == 1 then q - 6 else q)
  | v => v

/-- Shift right by `sh`, rounding to nearest, ties to even; the flag says that bits were lost (R32). -/
def rneShr (s sh : Nat) : Nat × Bool :=
  let q := s >>> sh
  let r := s % 2 ^ sh
  let up := decide (2 * r > 2 ^ sh) || (decide (2 * r = 2 ^ sh) && q % 2 == 1)
  (if up then q + 1 else q, r != 0)

/-- `z * 2^k` rounded to the nearest integer, ties to even. -/
def rneInt (z : Int) (k : Int) : Int × Bool :=
  if 0 ≤ k then (z * (2 ^ k.toNat : Nat), false)
  else
    let (m, i) := rneShr z.natAbs (-k).toNat
    (if z < 0 then -(m : Int) else (m : Int), i)

/-- A finite value rounded once to a floating-point format with unbounded exponent range. -/
structure Rnd where
  enc : Nat      -- encoding without the sign; above the largest finite encoding means overflow
  inexact : Bool
  tiny : Bool    -- the rounded magnitude is below the smallest normal
deriving DecidableEq, Repr

/-- Rounding of `s * 2^q` to the target's precision, its subnormal range included (R32). -/
def roundFlt (c s : Nat) (q : Int) : Rnd :=
  if s = 0 then ⟨0, false, false⟩
  else
    let m := fmtM c
    let grid : Int := max ((Nat.log2 s : Int) + q - m) (fmtQmin c)
    let r := if grid ≤ q then (s <<< (q - grid).toNat, false) else rneShr s (grid - q).toNat
    let big := decide (r.1 = 2 ^ (m + 1))
    let sig := if big then 2 ^ m else r.1
    let grid := if big then grid + 1 else grid
    let enc := if sig < 2 ^ m then sig else (grid - fmtQmin c + 1).toNat * 2 ^ m + (sig - 2 ^ m)
    -- tininess after rounding: the value rounded with an unbounded exponent lies below the smallest normal
    let len : Int := Nat.log2 s
    let u := if len + q - m ≤ q then s else (rneShr s (Nat.log2 s - m)).1
    let len := if len + q - m ≤ q then len else len + (if u = 2 ^ (m + 1) then 1 else 0)
    ⟨enc, r.2, decide (len + q < 1 - (fmtBias c : Int))⟩

/-- Result of a conversion with its flags (R33, R51). -/
structure Conv where
  out : Nat
  range : Bool := false
  invalid : Bool := false
  inexact : Bool := false
  tiny : Bool := false
deriving DecidableEq, Repr

/-- The sign bit of a floating-point format put before an encoding. -/
def withSign (c : Nat) (neg : Bool) (enc : Nat) : Nat := enc + b2n neg * 2 ^ (fmtBits c - 1)

/-- Infinity of a format that has it. -/
def infEnc (c : Nat) : Nat := (2 ^ fmtE c - 1) * 2 ^ fmtM c

/-- Range limits of an integer format (R25). -/
def intMin (c : Nat) : Int := if c = 2 then 0 else -((2 ^ (fmtBits c - 1) : Nat) : Int)
/-- Upper limit. -/
def intMax (c : Nat) : Int := if c = 2 then 255 else ((2 ^ (fmtBits c - 1) : Nat) : Int) - 1

/-- An integer saturated to a format's range. -/
def satInt (c : Nat) (z : Int) : Conv :=
  if z < intMin c then { out := wrap (fmtBits c) (intMin c), range := true }
  else if intMax c < z then { out := wrap (fmtBits c) (intMax c), range := true }
  else { out := wrap (fmtBits c) z }

/-- The signed significand of a finite value. -/
def sgn (neg : Bool) (s : Nat) : Int := if neg then -(s : Int) else (s : Int)

/-- Conversion of an exact value to a target format: R32 to R35. `o` is the output exponent, applied to an integer
target, or to an integer source of a floating-point target. -/
def convert (dst : Nat) (srcInt sat : Bool) (o : Int) (v : Val) : Conv :=
  if fmtIsInt dst then
    match v with
    | .nan => { out := 0, invalid := true }
    | .inf neg => { out := wrap (fmtBits dst) (if neg then intMin dst else intMax dst), range := true }
    | .fin neg s q =>
      let r := rneInt (sgn neg s) (q - o)
      { satInt dst r.1 with inexact := r.2 }
  else
    match v with
    | .nan => if dst ≤ 8 then { out := 0, invalid := true } else { out := canonNaN dst }
    | .inf neg =>
      if fmtIeee dst then { out := withSign dst neg (infEnc dst) }
      else if dst = 9 && !sat then { out := canonNaN 9, range := true }
      else { out := withSign dst neg (fmtMaxEnc dst), range := true }
    | .fin neg s q =>
      let r := roundFlt dst s (if srcInt then q + o else q)
      if r.enc ≤ fmtMaxEnc dst then
        { out := withSign dst neg r.enc, inexact := r.inexact, tiny := r.tiny }
      else if sat || decide (dst ≤ 8) then { out := withSign dst neg (fmtMaxEnc dst), range := true, inexact := true }
      else if dst = 9 then { out := canonNaN 9, range := true, inexact := true }
      else { out := withSign dst neg (infEnc dst), range := true, inexact := true }

/-! ### IEEE operations on exact values (R31) -/

/-- Negation. -/
def Val.neg : Val → Val
  | .nan => .nan
  | .inf n => .inf (!n)
  | .fin n s q => .fin (!n) s q

/-- Sum, and whether the operation is invalid (infinities of opposite sign). -/
def vAdd (a b : Val) : Val × Bool :=
  match a, b with
  | .nan, _ => (.nan, false)
  | _, .nan => (.nan, false)
  | .inf x, .inf y => if x = y then (.inf x, false) else (.nan, true)
  | .inf x, _ => (.inf x, false)
  | _, .inf y => (.inf y, false)
  | .fin n s q, .fin n' s' q' =>
    let g := min q q'
    let z := sgn n s * (2 ^ (q - g).toNat : Nat) + sgn n' s' * (2 ^ (q' - g).toNat : Nat)
    if z = 0 then (.fin (n && n') 0 0, false) else (.fin (decide (z < 0)) z.natAbs g, false)

/-- Product, and whether the operation is invalid (infinity times zero). -/
def vMul (a b : Val) : Val × Bool :=
  match a, b with
  | .nan, _ => (.nan, false)
  | _, .nan => (.nan, false)
  | .inf x, .inf y => (.inf (x != y), false)
  | .inf x, .fin n s _ => if s = 0 then (.nan, true) else (.inf (x != n), false)
  | .fin n s _, .inf x => if s = 0 then (.nan, true) else (.inf (x != n), false)
  | .fin n s q, .fin n' s' q' => (.fin (n != n') (s * s') (q + q'), false)

/-- Fused multiply-add. Infinity times zero plus a NaN: IEEE 754-2019 leaves the invalid flag to the implementation
(log 8). -/
def vFma (a b c : Val) : Val × Bool :=
  let p := vMul a b
  let r := vAdd p.1 c
  (r.1, (p.2 && (!c.isNaN || Config.fmaNaNInvalid)) || r.2)

/-- Quotient with 70 extra bits and a sticky bit, so that one rounding of it is right; flags invalid and divzero. -/
def vDiv (a b : Val) : Val × Bool × Bool :=
  match a, b with
  | .nan, _ => (.nan, false, false)
  | _, .nan => (.nan, false, false)
  | .inf _, .inf _ => (.nan, true, false)
  | .inf x, .fin n _ _ => (.inf (x != n), false, false)
  | .fin n _ _, .inf y => (.fin (n != y) 0 0, false, false)
  | .fin n s q, .fin n' s' q' =>
    if s' = 0 then (if s = 0 then (.nan, true, false) else (.inf (n != n'), false, true))
    else
      let k := 70 + Nat.log2 s'
      let d := s <<< k
      (.fin (n != n') (2 * (d / s') + b2n (d % s' != 0)) (q - q' - k - 1), false, false)

/-- Integer square root by bisection on `n` bits, from the top. -/
def isqrtGo (x : Nat) : Nat → Nat → Nat
  | 0, r => r
  | n + 1, r => isqrtGo x n (let t := r + 2 ^ n; if t * t ≤ x then t else r)

/-- Integer square root. -/
def isqrt (x : Nat) : Nat := isqrtGo x (Nat.log2 x / 2 + 1) 0

/-- Square root with extra bits and a sticky bit; the flag is invalid (negative operand). -/
def vSqrt : Val → Val × Bool
  | .nan => (.nan, false)
  | .inf n => if n then (.nan, true) else (.inf false, false)
  | .fin n s q =>
    if s = 0 then (.fin n 0 0, false)
    else if n then (.nan, true)
    else
      let k := 140 + (if q % 2 = 0 then 0 else 1)
      let x := s <<< k
      let r := isqrt x
      (.fin false (2 * r + b2n (r * r != x)) ((q - k) / 2 - 1), false)

/-- Order of two values: none if either is a NaN. -/
def vCmp (a b : Val) : Option Ordering :=
  match a, b with
  | .nan, _ => none
  | _, .nan => none
  | .inf x, .inf y => some (if x = y then .eq else if x then .lt else .gt)
  | .inf x, .fin _ _ _ => some (if x then .lt else .gt)
  | .fin _ _ _, .inf y => some (if y then .gt else .lt)
  | .fin n s q, .fin n' s' q' =>
    let g := min q q'
    let x := sgn n s * (2 ^ (q - g).toNat : Nat)
    let y := sgn n' s' * (2 ^ (q' - g).toNat : Nat)
    some (if x < y then .lt else if x = y then .eq else .gt)

/-! ### The LX128 accumulator (R47 to R54) -/

/-- The special state (R47). -/
inductive Special where
  | finite | posInf | negInf | nan
deriving DecidableEq, Repr

/-- One LX128 accumulator: N with its 24 guard bits as one 152-bit integer, special state, sticky flags, poison. -/
structure Acc where
  n : BitVec 152
  special : Special
  inexact : Bool
  wovf : Bool
  invalid : Bool
  poison : Bool
deriving DecidableEq, Repr

/-- A started accumulation: N, special state and flags clear (R47). -/
def Acc.clear : Acc := ⟨0, .finite, false, false, false, false⟩

/-- Whether an integer lies in the 128-bit range. -/
def in128 (z : Int) : Bool := decide (-(2 ^ 127 : Int) ≤ z ∧ z < (2 ^ 127 : Int))
/-- Whether an integer lies in the 152-bit range. -/
def in152 (z : Int) : Bool := decide (-(2 ^ 151 : Int) ≤ z ∧ z < (2 ^ 151 : Int))

/-- Merge of a contribution `S * 2^g` at window `w` (R48). -/
def Acc.merge (a : Acc) (w : Int) (S g : Int) : Acc :=
  let r := rneInt S (g - w)
  let z := a.n.toInt + r.1
  { a with
    n := BitVec.ofInt 152 z
    inexact := a.inexact || r.2
    wovf := a.wovf || (decide (w ≤ g) && !in128 r.1) || !in152 z }

/-- A NaN in the accumulation (R50). -/
def Acc.addNaN (a : Acc) : Acc := { a with special := .nan, invalid := true }

/-- An infinite product (R50). -/
def Acc.addInf (a : Acc) (neg : Bool) : Acc :=
  match a.special with
  | .finite => { a with special := if neg then .negInf else .posInf }
  | .posInf => if neg then a.addNaN else a
  | .negInf => if neg then a else a.addNaN
  | .nan => a

/-- The 128-bit value and the WINDOW_OVERFLOW flag with which an accumulator leaves (R48). -/
def Acc.leave (a : Acc) : Int × Bool :=
  let z := a.n.toInt
  let o := a.wovf || !in128 z
  if o then (if z < 0 then -(2 ^ 127 : Int) else (2 ^ 127 : Int) - 1, true) else (z, false)

/-- The value that leaves, at window `w` (R53). -/
def Acc.value (a : Acc) (w : Int) : Val :=
  match a.special with
  | .nan => .nan
  | .posInf => .inf false
  | .negInf => .inf true
  | .finite => let z := a.leave.1; .fin (decide (z < 0)) z.natAbs w

/-- Special states of two parts combined (R54). -/
def Special.join (a b : Special) : Special × Bool :=
  match a, b with
  | .nan, _ => (.nan, false)
  | _, .nan => (.nan, false)
  | .finite, x => (x, false)
  | x, .finite => (x, false)
  | .posInf, .posInf => (.posInf, false)
  | .negInf, .negInf => (.negInf, false)
  | _, _ => (.nan, true)

/-- Sum of two partial values at windows `w` and `w'`, at the smaller window (R54). -/
def lxCombine (a : Int) (w : Int) (b : Int) (w' : Int) : Int × Int × Bool :=
  let g := min w w'
  let x := a * (2 ^ (w - g).toNat : Nat)
  let y := b * (2 ^ (w' - g).toNat : Nat)
  (x + y, g, !in128 x || !in128 y)

/-! ### Block sums (R41 to R46) -/

/-- Format pairs a MAC operation accepts (R39). -/
def macPairOk (a b : Nat) : Bool :=
  let sub8 := fun c => c == 6 || c == 7 || c == 8
  (sub8 a && sub8 b)
  || ((a == 9 || a == 10) && (b == 9 || b == 10))
  || ((a == 1 || a == 2) && (b == 1 || b == 2))
  || (a == b && (a == 0 || a == 3 || a == 11 || a == 12 || a == 13))

/-- The MX flag is valid with codes 0x1 and 0x6 to 0xA (R37). -/
def mxOk (c : Nat) (mx : Bool) : Bool := !mx || c == 1 || decide (6 ≤ c ∧ c ≤ 10)

/-- Anchored formats FP16, BF16, FP32 (R45). -/
def anchored (c : Nat) : Bool := c == 11 || c == 12 || c == 13

/-- qmin of an operand (R43). -/
def opQmin (c : Nat) (mx : Bool) : Int :=
  if fmtIsInt c then (if mx && c == 1 then -6 else 0) else fmtQmin c

/-- One product of a block: a finite signed significand with its grid exponent and the sum of the unbiased exponents,
or a special event. -/
inductive Prod where
  | fin (z : Int) (q : Int) (p : Int)
  | nan
  | inf (neg : Bool)
deriving DecidableEq, Repr

/-- The exact product (R40), with `P = eA + eB` of R45 (a subnormal's e is 1 - bias, which is its grid exponent plus
the mantissa width, as for a normal). -/
def prodOf (ca cb : Nat) (a b : Val) : Prod :=
  match vMul a b with
  | (.nan, _) => .nan
  | (.inf n, _) => .inf n
  | (.fin n s q, _) => .fin (sgn n s) q (q + fmtM ca + fmtM cb)

/-- A block's contributions to the accumulator, in order. -/
structure Block where
  parts : List (Int × Int)    -- (S, g)
  inexact : Bool
  prods : List Prod
deriving DecidableEq, Repr

/-- Largest P of the nonzero finite products (R45). -/
def pMax : List Prod → Option Int
  | [] => none
  | .fin z _ p :: t =>
    if z = 0 then pMax t
    else match pMax t with
      | none => some p
      | some m => some (max p m)
  | _ :: t => pMax t

/-- Exact sum of products on the grid `g`, those that satisfy a test. -/
def gridSum (g : Int) (keep : Int → Bool) : List Prod → Int
  | [] => 0
  | .fin z q _ :: t => (if keep q then (rneInt z (q - g)).1 else 0) + gridSum g keep t
  | _ :: t => gridSum g keep t

/-- Whether a product has nonzero bits below the grid (R45). -/
def gridInexact (g : Int) : List Prod → Bool
  | [] => false
  | .fin z q _ :: t => (rneInt z (q - g)).2 || gridInexact g t
  | _ :: t => gridInexact g t

/-- The block sum of up to 32 element pairs (R41 to R45), with MX scale exponents `xa`, `xb`. -/
def blockSum (ca cb : Nat) (mxa mxb : Bool) (xa xb : Int) (es : List (Val × Val)) : Block :=
  let ps := es.map (fun e => prodOf ca cb e.1 e.2)
  if anchored ca then
    match pMax ps with
    | none => ⟨[(0, 0)], false, ps⟩
    | some m => let g := m - 48; ⟨[(gridSum g (fun _ => true) ps, g)], gridInexact g ps, ps⟩
  else if ca == 10 && cb == 10 then
    ⟨[(gridSum 0 (fun q => decide (0 ≤ q)) ps, xa + xb),
      (gridSum (-32) (fun q => decide (q < 0)) ps, -32 + xa + xb)], false, ps⟩
  else
    let g := opQmin ca mxa + opQmin cb mxb
    ⟨[(gridSum g (fun _ => true) ps, g + xa + xb)], false, ps⟩

/-- Special events of a block's products (R50). -/
def Acc.specials (a : Acc) : List Prod → Acc
  | [] => a
  | .nan :: t => (a.addNaN).specials t
  | .inf n :: t => (a.addInf n).specials t
  | .fin _ _ _ :: t => a.specials t

/-- A block delivered to an accumulator. -/
def Acc.addBlock (a : Acc) (w : Int) (b : Block) : Acc :=
  let a := { a with inexact := a.inexact || b.inexact }
  (b.parts.foldl (fun a p => if p.1 = 0 then a else a.merge w p.1 p.2) a).specials b.prods

/-! ### MX block scaling (R36 to R38) -/

/-- emax of an MX target (R38). -/
def mxEmax : Nat → Int
  | 6 => 2 | 7 => 2 | 8 => 4 | 9 => 8 | 10 => 15 | _ => 0

/-- floor(log2) of a finite magnitude. -/
def magLog (s : Nat) (q : Int) : Int := (Nat.log2 s : Int) + q

/-- The largest floor(log2) of the finite nonzero values. -/
def mxMaxLog : List Val → Option Int
  | [] => none
  | .fin _ s q :: t =>
    if s = 0 then mxMaxLog t
    else match mxMaxLog t with
      | none => some (magLog s q)
      | some m => some (max m (magLog s q))
  | _ :: t => mxMaxLog t

/-- A value divided by 2^x. -/
def vScale (v : Val) (x : Int) : Val :=
  match v with
  | .fin n s q => .fin n s (q - x)
  | v => v

/-- An element of MX target `c` converted with SAT = 1; an MXINT8 element is an integer of weight 2^-6. An infinity becomes
the largest finite element of its sign and sets CVT_RANGE, also where the target has infinities (R38). -/
def mxElem (c : Nat) (v : Val) : Conv :=
  match v with
  | .inf n => if c = 1 then convert 1 false true (-6) v else { out := withSign c n (fmtMaxEnc c), range := true }
  | _ => if c = 1 then convert 1 false true (-6) v else convert c false true 0 v

/-- MX quantisation of a block: the scale byte and the elements (R38). A NaN in the block makes the scale 0xFF; its element
bits and flags, which R38 does not give for such a block, are those that the block's finite values give them (log 116). -/
def mxBlock (c : Nat) (vs : List Val) : Nat × List Conv :=
  let x := match mxMaxLog vs with | none => -127 | some l => max (-127) (min 127 (l - mxEmax c))
  let es := vs.map (fun v =>
    match v, mxMaxLog vs with
    | .fin _ _ _, none => { out := 0 }
    | v, _ => mxElem c (vScale v x))
  (if vs.any Val.isNaN then 0xFF else (x + 127).toNat, es)

/-- Scale exponent of an E8M0 byte; none for the NaN byte (R36). -/
def e8m0 (b : Nat) : Option Int := if b % 256 = 255 then none else some ((b % 256 : Nat) - 127)

/-! ### Packed elements (R24) -/

/-- Element `i` of a packed sequence of elements of a format, from a byte function. -/
def packedElem (c : Nat) (byteAt : Nat → Nat) (i : Nat) : Nat :=
  let w := fmtBits c
  if w = 4 then bits (byteAt (i / 2)) (4 * (i % 2) + 3) (4 * (i % 2))
  else if w = 6 then
    let g := 3 * (i / 4)
    let x := byteAt g + 256 * byteAt (g + 1) + 65536 * byteAt (g + 2)
    bits x (6 * (i % 4) + 5) (6 * (i % 4))
  else (List.range (w / 8)).foldr (fun j acc => byteAt (i * (w / 8) + j) + 256 * acc) 0

end Sys2Proof.Machine
end

