-- ==== Sys2Proof/Machine/RegTable.lean ====
section
/-! DEFINITION. The register tables of the spec: every device register with its place in its window, its reset domain,
its owner, and its fields with their access codes and reset values (spec/00_scope.md R10, R11, R15, R588; the register
sections of the chapters). A bank of registers is held field by field: the key of a field is its register's offset
times 64 plus its lowest bit. -/

namespace Sys2Proof.Machine

/-- A field of a register: the register's offset in its window, the field's lowest bit and its width. -/
structure Fld where
  off : Nat
  lsb : Nat
  width : Nat
deriving DecidableEq, Repr

/-- The key of a field in a register bank. -/
def Fld.key (f : Fld) : Nat := f.off * 64 + f.lsb

/-- The same field `d` bytes further on: in the next register of an array. -/
def Fld.up (f : Fld) (d : Nat) : Fld := { f with off := f.off + d }

/-- Access codes (R11). -/
inductive Acc11 where
  | ro | rw | rw1c | rw1s | wo | rc
deriving DecidableEq, Repr

/-- Reset domains, narrowest first (R15). -/
inductive Dom where
  | context | cell | niche | die | package | powerOn
deriving DecidableEq, Repr

/-- The rank of a domain in R15's order. -/
def Dom.rank : Dom → Nat
  | .context => 0 | .cell => 1 | .niche => 2 | .die => 3 | .package => 4 | .powerOn => 5

/-- Register owners (R588). -/
inductive Owner where
  | host | atelier | cell | hw
deriving DecidableEq, Repr

/-- A field in a register's field table. -/
structure FDef where
  name : String
  lsb : Nat
  width : Nat
  acc : Acc11
  rst : Nat
deriving DecidableEq, Repr

/-- A register, or an array of `count` registers `stride` bytes apart. -/
structure RegDef where
  name : String
  base : Nat
  stride : Nat
  count : Nat
  dom : Dom
  owner : Owner
  fields : List FDef
deriving DecidableEq, Repr

/-- Whether an offset is one of the registers of a definition. -/
def RegDef.at (r : RegDef) (off : Nat) : Bool :=
  decide (r.base ≤ off) && (off - r.base) % r.stride == 0 && decide ((off - r.base) / r.stride < r.count)

/-- The reset value of the field with a key, 0 where no field starts. -/
def regReset (tbl : List RegDef) (key : Nat) : Nat :=
  match tbl.find? (fun r => r.at (key / 64) && r.fields.any (fun f => f.lsb == key % 64)) with
  | none => 0
  | some r => match r.fields.find? (fun f => f.lsb == key % 64) with
    | none => 0
    | some f => f.rst

/-- The reset domain of the register at an offset, power-on where there is none. -/
def regDom (tbl : List RegDef) (key : Nat) : Dom :=
  match tbl.find? (fun r => r.at (key / 64) && r.fields.any (fun f => f.lsb == key % 64)) with
  | none => .powerOn
  | some r => r.dom

/-- A bank of registers: field keys to values. -/
abbrev Regs := FMap Nat

/-- The value of a field. -/
def rget (d : Nat → Nat) (m : Regs) (f : Fld) : Nat := fget d m f.key

/-- Set a field; a value wider than the field loses its high bits. -/
def rset (d : Nat → Nat) (m : Regs) (f : Fld) (v : Nat) : Regs := fset d m f.key (v % 2 ^ f.width)

/-- A whole register as a word: its readable fields put together; WO and RSV bits read 0 (R11). -/
def regWord (d : Nat → Nat) (tbl : List RegDef) (m : Regs) (off : Nat) : Nat :=
  (tbl.filter (fun r => r.at off)).foldl (fun acc r => r.fields.foldl (fun acc f =>
    acc + (if f.acc = .wo then 0 else rget d m ⟨off, f.lsb, f.width⟩) * 2 ^ f.lsb) acc) 0

/-- The effect of an access code on a field's value (R11): `ov` marks the field's bits inside the written half, `x`
holds the written bits. -/
def accWrite (a : Acc11) (old ov x : Nat) : Nat :=
  match a with
  | .rw => (old - (old &&& ov)) ||| x
  | .rw1c => old - (old &&& x)
  | .rw1s => old ||| x
  | _ => old

/-- A write of bits [hi:lo] of a register under the access codes (R10, R11). `keep` says which fields the value's
encoding table makes keep their value (R14). -/
def regWrite (d : Nat → Nat) (tbl : List RegDef) (keep : Fld → Nat → Bool) (m : Regs) (off lo hi v : Nat) : Regs :=
  (tbl.filter (fun r => r.at off)).foldl (fun m r => r.fields.foldl (fun m f =>
    let fl : Fld := ⟨off, f.lsb, f.width⟩
    let ov := ((2 ^ (hi + 1) - 2 ^ lo) >>> f.lsb) % 2 ^ f.width
    let x := accWrite f.acc (rget d m fl) ov ((v >>> f.lsb) &&& ov)
    if f.acc = .rw ∧ keep fl x = true then m else rset d m fl x) m) m

/-- Drop the fields whose domain a reset of rank `k` restores: they read as their reset values again (R15). -/
def regsReset (tbl : List RegDef) (k : Nat) (m : Regs) : Regs :=
  fdrop (fun key => decide ((regDom tbl key).rank ≤ k)) m

/-! ### Field names -/

/-- 03_cell_core.md, R77. -/
def CELL_ID_DIE : Fld := ⟨0x0, 62, 2⟩
/-- 03_cell_core.md, R77. -/
def CELL_ID_COURT_COL : Fld := ⟨0x0, 59, 3⟩
/-- 03_cell_core.md, R77. -/
def CELL_ID_COURT_ROW : Fld := ⟨0x0, 56, 3⟩
/-- 03_cell_core.md, R77. -/
def CELL_ID_COL : Fld := ⟨0x0, 52, 4⟩
/-- 03_cell_core.md, R77. -/
def CELL_ID_ROW : Fld := ⟨0x0, 49, 3⟩
/-- 03_cell_core.md, R77. -/
def CELL_ID_MAPPED : Fld := ⟨0x0, 48, 1⟩
/-- 03_cell_core.md, R77. -/
def CELL_ID_FENCED : Fld := ⟨0x0, 47, 1⟩
/-- 03_cell_core.md, R77. -/
def CELL_ID_FUSED : Fld := ⟨0x0, 46, 1⟩
/-- 03_cell_core.md, R77. -/
def CELL_ID_LOGICAL_ID : Fld := ⟨0x0, 0, 14⟩
/-- 03_cell_core.md, R77. -/
def CELL_CTRL_FREEZE : Fld := ⟨0x8, 9, 1⟩
/-- 03_cell_core.md, R77. -/
def CELL_CTRL_ISOLATE : Fld := ⟨0x8, 8, 1⟩
/-- 03_cell_core.md, R77. -/
def CELL_CTRL_CTX3_ROLE : Fld := ⟨0x8, 4, 2⟩
/-- 03_cell_core.md, R77. -/
def CELL_CTRL_CTX_ENABLE : Fld := ⟨0x8, 0, 4⟩
/-- 03_cell_core.md, R77. -/
def CELL_STATUS_CTX3_STATE : Fld := ⟨0x10, 21, 3⟩
/-- 03_cell_core.md, R77. -/
def CELL_STATUS_CTX2_STATE : Fld := ⟨0x10, 18, 3⟩
/-- 03_cell_core.md, R77. -/
def CELL_STATUS_CTX1_STATE : Fld := ⟨0x10, 15, 3⟩
/-- 03_cell_core.md, R77. -/
def CELL_STATUS_CTX0_STATE : Fld := ⟨0x10, 12, 3⟩
/-- 03_cell_core.md, R77. -/
def CELL_STATUS_RUNNING_CTX : Fld := ⟨0x10, 10, 2⟩
/-- 03_cell_core.md, R77. -/
def CELL_STATUS_RUN_VALID : Fld := ⟨0x10, 9, 1⟩
/-- 03_cell_core.md, R77. -/
def CELL_STATUS_SCAN_BUSY : Fld := ⟨0x10, 8, 1⟩
/-- 03_cell_core.md, R77. -/
def CELL_STATUS_MAC_BUSY : Fld := ⟨0x10, 7, 1⟩
/-- 03_cell_core.md, R77. -/
def CELL_STATUS_FROZEN : Fld := ⟨0x10, 6, 1⟩
/-- 03_cell_core.md, R77. -/
def CELL_FAULT_MORE : Fld := ⟨0x18, 20, 1⟩
/-- 03_cell_core.md, R77. -/
def CELL_FAULT_CTX_FAULTED : Fld := ⟨0x18, 16, 4⟩
/-- 03_cell_core.md, R77. -/
def CELL_FAULT_ISO_DROP : Fld := ⟨0x18, 8, 1⟩
/-- 03_cell_core.md, R77. -/
def CELL_FAULT_SCAN_ERR : Fld := ⟨0x18, 7, 1⟩
/-- 03_cell_core.md, R77. -/
def CELL_FAULT_REC_CODE : Fld := ⟨0x20, 56, 8⟩
/-- 03_cell_core.md, R77. -/
def CELL_FAULT_REC_CTX : Fld := ⟨0x20, 54, 2⟩
/-- 03_cell_core.md, R77. -/
def CELL_FAULT_REC_VALID : Fld := ⟨0x20, 53, 1⟩
/-- 03_cell_core.md, R77. -/
def CELL_FAULT_REC_PC : Fld := ⟨0x20, 43, 10⟩
/-- 03_cell_core.md, R77. -/
def CELL_FAULT_REC_DETAIL : Fld := ⟨0x20, 32, 11⟩
/-- 03_cell_core.md, R77. -/
def CELL_FAULT_REC_TICK : Fld := ⟨0x20, 0, 32⟩
/-- 03_cell_core.md, R77. -/
def CELL_SCAN_CTRL_SECTIONS : Fld := ⟨0x28, 16, 12⟩
/-- 03_cell_core.md, R77. -/
def CELL_SCAN_CTRL_DEST : Fld := ⟨0x28, 2, 2⟩
/-- 03_cell_core.md, R77. -/
def CELL_SCAN_CTRL_DIR : Fld := ⟨0x28, 1, 1⟩
/-- 03_cell_core.md, R77. -/
def CELL_SCAN_CTRL_GO : Fld := ⟨0x28, 0, 1⟩
/-- 03_cell_core.md, R77. -/
def CELL_SCAN_BASE_ADDR : Fld := ⟨0x30, 6, 32⟩
/-- 03_cell_core.md, R77. -/
def CELL_SCAN_STATUS_LATE_ARRIVALS : Fld := ⟨0x38, 48, 16⟩
/-- 03_cell_core.md, R77. -/
def CELL_SCAN_STATUS_LINES_DONE : Fld := ⟨0x38, 32, 16⟩
/-- 03_cell_core.md, R77. -/
def CELL_SCAN_STATUS_REFUSED : Fld := ⟨0x38, 3, 1⟩
/-- 03_cell_core.md, R77. -/
def CELL_SCAN_STATUS_ERROR : Fld := ⟨0x38, 2, 1⟩
/-- 03_cell_core.md, R77. -/
def CELL_SCAN_STATUS_DONE : Fld := ⟨0x38, 1, 1⟩
/-- 03_cell_core.md, R77. -/
def CELL_SCAN_STATUS_BUSY : Fld := ⟨0x38, 0, 1⟩
/-- 03_cell_core.md, R77. -/
def CELL_IS_ADDR_BUSY_ERR : Fld := ⟨0x40, 13, 1⟩
/-- 03_cell_core.md, R77. -/
def CELL_IS_ADDR_AUTOINC : Fld := ⟨0x40, 12, 1⟩
/-- 03_cell_core.md, R77. -/
def CELL_IS_ADDR_CTX : Fld := ⟨0x40, 10, 2⟩
/-- 03_cell_core.md, R77. -/
def CELL_IS_ADDR_WORD : Fld := ⟨0x40, 0, 10⟩
/-- 03_cell_core.md, R77. -/
def CELL_IS_DATA_WORD : Fld := ⟨0x48, 0, 32⟩
/-- 03_cell_core.md, R77. -/
def CELL_REG_SEL_ACC_ERR : Fld := ⟨0x50, 63, 1⟩
/-- 03_cell_core.md, R77. -/
def CELL_REG_SEL_POISON : Fld := ⟨0x50, 12, 2⟩
/-- 03_cell_core.md, R77. -/
def CELL_REG_SEL_CTX : Fld := ⟨0x50, 10, 2⟩
/-- 03_cell_core.md, R77. -/
def CELL_REG_SEL_FILE : Fld := ⟨0x50, 8, 2⟩
/-- 03_cell_core.md, R77. -/
def CELL_REG_SEL_INDEX : Fld := ⟨0x50, 0, 8⟩
/-- 03_cell_core.md, R77. -/
def CELL_REG_DATA_DATA : Fld := ⟨0x58, 0, 64⟩
/-- 03_cell_core.md, R77. -/
def CELL_RECV_STATUS_REQ_FULL : Fld := ⟨0x60, 16, 1⟩
/-- 03_cell_core.md, R77. -/
def CELL_RECV_STATUS_REQ_USED : Fld := ⟨0x60, 8, 8⟩
/-- 03_cell_core.md, R77. -/
def CELL_RECV_STATUS_RSP_USED : Fld := ⟨0x60, 0, 8⟩
/-- 03_cell_core.md, R77. -/
def CTX_STATE_ABANDONED : Fld := ⟨0x400, 4, 1⟩
/-- 03_cell_core.md, R77. -/
def CTX_STATE_STEP_DONE : Fld := ⟨0x400, 3, 1⟩
/-- 03_cell_core.md, R77. -/
def CTX_STATE_STATE : Fld := ⟨0x400, 0, 3⟩
/-- 03_cell_core.md, R77. -/
def CTX_CTRL_STEP : Fld := ⟨0x408, 3, 1⟩
/-- 03_cell_core.md, R77. -/
def CTX_CTRL_RESET : Fld := ⟨0x408, 2, 1⟩
/-- 03_cell_core.md, R77. -/
def CTX_CTRL_HALT : Fld := ⟨0x408, 1, 1⟩
/-- 03_cell_core.md, R77. -/
def CTX_CTRL_START : Fld := ⟨0x408, 0, 1⟩
/-- 03_cell_core.md, R77. -/
def CTX_PC_ENTRY : Fld := ⟨0x410, 16, 10⟩
/-- 03_cell_core.md, R77. -/
def CTX_PC_PC : Fld := ⟨0x410, 0, 10⟩
/-- 03_cell_core.md, R77. -/
def CTX_CONFIG_RESTORER : Fld := ⟨0x418, 21, 1⟩
/-- 03_cell_core.md, R77. -/
def CTX_CONFIG_BOUND : Fld := ⟨0x418, 20, 1⟩
/-- 03_cell_core.md, R77. -/
def CTX_CONFIG_NICHE : Fld := ⟨0x418, 16, 4⟩
/-- 03_cell_core.md, R77. -/
def CTX_CONFIG_PRIO : Fld := ⟨0x418, 8, 2⟩
/-- 03_cell_core.md, R77. -/
def CTX_CONFIG_PROG_VALID : Fld := ⟨0x418, 0, 1⟩
/-- 03_cell_core.md, R77. -/
def CTX_TIMEOUT_EXP : Fld := ⟨0x420, 0, 5⟩
/-- 03_cell_core.md, R77. -/
def CTX_WAIT_KIND : Fld := ⟨0x428, 60, 4⟩
/-- 03_cell_core.md, R77. -/
def CTX_WAIT_ELAPSED : Fld := ⟨0x428, 32, 24⟩
/-- 03_cell_core.md, R77. -/
def CTX_WAIT_OBJECT : Fld := ⟨0x428, 0, 32⟩
/-- 03_cell_core.md, R77. -/
def CTX_FAULT_CODE : Fld := ⟨0x430, 56, 8⟩
/-- 03_cell_core.md, R77. -/
def CTX_FAULT_CTX : Fld := ⟨0x430, 54, 2⟩
/-- 03_cell_core.md, R77. -/
def CTX_FAULT_VALID : Fld := ⟨0x430, 53, 1⟩
/-- 03_cell_core.md, R77. -/
def CTX_FAULT_PC : Fld := ⟨0x430, 43, 10⟩
/-- 03_cell_core.md, R77. -/
def CTX_FAULT_DETAIL : Fld := ⟨0x430, 32, 11⟩
/-- 03_cell_core.md, R77. -/
def CTX_FAULT_TICK : Fld := ⟨0x430, 0, 32⟩
/-- 03_cell_core.md, R77. -/
def CTX_FPFLAGS_CVT_RANGE : Fld := ⟨0x438, 5, 1⟩
/-- 03_cell_core.md, R77. -/
def CTX_FPFLAGS_INVALID : Fld := ⟨0x438, 4, 1⟩
/-- 03_cell_core.md, R77. -/
def CTX_FPFLAGS_DIVZERO : Fld := ⟨0x438, 3, 1⟩
/-- 03_cell_core.md, R77. -/
def CTX_FPFLAGS_OVERFLOW : Fld := ⟨0x438, 2, 1⟩
/-- 03_cell_core.md, R77. -/
def CTX_FPFLAGS_UNDERFLOW : Fld := ⟨0x438, 1, 1⟩
/-- 03_cell_core.md, R77. -/
def CTX_FPFLAGS_INEXACT : Fld := ⟨0x438, 0, 1⟩
/-- 03_cell_core.md, R77. -/
def CTX_LOOP0_END : Fld := ⟨0x440, 16, 10⟩
/-- 03_cell_core.md, R77. -/
def CTX_LOOP0_START : Fld := ⟨0x440, 0, 10⟩
/-- 03_cell_core.md, R77. -/
def CTX_LOOP1_END : Fld := ⟨0x448, 16, 10⟩
/-- 03_cell_core.md, R77. -/
def CTX_LOOP1_START : Fld := ⟨0x448, 0, 10⟩
/-- 03_cell_core.md, R77. -/
def CTX_LOOP2_END : Fld := ⟨0x450, 16, 10⟩
/-- 03_cell_core.md, R77. -/
def CTX_LOOP2_START : Fld := ⟨0x450, 0, 10⟩
/-- 03_cell_core.md, R77. -/
def CTX_LOOP3_END : Fld := ⟨0x458, 16, 10⟩
/-- 03_cell_core.md, R77. -/
def CTX_LOOP3_START : Fld := ⟨0x458, 0, 10⟩
/-- 05_slabs_patina.md, R135. -/
def CELL_SLAB_CFG_ENABLE : Fld := ⟨0x840, 63, 1⟩
/-- 05_slabs_patina.md, R135. -/
def CELL_SLAB_CFG_ROLE : Fld := ⟨0x840, 61, 2⟩
/-- 05_slabs_patina.md, R135. -/
def CELL_SLAB_CFG_POS_X : Fld := ⟨0x840, 54, 6⟩
/-- 05_slabs_patina.md, R135. -/
def CELL_SLAB_CFG_POS_Y : Fld := ⟨0x840, 48, 6⟩
/-- 05_slabs_patina.md, R135. -/
def CELL_SLAB_CFG_WIDTH : Fld := ⟨0x840, 42, 6⟩
/-- 05_slabs_patina.md, R135. -/
def CELL_SLAB_CFG_HEIGHT : Fld := ⟨0x840, 36, 6⟩
/-- 05_slabs_patina.md, R135. -/
def CELL_SLAB_CFG_KSEG : Fld := ⟨0x840, 30, 6⟩
/-- 05_slabs_patina.md, R135. -/
def CELL_SLAB_CFG_CKCOL : Fld := ⟨0x840, 29, 1⟩
/-- 05_slabs_patina.md, R135. -/
def CELL_SLAB_CFG_CKROW : Fld := ⟨0x840, 28, 1⟩
/-- 05_slabs_patina.md, R135. -/
def CELL_SLAB_CFG_SLAB_ID : Fld := ⟨0x840, 16, 12⟩
/-- 05_slabs_patina.md, R145. -/
def CELL_MAC_FLAGS_TRAIL : Fld := ⟨0x818, 48, 8⟩
/-- 05_slabs_patina.md, R145. -/
def CELL_MAC_FLAGS_HEADROOM : Fld := ⟨0x818, 40, 8⟩
/-- 05_slabs_patina.md, R145. -/
def CELL_MAC_FLAGS_RESTART : Fld := ⟨0x818, 8, 1⟩
/-- 05_slabs_patina.md, R145. -/
def CELL_MAC_FLAGS_POISON : Fld := ⟨0x818, 4, 1⟩
/-- 05_slabs_patina.md, R145. -/
def CELL_MAC_FLAGS_CVT_RANGE : Fld := ⟨0x818, 3, 1⟩
/-- 05_slabs_patina.md, R145. -/
def CELL_MAC_FLAGS_INVALID : Fld := ⟨0x818, 2, 1⟩
/-- 05_slabs_patina.md, R145. -/
def CELL_MAC_FLAGS_WINDOW_OVERFLOW : Fld := ⟨0x818, 1, 1⟩
/-- 05_slabs_patina.md, R145. -/
def CELL_MAC_FLAGS_INEXACT : Fld := ⟨0x818, 0, 1⟩
/-- 05_slabs_patina.md, R167. -/
def INT_PLUMB_CFG_FLAG_ACT : Fld := ⟨0x848, 12, 2⟩
/-- 05_slabs_patina.md, R167. -/
def INT_PLUMB_CFG_NONFIN_ACT : Fld := ⟨0x848, 10, 2⟩
/-- 05_slabs_patina.md, R167. -/
def INT_PLUMB_CFG_RANGE_ACT : Fld := ⟨0x848, 8, 2⟩
/-- 05_slabs_patina.md, R167. -/
def INT_PLUMB_CFG_RANGE_EN : Fld := ⟨0x848, 7, 1⟩
/-- 05_slabs_patina.md, R167. -/
def INT_PLUMB_CFG_INEXACT_IS_FLAG : Fld := ⟨0x848, 6, 1⟩
/-- 05_slabs_patina.md, R167. -/
def INT_PLUMB_CFG_CK_EN : Fld := ⟨0x848, 0, 1⟩
/-- 05_slabs_patina.md, R167. -/
def INT_PLUMB_RANGE_HI : Fld := ⟨0x850, 32, 32⟩
/-- 05_slabs_patina.md, R167. -/
def INT_PLUMB_RANGE_LO : Fld := ⟨0x850, 0, 32⟩
/-- 05_slabs_patina.md, R167. -/
def INT_PLUMB_STATUS_RANGE_CNT : Fld := ⟨0x858, 48, 16⟩
/-- 05_slabs_patina.md, R167. -/
def INT_PLUMB_STATUS_NONFIN_CNT : Fld := ⟨0x858, 32, 16⟩
/-- 05_slabs_patina.md, R167. -/
def INT_PLUMB_STATUS_FLAGGED_CNT : Fld := ⟨0x858, 16, 16⟩
/-- 05_slabs_patina.md, R167. -/
def INT_PLUMB_STATUS_POISON_CNT : Fld := ⟨0x858, 8, 8⟩
/-- 05_slabs_patina.md, R167. -/
def INT_PLUMB_STATUS_VERDICT : Fld := ⟨0x858, 2, 2⟩
/-- 05_slabs_patina.md, R167. -/
def INT_PLUMB_STATUS_MISMATCH : Fld := ⟨0x858, 1, 1⟩
/-- 05_slabs_patina.md, R167. -/
def INT_PLUMB_STATUS_DONE : Fld := ⟨0x858, 0, 1⟩
/-- 05_slabs_patina.md, R167. -/
def CELL_MAC_STATUS_ITER : Fld := ⟨0x800, 56, 8⟩
/-- 05_slabs_patina.md, R167. -/
def CELL_MAC_STATUS_BLOCK : Fld := ⟨0x800, 44, 12⟩
/-- 05_slabs_patina.md, R167. -/
def CELL_MAC_STATUS_ROW : Fld := ⟨0x800, 40, 4⟩
/-- 05_slabs_patina.md, R167. -/
def CELL_MAC_STATUS_PHASE : Fld := ⟨0x800, 32, 2⟩
/-- 05_slabs_patina.md, R167. -/
def CELL_MAC_STATUS_CTX : Fld := ⟨0x800, 30, 2⟩
/-- 05_slabs_patina.md, R167. -/
def CELL_MAC_STATUS_BUSY : Fld := ⟨0x800, 29, 1⟩
/-- 05_slabs_patina.md, R167. -/
def CELL_MAC_STATUS_DRAINING : Fld := ⟨0x800, 28, 1⟩
/-- 05_slabs_patina.md, R167. -/
def CELL_MAC_STATUS_SLAB_HELD : Fld := ⟨0x800, 27, 1⟩
/-- 05_slabs_patina.md, R167. -/
def CELL_MAC_STATUS_VERDICT_WAIT : Fld := ⟨0x800, 26, 1⟩
/-- 05_slabs_patina.md, R167. -/
def CELL_MAC_STATUS_WR_ERR : Fld := ⟨0x800, 25, 1⟩
/-- 05_slabs_patina.md, R167. -/
def CELL_MAC_STATUS_INTERRUPTED : Fld := ⟨0x800, 24, 1⟩
/-- 05_slabs_patina.md, R167. -/
def CELL_MAC_ACC_SEL_ACC_ERR : Fld := ⟨0x820, 63, 1⟩
/-- 05_slabs_patina.md, R167. -/
def CELL_MAC_ACC_SEL_OPEN : Fld := ⟨0x820, 31, 1⟩
/-- 05_slabs_patina.md, R167. -/
def CELL_MAC_ACC_SEL_OWNER : Fld := ⟨0x820, 29, 2⟩
/-- 05_slabs_patina.md, R167. -/
def CELL_MAC_ACC_SEL_W : Fld := ⟨0x820, 16, 11⟩
/-- 05_slabs_patina.md, R167. -/
def CELL_MAC_ACC_SEL_ENTRY : Fld := ⟨0x820, 0, 8⟩
/-- 05_slabs_patina.md, R167. -/
def CELL_MAC_ACC_N0_N : Fld := ⟨0x828, 0, 64⟩
/-- 05_slabs_patina.md, R167. -/
def CELL_MAC_ACC_N1_N : Fld := ⟨0x830, 0, 64⟩
/-- 05_slabs_patina.md, R167. -/
def CELL_MAC_ACC_ST_POISON : Fld := ⟨0x838, 29, 1⟩
/-- 05_slabs_patina.md, R167. -/
def CELL_MAC_ACC_ST_INVALID : Fld := ⟨0x838, 28, 1⟩
/-- 05_slabs_patina.md, R167. -/
def CELL_MAC_ACC_ST_WINDOW_OVERFLOW : Fld := ⟨0x838, 27, 1⟩
/-- 05_slabs_patina.md, R167. -/
def CELL_MAC_ACC_ST_INEXACT : Fld := ⟨0x838, 26, 1⟩
/-- 05_slabs_patina.md, R167. -/
def CELL_MAC_ACC_ST_SPECIAL : Fld := ⟨0x838, 24, 2⟩
/-- 05_slabs_patina.md, R167. -/
def CELL_MAC_ACC_ST_GUARD : Fld := ⟨0x838, 0, 24⟩
/-- 06_scratchpad.md, R201. -/
def SPD_RING_CFG_ENABLE : Fld := ⟨0xA00, 63, 1⟩
/-- 06_scratchpad.md, R201. -/
def SPD_RING_CFG_PROD : Fld := ⟨0xA00, 62, 1⟩
/-- 06_scratchpad.md, R201. -/
def SPD_RING_CFG_CONS : Fld := ⟨0xA00, 61, 1⟩
/-- 06_scratchpad.md, R201. -/
def SPD_RING_CFG_CFG_ERR : Fld := ⟨0xA00, 60, 1⟩
/-- 06_scratchpad.md, R201. -/
def SPD_RING_CFG_SLOT_LINES : Fld := ⟨0xA00, 40, 8⟩
/-- 06_scratchpad.md, R201. -/
def SPD_RING_CFG_COUNT : Fld := ⟨0xA00, 32, 5⟩
/-- 06_scratchpad.md, R201. -/
def SPD_RING_CFG_BASE : Fld := ⟨0xA00, 0, 12⟩
/-- 06_scratchpad.md, R201. -/
def SPD_RING_ST_FE : Fld := ⟨0xA08, 32, 32⟩
/-- 06_scratchpad.md, R201. -/
def SPD_RING_ST_FULL_CNT : Fld := ⟨0xA08, 16, 6⟩
/-- 06_scratchpad.md, R201. -/
def SPD_RING_ST_RESET : Fld := ⟨0xA08, 15, 1⟩
/-- 06_scratchpad.md, R201. -/
def SPD_RING_ST_TAKE : Fld := ⟨0xA08, 8, 5⟩
/-- 06_scratchpad.md, R201. -/
def SPD_RING_ST_PUT : Fld := ⟨0xA08, 0, 5⟩
/-- 06_scratchpad.md, R201. -/
def SPD_OWN_STATE : Fld := ⟨0xB00, 0, 48⟩
/-- 06_scratchpad.md, R201. -/
def SPD_STATUS_OWN_ERR : Fld := ⟨0xB08, 32, 1⟩
/-- 06_scratchpad.md, R201. -/
def SPD_STATUS_CLEARING : Fld := ⟨0xB08, 16, 16⟩
/-- 06_scratchpad.md, R201. -/
def SPD_STATUS_PENDING : Fld := ⟨0xB08, 0, 16⟩
/-- 06_scratchpad.md, R201. -/
def SPD_CLEAR_CLR_REFUSED : Fld := ⟨0xB10, 16, 1⟩
/-- 06_scratchpad.md, R201. -/
def SPD_CLEAR_BANKS : Fld := ⟨0xB10, 0, 16⟩
/-- 06_scratchpad.md, R201. -/
def SPD_FAULT_ADDR_VALID : Fld := ⟨0xB18, 63, 1⟩
/-- 06_scratchpad.md, R201. -/
def SPD_FAULT_ADDR_CLASS : Fld := ⟨0xB18, 60, 3⟩
/-- 06_scratchpad.md, R201. -/
def SPD_FAULT_ADDR_CTX : Fld := ⟨0xB18, 58, 2⟩
/-- 06_scratchpad.md, R201. -/
def SPD_FAULT_ADDR_CODE : Fld := ⟨0xB18, 48, 8⟩
/-- 06_scratchpad.md, R201. -/
def SPD_FAULT_ADDR_ADDR : Fld := ⟨0xB18, 0, 19⟩
/-- 06_scratchpad.md, R201. -/
def SPD_CONFLICT_NARROW_WAIT : Fld := ⟨0xB20, 32, 32⟩
/-- 06_scratchpad.md, R201. -/
def SPD_CONFLICT_NARROW_MAX : Fld := ⟨0xB20, 16, 16⟩
/-- 06_scratchpad.md, R201. -/
def SPD_CONFLICT_CLASH_CNT : Fld := ⟨0xB20, 0, 16⟩
/-- 06_scratchpad.md, R201. -/
def SPD_CONFLICT_WIDE_VAR_WAIT : Fld := ⟨0xB28, 32, 32⟩
/-- 06_scratchpad.md, R201. -/
def SPD_CONFLICT_WIDE_GUARD_HOLDS : Fld := ⟨0xB28, 16, 16⟩
/-- 06_scratchpad.md, R201. -/
def SPD_ECC_CE_CNT : Fld := ⟨0xB30, 32, 32⟩
/-- 06_scratchpad.md, R201. -/
def SPD_ECC_UE_CNT : Fld := ⟨0xB30, 16, 16⟩
/-- 06_scratchpad.md, R201. -/
def SPD_HOST_ADDR_ERR : Fld := ⟨0xB38, 63, 1⟩
/-- 06_scratchpad.md, R201. -/
def SPD_HOST_ADDR_AUTOINC : Fld := ⟨0xB38, 32, 1⟩
/-- 06_scratchpad.md, R201. -/
def SPD_HOST_ADDR_ADDR : Fld := ⟨0xB38, 2, 16⟩
/-- 06_scratchpad.md, R201. -/
def SPD_HOST_DATA_POISON : Fld := ⟨0xB40, 32, 1⟩
/-- 06_scratchpad.md, R201. -/
def SPD_HOST_DATA_DATA : Fld := ⟨0xB40, 0, 32⟩
/-- 07_armature.md, R230. -/
def ARM_CTRL_SHIFT : Fld := ⟨0xC00, 7, 1⟩
/-- 07_armature.md, R230. -/
def ARM_CTRL_TRANSPARENT : Fld := ⟨0xC00, 4, 1⟩
/-- 07_armature.md, R230. -/
def ARM_CTRL_EDGE : Fld := ⟨0xC00, 0, 4⟩
/-- 07_armature.md, R230. -/
def ARM_STATUS_DROP_CNT : Fld := ⟨0xC08, 48, 16⟩
/-- 07_armature.md, R230. -/
def ARM_STATUS_PAR_CNT : Fld := ⟨0xC08, 32, 16⟩
/-- 07_armature.md, R230. -/
def ARM_STATUS_ACTIVE : Fld := ⟨0xC08, 16, 4⟩
/-- 07_armature.md, R230. -/
def ARM_STATUS_PAR_ERR : Fld := ⟨0xC08, 1, 1⟩
/-- 07_armature.md, R230. -/
def ARM_STATUS_DROP : Fld := ⟨0xC08, 0, 1⟩
/-- 07_armature.md, R230. -/
def ARM_RS_ADDR_BUSY_ERR : Fld := ⟨0xC10, 13, 1⟩
/-- 07_armature.md, R230. -/
def ARM_RS_ADDR_AUTOINC : Fld := ⟨0xC10, 12, 1⟩
/-- 07_armature.md, R230. -/
def ARM_RS_ADDR_CTX : Fld := ⟨0xC10, 8, 2⟩
/-- 07_armature.md, R230. -/
def ARM_RS_ADDR_ENTRY : Fld := ⟨0xC10, 0, 8⟩
/-- 07_armature.md, R230. -/
def ARM_RS_DATA_ENTRY : Fld := ⟨0xC18, 0, 64⟩
/-- 07_armature.md, R230. -/
def ARM_SCHED_CTRL_MODE : Fld := ⟨0xC40, 62, 2⟩
/-- 07_armature.md, R230. -/
def ARM_SCHED_CTRL_OFFSET : Fld := ⟨0xC40, 32, 24⟩
/-- 07_armature.md, R230. -/
def ARM_SCHED_CTRL_STOP : Fld := ⟨0xC40, 3, 1⟩
/-- 07_armature.md, R230. -/
def ARM_SCHED_CTRL_GO : Fld := ⟨0xC40, 2, 1⟩
/-- 07_armature.md, R230. -/
def ARM_SCHED_CTRL_ENABLE : Fld := ⟨0xC40, 0, 1⟩
/-- 07_armature.md, R230. -/
def ARM_SCHED_STATUS_STATE : Fld := ⟨0xC48, 62, 2⟩
/-- 07_armature.md, R230. -/
def ARM_SCHED_STATUS_ENTRY : Fld := ⟨0xC48, 48, 8⟩
/-- 07_armature.md, R230. -/
def ARM_SCHED_STATUS_REP_LEFT : Fld := ⟨0xC48, 40, 8⟩
/-- 07_armature.md, R230. -/
def ARM_SCHED_STATUS_CYCLE : Fld := ⟨0xC48, 16, 24⟩
/-- 07_armature.md, R230. -/
def ARM_LOOP01_START1 : Fld := ⟨0xC50, 48, 8⟩
/-- 07_armature.md, R230. -/
def ARM_LOOP01_COUNT1 : Fld := ⟨0xC50, 32, 16⟩
/-- 07_armature.md, R230. -/
def ARM_LOOP01_START0 : Fld := ⟨0xC50, 16, 8⟩
/-- 07_armature.md, R230. -/
def ARM_LOOP01_COUNT0 : Fld := ⟨0xC50, 0, 16⟩
/-- 07_armature.md, R230. -/
def ARM_LOOP23_START3 : Fld := ⟨0xC58, 48, 8⟩
/-- 07_armature.md, R230. -/
def ARM_LOOP23_COUNT3 : Fld := ⟨0xC58, 32, 16⟩
/-- 07_armature.md, R230. -/
def ARM_LOOP23_START2 : Fld := ⟨0xC58, 16, 8⟩
/-- 07_armature.md, R230. -/
def ARM_LOOP23_COUNT2 : Fld := ⟨0xC58, 0, 16⟩
/-- 07_armature.md, R230. -/
def ARM_LOOP_LEFT_LEFT3 : Fld := ⟨0xC60, 48, 16⟩
/-- 07_armature.md, R230. -/
def ARM_LOOP_LEFT_LEFT2 : Fld := ⟨0xC60, 32, 16⟩
/-- 07_armature.md, R230. -/
def ARM_LOOP_LEFT_LEFT1 : Fld := ⟨0xC60, 16, 16⟩
/-- 07_armature.md, R230. -/
def ARM_LOOP_LEFT_LEFT0 : Fld := ⟨0xC60, 0, 16⟩
/-- 07_armature.md, R230. -/
def ARM_AG0_USED : Fld := ⟨0xC68, 52, 12⟩
/-- 07_armature.md, R230. -/
def ARM_AG0_LEN : Fld := ⟨0xC68, 32, 12⟩
/-- 07_armature.md, R230. -/
def ARM_AG0_STRIDE : Fld := ⟨0xC68, 16, 12⟩
/-- 07_armature.md, R230. -/
def ARM_AG0_BASE : Fld := ⟨0xC68, 0, 12⟩
/-- 07_armature.md, R230. -/
def ARM_AG1_USED : Fld := ⟨0xC70, 52, 12⟩
/-- 07_armature.md, R230. -/
def ARM_AG1_LEN : Fld := ⟨0xC70, 32, 12⟩
/-- 07_armature.md, R230. -/
def ARM_AG1_STRIDE : Fld := ⟨0xC70, 16, 12⟩
/-- 07_armature.md, R230. -/
def ARM_AG1_BASE : Fld := ⟨0xC70, 0, 12⟩
/-- 07_armature.md, R230. -/
def ARM_AG2_USED : Fld := ⟨0xC78, 52, 12⟩
/-- 07_armature.md, R230. -/
def ARM_AG2_LEN : Fld := ⟨0xC78, 32, 12⟩
/-- 07_armature.md, R230. -/
def ARM_AG2_STRIDE : Fld := ⟨0xC78, 16, 12⟩
/-- 07_armature.md, R230. -/
def ARM_AG2_BASE : Fld := ⟨0xC78, 0, 12⟩
/-- 07_armature.md, R230. -/
def ARM_AG3_USED : Fld := ⟨0xC80, 52, 12⟩
/-- 07_armature.md, R230. -/
def ARM_AG3_LEN : Fld := ⟨0xC80, 32, 12⟩
/-- 07_armature.md, R230. -/
def ARM_AG3_STRIDE : Fld := ⟨0xC80, 16, 12⟩
/-- 07_armature.md, R230. -/
def ARM_AG3_BASE : Fld := ⟨0xC80, 0, 12⟩
/-- 07_armature.md, R230. -/
def ARM_SEAM_STATUS_V_MARGIN : Fld := ⟨0x8000, 11, 3⟩
/-- 07_armature.md, R230. -/
def ARM_SEAM_STATUS_H_MARGIN : Fld := ⟨0x8000, 8, 3⟩
/-- 07_armature.md, R230. -/
def ARM_SEAM_STATUS_V_ALARM : Fld := ⟨0x8000, 1, 1⟩
/-- 07_armature.md, R230. -/
def ARM_SEAM_STATUS_H_ALARM : Fld := ⟨0x8000, 0, 1⟩
/-- 08_sprue_sync.md, R264. -/
def SPR_CTRL_RSP_EXP : Fld := ⟨0xD80, 8, 5⟩
/-- 08_sprue_sync.md, R264. -/
def SPR_CTRL_DOWN : Fld := ⟨0xD80, 4, 4⟩
/-- 08_sprue_sync.md, R264. -/
def SPR_CTRL_EDGE : Fld := ⟨0xD80, 0, 4⟩
/-- 08_sprue_sync.md, R264. -/
def SPR_STATUS_STALE_CNT : Fld := ⟨0xD88, 48, 16⟩
/-- 08_sprue_sync.md, R264. -/
def SPR_STATUS_REFUSED_CNT : Fld := ⟨0xD88, 32, 16⟩
/-- 08_sprue_sync.md, R264. -/
def SPR_STATUS_PAR_CNT : Fld := ⟨0xD88, 16, 16⟩
/-- 08_sprue_sync.md, R264. -/
def SPR_STATUS_QUARANTINED : Fld := ⟨0xD88, 10, 6⟩
/-- 08_sprue_sync.md, R264. -/
def SPR_STATUS_OUTSTANDING : Fld := ⟨0xD88, 6, 4⟩
/-- 08_sprue_sync.md, R264. -/
def SPR_STATUS_LOCKS : Fld := ⟨0xD88, 2, 4⟩
/-- 08_sprue_sync.md, R264. -/
def SPR_STATUS_SEL : Fld := ⟨0xD88, 0, 2⟩
/-- 08_sprue_sync.md, R264. -/
def SPR_ERR_REFUSED : Fld := ⟨0xD90, 1, 1⟩
/-- 08_sprue_sync.md, R264. -/
def SPR_ERR_HDR_ERR : Fld := ⟨0xD90, 0, 1⟩
/-- 08_sprue_sync.md, R264. -/
def SPR_RT_ADDR_BUSY_ERR : Fld := ⟨0x200, 9, 1⟩
/-- 08_sprue_sync.md, R264. -/
def SPR_RT_ADDR_VER : Fld := ⟨0x200, 8, 1⟩
/-- 08_sprue_sync.md, R264. -/
def SPR_RT_ADDR_INDEX : Fld := ⟨0x200, 0, 8⟩
/-- 08_sprue_sync.md, R264. -/
def SPR_RT_DATA_ROUTE : Fld := ⟨0x208, 0, 64⟩
/-- 08_sprue_sync.md, R264. -/
def SPR_NICHE_EPOCH_SWITCH_ERR : Fld := ⟨0x8100, 5, 1⟩
/-- 08_sprue_sync.md, R264. -/
def SPR_NICHE_EPOCH_OLD_BUSY : Fld := ⟨0x8100, 4, 1⟩
/-- 08_sprue_sync.md, R264. -/
def SPR_NICHE_EPOCH_PRIV_BUSY : Fld := ⟨0x8100, 3, 1⟩
/-- 08_sprue_sync.md, R264. -/
def SPR_NICHE_EPOCH_PRIV_HOLD : Fld := ⟨0x8100, 1, 1⟩
/-- 08_sprue_sync.md, R264. -/
def SPR_NICHE_EPOCH_ACTIVE : Fld := ⟨0x8100, 0, 1⟩
/-- 08_sprue_sync.md, R264. -/
def SYN_CFG_CFG_ERR : Fld := ⟨0x1000, 63, 1⟩
/-- 08_sprue_sync.md, R264. -/
def SYN_CFG_TARGET : Fld := ⟨0x1000, 32, 14⟩
/-- 08_sprue_sync.md, R264. -/
def SYN_CFG_WAIT_EXP : Fld := ⟨0x1000, 8, 5⟩
/-- 08_sprue_sync.md, R264. -/
def SYN_CFG_TYPE : Fld := ⟨0x1000, 0, 3⟩
/-- 08_sprue_sync.md, R264. -/
def SYN_STATE_LSTATE : Fld := ⟨0x1008, 62, 2⟩
/-- 08_sprue_sync.md, R264. -/
def SYN_STATE_OWNER_CTX : Fld := ⟨0x1008, 60, 2⟩
/-- 08_sprue_sync.md, R264. -/
def SYN_STATE_OWNER_CELL : Fld := ⟨0x1008, 46, 14⟩
/-- 08_sprue_sync.md, R264. -/
def SYN_STATE_ARRIVED : Fld := ⟨0x1008, 32, 14⟩
/-- 08_sprue_sync.md, R264. -/
def SYN_STATE_VALUE : Fld := ⟨0x1008, 0, 32⟩
/-- 08_sprue_sync.md, R264. -/
def SYN_STATUS_NOT_OWNER_CNT : Fld := ⟨0x800, 48, 16⟩
/-- 08_sprue_sync.md, R264. -/
def SYN_STATUS_TIMEOUT_CNT : Fld := ⟨0x800, 32, 16⟩
/-- 08_sprue_sync.md, R264. -/
def SYN_STATUS_FULL_CNT : Fld := ⟨0x800, 16, 16⟩
/-- 08_sprue_sync.md, R264. -/
def SYN_STATUS_WAITERS : Fld := ⟨0x800, 0, 7⟩
/-- 09_courts_riffler.md, R291. -/
def CRT_CTRL_CLR_REFUSED : Fld := ⟨0x0, 1, 1⟩
/-- 09_courts_riffler.md, R291. -/
def CRT_CTRL_CLEAR : Fld := ⟨0x0, 0, 1⟩
/-- 09_courts_riffler.md, R291. -/
def CRT_STATUS_ROUNDS_LEFT : Fld := ⟨0x8, 27, 5⟩
/-- 09_courts_riffler.md, R291. -/
def CRT_STATUS_CUR_OP : Fld := ⟨0x8, 8, 8⟩
/-- 09_courts_riffler.md, R291. -/
def CRT_STATUS_HELD : Fld := ⟨0x8, 5, 3⟩
/-- 09_courts_riffler.md, R291. -/
def CRT_STATUS_RIF_STATE : Fld := ⟨0x8, 2, 3⟩
/-- 09_courts_riffler.md, R291. -/
def CRT_STATUS_CLEARING : Fld := ⟨0x8, 0, 1⟩
/-- 09_courts_riffler.md, R291. -/
def RIF_FAULT_VALID : Fld := ⟨0x10, 63, 1⟩
/-- 09_courts_riffler.md, R291. -/
def RIF_FAULT_CODE : Fld := ⟨0x10, 48, 8⟩
/-- 09_courts_riffler.md, R291. -/
def RIF_FAULT_CTX : Fld := ⟨0x10, 46, 2⟩
/-- 09_courts_riffler.md, R291. -/
def RIF_FAULT_CELL : Fld := ⟨0x10, 32, 14⟩
/-- 09_courts_riffler.md, R291. -/
def RIF_FAULT_DETAIL : Fld := ⟨0x10, 0, 11⟩
/-- 09_courts_riffler.md, R291. -/
def CRT_XBAR_CNT_RIF_ROUNDS : Fld := ⟨0x18, 32, 32⟩
/-- 09_courts_riffler.md, R291. -/
def CRT_XBAR_CNT_OTHER_ROUNDS : Fld := ⟨0x18, 0, 32⟩
/-- 09_courts_riffler.md, R291. -/
def CRT_PLN_ECC_CE_CNT : Fld := ⟨0x20, 32, 32⟩
/-- 09_courts_riffler.md, R291. -/
def CRT_PLN_ECC_UE_CNT : Fld := ⟨0x20, 16, 16⟩
/-- 09_courts_riffler.md, R291. -/
def CRT_HOST_ADDR_ERR : Fld := ⟨0x28, 63, 1⟩
/-- 09_courts_riffler.md, R291. -/
def CRT_HOST_ADDR_AUTOINC : Fld := ⟨0x28, 32, 1⟩
/-- 09_courts_riffler.md, R291. -/
def CRT_HOST_ADDR_ADDR : Fld := ⟨0x28, 2, 20⟩
/-- 09_courts_riffler.md, R291. -/
def CRT_HOST_DATA_POISON : Fld := ⟨0x30, 32, 1⟩
/-- 09_courts_riffler.md, R291. -/
def CRT_HOST_DATA_DATA : Fld := ⟨0x30, 0, 32⟩
/-- 09_courts_riffler.md, R291. -/
def DMA_QCFG_ENABLE : Fld := ⟨0x3000, 63, 1⟩
/-- 09_courts_riffler.md, R291. -/
def DMA_QCFG_FIXED : Fld := ⟨0x3000, 62, 1⟩
/-- 09_courts_riffler.md, R291. -/
def DMA_QST_POSTED : Fld := ⟨0x3008, 48, 16⟩
/-- 09_courts_riffler.md, R291. -/
def DMA_QST_COMPLETED : Fld := ⟨0x3008, 32, 16⟩
/-- 09_courts_riffler.md, R291. -/
def DMA_QST_ACTIVE : Fld := ⟨0x3008, 6, 1⟩
/-- 09_courts_riffler.md, R291. -/
def DMA_QST_QUEUED : Fld := ⟨0x3008, 0, 6⟩
/-- 11_hbm_dma.md, R344. -/
def HBM_CTRL_SCRUB_H : Fld := ⟨0xA000, 0, 8⟩
/-- 11_hbm_dma.md, R344. -/
def HBM_ECC_CE_CNT : Fld := ⟨0xA008, 32, 32⟩
/-- 11_hbm_dma.md, R344. -/
def HBM_ECC_UE_CNT : Fld := ⟨0xA008, 16, 16⟩
/-- 11_hbm_dma.md, R344. -/
def HBM_ECC_BCHK_CNT : Fld := ⟨0xA008, 0, 16⟩
/-- 11_hbm_dma.md, R344. -/
def HBM_UE_ADDR_VALID : Fld := ⟨0xA010, 63, 1⟩
/-- 11_hbm_dma.md, R344. -/
def HBM_UE_ADDR_ADDR : Fld := ⟨0xA010, 5, 33⟩
/-- 11_hbm_dma.md, R344. -/
def HBM_NWIN0_VALID : Fld := ⟨0x2000, 63, 1⟩
/-- 11_hbm_dma.md, R344. -/
def HBM_NWIN0_READONLY : Fld := ⟨0x2000, 62, 1⟩
/-- 11_hbm_dma.md, R344. -/
def HBM_NWIN0_SIZE_SEG : Fld := ⟨0x2000, 32, 22⟩
/-- 11_hbm_dma.md, R344. -/
def HBM_NWIN0_BASE_SEG : Fld := ⟨0x2000, 0, 22⟩
/-- 11_hbm_dma.md, R344. -/
def HBM_NWIN1_VALID : Fld := ⟨0x2008, 63, 1⟩
/-- 11_hbm_dma.md, R344. -/
def HBM_NWIN1_READONLY : Fld := ⟨0x2008, 62, 1⟩
/-- 11_hbm_dma.md, R344. -/
def HBM_NWIN1_SIZE_SEG : Fld := ⟨0x2008, 32, 22⟩
/-- 11_hbm_dma.md, R344. -/
def HBM_NWIN1_BASE_SEG : Fld := ⟨0x2008, 0, 22⟩
/-- 11_hbm_dma.md, R344. -/
def DMA_FAULT_VALID : Fld := ⟨0x3100, 63, 1⟩
/-- 11_hbm_dma.md, R344. -/
def DMA_FAULT_CODE : Fld := ⟨0x3100, 48, 8⟩
/-- 11_hbm_dma.md, R344. -/
def DMA_FAULT_CTX : Fld := ⟨0x3100, 46, 2⟩
/-- 11_hbm_dma.md, R344. -/
def DMA_FAULT_CELL : Fld := ⟨0x3100, 32, 14⟩
/-- 11_hbm_dma.md, R344. -/
def DMA_FAULT_QUEUE : Fld := ⟨0x3100, 11, 4⟩
/-- 11_hbm_dma.md, R344. -/
def DMA_FAULT_DETAIL : Fld := ⟨0x3100, 0, 11⟩
/-- 12_zovar_links.md, R378. -/
def LNK_CTRL_NICHE : Fld := ⟨0xC000, 12, 4⟩
/-- 12_zovar_links.md, R378. -/
def LNK_CTRL_NBOUND : Fld := ⟨0xC000, 11, 1⟩
/-- 12_zovar_links.md, R378. -/
def LNK_CTRL_TRANSIT : Fld := ⟨0xC000, 10, 1⟩
/-- 12_zovar_links.md, R378. -/
def LNK_CTRL_EDGE : Fld := ⟨0xC000, 9, 1⟩
/-- 12_zovar_links.md, R378. -/
def LNK_CTRL_X1_ALLOW : Fld := ⟨0xC000, 8, 1⟩
/-- 12_zovar_links.md, R378. -/
def LNK_CTRL_RATE_CAP : Fld := ⟨0xC000, 7, 1⟩
/-- 12_zovar_links.md, R378. -/
def LNK_CTRL_FORCE_RS : Fld := ⟨0xC000, 6, 1⟩
/-- 12_zovar_links.md, R378. -/
def LNK_CTRL_AUTO_RESTART : Fld := ⟨0xC000, 5, 1⟩
/-- 12_zovar_links.md, R378. -/
def LNK_CTRL_RETRAIN : Fld := ⟨0xC000, 1, 1⟩
/-- 12_zovar_links.md, R378. -/
def LNK_CTRL_ENABLE : Fld := ⟨0xC000, 0, 1⟩
/-- 12_zovar_links.md, R378. -/
def LNK_STATUS_VER : Fld := ⟨0xC008, 16, 8⟩
/-- 12_zovar_links.md, R378. -/
def LNK_STATUS_FUSED : Fld := ⟨0xC008, 15, 1⟩
/-- 12_zovar_links.md, R378. -/
def LNK_STATUS_LANE1_FENCED : Fld := ⟨0xC008, 14, 1⟩
/-- 12_zovar_links.md, R378. -/
def LNK_STATUS_LANE0_FENCED : Fld := ⟨0xC008, 13, 1⟩
/-- 12_zovar_links.md, R378. -/
def LNK_STATUS_WIDTH : Fld := ⟨0xC008, 12, 1⟩
/-- 12_zovar_links.md, R378. -/
def LNK_STATUS_FEC : Fld := ⟨0xC008, 11, 1⟩
/-- 12_zovar_links.md, R378. -/
def LNK_STATUS_RATE : Fld := ⟨0xC008, 10, 1⟩
/-- 12_zovar_links.md, R378. -/
def LNK_STATUS_STATE : Fld := ⟨0xC008, 0, 4⟩
/-- 12_zovar_links.md, R378. -/
def LNK_PARTNER_FEATURES : Fld := ⟨0xC010, 0, 64⟩
/-- 12_zovar_links.md, R378. -/
def LNK_PARTNER_ID_VALID : Fld := ⟨0xC018, 32, 1⟩
/-- 12_zovar_links.md, R378. -/
def LNK_PARTNER_ID_ROLE : Fld := ⟨0xC018, 24, 8⟩
/-- 12_zovar_links.md, R378. -/
def LNK_PARTNER_ID_PORT : Fld := ⟨0xC018, 16, 8⟩
/-- 12_zovar_links.md, R378. -/
def LNK_PARTNER_ID_DEV_ID : Fld := ⟨0xC018, 0, 12⟩
/-- 12_zovar_links.md, R378. -/
def LNK_DELAY_VALID : Fld := ⟨0xC020, 63, 1⟩
/-- 12_zovar_links.md, R378. -/
def LNK_DELAY_LENGTH_CM : Fld := ⟨0xC020, 32, 16⟩
/-- 12_zovar_links.md, R378. -/
def LNK_DELAY_DELAY_PS : Fld := ⟨0xC020, 0, 32⟩
/-- 12_zovar_links.md, R378. -/
def LNK_CREDIT_PB3 : Fld := ⟨0xC028, 56, 8⟩
/-- 12_zovar_links.md, R378. -/
def LNK_CREDIT_PB2 : Fld := ⟨0xC028, 48, 8⟩
/-- 12_zovar_links.md, R378. -/
def LNK_CREDIT_PB1 : Fld := ⟨0xC028, 40, 8⟩
/-- 12_zovar_links.md, R378. -/
def LNK_CREDIT_PB0 : Fld := ⟨0xC028, 32, 8⟩
/-- 12_zovar_links.md, R378. -/
def LNK_CREDIT_B3 : Fld := ⟨0xC028, 24, 8⟩
/-- 12_zovar_links.md, R378. -/
def LNK_CREDIT_B2 : Fld := ⟨0xC028, 16, 8⟩
/-- 12_zovar_links.md, R378. -/
def LNK_CREDIT_B1 : Fld := ⟨0xC028, 8, 8⟩
/-- 12_zovar_links.md, R378. -/
def LNK_CREDIT_B0 : Fld := ⟨0xC028, 0, 8⟩
/-- 12_zovar_links.md, R378. -/
def LNK_EVENT_EV : Fld := ⟨0xC030, 1, 16⟩
/-- 12_zovar_links.md, R378. -/
def LNK_CNT_REPLAYS : Fld := ⟨0xC038, 48, 16⟩
/-- 12_zovar_links.md, R378. -/
def LNK_CNT_CRC_ERR : Fld := ⟨0xC038, 32, 16⟩
/-- 12_zovar_links.md, R378. -/
def LNK_CNT_TT_LATE : Fld := ⟨0xC038, 16, 16⟩
/-- 12_zovar_links.md, R378. -/
def LNK_CNT_REFUSED : Fld := ⟨0xC038, 0, 16⟩
/-- 12_zovar_links.md, R378. -/
def LNK_FEC_CNT_CORR_SYM : Fld := ⟨0xC040, 32, 32⟩
/-- 12_zovar_links.md, R378. -/
def LNK_FEC_CNT_UNCORR_CW : Fld := ⟨0xC040, 0, 32⟩
/-- 13_pod_time_collectives.md, R409. -/
def TMB_TICK_TICK : Fld := ⟨0x3000, 0, 64⟩
/-- 13_pod_time_collectives.md, R409. -/
def TMB_STATUS_POD_ACTIVE : Fld := ⟨0x3008, 39, 1⟩
/-- 13_pod_time_collectives.md, R409. -/
def TMB_STATUS_PARENT_VALID : Fld := ⟨0x3008, 38, 1⟩
/-- 13_pod_time_collectives.md, R409. -/
def TMB_STATUS_PARENT_LINK : Fld := ⟨0x3008, 31, 7⟩
/-- 13_pod_time_collectives.md, R409. -/
def TMB_STATUS_HOPS : Fld := ⟨0x3008, 25, 6⟩
/-- 13_pod_time_collectives.md, R409. -/
def TMB_STATUS_LEADER_ID : Fld := ⟨0x3008, 13, 12⟩
/-- 13_pod_time_collectives.md, R409. -/
def TMB_STATUS_STATE : Fld := ⟨0x3008, 0, 3⟩
/-- 13_pod_time_collectives.md, R409. -/
def TMB_SERVO_THETA : Fld := ⟨0x3010, 32, 32⟩
/-- 13_pod_time_collectives.md, R409. -/
def TMB_SERVO_RATE_ADJ : Fld := ⟨0x3010, 0, 32⟩
/-- 13_pod_time_collectives.md, R409. -/
def TMB_CTRL_STEP_ALLOW : Fld := ⟨0x3018, 1, 1⟩
/-- 13_pod_time_collectives.md, R409. -/
def TMB_CTRL_ENABLE : Fld := ⟨0x3018, 0, 1⟩
/-- 13_pod_time_collectives.md, R409. -/
def TMB_EVENT_EV : Fld := ⟨0x3020, 1, 10⟩
/-- 13_pod_time_collectives.md, R409. -/
def TMB_STRAG_CUR0_INSTANCES : Fld := ⟨0x3040, 48, 16⟩
/-- 13_pod_time_collectives.md, R409. -/
def TMB_STRAG_CUR0_LAST_CNT : Fld := ⟨0x3040, 32, 16⟩
/-- 13_pod_time_collectives.md, R409. -/
def TMB_STRAG_CUR0_LATE_MAX : Fld := ⟨0x3040, 16, 16⟩
/-- 13_pod_time_collectives.md, R409. -/
def TMB_STRAG_CUR0_SPREAD_MAX : Fld := ⟨0x3040, 0, 16⟩
/-- 13_pod_time_collectives.md, R409. -/
def TMB_STRAG_PREV0_INSTANCES : Fld := ⟨0x3050, 48, 16⟩
/-- 13_pod_time_collectives.md, R409. -/
def TMB_STRAG_PREV0_LAST_CNT : Fld := ⟨0x3050, 32, 16⟩
/-- 13_pod_time_collectives.md, R409. -/
def TMB_STRAG_PREV0_LATE_MAX : Fld := ⟨0x3050, 16, 16⟩
/-- 13_pod_time_collectives.md, R409. -/
def TMB_STRAG_PREV0_SPREAD_MAX : Fld := ⟨0x3050, 0, 16⟩
/-- 13_pod_time_collectives.md, R409. -/
def TMB_STRAG_CUR1_LATE_SUM : Fld := ⟨0x3048, 0, 64⟩
/-- 13_pod_time_collectives.md, R409. -/
def TMB_STRAG_PREV1_LATE_SUM : Fld := ⟨0x3058, 0, 64⟩
/-- 13_pod_time_collectives.md, R409. -/
def TMB_NSTART_START_TICK : Fld := ⟨0x3100, 0, 64⟩
/-- 13_pod_time_collectives.md, R409. -/
def TMB_NFRAME_MODE : Fld := ⟨0x3108, 62, 2⟩
/-- 13_pod_time_collectives.md, R409. -/
def TMB_NFRAME_START_LATE : Fld := ⟨0x3108, 61, 1⟩
/-- 13_pod_time_collectives.md, R409. -/
def TMB_NFRAME_FRAME_ERR : Fld := ⟨0x3108, 60, 1⟩
/-- 13_pod_time_collectives.md, R409. -/
def TMB_NFRAME_FRAME_CNT : Fld := ⟨0x3108, 24, 24⟩
/-- 13_pod_time_collectives.md, R409. -/
def TMB_NFRAME_FRAME_LEN : Fld := ⟨0x3108, 0, 24⟩
/-- 14_host_niches.md, R422. -/
def HST_SQB_ADDR : Fld := ⟨0x0, 12, 52⟩
/-- 14_host_niches.md, R422. -/
def HST_SQB_VECTOR : Fld := ⟨0x0, 6, 6⟩
/-- 14_host_niches.md, R422. -/
def HST_SQB_ENABLE : Fld := ⟨0x0, 5, 1⟩
/-- 14_host_niches.md, R422. -/
def HST_SQB_ERR : Fld := ⟨0x0, 4, 1⟩
/-- 14_host_niches.md, R422. -/
def HST_SQB_SIZE : Fld := ⟨0x0, 0, 4⟩
/-- 14_host_niches.md, R422. -/
def HST_CQB_ADDR : Fld := ⟨0x40, 12, 52⟩
/-- 14_host_niches.md, R422. -/
def HST_CQB_VECTOR : Fld := ⟨0x40, 6, 6⟩
/-- 14_host_niches.md, R422. -/
def HST_CQB_ENABLE : Fld := ⟨0x40, 5, 1⟩
/-- 14_host_niches.md, R422. -/
def HST_CQB_ERR : Fld := ⟨0x40, 4, 1⟩
/-- 14_host_niches.md, R422. -/
def HST_CQB_SIZE : Fld := ⟨0x40, 0, 4⟩
/-- 14_host_niches.md, R422. -/
def HST_ERB_ADDR : Fld := ⟨0x80, 12, 52⟩
/-- 14_host_niches.md, R422. -/
def HST_ERB_VECTOR : Fld := ⟨0x80, 6, 6⟩
/-- 14_host_niches.md, R422. -/
def HST_ERB_ENABLE : Fld := ⟨0x80, 5, 1⟩
/-- 14_host_niches.md, R422. -/
def HST_ERB_ERR : Fld := ⟨0x80, 4, 1⟩
/-- 14_host_niches.md, R422. -/
def HST_ERB_SIZE : Fld := ⟨0x80, 0, 4⟩
/-- 14_host_niches.md, R434. -/
def NCH_CFG_VALID : Fld := ⟨0x1000, 63, 1⟩
/-- 14_host_niches.md, R434. -/
def NCH_CFG_PENDANT : Fld := ⟨0x1000, 62, 1⟩
/-- 14_host_niches.md, R434. -/
def NCH_CFG_DEFBUCKET : Fld := ⟨0x1000, 59, 3⟩
/-- 14_host_niches.md, R434. -/
def NCH_CFG_CELLWIN : Fld := ⟨0x1000, 58, 1⟩
/-- 14_host_niches.md, R434. -/
def NCH_CFG_VFB_VALID : Fld := ⟨0x1000, 47, 1⟩
/-- 14_host_niches.md, R434. -/
def NCH_CFG_VFB : Fld := ⟨0x1000, 40, 4⟩
/-- 14_host_niches.md, R434. -/
def NCH_CFG_VFA_VALID : Fld := ⟨0x1000, 39, 1⟩
/-- 14_host_niches.md, R434. -/
def NCH_CFG_VFA : Fld := ⟨0x1000, 32, 4⟩
/-- 14_host_niches.md, R434. -/
def NCH_CFG_HEIGHT : Fld := ⟨0x1000, 20, 4⟩
/-- 14_host_niches.md, R434. -/
def NCH_CFG_WIDTH : Fld := ⟨0x1000, 16, 4⟩
/-- 14_host_niches.md, R434. -/
def NCH_CFG_AY : Fld := ⟨0x1000, 4, 4⟩
/-- 14_host_niches.md, R434. -/
def NCH_CFG_AX : Fld := ⟨0x1000, 0, 4⟩
/-- 14_host_niches.md, R434. -/
def NCH_STATE_RESETS : Fld := ⟨0x1008, 32, 32⟩
/-- 14_host_niches.md, R434. -/
def NCH_STATE_CHANGED : Fld := ⟨0x1008, 3, 1⟩
/-- 14_host_niches.md, R434. -/
def NCH_STATE_STATE : Fld := ⟨0x1008, 0, 3⟩
/-- 14_host_niches.md, R434. -/
def NCH_BIND_VALID : Fld := ⟨0x4000, 63, 1⟩
/-- 14_host_niches.md, R434. -/
def NCH_BIND_TYPE : Fld := ⟨0x4000, 60, 3⟩
/-- 14_host_niches.md, R434. -/
def NCH_BIND_NICHE : Fld := ⟨0x4000, 56, 4⟩
/-- 14_host_niches.md, R434. -/
def NCH_BIND_SIZE_SEG : Fld := ⟨0x4000, 32, 22⟩
/-- 14_host_niches.md, R434. -/
def NCH_BIND_FIELD : Fld := ⟨0x4000, 0, 22⟩
/-- 14_host_niches.md, R434. -/
def NCH_RING_ENABLE : Fld := ⟨0x5000, 63, 1⟩
/-- 14_host_niches.md, R434. -/
def NCH_RING_DIR : Fld := ⟨0x5000, 62, 1⟩
/-- 14_host_niches.md, R434. -/
def NCH_RING_NICHE : Fld := ⟨0x5000, 56, 4⟩
/-- 14_host_niches.md, R434. -/
def NCH_RING_CY : Fld := ⟨0x5000, 52, 4⟩
/-- 14_host_niches.md, R434. -/
def NCH_RING_CX : Fld := ⟨0x5000, 48, 4⟩
/-- 14_host_niches.md, R434. -/
def NCH_RING_SLOTS : Fld := ⟨0x5000, 40, 8⟩
/-- 14_host_niches.md, R434. -/
def NCH_RING_BASE : Fld := ⟨0x5000, 8, 14⟩
/-- 14_host_niches.md, R434. -/
def NCH_RST_DROP_CNT : Fld := ⟨0x5008, 48, 16⟩
/-- 14_host_niches.md, R434. -/
def NCH_RST_COUNT : Fld := ⟨0x5008, 39, 9⟩
/-- 14_host_niches.md, R434. -/
def NCH_RST_WR : Fld := ⟨0x5008, 31, 8⟩
/-- 14_host_niches.md, R434. -/
def NCH_RST_RD : Fld := ⟨0x5008, 23, 8⟩
/-- 14_host_niches.md, R434. -/
def NCH_EGR_TARGET : Fld := ⟨0x5800, 62, 1⟩
/-- 14_host_niches.md, R434. -/
def NCH_EGR_LINK : Fld := ⟨0x5800, 48, 7⟩
/-- 14_host_niches.md, R434. -/
def NCH_EGR_DEST : Fld := ⟨0x5800, 32, 16⟩
/-- 14_host_niches.md, R434. -/
def NCH_EGR_DST_DEV : Fld := ⟨0x5800, 16, 12⟩
/-- 14_host_niches.md, R434. -/
def NCH_EGR_PORT : Fld := ⟨0x5800, 12, 1⟩
/-- 14_host_niches.md, R434. -/
def NCH_EGR_FUNC : Fld := ⟨0x5800, 4, 5⟩
/-- 14_host_niches.md, R434. -/
def NCH_EGR_HRING : Fld := ⟨0x5800, 0, 4⟩
/-- 15_integrity.md, R457. -/
def INT_CK_STATE_Q : Fld := ⟨0x860, 52, 12⟩
/-- 15_integrity.md, R457. -/
def INT_CK_STATE_NBC : Fld := ⟨0x860, 40, 12⟩
/-- 15_integrity.md, R457. -/
def INT_CK_STATE_LAST_CKPT : Fld := ⟨0x860, 28, 12⟩
/-- 15_integrity.md, R457. -/
def INT_CK_STATE_HIST_VALID : Fld := ⟨0x860, 27, 1⟩
/-- 15_integrity.md, R457. -/
def INT_CK_STATE_HIST_BLOCKS : Fld := ⟨0x860, 25, 2⟩
/-- 15_integrity.md, R457. -/
def INT_ARB_REC_VALID : Fld := ⟨0x868, 63, 1⟩
/-- 15_integrity.md, R457. -/
def INT_ARB_REC_OUTCOME : Fld := ⟨0x868, 60, 3⟩
/-- 15_integrity.md, R457. -/
def INT_ARB_REC_ROLE : Fld := ⟨0x868, 58, 2⟩
/-- 15_integrity.md, R457. -/
def INT_ARB_REC_SUSPECT : Fld := ⟨0x868, 44, 14⟩
/-- 15_integrity.md, R457. -/
def INT_ARB_REC_ENTRIES : Fld := ⟨0x868, 35, 9⟩
/-- 15_integrity.md, R457. -/
def INT_ARB_REC_FIRST_ENTRY : Fld := ⟨0x868, 27, 8⟩
/-- 15_integrity.md, R457. -/
def INT_ARB_REC_DURATION : Fld := ⟨0x868, 0, 24⟩
/-- 15_integrity.md, R457. -/
def INT_DIE_CE_DATAPATH : Fld := ⟨0x10000, 48, 16⟩
/-- 15_integrity.md, R457. -/
def INT_DIE_CE_STORE : Fld := ⟨0x10000, 32, 16⟩
/-- 15_integrity.md, R457. -/
def INT_DIE_CE_REGFILE : Fld := ⟨0x10000, 16, 16⟩
/-- 15_integrity.md, R457. -/
def INT_DIE_CE_ISTORE : Fld := ⟨0x10000, 0, 16⟩
/-- 15_integrity.md, R457. -/
def INT_DIE_UE_DATAPATH : Fld := ⟨0x10008, 48, 16⟩
/-- 15_integrity.md, R457. -/
def INT_DIE_UE_STORE : Fld := ⟨0x10008, 32, 16⟩
/-- 15_integrity.md, R457. -/
def INT_DIE_UE_REGFILE : Fld := ⟨0x10008, 16, 16⟩
/-- 15_integrity.md, R457. -/
def INT_DIE_UE_ISTORE : Fld := ⟨0x10008, 0, 16⟩
/-- 15_integrity.md, R457. -/
def INT_FLOG_STATUS_OVERWRITTEN : Fld := ⟨0x10010, 32, 32⟩
/-- 15_integrity.md, R457. -/
def INT_FLOG_STATUS_COUNT : Fld := ⟨0x10010, 11, 11⟩
/-- 15_integrity.md, R457. -/
def INT_FLOG_STATUS_HEAD : Fld := ⟨0x10010, 0, 10⟩
/-- 15_integrity.md, R457. -/
def INT_PKG_STATUS_SUSPECT : Fld := ⟨0x6000, 63, 1⟩
/-- 15_integrity.md, R457. -/
def INT_PKG_STATUS_DISPUTES : Fld := ⟨0x6000, 36, 12⟩
/-- 15_integrity.md, R457. -/
def INT_PKG_STATUS_UNPLACED : Fld := ⟨0x6000, 24, 12⟩
/-- 15_integrity.md, R457. -/
def INT_PKG_STATUS_MEMBER : Fld := ⟨0x6000, 12, 12⟩
/-- 15_integrity.md, R457. -/
def INT_PKG_STATUS_CHECKER : Fld := ⟨0x6000, 0, 12⟩
/-- 16_restorer.md, R485. -/
def RES_ROWMAP_ROWS : Fld := ⟨0x3800, 0, 64⟩
/-- 16_restorer.md, R485. -/
def RES_RASP_CTRL_STEP : Fld := ⟨0x3808, 20, 12⟩
/-- 16_restorer.md, R485. -/
def RES_RASP_CTRL_CELL : Fld := ⟨0x3808, 8, 8⟩
/-- 16_restorer.md, R485. -/
def RES_RASP_CTRL_MODE : Fld := ⟨0x3808, 1, 1⟩
/-- 16_restorer.md, R485. -/
def RES_RASP_CTRL_ENABLE : Fld := ⟨0x3808, 0, 1⟩
/-- 16_restorer.md, R485. -/
def RES_RASP_SIG_SIG : Fld := ⟨0x3810, 0, 64⟩
/-- 16_restorer.md, R485. -/
def RES_RASP_STATUS_SWEEPS : Fld := ⟨0x3818, 32, 32⟩
/-- 16_restorer.md, R485. -/
def RES_RASP_STATUS_INCOMPLETE : Fld := ⟨0x3818, 16, 16⟩
/-- 16_restorer.md, R485. -/
def RES_RASP_STATUS_FAILS : Fld := ⟨0x3818, 8, 8⟩
/-- 16_restorer.md, R485. -/
def RES_RASP_STATUS_FAIL : Fld := ⟨0x3818, 0, 1⟩
/-- 16_restorer.md, R485. -/
def RES_PKG_STATUS_REPLACE : Fld := ⟨0x6080, 63, 1⟩
/-- 16_restorer.md, R485. -/
def RES_PKG_STATUS_REPLACE_SOON : Fld := ⟨0x6080, 62, 1⟩
/-- 16_restorer.md, R485. -/
def RES_PKG_STATUS_FLAW_USED : Fld := ⟨0x6080, 32, 12⟩
/-- 16_restorer.md, R485. -/
def RES_PKG_STATUS_DEGRADED : Fld := ⟨0x6080, 24, 8⟩
/-- 16_restorer.md, R485. -/
def RES_PKG_STATUS_UNEXPLAINED_24H : Fld := ⟨0x6080, 16, 8⟩
/-- 16_restorer.md, R485. -/
def RES_PKG_STATUS_FENCED : Fld := ⟨0x6080, 0, 16⟩
/-- 16_restorer.md, R485. -/
def RES_EVENT_EV : Fld := ⟨0x6088, 1, 15⟩
/-- 16_restorer.md, R485. -/
def RES_HEAL_STATUS_LAST_PAUSE : Fld := ⟨0x6100, 32, 32⟩
/-- 16_restorer.md, R485. -/
def RES_HEAL_STATUS_HEALS : Fld := ⟨0x6100, 16, 16⟩
/-- 16_restorer.md, R485. -/
def RES_HEAL_STATUS_STEP : Fld := ⟨0x6100, 0, 3⟩
/-- 16_restorer.md, R485. -/
def RES_PENDANT_VALID : Fld := ⟨0x6200, 63, 1⟩
/-- 16_restorer.md, R485. -/
def RES_PENDANT_NICHE_B : Fld := ⟨0x6200, 36, 4⟩
/-- 16_restorer.md, R485. -/
def RES_PENDANT_NICHE_A : Fld := ⟨0x6200, 32, 4⟩
/-- 16_restorer.md, R485. -/
def RES_PENDANT_EGR_B : Fld := ⟨0x6200, 21, 7⟩
/-- 16_restorer.md, R485. -/
def RES_PENDANT_EGR_A : Fld := ⟨0x6200, 14, 7⟩
/-- 16_restorer.md, R485. -/
def RES_PENDANT_ING_B : Fld := ⟨0x6200, 7, 7⟩
/-- 16_restorer.md, R485. -/
def RES_PENDANT_ING_A : Fld := ⟨0x6200, 0, 7⟩
/-- 16_restorer.md, R485. -/
def RES_PEND_CNT_MATCH : Fld := ⟨0x6208, 32, 32⟩
/-- 16_restorer.md, R485. -/
def RES_PEND_CNT_DISAGREE : Fld := ⟨0x6208, 24, 8⟩
/-- 16_restorer.md, R485. -/
def RES_PEND_CNT_UNCOMPARED : Fld := ⟨0x6208, 16, 8⟩
/-- 16_restorer.md, R485. -/
def RES_PEND_CNT_SINGLE : Fld := ⟨0x6208, 8, 8⟩
/-- 16_restorer.md, R485. -/
def RES_PEND_CNT_B_DROP : Fld := ⟨0x6208, 0, 8⟩
/-- 17_reset_recovery.md, R500. -/
def RST_WD_CFG_ATL_WD : Fld := ⟨0x30000, 16, 10⟩
/-- 17_reset_recovery.md, R500. -/
def RST_WD_CFG_NWD_EXP : Fld := ⟨0x30000, 8, 5⟩
/-- 17_reset_recovery.md, R500. -/
def RST_WD_CFG_CWD_EXP : Fld := ⟨0x30000, 0, 5⟩
/-- 17_reset_recovery.md, R500. -/
def RST_STATUS_PKG_CNT : Fld := ⟨0x7000, 48, 16⟩
/-- 17_reset_recovery.md, R500. -/
def RST_STATUS_DIE_CNT : Fld := ⟨0x7000, 32, 16⟩
/-- 17_reset_recovery.md, R500. -/
def RST_STATUS_NICHE_CNT : Fld := ⟨0x7000, 16, 16⟩
/-- 17_reset_recovery.md, R500. -/
def RST_STATUS_LAST_LEVEL : Fld := ⟨0x7000, 5, 3⟩
/-- 17_reset_recovery.md, R500. -/
def RST_STATUS_ESCALATING : Fld := ⟨0x7000, 4, 1⟩
/-- 17_reset_recovery.md, R500. -/
def RST_STATUS_DIE_BUSY : Fld := ⟨0x7000, 0, 4⟩
/-- 17_reset_recovery.md, R500. -/
def RST_CAUSE_SEQ : Fld := ⟨0x7008, 32, 32⟩
/-- 17_reset_recovery.md, R500. -/
def RST_CAUSE_DIE : Fld := ⟨0x7008, 30, 2⟩
/-- 17_reset_recovery.md, R500. -/
def RST_CAUSE_CODE : Fld := ⟨0x7008, 16, 8⟩
/-- 17_reset_recovery.md, R500. -/
def RST_CAUSE_NICHE : Fld := ⟨0x7008, 8, 4⟩
/-- 17_reset_recovery.md, R500. -/
def RST_CAUSE_NICHE_VALID : Fld := ⟨0x7008, 7, 1⟩
/-- 17_reset_recovery.md, R500. -/
def RST_CAUSE_LEVEL : Fld := ⟨0x7008, 4, 3⟩
/-- 17_reset_recovery.md, R500. -/
def RST_CAUSE_TRIGGER : Fld := ⟨0x7008, 0, 4⟩
/-- 17_reset_recovery.md, R500. -/
def RST_CTRL_PWRCYC_REQ : Fld := ⟨0x7010, 5, 1⟩
/-- 17_reset_recovery.md, R500. -/
def RST_CTRL_PKG_REQ : Fld := ⟨0x7010, 4, 1⟩
/-- 17_reset_recovery.md, R500. -/
def RST_CTRL_DIE_REQ : Fld := ⟨0x7010, 0, 4⟩
/-- 17_reset_recovery.md, R500. -/
def RST_CRASH_CRASH_SEQ : Fld := ⟨0x7018, 32, 32⟩
/-- 17_reset_recovery.md, R500. -/
def RST_CRASH_INCOMPLETE : Fld := ⟨0x7018, 31, 1⟩
/-- 17_reset_recovery.md, R500. -/
def RST_CRASH_NEW : Fld := ⟨0x7018, 30, 1⟩
/-- 17_reset_recovery.md, R500. -/
def RST_CRASH_CELLS : Fld := ⟨0x7018, 0, 14⟩
/-- 18_bringup.md, R520. -/
def MGT_BOOT_STATUS_FAIL_CODE : Fld := ⟨0x7800, 48, 8⟩
/-- 18_bringup.md, R520. -/
def MGT_BOOT_STATUS_ELAPSED : Fld := ⟨0x7800, 32, 16⟩
/-- 18_bringup.md, R520. -/
def MGT_BOOT_STATUS_DIE_OK : Fld := ⟨0x7800, 28, 4⟩
/-- 18_bringup.md, R520. -/
def MGT_BOOT_STATUS_HBM_OK : Fld := ⟨0x7800, 20, 8⟩
/-- 18_bringup.md, R520. -/
def MGT_BOOT_STATUS_PRIMARY : Fld := ⟨0x7800, 19, 1⟩
/-- 18_bringup.md, R520. -/
def MGT_BOOT_STATUS_FAST : Fld := ⟨0x7800, 18, 1⟩
/-- 18_bringup.md, R520. -/
def MGT_BOOT_STATUS_IMAGE : Fld := ⟨0x7800, 16, 2⟩
/-- 18_bringup.md, R520. -/
def MGT_BOOT_STATUS_STATE : Fld := ⟨0x7800, 12, 4⟩
/-- 18_bringup.md, R520. -/
def MGT_BOOT_STATUS_SERVICE : Fld := ⟨0x7800, 10, 2⟩
/-- 18_bringup.md, R520. -/
def MGT_BOOT_STATUS_VARIANT : Fld := ⟨0x7800, 8, 2⟩
/-- 18_bringup.md, R520. -/
def MGT_STRAPS_I3C_ADDR : Fld := ⟨0x7808, 24, 7⟩
/-- 18_bringup.md, R520. -/
def MGT_STRAPS_PROFILE_EFF : Fld := ⟨0x7808, 22, 2⟩
/-- 18_bringup.md, R520. -/
def MGT_STRAPS_LINKFEC : Fld := ⟨0x7808, 13, 1⟩
/-- 18_bringup.md, R520. -/
def MGT_STRAPS_HOSTPORT : Fld := ⟨0x7808, 12, 1⟩
/-- 18_bringup.md, R520. -/
def MGT_STRAPS_PROFILE : Fld := ⟨0x7808, 10, 2⟩
/-- 18_bringup.md, R520. -/
def MGT_STRAPS_BOOT : Fld := ⟨0x7808, 8, 2⟩
/-- 18_bringup.md, R520. -/
def MGT_STRAPS_SLOT : Fld := ⟨0x7808, 0, 6⟩
/-- 19_catalogue_atelier.md, R553. -/
def MGT_ALERT_THERM_TRIP : Fld := ⟨0x7810, 15, 1⟩
/-- 19_catalogue_atelier.md, R553. -/
def MGT_ALERT_THERM_LIMIT : Fld := ⟨0x7810, 14, 1⟩
/-- 19_catalogue_atelier.md, R553. -/
def MGT_ALERT_THERM_HOT : Fld := ⟨0x7810, 13, 1⟩
/-- 19_catalogue_atelier.md, R553. -/
def MGT_ALERT_SUPPLY_OV : Fld := ⟨0x7810, 12, 1⟩
/-- 19_catalogue_atelier.md, R553. -/
def MGT_ALERT_NV_BLOCKED : Fld := ⟨0x7810, 11, 1⟩
/-- 19_catalogue_atelier.md, R553. -/
def MGT_ALERT_POWER_CAP : Fld := ⟨0x7810, 10, 1⟩
/-- 19_catalogue_atelier.md, R553. -/
def MGT_ALERT_REPLACE : Fld := ⟨0x7810, 9, 1⟩
/-- 19_catalogue_atelier.md, R553. -/
def MGT_ALERT_REPLACE_SOON : Fld := ⟨0x7810, 8, 1⟩
/-- 19_catalogue_atelier.md, R553. -/
def MGT_ALERT_RESTORER : Fld := ⟨0x7810, 7, 1⟩
/-- 19_catalogue_atelier.md, R553. -/
def MGT_ALERT_LINK : Fld := ⟨0x7810, 6, 1⟩
/-- 19_catalogue_atelier.md, R553. -/
def MGT_ALERT_TIME : Fld := ⟨0x7810, 5, 1⟩
/-- 19_catalogue_atelier.md, R553. -/
def MGT_ALERT_FW_FAILED : Fld := ⟨0x7810, 4, 1⟩
/-- 19_catalogue_atelier.md, R553. -/
def MGT_ALERT_DEBUG_UNLOCKED : Fld := ⟨0x7810, 3, 1⟩
/-- 19_catalogue_atelier.md, R553. -/
def MGT_ALERT_CRASH : Fld := ⟨0x7810, 2, 1⟩
/-- 19_catalogue_atelier.md, R553. -/
def MGT_ALERT_PWR_CYCLE : Fld := ⟨0x7810, 1, 1⟩
/-- 19_catalogue_atelier.md, R553. -/
def PWR_STATUS_POWER_W : Fld := ⟨0x7880, 48, 16⟩
/-- 19_catalogue_atelier.md, R553. -/
def PWR_STATUS_RAIL_BROWN : Fld := ⟨0x7880, 20, 12⟩
/-- 19_catalogue_atelier.md, R553. -/
def PWR_STATUS_RAIL_OV : Fld := ⟨0x7880, 8, 12⟩
/-- 19_catalogue_atelier.md, R553. -/
def PWR_STATUS_NV_OK : Fld := ⟨0x7880, 7, 1⟩
/-- 19_catalogue_atelier.md, R553. -/
def PWR_STATUS_PWR_GOOD : Fld := ⟨0x7880, 6, 1⟩
/-- 19_catalogue_atelier.md, R553. -/
def PWR_STATUS_PROFILE : Fld := ⟨0x7880, 4, 2⟩
/-- 19_catalogue_atelier.md, R553. -/
def PWR_STATUS_CHANGING : Fld := ⟨0x7880, 3, 1⟩
/-- 19_catalogue_atelier.md, R553. -/
def PWR_STATUS_THROTTLED : Fld := ⟨0x7880, 2, 1⟩
/-- 19_catalogue_atelier.md, R553. -/
def PWR_STATUS_TARGET : Fld := ⟨0x7880, 0, 2⟩
/-- 19_catalogue_atelier.md, R553. -/
def PWR_THERM_TJ3 : Fld := ⟨0x7888, 48, 16⟩
/-- 19_catalogue_atelier.md, R553. -/
def PWR_THERM_TJ2 : Fld := ⟨0x7888, 32, 16⟩
/-- 19_catalogue_atelier.md, R553. -/
def PWR_THERM_TJ1 : Fld := ⟨0x7888, 16, 16⟩
/-- 19_catalogue_atelier.md, R553. -/
def PWR_THERM_TJ0 : Fld := ⟨0x7888, 0, 16⟩
/-- 19_catalogue_atelier.md, R553. -/
def SEC_STATUS_DEBUG_FAILS : Fld := ⟨0x7900, 12, 2⟩
/-- 19_catalogue_atelier.md, R553. -/
def SEC_STATUS_DEBUG_SCOPE : Fld := ⟨0x7900, 10, 2⟩
/-- 19_catalogue_atelier.md, R553. -/
def SEC_STATUS_DEBUG_LOCKOUT : Fld := ⟨0x7900, 9, 1⟩
/-- 19_catalogue_atelier.md, R553. -/
def SEC_STATUS_KEYS_CLEARED : Fld := ⟨0x7900, 8, 1⟩
/-- 19_catalogue_atelier.md, R553. -/
def SEC_STATUS_KEYS_VALID : Fld := ⟨0x7900, 7, 1⟩
/-- 19_catalogue_atelier.md, R553. -/
def SEC_STATUS_SPDM_READY : Fld := ⟨0x7900, 6, 1⟩
/-- 19_catalogue_atelier.md, R553. -/
def SEC_STATUS_SESSIONS : Fld := ⟨0x7900, 2, 4⟩
/-- 19_catalogue_atelier.md, R553. -/
def SEC_STATUS_ANCHOR_SET : Fld := ⟨0x7900, 1, 1⟩
/-- 19_catalogue_atelier.md, R553. -/
def SEC_STATUS_SECURE_BOOT : Fld := ⟨0x7900, 0, 1⟩
/-- 20_counters_debug.md, R568. -/
def PMC_CTL_EN : Fld := ⟨0x0, 63, 1⟩
/-- 20_counters_debug.md, R568. -/
def PMC_CTL_OVF : Fld := ⟨0x0, 62, 1⟩
/-- 20_counters_debug.md, R568. -/
def PMC_CTL_INT_EN : Fld := ⟨0x0, 61, 1⟩
/-- 20_counters_debug.md, R568. -/
def PMC_CTL_ADDR_EN : Fld := ⟨0x0, 60, 1⟩
/-- 20_counters_debug.md, R568. -/
def PMC_CTL_PRIV : Fld := ⟨0x0, 58, 2⟩
/-- 20_counters_debug.md, R568. -/
def PMC_CTL_MASTER : Fld := ⟨0x0, 24, 8⟩
/-- 20_counters_debug.md, R568. -/
def PMC_CTL_CODE : Fld := ⟨0x0, 0, 16⟩
/-- 20_counters_debug.md, R568. -/
def PMC_CNT_OVF : Fld := ⟨0x8, 63, 1⟩
/-- 20_counters_debug.md, R568. -/
def PMC_CNT_COUNT : Fld := ⟨0x8, 0, 48⟩
/-- 20_counters_debug.md, R568. -/
def PMC_ADDR_HI : Fld := ⟨0x80, 32, 32⟩
/-- 20_counters_debug.md, R568. -/
def PMC_ADDR_LO : Fld := ⟨0x80, 0, 32⟩
/-- 20_counters_debug.md, R568. -/
def PMC_SNAP_GO : Fld := ⟨0x88, 63, 1⟩
/-- 20_counters_debug.md, R568. -/
def PMC_SNAP_SNAP_SEQ : Fld := ⟨0x88, 48, 15⟩
/-- 20_counters_debug.md, R568. -/
def PMC_SNAP_TICK : Fld := ⟨0x88, 0, 48⟩
/-- 20_counters_debug.md, R568. -/
def PMC_SAMP_CTL_EN : Fld := ⟨0x90, 63, 1⟩
/-- 20_counters_debug.md, R568. -/
def PMC_SAMP_CTL_MODE : Fld := ⟨0x90, 62, 1⟩
/-- 20_counters_debug.md, R568. -/
def PMC_SAMP_CTL_SRC : Fld := ⟨0x90, 59, 3⟩
/-- 20_counters_debug.md, R568. -/
def PMC_SAMP_CTL_COUNT : Fld := ⟨0x90, 53, 6⟩
/-- 20_counters_debug.md, R568. -/
def PMC_SAMP_CTL_FULL : Fld := ⟨0x90, 52, 1⟩
/-- 20_counters_debug.md, R568. -/
def PMC_SAMP_CTL_LOST : Fld := ⟨0x90, 44, 8⟩
/-- 20_counters_debug.md, R568. -/
def PMC_SAMP_CTL_RD_ENTRY : Fld := ⟨0x90, 34, 6⟩
/-- 20_counters_debug.md, R568. -/
def PMC_SAMP_CTL_RD_WORD : Fld := ⟨0x90, 32, 2⟩
/-- 20_counters_debug.md, R568. -/
def PMC_SAMP_CTL_PERIOD : Fld := ⟨0x90, 0, 32⟩
/-- 20_counters_debug.md, R568. -/
def PMC_SAMP_DATA_DATA : Fld := ⟨0x98, 0, 64⟩
/-- 20_counters_debug.md, R568. -/
def PMC_QSEL_KIND : Fld := ⟨0xA0, 12, 4⟩
/-- 20_counters_debug.md, R568. -/
def PMC_QSEL_INDEX : Fld := ⟨0xA0, 4, 8⟩
/-- 20_counters_debug.md, R568. -/
def PMC_QSEL_WORD : Fld := ⟨0xA0, 0, 4⟩
/-- 20_counters_debug.md, R568. -/
def PMC_QDATA_DATA : Fld := ⟨0xA8, 0, 64⟩
/-- 20_counters_debug.md, R568. -/
def PMC_GSNAP_AT : Fld := ⟨0x7A00, 0, 64⟩
/-- 21_package_electrical.md, R583. -/
def MGT_GPIO_FUNC_FUNC : Fld := ⟨0x7A80, 0, 64⟩
/-- 21_package_electrical.md, R583. -/
def MGT_GPIO_DATA_FRAME_NICHE : Fld := ⟨0x7A88, 48, 4⟩
/-- 21_package_electrical.md, R583. -/
def MGT_GPIO_DATA_HOLD : Fld := ⟨0x7A88, 32, 16⟩
/-- 21_package_electrical.md, R583. -/
def MGT_GPIO_DATA_IN : Fld := ⟨0x7A88, 16, 16⟩
/-- 21_package_electrical.md, R583. -/
def MGT_GPIO_DATA_OUT : Fld := ⟨0x7A88, 0, 16⟩
/-- 05_slabs_patina.md, R161. -/
def CELL_PAT_DRAIN0 : Fld := ⟨0x900, 0, 64⟩
/-- 05_slabs_patina.md, R161. -/
def CELL_PAT_DRAIN1 : Fld := ⟨0x908, 0, 64⟩
/-- 05_slabs_patina.md, R161. -/
def CELL_PAT_SCALE : Fld := ⟨0x910, 0, 64⟩
/-- 05_slabs_patina.md, R161. -/
def CELL_PAT_SCALE_M : Fld := ⟨0x918, 0, 64⟩
/-- 05_slabs_patina.md, R161. -/
def CELL_PAT_BIAS : Fld := ⟨0x938, 0, 64⟩
/-- 05_slabs_patina.md, R161. -/
def CELL_PAT_BIAS_V : Fld := ⟨0x940, 0, 64⟩
/-- 05_slabs_patina.md, R161. -/
def CELL_PAT_ACT : Fld := ⟨0x980, 0, 64⟩
/-- 05_slabs_patina.md, R161. -/
def CELL_PAT_ACT_T : Fld := ⟨0x988, 0, 64⟩
/-- 05_slabs_patina.md, R161. -/
def CELL_PAT_CLAMP : Fld := ⟨0x9B8, 0, 64⟩
/-- 05_slabs_patina.md, R161. -/
def CELL_PAT_RESID : Fld := ⟨0x9C0, 0, 64⟩
/-- 05_slabs_patina.md, R161. -/
def CELL_PAT_SOFTMAX : Fld := ⟨0x9C8, 0, 64⟩
/-- 05_slabs_patina.md, R161. -/
def CELL_PAT_QUANT : Fld := ⟨0x9D0, 0, 64⟩

/-- Registers of the cell window (R77), part 0. -/
def cellRegs0 : List RegDef := [
  ⟨"CELL_ID", 0x0, 0x8, 1, .powerOn, .hw,
    [⟨"DIE", 62, 2, .ro, 0x0⟩, ⟨"COURT_COL", 59, 3, .ro, 0x0⟩, ⟨"COURT_ROW", 56, 3, .ro, 0x0⟩, ⟨"COL", 52, 4, .ro, 0x0⟩, ⟨"ROW", 49, 3, .ro, 0x0⟩, ⟨"MAPPED", 48, 1, .ro, 0x0⟩, ⟨"FENCED", 47, 1, .ro, 0x0⟩, ⟨"FUSED", 46, 1, .ro, 0x0⟩, ⟨"LOGICAL_ID", 0, 14, .ro, 0x0⟩]⟩,
  ⟨"CELL_CTRL", 0x8, 0x8, 1, .die, .atelier,
    [⟨"FREEZE", 9, 1, .rw, 0x0⟩, ⟨"ISOLATE", 8, 1, .rw, 0x0⟩, ⟨"CTX3_ROLE", 4, 2, .rw, 0x0⟩, ⟨"CTX_ENABLE", 0, 4, .rw, 0xF⟩]⟩,
  ⟨"CELL_STATUS", 0x10, 0x8, 1, .cell, .hw,
    [⟨"CTX3_STATE", 21, 3, .ro, 0x0⟩, ⟨"CTX2_STATE", 18, 3, .ro, 0x0⟩, ⟨"CTX1_STATE", 15, 3, .ro, 0x0⟩, ⟨"CTX0_STATE", 12, 3, .ro, 0x0⟩, ⟨"RUNNING_CTX", 10, 2, .ro, 0x0⟩, ⟨"RUN_VALID", 9, 1, .ro, 0x0⟩, ⟨"SCAN_BUSY", 8, 1, .ro, 0x0⟩, ⟨"MAC_BUSY", 7, 1, .ro, 0x0⟩, ⟨"FROZEN", 6, 1, .ro, 0x0⟩]⟩,
  ⟨"CELL_FAULT", 0x18, 0x8, 1, .cell, .hw,
    [⟨"MORE", 20, 1, .rw1c, 0x0⟩, ⟨"CTX_FAULTED", 16, 4, .rw1c, 0x0⟩, ⟨"ISO_DROP", 8, 1, .rw1c, 0x0⟩, ⟨"SCAN_ERR", 7, 1, .rw1c, 0x0⟩]⟩,
  ⟨"CELL_FAULT_REC", 0x20, 0x8, 1, .cell, .hw,
    [⟨"CODE", 56, 8, .ro, 0x0⟩, ⟨"CTX", 54, 2, .ro, 0x0⟩, ⟨"VALID", 53, 1, .ro, 0x0⟩, ⟨"PC", 43, 10, .ro, 0x0⟩, ⟨"DETAIL", 32, 11, .ro, 0x0⟩, ⟨"TICK", 0, 32, .ro, 0x0⟩]⟩,
  ⟨"CELL_SCAN_CTRL", 0x28, 0x8, 1, .cell, .atelier,
    [⟨"SECTIONS", 16, 12, .rw, 0x0⟩, ⟨"DEST", 2, 2, .rw, 0x0⟩, ⟨"DIR", 1, 1, .rw, 0x0⟩, ⟨"GO", 0, 1, .wo, 0x0⟩]⟩,
  ⟨"CELL_SCAN_BASE", 0x30, 0x8, 1, .cell, .atelier,
    [⟨"ADDR", 6, 32, .rw, 0x0⟩]⟩,
  ⟨"CELL_SCAN_STATUS", 0x38, 0x8, 1, .cell, .hw,
    [⟨"LATE_ARRIVALS", 48, 16, .ro, 0x0⟩, ⟨"LINES_DONE", 32, 16, .ro, 0x0⟩, ⟨"REFUSED", 3, 1, .rw1c, 0x0⟩, ⟨"ERROR", 2, 1, .rw1c, 0x0⟩, ⟨"DONE", 1, 1, .rw1c, 0x0⟩, ⟨"BUSY", 0, 1, .ro, 0x0⟩]⟩,
  ⟨"CELL_IS_ADDR", 0x40, 0x8, 1, .cell, .host,
    [⟨"BUSY_ERR", 13, 1, .rw1c, 0x0⟩, ⟨"AUTOINC", 12, 1, .rw, 0x1⟩, ⟨"CTX", 10, 2, .rw, 0x0⟩, ⟨"WORD", 0, 10, .rw, 0x0⟩]⟩,
  ⟨"CELL_IS_DATA", 0x48, 0x8, 1, .cell, .host,
    [⟨"WORD", 0, 32, .rw, 0x0⟩]⟩,
  ⟨"CELL_REG_SEL", 0x50, 0x8, 1, .cell, .host,
    [⟨"ACC_ERR", 63, 1, .rw1c, 0x0⟩, ⟨"POISON", 12, 2, .ro, 0x0⟩, ⟨"CTX", 10, 2, .rw, 0x0⟩, ⟨"FILE", 8, 2, .rw, 0x0⟩, ⟨"INDEX", 0, 8, .rw, 0x0⟩]⟩,
  ⟨"CELL_REG_DATA", 0x58, 0x8, 1, .cell, .host,
    [⟨"DATA", 0, 64, .rw, 0x0⟩]⟩]
/-- Registers of the cell window (R77), part 1. -/
def cellRegs1 : List RegDef := [
  ⟨"CELL_RECV_STATUS", 0x60, 0x8, 1, .cell, .hw,
    [⟨"REQ_FULL", 16, 1, .ro, 0x0⟩, ⟨"REQ_USED", 8, 8, .ro, 0x0⟩, ⟨"RSP_USED", 0, 8, .ro, 0x0⟩]⟩,
  ⟨"CTX_STATE", 0x400, 0x100, 4, .context, .hw,
    [⟨"ABANDONED", 4, 1, .ro, 0x0⟩, ⟨"STEP_DONE", 3, 1, .ro, 0x0⟩, ⟨"STATE", 0, 3, .ro, 0x0⟩]⟩,
  ⟨"CTX_CTRL", 0x408, 0x100, 4, .context, .host,
    [⟨"STEP", 3, 1, .wo, 0x0⟩, ⟨"RESET", 2, 1, .wo, 0x0⟩, ⟨"HALT", 1, 1, .wo, 0x0⟩, ⟨"START", 0, 1, .wo, 0x0⟩]⟩,
  ⟨"CTX_PC", 0x410, 0x100, 4, .niche, .host,
    [⟨"ENTRY", 16, 10, .rw, 0x0⟩, ⟨"PC", 0, 10, .rw, 0x0⟩]⟩,
  ⟨"CTX_CONFIG", 0x418, 0x100, 4, .niche, .atelier,
    [⟨"RESTORER", 21, 1, .rw, 0x0⟩, ⟨"BOUND", 20, 1, .rw, 0x0⟩, ⟨"NICHE", 16, 4, .rw, 0x0⟩, ⟨"PRIO", 8, 2, .rw, 0x3⟩, ⟨"PROG_VALID", 0, 1, .rw, 0x0⟩]⟩,
  ⟨"CTX_TIMEOUT", 0x420, 0x100, 4, .niche, .host,
    [⟨"EXP", 0, 5, .rw, 0x10⟩]⟩,
  ⟨"CTX_WAIT", 0x428, 0x100, 4, .context, .hw,
    [⟨"KIND", 60, 4, .ro, 0x0⟩, ⟨"ELAPSED", 32, 24, .ro, 0x0⟩, ⟨"OBJECT", 0, 32, .ro, 0x0⟩]⟩,
  ⟨"CTX_FAULT", 0x430, 0x100, 4, .cell, .hw,
    [⟨"CODE", 56, 8, .ro, 0x0⟩, ⟨"CTX", 54, 2, .ro, 0x0⟩, ⟨"VALID", 53, 1, .rw1c, 0x0⟩, ⟨"PC", 43, 10, .ro, 0x0⟩, ⟨"DETAIL", 32, 11, .ro, 0x0⟩, ⟨"TICK", 0, 32, .ro, 0x0⟩]⟩,
  ⟨"CTX_FPFLAGS", 0x438, 0x100, 4, .context, .cell,
    [⟨"CVT_RANGE", 5, 1, .rw1c, 0x0⟩, ⟨"INVALID", 4, 1, .rw1c, 0x0⟩, ⟨"DIVZERO", 3, 1, .rw1c, 0x0⟩, ⟨"OVERFLOW", 2, 1, .rw1c, 0x0⟩, ⟨"UNDERFLOW", 1, 1, .rw1c, 0x0⟩, ⟨"INEXACT", 0, 1, .rw1c, 0x0⟩]⟩,
  ⟨"CTX_LOOP0", 0x440, 0x100, 4, .context, .cell,
    [⟨"END", 16, 10, .rw, 0x0⟩, ⟨"START", 0, 10, .rw, 0x0⟩]⟩,
  ⟨"CTX_LOOP1", 0x448, 0x100, 4, .context, .cell,
    [⟨"END", 16, 10, .rw, 0x0⟩, ⟨"START", 0, 10, .rw, 0x0⟩]⟩,
  ⟨"CTX_LOOP2", 0x450, 0x100, 4, .context, .cell,
    [⟨"END", 16, 10, .rw, 0x0⟩, ⟨"START", 0, 10, .rw, 0x0⟩]⟩]
/-- Registers of the cell window (R77), part 2. -/
def cellRegs2 : List RegDef := [
  ⟨"CTX_LOOP3", 0x458, 0x100, 4, .context, .cell,
    [⟨"END", 16, 10, .rw, 0x0⟩, ⟨"START", 0, 10, .rw, 0x0⟩]⟩,
  ⟨"CELL_SLAB_CFG", 0x840, 0x8, 1, .niche, .host,
    [⟨"ENABLE", 63, 1, .rw, 0x0⟩, ⟨"ROLE", 61, 2, .rw, 0x0⟩, ⟨"POS_X", 54, 6, .rw, 0x0⟩, ⟨"POS_Y", 48, 6, .rw, 0x0⟩, ⟨"WIDTH", 42, 6, .rw, 0x0⟩, ⟨"HEIGHT", 36, 6, .rw, 0x0⟩, ⟨"KSEG", 30, 6, .rw, 0x0⟩, ⟨"CKCOL", 29, 1, .rw, 0x0⟩, ⟨"CKROW", 28, 1, .rw, 0x0⟩, ⟨"SLAB_ID", 16, 12, .rw, 0x0⟩]⟩,
  ⟨"CELL_MAC_FLAGS", 0x818, 0x8, 1, .cell, .hw,
    [⟨"TRAIL", 48, 8, .ro, 0xFF⟩, ⟨"HEADROOM", 40, 8, .ro, 0x7F⟩, ⟨"RESTART", 8, 1, .wo, 0x0⟩, ⟨"POISON", 4, 1, .rw1c, 0x0⟩, ⟨"CVT_RANGE", 3, 1, .rw1c, 0x0⟩, ⟨"INVALID", 2, 1, .rw1c, 0x0⟩, ⟨"WINDOW_OVERFLOW", 1, 1, .rw1c, 0x0⟩, ⟨"INEXACT", 0, 1, .rw1c, 0x0⟩]⟩,
  ⟨"INT_PLUMB_CFG", 0x848, 0x8, 1, .niche, .host,
    [⟨"FLAG_ACT", 12, 2, .rw, 0x1⟩, ⟨"NONFIN_ACT", 10, 2, .rw, 0x1⟩, ⟨"RANGE_ACT", 8, 2, .rw, 0x1⟩, ⟨"RANGE_EN", 7, 1, .rw, 0x0⟩, ⟨"INEXACT_IS_FLAG", 6, 1, .rw, 0x0⟩, ⟨"CK_EN", 0, 1, .rw, 0x1⟩]⟩,
  ⟨"INT_PLUMB_RANGE", 0x850, 0x8, 1, .niche, .host,
    [⟨"HI", 32, 32, .rw, 0x7F800000⟩, ⟨"LO", 0, 32, .rw, 0xFF800000⟩]⟩,
  ⟨"INT_PLUMB_STATUS", 0x858, 0x8, 1, .cell, .hw,
    [⟨"RANGE_CNT", 48, 16, .rw, 0x0⟩, ⟨"NONFIN_CNT", 32, 16, .rw, 0x0⟩, ⟨"FLAGGED_CNT", 16, 16, .rw, 0x0⟩, ⟨"POISON_CNT", 8, 8, .rw, 0x0⟩, ⟨"VERDICT", 2, 2, .ro, 0x0⟩, ⟨"MISMATCH", 1, 1, .rw1c, 0x0⟩, ⟨"DONE", 0, 1, .rw1c, 0x0⟩]⟩,
  ⟨"CELL_MAC_STATUS", 0x800, 0x8, 1, .cell, .hw,
    [⟨"ITER", 56, 8, .ro, 0x0⟩, ⟨"BLOCK", 44, 12, .ro, 0x0⟩, ⟨"ROW", 40, 4, .ro, 0x0⟩, ⟨"PHASE", 32, 2, .ro, 0x0⟩, ⟨"CTX", 30, 2, .ro, 0x0⟩, ⟨"BUSY", 29, 1, .ro, 0x0⟩, ⟨"DRAINING", 28, 1, .ro, 0x0⟩, ⟨"SLAB_HELD", 27, 1, .ro, 0x0⟩, ⟨"VERDICT_WAIT", 26, 1, .ro, 0x0⟩, ⟨"WR_ERR", 25, 1, .rw1c, 0x0⟩, ⟨"INTERRUPTED", 24, 1, .ro, 0x0⟩]⟩,
  ⟨"CELL_MAC_ACC_SEL", 0x820, 0x8, 1, .cell, .host,
    [⟨"ACC_ERR", 63, 1, .rw1c, 0x0⟩, ⟨"OPEN", 31, 1, .rw, 0x0⟩, ⟨"OWNER", 29, 2, .rw, 0x0⟩, ⟨"W", 16, 11, .rw, 0x0⟩, ⟨"ENTRY", 0, 8, .rw, 0x0⟩]⟩,
  ⟨"CELL_MAC_ACC_N0", 0x828, 0x8, 1, .cell, .host,
    [⟨"N", 0, 64, .rw, 0x0⟩]⟩,
  ⟨"CELL_MAC_ACC_N1", 0x830, 0x8, 1, .cell, .host,
    [⟨"N", 0, 64, .rw, 0x0⟩]⟩,
  ⟨"CELL_MAC_ACC_ST", 0x838, 0x8, 1, .cell, .host,
    [⟨"POISON", 29, 1, .rw, 0x0⟩, ⟨"INVALID", 28, 1, .rw, 0x0⟩, ⟨"WINDOW_OVERFLOW", 27, 1, .rw, 0x0⟩, ⟨"INEXACT", 26, 1, .rw, 0x0⟩, ⟨"SPECIAL", 24, 2, .rw, 0x0⟩, ⟨"GUARD", 0, 24, .rw, 0x0⟩]⟩,
  ⟨"SPD_RING_CFG", 0xA00, 0x10, 16, .niche, .host,
    [⟨"ENABLE", 63, 1, .rw, 0x0⟩, ⟨"PROD", 62, 1, .rw, 0x0⟩, ⟨"CONS", 61, 1, .rw, 0x0⟩, ⟨"CFG_ERR", 60, 1, .rw1c, 0x0⟩, ⟨"SLOT_LINES", 40, 8, .rw, 0x0⟩, ⟨"COUNT", 32, 5, .rw, 0x0⟩, ⟨"BASE", 0, 12, .rw, 0x0⟩]⟩]
/-- Registers of the cell window (R77), part 3. -/
def cellRegs3 : List RegDef := [
  ⟨"SPD_RING_ST", 0xA08, 0x10, 16, .niche, .host,
    [⟨"FE", 32, 32, .ro, 0x0⟩, ⟨"FULL_CNT", 16, 6, .ro, 0x0⟩, ⟨"RESET", 15, 1, .wo, 0x0⟩, ⟨"TAKE", 8, 5, .ro, 0x0⟩, ⟨"PUT", 0, 5, .ro, 0x0⟩]⟩,
  ⟨"SPD_OWN", 0xB00, 0x8, 1, .niche, .host,
    [⟨"STATE", 0, 48, .rw, 0x0⟩]⟩,
  ⟨"SPD_STATUS", 0xB08, 0x8, 1, .cell, .hw,
    [⟨"OWN_ERR", 32, 1, .rw1c, 0x0⟩, ⟨"CLEARING", 16, 16, .ro, 0x0⟩, ⟨"PENDING", 0, 16, .ro, 0x0⟩]⟩,
  ⟨"SPD_CLEAR", 0xB10, 0x8, 1, .cell, .host,
    [⟨"CLR_REFUSED", 16, 1, .rw1c, 0x0⟩, ⟨"BANKS", 0, 16, .wo, 0x0⟩]⟩,
  ⟨"SPD_FAULT_ADDR", 0xB18, 0x8, 1, .cell, .hw,
    [⟨"VALID", 63, 1, .rw1c, 0x0⟩, ⟨"CLASS", 60, 3, .ro, 0x0⟩, ⟨"CTX", 58, 2, .ro, 0x0⟩, ⟨"CODE", 48, 8, .ro, 0x0⟩, ⟨"ADDR", 0, 19, .ro, 0x0⟩]⟩,
  ⟨"SPD_CONFLICT", 0xB20, 0x8, 1, .cell, .hw,
    [⟨"NARROW_WAIT", 32, 32, .rw, 0x0⟩, ⟨"NARROW_MAX", 16, 16, .rw, 0x0⟩, ⟨"CLASH_CNT", 0, 16, .rw, 0x0⟩]⟩,
  ⟨"SPD_CONFLICT_WIDE", 0xB28, 0x8, 1, .cell, .hw,
    [⟨"VAR_WAIT", 32, 32, .rw, 0x0⟩, ⟨"GUARD_HOLDS", 16, 16, .rw, 0x0⟩]⟩,
  ⟨"SPD_ECC", 0xB30, 0x8, 1, .powerOn, .hw,
    [⟨"CE_CNT", 32, 32, .rw, 0x0⟩, ⟨"UE_CNT", 16, 16, .rw, 0x0⟩]⟩,
  ⟨"SPD_HOST_ADDR", 0xB38, 0x8, 1, .cell, .host,
    [⟨"ERR", 63, 1, .rw1c, 0x0⟩, ⟨"AUTOINC", 32, 1, .rw, 0x1⟩, ⟨"ADDR", 2, 16, .rw, 0x0⟩]⟩,
  ⟨"SPD_HOST_DATA", 0xB40, 0x8, 1, .cell, .host,
    [⟨"POISON", 32, 1, .ro, 0x0⟩, ⟨"DATA", 0, 32, .rw, 0x0⟩]⟩,
  ⟨"ARM_CTRL", 0xC00, 0x8, 1, .die, .atelier,
    [⟨"SHIFT", 7, 1, .rw, 0x0⟩, ⟨"TRANSPARENT", 4, 1, .ro, 0x0⟩, ⟨"EDGE", 0, 4, .rw, 0xF⟩]⟩,
  ⟨"ARM_STATUS", 0xC08, 0x8, 1, .cell, .hw,
    [⟨"DROP_CNT", 48, 16, .rw, 0x0⟩, ⟨"PAR_CNT", 32, 16, .rw, 0x0⟩, ⟨"ACTIVE", 16, 4, .ro, 0x0⟩, ⟨"PAR_ERR", 1, 1, .rw1c, 0x0⟩, ⟨"DROP", 0, 1, .rw1c, 0x0⟩]⟩]
/-- Registers of the cell window (R77), part 4. -/
def cellRegs4 : List RegDef := [
  ⟨"ARM_RS_ADDR", 0xC10, 0x8, 1, .cell, .host,
    [⟨"BUSY_ERR", 13, 1, .rw1c, 0x0⟩, ⟨"AUTOINC", 12, 1, .rw, 0x1⟩, ⟨"CTX", 8, 2, .rw, 0x0⟩, ⟨"ENTRY", 0, 8, .rw, 0x0⟩]⟩,
  ⟨"ARM_RS_DATA", 0xC18, 0x8, 1, .cell, .host,
    [⟨"ENTRY", 0, 64, .rw, 0x0⟩]⟩,
  ⟨"ARM_SCHED_CTRL", 0xC40, 0x50, 4, .niche, .host,
    [⟨"MODE", 62, 2, .rw, 0x0⟩, ⟨"OFFSET", 32, 24, .rw, 0x0⟩, ⟨"STOP", 3, 1, .wo, 0x0⟩, ⟨"GO", 2, 1, .wo, 0x0⟩, ⟨"ENABLE", 0, 1, .rw, 0x0⟩]⟩,
  ⟨"ARM_SCHED_STATUS", 0xC48, 0x50, 4, .cell, .hw,
    [⟨"STATE", 62, 2, .ro, 0x0⟩, ⟨"ENTRY", 48, 8, .ro, 0x0⟩, ⟨"REP_LEFT", 40, 8, .ro, 0x0⟩, ⟨"CYCLE", 16, 24, .ro, 0x0⟩]⟩,
  ⟨"ARM_LOOP01", 0xC50, 0x50, 4, .niche, .host,
    [⟨"START1", 48, 8, .rw, 0x0⟩, ⟨"COUNT1", 32, 16, .rw, 0x0⟩, ⟨"START0", 16, 8, .rw, 0x0⟩, ⟨"COUNT0", 0, 16, .rw, 0x0⟩]⟩,
  ⟨"ARM_LOOP23", 0xC58, 0x50, 4, .niche, .host,
    [⟨"START3", 48, 8, .rw, 0x0⟩, ⟨"COUNT3", 32, 16, .rw, 0x0⟩, ⟨"START2", 16, 8, .rw, 0x0⟩, ⟨"COUNT2", 0, 16, .rw, 0x0⟩]⟩,
  ⟨"ARM_LOOP_LEFT", 0xC60, 0x50, 4, .cell, .hw,
    [⟨"LEFT3", 48, 16, .ro, 0x0⟩, ⟨"LEFT2", 32, 16, .ro, 0x0⟩, ⟨"LEFT1", 16, 16, .ro, 0x0⟩, ⟨"LEFT0", 0, 16, .ro, 0x0⟩]⟩,
  ⟨"ARM_AG0", 0xC68, 0x50, 4, .niche, .host,
    [⟨"LEN", 32, 12, .rw, 0x0⟩, ⟨"STRIDE", 16, 12, .rw, 0x0⟩, ⟨"BASE", 0, 12, .rw, 0x0⟩]⟩,
  ⟨"ARM_AG0", 0xC68, 0x50, 4, .cell, .host,
    [⟨"USED", 52, 12, .ro, 0x0⟩]⟩,
  ⟨"ARM_AG1", 0xC70, 0x50, 4, .niche, .host,
    [⟨"LEN", 32, 12, .rw, 0x0⟩, ⟨"STRIDE", 16, 12, .rw, 0x0⟩, ⟨"BASE", 0, 12, .rw, 0x0⟩]⟩,
  ⟨"ARM_AG1", 0xC70, 0x50, 4, .cell, .host,
    [⟨"USED", 52, 12, .ro, 0x0⟩]⟩,
  ⟨"ARM_AG2", 0xC78, 0x50, 4, .niche, .host,
    [⟨"LEN", 32, 12, .rw, 0x0⟩, ⟨"STRIDE", 16, 12, .rw, 0x0⟩, ⟨"BASE", 0, 12, .rw, 0x0⟩]⟩]
/-- Registers of the cell window (R77), part 5. -/
def cellRegs5 : List RegDef := [
  ⟨"ARM_AG2", 0xC78, 0x50, 4, .cell, .host,
    [⟨"USED", 52, 12, .ro, 0x0⟩]⟩,
  ⟨"ARM_AG3", 0xC80, 0x50, 4, .niche, .host,
    [⟨"LEN", 32, 12, .rw, 0x0⟩, ⟨"STRIDE", 16, 12, .rw, 0x0⟩, ⟨"BASE", 0, 12, .rw, 0x0⟩]⟩,
  ⟨"ARM_AG3", 0xC80, 0x50, 4, .cell, .host,
    [⟨"USED", 52, 12, .ro, 0x0⟩]⟩,
  ⟨"SPR_CTRL", 0xD80, 0x8, 1, .die, .atelier,
    [⟨"RSP_EXP", 8, 5, .rw, 0x16⟩, ⟨"DOWN", 4, 4, .rw, 0x0⟩, ⟨"EDGE", 0, 4, .rw, 0xF⟩]⟩,
  ⟨"SPR_STATUS", 0xD88, 0x8, 1, .cell, .hw,
    [⟨"STALE_CNT", 48, 16, .rw, 0x0⟩, ⟨"REFUSED_CNT", 32, 16, .rw, 0x0⟩, ⟨"PAR_CNT", 16, 16, .rw, 0x0⟩, ⟨"QUARANTINED", 10, 6, .ro, 0x0⟩, ⟨"OUTSTANDING", 6, 4, .ro, 0x0⟩, ⟨"LOCKS", 2, 4, .ro, 0x0⟩, ⟨"SEL", 0, 2, .rw, 0x0⟩]⟩,
  ⟨"SPR_ERR", 0xD90, 0x8, 1, .cell, .hw,
    [⟨"REFUSED", 1, 1, .rw1c, 0x0⟩, ⟨"HDR_ERR", 0, 1, .rw1c, 0x0⟩]⟩,
  ⟨"INT_CK_STATE", 0x860, 0x8, 1, .cell, .hw,
    [⟨"Q", 52, 12, .ro, 0x0⟩, ⟨"NBC", 40, 12, .ro, 0x0⟩, ⟨"LAST_CKPT", 28, 12, .ro, 0x0⟩, ⟨"HIST_VALID", 27, 1, .ro, 0x0⟩, ⟨"HIST_BLOCKS", 25, 2, .ro, 0x0⟩]⟩,
  ⟨"INT_ARB_REC", 0x868, 0x8, 1, .cell, .hw,
    [⟨"VALID", 63, 1, .rw1c, 0x0⟩, ⟨"OUTCOME", 60, 3, .ro, 0x0⟩, ⟨"ROLE", 58, 2, .ro, 0x0⟩, ⟨"SUSPECT", 44, 14, .ro, 0x0⟩, ⟨"ENTRIES", 35, 9, .ro, 0x0⟩, ⟨"FIRST_ENTRY", 27, 8, .ro, 0x0⟩, ⟨"DURATION", 0, 24, .ro, 0x0⟩]⟩,
  ⟨"PMC_CTL", 0xE00, 0x10, 8, .niche, .host,
    [⟨"EN", 63, 1, .rw, 0x0⟩, ⟨"OVF", 62, 1, .rw1c, 0x0⟩, ⟨"INT_EN", 61, 1, .rw, 0x0⟩, ⟨"ADDR_EN", 60, 1, .rw, 0x0⟩, ⟨"PRIV", 58, 2, .rw, 0x0⟩, ⟨"MASTER", 24, 8, .rw, 0xFF⟩, ⟨"CODE", 0, 16, .rw, 0x0⟩]⟩,
  ⟨"PMC_CNT", 0xE08, 0x10, 8, .niche, .host,
    [⟨"OVF", 63, 1, .ro, 0x0⟩, ⟨"COUNT", 0, 48, .rw, 0x0⟩]⟩,
  ⟨"PMC_ADDR", 0xE80, 0x8, 1, .niche, .host,
    [⟨"HI", 32, 32, .rw, 0xFFFFFFFF⟩, ⟨"LO", 0, 32, .rw, 0x0⟩]⟩,
  ⟨"PMC_SNAP", 0xE88, 0x8, 1, .niche, .host,
    [⟨"GO", 63, 1, .wo, 0x0⟩, ⟨"SNAP_SEQ", 48, 15, .ro, 0x0⟩, ⟨"TICK", 0, 48, .ro, 0x0⟩]⟩]
/-- Registers of the cell window (R77), part 6. -/
def cellRegs6 : List RegDef := [
  ⟨"PMC_SAMP_CTL", 0xE90, 0x8, 1, .niche, .host,
    [⟨"EN", 63, 1, .rw, 0x0⟩, ⟨"MODE", 62, 1, .rw, 0x0⟩, ⟨"SRC", 59, 3, .rw, 0x0⟩, ⟨"COUNT", 53, 6, .ro, 0x0⟩, ⟨"FULL", 52, 1, .ro, 0x0⟩, ⟨"LOST", 44, 8, .rw, 0x0⟩, ⟨"RD_ENTRY", 34, 6, .rw, 0x0⟩, ⟨"RD_WORD", 32, 2, .rw, 0x0⟩, ⟨"PERIOD", 0, 32, .rw, 0x1000⟩]⟩,
  ⟨"PMC_SAMP_DATA", 0xE98, 0x8, 1, .niche, .host,
    [⟨"DATA", 0, 64, .ro, 0x0⟩]⟩,
  ⟨"PMC_QSEL", 0xEA0, 0x8, 1, .niche, .host,
    [⟨"KIND", 12, 4, .rw, 0x0⟩, ⟨"INDEX", 4, 8, .rw, 0x0⟩, ⟨"WORD", 0, 4, .rw, 0x0⟩]⟩,
  ⟨"PMC_QDATA", 0xEA8, 0x8, 1, .niche, .hw,
    [⟨"DATA", 0, 64, .ro, 0x0⟩]⟩,
  ⟨"CELL_PAT_DRAIN0", 0x900, 0x8, 1, .niche, .cell,
    [⟨"V", 0, 64, .rw, 0x0⟩]⟩,
  ⟨"CELL_PAT_DRAIN1", 0x908, 0x8, 1, .niche, .cell,
    [⟨"V", 0, 64, .rw, 0x0⟩]⟩,
  ⟨"CELL_PAT_SCALE", 0x910, 0x8, 1, .niche, .cell,
    [⟨"V", 0, 64, .rw, 0x0⟩]⟩,
  ⟨"CELL_PAT_SCALE_M", 0x918, 0x8, 4, .niche, .cell,
    [⟨"V", 0, 64, .rw, 0x1000100010001⟩]⟩,
  ⟨"CELL_PAT_BIAS", 0x938, 0x8, 1, .niche, .cell,
    [⟨"V", 0, 64, .rw, 0x4⟩]⟩,
  ⟨"CELL_PAT_BIAS_V", 0x940, 0x8, 8, .niche, .cell,
    [⟨"V", 0, 64, .rw, 0x0⟩]⟩,
  ⟨"CELL_PAT_ACT", 0x980, 0x8, 1, .niche, .cell,
    [⟨"V", 0, 64, .rw, 0x0⟩]⟩,
  ⟨"CELL_PAT_ACT_T", 0x988, 0x8, 6, .niche, .cell,
    [⟨"V", 0, 64, .rw, 0x0⟩]⟩]
/-- Registers of the cell window (R77), part 7. -/
def cellRegs7 : List RegDef := [
  ⟨"CELL_PAT_CLAMP", 0x9B8, 0x8, 1, .niche, .cell,
    [⟨"V", 0, 64, .rw, 0x7F800000FF800000⟩]⟩,
  ⟨"CELL_PAT_RESID", 0x9C0, 0x8, 1, .niche, .cell,
    [⟨"V", 0, 64, .rw, 0xD0000000⟩]⟩,
  ⟨"CELL_PAT_SOFTMAX", 0x9C8, 0x8, 1, .niche, .cell,
    [⟨"V", 0, 64, .rw, 0x0⟩]⟩,
  ⟨"CELL_PAT_QUANT", 0x9D0, 0x8, 1, .niche, .cell,
    [⟨"V", 0, 64, .rw, 0xD⟩]⟩]
/-- Registers of the cell window (R77). -/
def cellRegs : List RegDef := cellRegs0 ++ cellRegs1 ++ cellRegs2 ++ cellRegs3 ++ cellRegs4 ++ cellRegs5 ++ cellRegs6 ++ cellRegs7

/-- Registers of the court block (R291), part 0. -/
def courtRegs0 : List RegDef := [
  ⟨"SPR_RT_ADDR", 0x200, 0x8, 1, .die, .atelier,
    [⟨"BUSY_ERR", 9, 1, .rw1c, 0x0⟩, ⟨"VER", 8, 1, .rw, 0x0⟩, ⟨"INDEX", 0, 8, .rw, 0x0⟩]⟩,
  ⟨"SPR_RT_DATA", 0x208, 0x8, 1, .die, .atelier,
    [⟨"ROUTE", 0, 64, .rw, 0x0⟩]⟩,
  ⟨"SYN_CFG", 0x1000, 0x10, 128, .die, .atelier,
    [⟨"CFG_ERR", 63, 1, .rw1c, 0x0⟩, ⟨"TARGET", 32, 14, .rw, 0x1⟩, ⟨"WAIT_EXP", 8, 5, .rw, 0x15⟩, ⟨"TYPE", 0, 3, .rw, 0x0⟩]⟩,
  ⟨"SYN_STATE", 0x1008, 0x10, 128, .die, .atelier,
    [⟨"LSTATE", 62, 2, .rw, 0x0⟩, ⟨"OWNER_CTX", 60, 2, .rw, 0x0⟩, ⟨"OWNER_CELL", 46, 14, .rw, 0x0⟩, ⟨"ARRIVED", 32, 14, .rw, 0x0⟩, ⟨"VALUE", 0, 32, .rw, 0x0⟩]⟩,
  ⟨"SYN_STATUS", 0x800, 0x8, 1, .die, .hw,
    [⟨"NOT_OWNER_CNT", 48, 16, .rw, 0x0⟩, ⟨"TIMEOUT_CNT", 32, 16, .rw, 0x0⟩, ⟨"FULL_CNT", 16, 16, .rw, 0x0⟩, ⟨"WAITERS", 0, 7, .ro, 0x0⟩]⟩,
  ⟨"CRT_CTRL", 0x0, 0x8, 1, .die, .atelier,
    [⟨"CLR_REFUSED", 1, 1, .rw1c, 0x0⟩, ⟨"CLEAR", 0, 1, .wo, 0x0⟩]⟩,
  ⟨"CRT_STATUS", 0x8, 0x8, 1, .die, .hw,
    [⟨"ROUNDS_LEFT", 27, 5, .ro, 0x0⟩, ⟨"CUR_OP", 8, 8, .ro, 0x0⟩, ⟨"HELD", 5, 3, .ro, 0x0⟩, ⟨"RIF_STATE", 2, 3, .ro, 0x0⟩, ⟨"CLEARING", 0, 1, .ro, 0x0⟩]⟩,
  ⟨"RIF_FAULT", 0x10, 0x8, 1, .die, .hw,
    [⟨"VALID", 63, 1, .rw1c, 0x0⟩, ⟨"CODE", 48, 8, .ro, 0x0⟩, ⟨"CTX", 46, 2, .ro, 0x0⟩, ⟨"CELL", 32, 14, .ro, 0x0⟩, ⟨"DETAIL", 0, 11, .ro, 0x0⟩]⟩,
  ⟨"CRT_XBAR_CNT", 0x18, 0x8, 1, .die, .hw,
    [⟨"RIF_ROUNDS", 32, 32, .rw, 0x0⟩, ⟨"OTHER_ROUNDS", 0, 32, .rw, 0x0⟩]⟩,
  ⟨"CRT_PLN_ECC", 0x20, 0x8, 1, .powerOn, .hw,
    [⟨"CE_CNT", 32, 32, .rw, 0x0⟩, ⟨"UE_CNT", 16, 16, .rw, 0x0⟩]⟩,
  ⟨"CRT_HOST_ADDR", 0x28, 0x8, 1, .die, .host,
    [⟨"ERR", 63, 1, .rw1c, 0x0⟩, ⟨"AUTOINC", 32, 1, .rw, 0x1⟩, ⟨"ADDR", 2, 20, .rw, 0x0⟩]⟩,
  ⟨"CRT_HOST_DATA", 0x30, 0x8, 1, .die, .host,
    [⟨"POISON", 32, 1, .ro, 0x0⟩, ⟨"DATA", 0, 32, .rw, 0x0⟩]⟩]
/-- Registers of the court block (R291), part 1. -/
def courtRegs1 : List RegDef := [
  ⟨"DMA_QCFG", 0x3000, 0x10, 16, .niche, .atelier,
    [⟨"ENABLE", 63, 1, .rw, 0x0⟩, ⟨"FIXED", 62, 1, .rw, 0x0⟩]⟩,
  ⟨"DMA_QST", 0x3008, 0x10, 16, .niche, .hw,
    [⟨"POSTED", 48, 16, .ro, 0x0⟩, ⟨"COMPLETED", 32, 16, .ro, 0x0⟩, ⟨"ACTIVE", 6, 1, .ro, 0x0⟩, ⟨"QUEUED", 0, 6, .ro, 0x0⟩]⟩,
  ⟨"DMA_FAULT", 0x3100, 0x8, 1, .die, .hw,
    [⟨"VALID", 63, 1, .rw1c, 0x0⟩, ⟨"CODE", 48, 8, .ro, 0x0⟩, ⟨"CTX", 46, 2, .ro, 0x0⟩, ⟨"CELL", 32, 14, .ro, 0x0⟩, ⟨"QUEUE", 11, 4, .ro, 0x0⟩, ⟨"DETAIL", 0, 11, .ro, 0x0⟩]⟩,
  ⟨"RES_ROWMAP", 0x3800, 0x8, 1, .die, .hw,
    [⟨"ROWS", 0, 64, .ro, 0xFFFFFFFFFFFFFFFF⟩]⟩,
  ⟨"RES_RASP_CTRL", 0x3808, 0x8, 1, .die, .atelier,
    [⟨"STEP", 20, 12, .ro, 0x0⟩, ⟨"CELL", 8, 8, .ro, 0x0⟩, ⟨"MODE", 1, 1, .rw, 0x0⟩, ⟨"ENABLE", 0, 1, .rw, 0x1⟩]⟩,
  ⟨"RES_RASP_SIG", 0x3810, 0x8, 1, .die, .hw,
    [⟨"SIG", 0, 64, .ro, 0x0⟩]⟩,
  ⟨"RES_RASP_STATUS", 0x3818, 0x8, 1, .die, .hw,
    [⟨"SWEEPS", 32, 32, .rw, 0x0⟩, ⟨"INCOMPLETE", 16, 16, .rw, 0x0⟩, ⟨"FAILS", 8, 8, .rw, 0x0⟩, ⟨"FAIL", 0, 1, .rw1c, 0x0⟩]⟩,
  ⟨"PMC_CTL", 0x3900, 0x10, 8, .niche, .host,
    [⟨"EN", 63, 1, .rw, 0x0⟩, ⟨"OVF", 62, 1, .rw1c, 0x0⟩, ⟨"INT_EN", 61, 1, .rw, 0x0⟩, ⟨"ADDR_EN", 60, 1, .rw, 0x0⟩, ⟨"PRIV", 58, 2, .rw, 0x0⟩, ⟨"MASTER", 24, 8, .rw, 0xFF⟩, ⟨"CODE", 0, 16, .rw, 0x0⟩]⟩,
  ⟨"PMC_CNT", 0x3908, 0x10, 8, .niche, .host,
    [⟨"OVF", 63, 1, .ro, 0x0⟩, ⟨"COUNT", 0, 48, .rw, 0x0⟩]⟩,
  ⟨"PMC_ADDR", 0x3980, 0x8, 1, .niche, .host,
    [⟨"HI", 32, 32, .rw, 0xFFFFFFFF⟩, ⟨"LO", 0, 32, .rw, 0x0⟩]⟩,
  ⟨"PMC_SNAP", 0x3988, 0x8, 1, .niche, .host,
    [⟨"GO", 63, 1, .wo, 0x0⟩, ⟨"SNAP_SEQ", 48, 15, .ro, 0x0⟩, ⟨"TICK", 0, 48, .ro, 0x0⟩]⟩,
  ⟨"PMC_QSEL", 0x39A0, 0x8, 1, .niche, .host,
    [⟨"KIND", 12, 4, .rw, 0x0⟩, ⟨"INDEX", 4, 8, .rw, 0x0⟩, ⟨"WORD", 0, 4, .rw, 0x0⟩]⟩]
/-- Registers of the court block (R291), part 2. -/
def courtRegs2 : List RegDef := [
  ⟨"PMC_QDATA", 0x39A8, 0x8, 1, .niche, .hw,
    [⟨"DATA", 0, 64, .ro, 0x0⟩]⟩]
/-- Registers of the court block (R291). -/
def courtRegs : List RegDef := courtRegs0 ++ courtRegs1 ++ courtRegs2

/-- Registers of the die block, part 0. -/
def dieRegs0 : List RegDef := [
  ⟨"ARM_SEAM_STATUS", 0x8000, 0x8, 1, .die, .hw,
    [⟨"V_MARGIN", 11, 3, .ro, 0x6⟩, ⟨"H_MARGIN", 8, 3, .ro, 0x6⟩, ⟨"V_ALARM", 1, 1, .rw1c, 0x0⟩, ⟨"H_ALARM", 0, 1, .rw1c, 0x0⟩]⟩,
  ⟨"SPR_NICHE_EPOCH", 0x8100, 0x8, 16, .package, .atelier,
    [⟨"SWITCH_ERR", 5, 1, .rw1c, 0x0⟩, ⟨"OLD_BUSY", 4, 1, .ro, 0x0⟩, ⟨"PRIV_BUSY", 3, 1, .ro, 0x0⟩, ⟨"PRIV_HOLD", 1, 1, .rw, 0x0⟩, ⟨"ACTIVE", 0, 1, .rw, 0x0⟩]⟩,
  ⟨"HBM_CTRL", 0xA000, 0x800, 2, .die, .atelier,
    [⟨"SCRUB_H", 0, 8, .rw, 0x18⟩]⟩,
  ⟨"HBM_ECC", 0xA008, 0x800, 2, .powerOn, .hw,
    [⟨"CE_CNT", 32, 32, .rw, 0x0⟩, ⟨"UE_CNT", 16, 16, .rw, 0x0⟩, ⟨"BCHK_CNT", 0, 16, .rw, 0x0⟩]⟩,
  ⟨"HBM_UE_ADDR", 0xA010, 0x800, 2, .powerOn, .hw,
    [⟨"VALID", 63, 1, .rw1c, 0x0⟩, ⟨"ADDR", 5, 33, .ro, 0x0⟩]⟩,
  ⟨"LNK_CTRL", 0xC000, 0x200, 24, .die, .atelier,
    [⟨"NICHE", 12, 4, .rw, 0x0⟩, ⟨"NBOUND", 11, 1, .rw, 0x0⟩, ⟨"TRANSIT", 10, 1, .rw, 0x0⟩, ⟨"EDGE", 9, 1, .rw, 0x0⟩, ⟨"X1_ALLOW", 8, 1, .rw, 0x1⟩, ⟨"RATE_CAP", 7, 1, .rw, 0x0⟩, ⟨"FORCE_RS", 6, 1, .rw, 0x0⟩, ⟨"AUTO_RESTART", 5, 1, .rw, 0x1⟩, ⟨"RETRAIN", 1, 1, .wo, 0x0⟩, ⟨"ENABLE", 0, 1, .rw, 0x0⟩]⟩,
  ⟨"LNK_STATUS", 0xC008, 0x200, 24, .die, .hw,
    [⟨"VER", 16, 8, .ro, 0x0⟩, ⟨"FUSED", 15, 1, .ro, 0x0⟩, ⟨"LANE1_FENCED", 14, 1, .ro, 0x0⟩, ⟨"LANE0_FENCED", 13, 1, .ro, 0x0⟩, ⟨"WIDTH", 12, 1, .ro, 0x0⟩, ⟨"FEC", 11, 1, .ro, 0x0⟩, ⟨"RATE", 10, 1, .ro, 0x0⟩, ⟨"STATE", 0, 4, .ro, 0x0⟩]⟩,
  ⟨"LNK_PARTNER", 0xC010, 0x200, 24, .die, .hw,
    [⟨"FEATURES", 0, 64, .ro, 0x0⟩]⟩,
  ⟨"LNK_PARTNER_ID", 0xC018, 0x200, 24, .die, .hw,
    [⟨"VALID", 32, 1, .ro, 0x0⟩, ⟨"ROLE", 24, 8, .ro, 0x0⟩, ⟨"PORT", 16, 8, .ro, 0x0⟩, ⟨"DEV_ID", 0, 12, .ro, 0x0⟩]⟩,
  ⟨"LNK_DELAY", 0xC020, 0x200, 24, .die, .hw,
    [⟨"VALID", 63, 1, .ro, 0x0⟩, ⟨"LENGTH_CM", 32, 16, .ro, 0x0⟩, ⟨"DELAY_PS", 0, 32, .ro, 0x0⟩]⟩,
  ⟨"LNK_CREDIT", 0xC028, 0x200, 24, .die, .atelier,
    [⟨"PB3", 56, 8, .ro, 0x0⟩, ⟨"PB2", 48, 8, .ro, 0x0⟩, ⟨"PB1", 40, 8, .ro, 0x0⟩, ⟨"PB0", 32, 8, .ro, 0x0⟩, ⟨"B3", 24, 8, .rw, 0x8⟩, ⟨"B2", 16, 8, .rw, 0x10⟩, ⟨"B1", 8, 8, .rw, 0x20⟩, ⟨"B0", 0, 8, .rw, 0x8⟩]⟩,
  ⟨"LNK_EVENT", 0xC030, 0x200, 24, .die, .hw,
    [⟨"EV", 1, 16, .rw1c, 0x0⟩]⟩]
/-- Registers of the die block, part 1. -/
def dieRegs1 : List RegDef := [
  ⟨"LNK_CNT", 0xC038, 0x200, 24, .die, .hw,
    [⟨"REPLAYS", 48, 16, .rw, 0x0⟩, ⟨"CRC_ERR", 32, 16, .rw, 0x0⟩, ⟨"TT_LATE", 16, 16, .rw, 0x0⟩, ⟨"REFUSED", 0, 16, .rw, 0x0⟩]⟩,
  ⟨"LNK_FEC_CNT", 0xC040, 0x200, 24, .die, .hw,
    [⟨"CORR_SYM", 32, 32, .rw, 0x0⟩, ⟨"UNCORR_CW", 0, 32, .rw, 0x0⟩]⟩,
  ⟨"INT_DIE_CE", 0x10000, 0x8, 1, .powerOn, .hw,
    [⟨"DATAPATH", 48, 16, .rw, 0x0⟩, ⟨"STORE", 32, 16, .rw, 0x0⟩, ⟨"REGFILE", 16, 16, .rw, 0x0⟩, ⟨"ISTORE", 0, 16, .rw, 0x0⟩]⟩,
  ⟨"INT_DIE_UE", 0x10008, 0x8, 1, .powerOn, .hw,
    [⟨"DATAPATH", 48, 16, .rw, 0x0⟩, ⟨"STORE", 32, 16, .rw, 0x0⟩, ⟨"REGFILE", 16, 16, .rw, 0x0⟩, ⟨"ISTORE", 0, 16, .rw, 0x0⟩]⟩,
  ⟨"INT_FLOG_STATUS", 0x10010, 0x8, 1, .die, .hw,
    [⟨"OVERWRITTEN", 32, 32, .rw, 0x0⟩, ⟨"COUNT", 11, 11, .ro, 0x0⟩, ⟨"HEAD", 0, 10, .ro, 0x0⟩]⟩,
  ⟨"RST_WD_CFG", 0x30000, 0x8, 1, .die, .atelier,
    [⟨"ATL_WD", 16, 10, .rw, 0xA⟩, ⟨"NWD_EXP", 8, 5, .rw, 0x18⟩, ⟨"CWD_EXP", 0, 5, .rw, 0x1A⟩]⟩,
  ⟨"PMC_CTL", 0xD0000, 0x10, 8, .die, .atelier,
    [⟨"EN", 63, 1, .rw, 0x0⟩, ⟨"OVF", 62, 1, .rw1c, 0x0⟩, ⟨"INT_EN", 61, 1, .rw, 0x0⟩, ⟨"ADDR_EN", 60, 1, .rw, 0x0⟩, ⟨"PRIV", 58, 2, .rw, 0x0⟩, ⟨"MASTER", 24, 8, .rw, 0xFF⟩, ⟨"CODE", 0, 16, .rw, 0x0⟩]⟩,
  ⟨"PMC_CNT", 0xD0008, 0x10, 8, .die, .atelier,
    [⟨"OVF", 63, 1, .ro, 0x0⟩, ⟨"COUNT", 0, 48, .rw, 0x0⟩]⟩,
  ⟨"PMC_ADDR", 0xD0080, 0x8, 1, .die, .atelier,
    [⟨"HI", 32, 32, .rw, 0xFFFFFFFF⟩, ⟨"LO", 0, 32, .rw, 0x0⟩]⟩,
  ⟨"PMC_SNAP", 0xD0088, 0x8, 1, .die, .atelier,
    [⟨"GO", 63, 1, .wo, 0x0⟩, ⟨"SNAP_SEQ", 48, 15, .ro, 0x0⟩, ⟨"TICK", 0, 48, .ro, 0x0⟩]⟩,
  ⟨"PMC_QSEL", 0xD00A0, 0x8, 1, .die, .atelier,
    [⟨"KIND", 12, 4, .rw, 0x0⟩, ⟨"INDEX", 4, 8, .rw, 0x0⟩, ⟨"WORD", 0, 4, .rw, 0x0⟩]⟩,
  ⟨"PMC_QDATA", 0xD00A8, 0x8, 1, .die, .atelier,
    [⟨"DATA", 0, 64, .ro, 0x0⟩]⟩]
/-- Registers of the die block. -/
def dieRegs : List RegDef := dieRegs0 ++ dieRegs1

/-- Registers of the package block, part 0. -/
def pkgRegs0 : List RegDef := [
  ⟨"HBM_NWIN0", 0x2000, 0x10, 16, .package, .atelier,
    [⟨"VALID", 63, 1, .rw, 0x0⟩, ⟨"READONLY", 62, 1, .rw, 0x0⟩, ⟨"SIZE_SEG", 32, 22, .rw, 0x0⟩, ⟨"BASE_SEG", 0, 22, .rw, 0x0⟩]⟩,
  ⟨"HBM_NWIN1", 0x2008, 0x10, 16, .package, .atelier,
    [⟨"VALID", 63, 1, .rw, 0x0⟩, ⟨"READONLY", 62, 1, .rw, 0x0⟩, ⟨"SIZE_SEG", 32, 22, .rw, 0x0⟩, ⟨"BASE_SEG", 0, 22, .rw, 0x0⟩]⟩,
  ⟨"TMB_TICK", 0x3000, 0x8, 1, .powerOn, .hw,
    [⟨"TICK", 0, 64, .ro, 0x0⟩]⟩,
  ⟨"TMB_STATUS", 0x3008, 0x8, 1, .package, .hw,
    [⟨"POD_ACTIVE", 39, 1, .ro, 0x0⟩, ⟨"PARENT_VALID", 38, 1, .ro, 0x0⟩, ⟨"PARENT_LINK", 31, 7, .ro, 0x0⟩, ⟨"HOPS", 25, 6, .ro, 0x0⟩, ⟨"LEADER_ID", 13, 12, .ro, 0x0⟩, ⟨"STATE", 0, 3, .ro, 0x0⟩]⟩,
  ⟨"TMB_SERVO", 0x3010, 0x8, 1, .package, .hw,
    [⟨"THETA", 32, 32, .ro, 0x0⟩, ⟨"RATE_ADJ", 0, 32, .ro, 0x0⟩]⟩,
  ⟨"TMB_CTRL", 0x3018, 0x8, 1, .package, .atelier,
    [⟨"STEP_ALLOW", 1, 1, .rw, 0x1⟩, ⟨"ENABLE", 0, 1, .rw, 0x1⟩]⟩,
  ⟨"TMB_EVENT", 0x3020, 0x8, 1, .package, .hw,
    [⟨"EV", 1, 10, .rw1c, 0x0⟩]⟩,
  ⟨"TMB_STRAG_CUR0", 0x3040, 0x8, 1, .package, .hw,
    [⟨"INSTANCES", 48, 16, .ro, 0x0⟩, ⟨"LAST_CNT", 32, 16, .ro, 0x0⟩, ⟨"LATE_MAX", 16, 16, .ro, 0x0⟩, ⟨"SPREAD_MAX", 0, 16, .ro, 0x0⟩]⟩,
  ⟨"TMB_STRAG_PREV0", 0x3050, 0x8, 1, .package, .hw,
    [⟨"INSTANCES", 48, 16, .ro, 0x0⟩, ⟨"LAST_CNT", 32, 16, .ro, 0x0⟩, ⟨"LATE_MAX", 16, 16, .ro, 0x0⟩, ⟨"SPREAD_MAX", 0, 16, .ro, 0x0⟩]⟩,
  ⟨"TMB_STRAG_CUR1", 0x3048, 0x8, 1, .package, .hw,
    [⟨"LATE_SUM", 0, 64, .ro, 0x0⟩]⟩,
  ⟨"TMB_STRAG_PREV1", 0x3058, 0x8, 1, .package, .hw,
    [⟨"LATE_SUM", 0, 64, .ro, 0x0⟩]⟩,
  ⟨"TMB_NSTART", 0x3100, 0x10, 16, .niche, .atelier,
    [⟨"START_TICK", 0, 64, .rw, 0x0⟩]⟩]
/-- Registers of the package block, part 1. -/
def pkgRegs1 : List RegDef := [
  ⟨"TMB_NFRAME", 0x3108, 0x10, 16, .niche, .atelier,
    [⟨"MODE", 62, 2, .rw, 0x0⟩, ⟨"START_LATE", 61, 1, .rw1c, 0x0⟩, ⟨"FRAME_ERR", 60, 1, .rw1c, 0x0⟩, ⟨"FRAME_CNT", 24, 24, .ro, 0x0⟩, ⟨"FRAME_LEN", 0, 24, .rw, 0xFF⟩]⟩,
  ⟨"NCH_CFG", 0x1000, 0x10, 16, .package, .atelier,
    [⟨"VALID", 63, 1, .ro, 0x0⟩, ⟨"PENDANT", 62, 1, .ro, 0x0⟩, ⟨"DEFBUCKET", 59, 3, .ro, 0x0⟩, ⟨"CELLWIN", 58, 1, .ro, 0x1⟩, ⟨"VFB_VALID", 47, 1, .ro, 0x0⟩, ⟨"VFB", 40, 4, .ro, 0x0⟩, ⟨"VFA_VALID", 39, 1, .ro, 0x0⟩, ⟨"VFA", 32, 4, .ro, 0x0⟩, ⟨"HEIGHT", 20, 4, .ro, 0x0⟩, ⟨"WIDTH", 16, 4, .ro, 0x0⟩, ⟨"AY", 4, 4, .ro, 0x0⟩, ⟨"AX", 0, 4, .ro, 0x0⟩]⟩,
  ⟨"NCH_STATE", 0x1008, 0x10, 16, .package, .hw,
    [⟨"RESETS", 32, 32, .ro, 0x0⟩, ⟨"CHANGED", 3, 1, .rw1c, 0x0⟩, ⟨"STATE", 0, 3, .ro, 0x0⟩]⟩,
  ⟨"NCH_BIND", 0x4000, 0x8, 512, .package, .atelier,
    [⟨"VALID", 63, 1, .ro, 0x0⟩, ⟨"TYPE", 60, 3, .ro, 0x0⟩, ⟨"NICHE", 56, 4, .ro, 0x0⟩, ⟨"SIZE_SEG", 32, 22, .ro, 0x0⟩, ⟨"FIELD", 0, 22, .ro, 0x0⟩]⟩,
  ⟨"NCH_RING", 0x5000, 0x10, 128, .package, .atelier,
    [⟨"ENABLE", 63, 1, .ro, 0x0⟩, ⟨"DIR", 62, 1, .ro, 0x0⟩, ⟨"NICHE", 56, 4, .ro, 0x0⟩, ⟨"CY", 52, 4, .ro, 0x0⟩, ⟨"CX", 48, 4, .ro, 0x0⟩, ⟨"SLOTS", 40, 8, .ro, 0x0⟩, ⟨"BASE", 8, 14, .ro, 0x0⟩]⟩,
  ⟨"NCH_RST", 0x5008, 0x10, 128, .niche, .hw,
    [⟨"DROP_CNT", 48, 16, .ro, 0x0⟩, ⟨"COUNT", 39, 9, .ro, 0x0⟩, ⟨"WR", 31, 8, .ro, 0x0⟩, ⟨"RD", 23, 8, .ro, 0x0⟩]⟩,
  ⟨"NCH_EGR", 0x5800, 0x8, 128, .package, .atelier,
    [⟨"TARGET", 62, 1, .ro, 0x0⟩, ⟨"LINK", 48, 7, .ro, 0x0⟩, ⟨"DEST", 32, 16, .ro, 0x0⟩, ⟨"DST_DEV", 16, 12, .ro, 0x0⟩, ⟨"PORT", 12, 1, .ro, 0x0⟩, ⟨"FUNC", 4, 5, .ro, 0x0⟩, ⟨"HRING", 0, 4, .ro, 0x0⟩]⟩,
  ⟨"INT_PKG_STATUS", 0x6000, 0x8, 1, .powerOn, .atelier,
    [⟨"SUSPECT", 63, 1, .rw1c, 0x0⟩, ⟨"DISPUTES", 36, 12, .rw, 0x0⟩, ⟨"UNPLACED", 24, 12, .rw, 0x0⟩, ⟨"MEMBER", 12, 12, .rw, 0x0⟩, ⟨"CHECKER", 0, 12, .rw, 0x0⟩]⟩,
  ⟨"RES_PKG_STATUS", 0x6080, 0x8, 1, .powerOn, .atelier,
    [⟨"REPLACE", 63, 1, .ro, 0x0⟩, ⟨"REPLACE_SOON", 62, 1, .ro, 0x0⟩, ⟨"FLAW_USED", 32, 12, .ro, 0x0⟩, ⟨"DEGRADED", 24, 8, .ro, 0x0⟩, ⟨"UNEXPLAINED_24H", 16, 8, .ro, 0x0⟩, ⟨"FENCED", 0, 16, .ro, 0x0⟩]⟩,
  ⟨"RES_EVENT", 0x6088, 0x8, 1, .powerOn, .hw,
    [⟨"EV", 1, 15, .rw1c, 0x0⟩]⟩,
  ⟨"RES_HEAL_STATUS", 0x6100, 0x8, 16, .package, .hw,
    [⟨"LAST_PAUSE", 32, 32, .ro, 0x0⟩, ⟨"HEALS", 16, 16, .ro, 0x0⟩, ⟨"STEP", 0, 3, .ro, 0x0⟩]⟩,
  ⟨"RES_PENDANT", 0x6200, 0x10, 8, .package, .atelier,
    [⟨"VALID", 63, 1, .ro, 0x0⟩, ⟨"NICHE_B", 36, 4, .ro, 0x0⟩, ⟨"NICHE_A", 32, 4, .ro, 0x0⟩, ⟨"EGR_B", 21, 7, .ro, 0x0⟩, ⟨"EGR_A", 14, 7, .ro, 0x0⟩, ⟨"ING_B", 7, 7, .ro, 0x0⟩, ⟨"ING_A", 0, 7, .ro, 0x0⟩]⟩]
/-- Registers of the package block, part 2. -/
def pkgRegs2 : List RegDef := [
  ⟨"RES_PEND_CNT", 0x6208, 0x10, 8, .package, .hw,
    [⟨"MATCH", 32, 32, .rw, 0x0⟩, ⟨"DISAGREE", 24, 8, .rw, 0x0⟩, ⟨"UNCOMPARED", 16, 8, .rw, 0x0⟩, ⟨"SINGLE", 8, 8, .rw, 0x0⟩, ⟨"B_DROP", 0, 8, .rw, 0x0⟩]⟩,
  ⟨"RST_STATUS", 0x7000, 0x8, 1, .powerOn, .hw,
    [⟨"PKG_CNT", 48, 16, .ro, 0x0⟩, ⟨"DIE_CNT", 32, 16, .ro, 0x0⟩, ⟨"NICHE_CNT", 16, 16, .ro, 0x0⟩, ⟨"LAST_LEVEL", 5, 3, .ro, 0x0⟩, ⟨"ESCALATING", 4, 1, .ro, 0x0⟩, ⟨"DIE_BUSY", 0, 4, .ro, 0x0⟩]⟩,
  ⟨"RST_CAUSE", 0x7008, 0x8, 1, .powerOn, .hw,
    [⟨"SEQ", 32, 32, .ro, 0x0⟩, ⟨"DIE", 30, 2, .ro, 0x0⟩, ⟨"CODE", 16, 8, .ro, 0x0⟩, ⟨"NICHE", 8, 4, .ro, 0x0⟩, ⟨"NICHE_VALID", 7, 1, .ro, 0x0⟩, ⟨"LEVEL", 4, 3, .ro, 0x0⟩, ⟨"TRIGGER", 0, 4, .ro, 0x0⟩]⟩,
  ⟨"RST_CTRL", 0x7010, 0x8, 1, .package, .atelier,
    [⟨"PWRCYC_REQ", 5, 1, .wo, 0x0⟩, ⟨"PKG_REQ", 4, 1, .wo, 0x0⟩, ⟨"DIE_REQ", 0, 4, .wo, 0x0⟩]⟩,
  ⟨"RST_CRASH", 0x7018, 0x8, 1, .powerOn, .hw,
    [⟨"CRASH_SEQ", 32, 32, .ro, 0x0⟩, ⟨"INCOMPLETE", 31, 1, .ro, 0x0⟩, ⟨"NEW", 30, 1, .rw1c, 0x0⟩, ⟨"CELLS", 0, 14, .ro, 0x0⟩]⟩,
  ⟨"MGT_BOOT_STATUS", 0x7800, 0x8, 1, .package, .hw,
    [⟨"FAIL_CODE", 48, 8, .ro, 0x0⟩, ⟨"ELAPSED", 32, 16, .ro, 0x0⟩, ⟨"DIE_OK", 28, 4, .ro, 0x0⟩, ⟨"HBM_OK", 20, 8, .ro, 0x0⟩, ⟨"PRIMARY", 19, 1, .ro, 0x0⟩, ⟨"FAST", 18, 1, .ro, 0x0⟩, ⟨"IMAGE", 16, 2, .ro, 0x0⟩, ⟨"STATE", 12, 4, .ro, 0x0⟩, ⟨"SERVICE", 10, 2, .ro, 0x0⟩, ⟨"VARIANT", 8, 2, .ro, 0x0⟩]⟩,
  ⟨"MGT_STRAPS", 0x7808, 0x8, 1, .powerOn, .hw,
    [⟨"I3C_ADDR", 24, 7, .ro, 0x0⟩, ⟨"PROFILE_EFF", 22, 2, .ro, 0x0⟩, ⟨"LINKFEC", 13, 1, .ro, 0x0⟩, ⟨"HOSTPORT", 12, 1, .ro, 0x0⟩, ⟨"PROFILE", 10, 2, .ro, 0x0⟩, ⟨"BOOT", 8, 2, .ro, 0x0⟩, ⟨"SLOT", 0, 6, .ro, 0x0⟩]⟩,
  ⟨"MGT_ALERT", 0x7810, 0x8, 1, .powerOn, .atelier,
    [⟨"THERM_TRIP", 15, 1, .rw1c, 0x0⟩, ⟨"THERM_LIMIT", 14, 1, .rw1c, 0x0⟩, ⟨"THERM_HOT", 13, 1, .rw1c, 0x0⟩, ⟨"SUPPLY_OV", 12, 1, .rw1c, 0x0⟩, ⟨"NV_BLOCKED", 11, 1, .rw1c, 0x0⟩, ⟨"POWER_CAP", 10, 1, .rw1c, 0x0⟩, ⟨"REPLACE", 9, 1, .ro, 0x0⟩, ⟨"REPLACE_SOON", 8, 1, .ro, 0x0⟩, ⟨"RESTORER", 7, 1, .rw1c, 0x0⟩, ⟨"LINK", 6, 1, .rw1c, 0x0⟩, ⟨"TIME", 5, 1, .rw1c, 0x0⟩, ⟨"FW_FAILED", 4, 1, .rw1c, 0x0⟩, ⟨"DEBUG_UNLOCKED", 3, 1, .rw1c, 0x0⟩, ⟨"CRASH", 2, 1, .rw1c, 0x0⟩, ⟨"PWR_CYCLE", 1, 1, .ro, 0x0⟩]⟩,
  ⟨"PWR_STATUS", 0x7880, 0x8, 1, .powerOn, .hw,
    [⟨"POWER_W", 48, 16, .ro, 0x0⟩, ⟨"RAIL_BROWN", 20, 12, .rw1c, 0x0⟩, ⟨"RAIL_OV", 8, 12, .rw1c, 0x0⟩, ⟨"NV_OK", 7, 1, .ro, 0x0⟩, ⟨"PWR_GOOD", 6, 1, .ro, 0x0⟩, ⟨"PROFILE", 4, 2, .ro, 0x2⟩, ⟨"CHANGING", 3, 1, .ro, 0x0⟩, ⟨"THROTTLED", 2, 1, .ro, 0x0⟩, ⟨"TARGET", 0, 2, .ro, 0x2⟩]⟩,
  ⟨"PWR_THERM", 0x7888, 0x8, 1, .powerOn, .hw,
    [⟨"TJ3", 48, 16, .ro, 0x0⟩, ⟨"TJ2", 32, 16, .ro, 0x0⟩, ⟨"TJ1", 16, 16, .ro, 0x0⟩, ⟨"TJ0", 0, 16, .ro, 0x0⟩]⟩,
  ⟨"SEC_STATUS", 0x7900, 0x8, 1, .package, .hw,
    [⟨"DEBUG_FAILS", 12, 2, .ro, 0x0⟩, ⟨"DEBUG_SCOPE", 10, 2, .ro, 0x0⟩, ⟨"DEBUG_LOCKOUT", 9, 1, .ro, 0x0⟩, ⟨"KEYS_CLEARED", 8, 1, .ro, 0x0⟩, ⟨"KEYS_VALID", 7, 1, .ro, 0x0⟩, ⟨"SPDM_READY", 6, 1, .ro, 0x0⟩, ⟨"SESSIONS", 2, 4, .ro, 0x0⟩, ⟨"ANCHOR_SET", 1, 1, .ro, 0x0⟩, ⟨"SECURE_BOOT", 0, 1, .ro, 0x0⟩]⟩,
  ⟨"PMC_GSNAP", 0x7A00, 0x8, 1, .package, .atelier,
    [⟨"AT", 0, 64, .rw, 0x0⟩]⟩]
/-- Registers of the package block, part 3. -/
def pkgRegs3 : List RegDef := [
  ⟨"MGT_GPIO_FUNC", 0x7A80, 0x8, 1, .powerOn, .host,
    [⟨"FUNC", 0, 64, .rw, 0x0⟩]⟩,
  ⟨"MGT_GPIO_DATA", 0x7A88, 0x8, 1, .powerOn, .host,
    [⟨"FRAME_NICHE", 48, 4, .rw, 0x0⟩, ⟨"HOLD", 32, 16, .ro, 0x0⟩, ⟨"IN", 16, 16, .ro, 0x0⟩, ⟨"OUT", 0, 16, .rw, 0x0⟩]⟩]
/-- Registers of the package block. -/
def pkgRegs : List RegDef := pkgRegs0 ++ pkgRegs1 ++ pkgRegs2 ++ pkgRegs3

/-- Registers of the function page (R422), part 0. -/
def fnRegs0 : List RegDef := [
  ⟨"HST_SQB", 0x0, 0x8, 8, .package, .host,
    [⟨"ADDR", 12, 52, .rw, 0x0⟩, ⟨"VECTOR", 6, 6, .rw, 0x0⟩, ⟨"ENABLE", 5, 1, .rw, 0x0⟩, ⟨"ERR", 4, 1, .rw1c, 0x0⟩, ⟨"SIZE", 0, 4, .rw, 0x0⟩]⟩,
  ⟨"HST_CQB", 0x40, 0x8, 8, .package, .host,
    [⟨"ADDR", 12, 52, .rw, 0x0⟩, ⟨"VECTOR", 6, 6, .rw, 0x0⟩, ⟨"ENABLE", 5, 1, .rw, 0x0⟩, ⟨"ERR", 4, 1, .rw1c, 0x0⟩, ⟨"SIZE", 0, 4, .rw, 0x0⟩]⟩,
  ⟨"HST_ERB", 0x80, 0x8, 16, .package, .host,
    [⟨"ADDR", 12, 52, .rw, 0x0⟩, ⟨"VECTOR", 6, 6, .rw, 0x0⟩, ⟨"ENABLE", 5, 1, .rw, 0x0⟩, ⟨"ERR", 4, 1, .rw1c, 0x0⟩, ⟨"SIZE", 0, 4, .rw, 0x0⟩]⟩]
/-- Registers of the function page (R422). -/
def fnRegs : List RegDef := fnRegs0

/-- Reset values of a cell window; CTX_FAULT.CTX reads the context's own number (03_cell_core.md R77). -/
def cellRst (key : Nat) : Nat :=
  if key % 64 = 54 ∧ key / 64 ≥ 0x430 ∧ key / 64 ≤ 0x730 ∧ key / 64 % 0x100 = 0x30 then (key / 64 - 0x430) / 0x100
  else regReset cellRegs key
/-- Reset values of a court block. -/
def courtRst (key : Nat) : Nat := regReset courtRegs key
/-- Reset values of a die block. -/
def dieRst (key : Nat) : Nat := regReset dieRegs key
/-- Reset values of the package block. -/
def pkgRst (key : Nat) : Nat := regReset pkgRegs key
/-- Reset values of a function page. -/
def fnRst (key : Nat) : Nat := regReset fnRegs key

end Sys2Proof.Machine
end

