-- ==== Sys2Proof/Machine/CellState.lean ====
section
/-! DEFINITION. The state of one physical cell: contexts, stores, ports, MAC block, scratchpad, router and Sprue stop
(spec/03 to 08). Registers are in `regs`, field by field, keyed by their place in the cell window (R77). -/

namespace Sys2Proof.Machine
open Sys2Proof

/-- A 32-bit register or word with its poison bit (04 R91). -/
structure PW where
  v : BitVec 32
  p : Bool
deriving DecidableEq, Repr

/-- A predicate mask with its poison bit. -/
structure PP where
  v : BitVec 64
  p : Bool
deriving DecidableEq, Repr

/-- A v register: 512 bits, one poison bit a 32-bit word. -/
structure VR where
  v : BitVec 512
  p : BitVec 16
deriving DecidableEq, Repr

/-- The state of a stored word's check bits: good, correctable, uncorrectable (03 R60, 06 R196, 15 R435). -/
inductive Ecc where
  | ok | ce | ue
deriving DecidableEq, Repr

/-- Context states (03 R66). Code 7 is never reported. -/
inductive CtxState where
  | off | halted | ready | running | blocked | faulted | resetting
deriving DecidableEq, Repr

/-- The code of a state (R66). -/
def CtxState.code : CtxState → Nat
  | .off => 0 | .halted => 1 | .ready => 2 | .running => 3 | .blocked => 4 | .faulted => 5 | .resetting => 6

/-- What a blocked context waits on (03, CTX_WAIT.KIND). -/
inductive WaitKind where
  | none | recv | slot | sync | time | mac
  | tag   -- a receive wait for a free request tag (04 R113, R115)
deriving DecidableEq, Repr

/-- The code of a wait kind. -/
def WaitKind.code : WaitKind → Nat
  | .none => 0 | .recv => 1 | .slot => 2 | .sync => 3 | .time => 4 | .mac => 5 | .tag => 1

/-- One hardware context (03 R57, R66, R69; 04 R91, R114). A context reset leaves every field as here. -/
structure Ctx where
  s : FMap PW := []           -- s0 to s31
  a : FMap PW := []           -- a0 to a7
  vr : FMap VR := []          -- v0 to v15
  p : FMap PP := []           -- p0 to p7
  l : FMap (BitVec 32) := []  -- l0 to l3
  regUe : List (Nat × Bool) := []  -- registers whose stored check bits are uncorrectable, file * 32 + index (R76 REGFILE_UE),
                              -- and whether a REGFILE_UE has named them since they were written (16 R461)
  pc : BitVec 10 := 0
  state : CtxState := .off
  wait : WaitKind := .none
  waitObj : BitVec 32 := 0    -- CTX_WAIT.OBJECT
  waitElapsed : Nat := 0      -- CTX_WAIT.ELAPSED, 24 bits, saturating
  waitMatch : Nat × Nat × Nat := (0, 0, 0)  -- port, tag and mask of a blocked receive (R64)
  waitTick : Nat := 0         -- target tick of a timed wait; WAITF waits for an edge instead
  waitEdge : Bool := false    -- the wait is WAITF's (R125)
  waitTag : Nat := 0          -- tag of the response a SYNC waits for (R116)
  stepping : Bool := false    -- a STEP's one instruction has issued and not completed (R69)
  stepDone : Bool := false    -- CTX_STATE.STEP_DONE
  abandoned : Bool := false   -- CTX_STATE.ABANDONED
  yielded : Nat := 0          -- mesh cycles for which the context is left out of selection (R125 YIELD)
  watch : Nat := 0            -- mesh cycles that the context watchdog has counted (17 R486)
  tagCtr : Nat := 0           -- the request tag counter, 10 bits (R114)
  resetDue : Nat := 0         -- the mesh cycle in which a context reset ends (R70)
deriving DecidableEq, Repr

/-- Message kinds (08 R232). -/
inductive MsgKind where
  | posted | request | response | nack
deriving DecidableEq, Repr

/-- A Sprue message: the header fields of R232, the payload of R231, and what the message has done on its way. `info`
holds what the instruction hands to a court unit (SYNC: OP, object; RIF: operation, F, descriptor; DMA: descriptor,
RESP), whose places in the payload the spec does not number (log 12). -/
structure Msg where
  kind : MsgKind := .posted
  epoch : Nat := 0
  priv : Bool := false
  len : Nat := 0
  srcCtx : Nat := 0
  tag : Nat := 0
  unit : Nat := 0
  port : Nat := 0
  dest : Nat := 0
  src : Nat := 0
  route : Nat := 0
  heading : Nat := 0
  entered : Bool := false     -- the message has just entered a new court (R240)
  started : Bool := false     -- its source stop has read code 0
  due : Nat := 0              -- the mesh cycle from which the stop it has reached may forward its head flit (R242)
  badHdr : Bool := false      -- a header flit's parity has failed (R234)
  poison : Bool := false
  payload : List (BitVec 8) := []
  info : List Nat := []
deriving DecidableEq, Repr

/-- An entry of the receive buffer (03 R63); arrival order is the list's order. -/
structure RecvEntry where
  payload : List (BitVec 8)
  len : Nat
  port : Nat
  tag : Nat
  src : Nat
  poison : Bool
deriving DecidableEq, Repr

/-- A word held in an Armature port: 512 bits and a poison bit (03 R62). On the mesh a word is a `VR`, with a poison bit
for each of its 32-bit words (07 R202). -/
structure AWord where
  v : BitVec 512
  p : Bool
deriving DecidableEq, Repr

/-- What a request tag was allocated for (04 R114, R115). -/
inductive TagKind where
  | send | sync | rif | dma
deriving DecidableEq, Repr

/-- An outstanding request tag (08 R251) with what its completion needs. -/
structure TagRec where
  tag : Nat
  ctx : Nat
  kind : TagKind
  pc : Nat              -- word address of the instruction (03 R75)
  court : Nat := 0      -- target court of a SYNC (08 R261)
  obj : Nat := 0        -- its object number
  op : Nat := 0         -- its operation
  rd : Nat := 0         -- sR of a SYNC (04 R116)
  epoch : Nat := 0
deriving DecidableEq, Repr

/-- A held lock in the held-lock table of a context (08 R261). -/
structure HeldLock where
  ctx : Nat
  obj : Nat
  epoch : Nat
deriving DecidableEq, Repr

/-- A fault record on its way to the die's fault log (03 R75, 15 R455). -/
structure FaultRec where
  code : Nat := 0
  ctx : Nat := 0
  ctxValid : Bool := false
  pc : Nat := 0
  detail : Nat := 0
  unit : Nat := 0      -- physical cell number of a cell's record
  kind : Nat := 0      -- UNIT of the log entry (15 R455)
  index : Nat := 0     -- its INDEX
  niche : Option Nat := none
  addr : Nat := 0
  space : Nat := 0     -- its SPACE
  tick : Nat := 0
deriving DecidableEq, Repr

/-- An error of a memory word, as the Restorer counts it (16 R461): KIND of R459 of its row (2 scratchpad, 3 plinth, 4 instruction
store, 5 HBM; 8 a register), the word's number in its unit, whether it is uncorrectable. -/
structure MemErr where
  kind : Nat
  word : Nat
  ue : Bool
deriving DecidableEq, Repr

/-- The five attributes an open accumulation keeps (04 R122). -/
structure OpenCfg where
  mode : Bool
  fmtA : Nat
  fmtB : Nat
  mxA : Bool
  mxB : Bool
deriving DecidableEq, Repr

/-- A TMAC in progress at its origin: the words and register values it latched at issue (04 R90, R119), and how far its
timeline has come (04 R123, 05 R587). Cycle 0 of the timeline is mesh cycle `start`. -/
structure MacOp where
  w : Nat
  ext : Nat
  ctx : Nat
  pc : Nat
  aA : Nat
  aB : Nat
  a6 : Nat
  a7 : Nat
  strides : Nat
  slab : Bool
  logical : Nat        -- logical cell ID of the origin
  start : Nat := 0     -- mesh cycle of cycle 0, moved on by each cycle in which the pipeline is held (03 R82)
  lagBy : Nat := 0     -- excess of the largest lag over 30 (R587)
  lagFrom : Nat := 0   -- need cycle of the first line whose lag exceeds 30
  iter : Nat := 0      -- iterations computed
  ended : Bool := false  -- the array has computed everything
  left : Bool := false   -- the last output row has left the array: MAC_OP_COMPLETE has taken place
  decided : Bool := false  -- an arbitration has decided its verdict, and the corrected rows are being written (15 R452)
deriving DecidableEq, Repr

/-- The stream a port feeds to an operation in progress: the origin cell, the operand, the skew of the cell (05 R139), the
words still needed, those consumed, and whether one was absent in its cycle (R132, 03 R62). -/
structure Feed where
  origin : Nat
  isB : Bool
  skew : Nat
  need : Nat
  got : List AWord
  under : Bool := false
deriving DecidableEq, Repr

/-- Why an operand word cannot be consumed: the fault code, the refused address or the port, and whether the word is an MX
scale. -/
structure MacErr where
  code : Nat
  addr : Nat := 0
  scale : Bool := false
deriving DecidableEq, Repr

/-- A line that the MAC operand reader is to claim (05 R587): its kind (0 A data, 1 A scales, 2 B data, 3 B scales), the
iteration, the address, the need cycle and the claim cycle on the timeline of the operation, skew included. -/
structure OpRead where
  origin : Nat
  kind : Nat
  it : Nat
  addr : Int
  need : Nat
  off : Nat
deriving DecidableEq, Repr

/-- A line that the reader holds, or why it holds none: an operand line, or a line of the weight store's load (R130). -/
structure OpLine where
  kind : Nat
  it : Nat
  addr : Int
  word : Option VR
  err : MacErr
deriving DecidableEq, Repr

/-- A row's part in one drain cell: its slab x, the physical cell, the entries handed over, whether the cell's own drain raised
PATINA_PARAM, the lines that RESID has read with their poison (none where the claim gave nothing), whether SOFTMAX has
written, and for the side write and the row's write whether the merge read has been made (1) or lost (2) (05 R155, R156, 06
R185); `mute` marks a cell that gives its elements to its partner and accesses nothing (15 R452). -/
structure DrainAt where
  x : Nat
  n : Nat
  accs : List Acc
  out : Bool := false
  mute : Bool := false
  res : List (Option (Nat × List Bool)) := []
  side : Bool := false
  merge : Nat × Nat := (0, 0)
deriving DecidableEq, Repr

/-- A row on its way through the patina chains of one drain cell, or of the two of an MX pair (05 R146, R157): the mesh
cycle of its WRITE, its place, the window, the context that started the operation, and the cells. -/
structure DrainRow where
  due : Nat
  b : Nat
  m : Nat
  rows : Nat
  win : Int
  ctx : Nat
  pc : Nat
  cells : List DrainAt
deriving DecidableEq, Repr

/-- The row that a DEST 0b01 drain offers in one mesh cycle: the origin of its operation, the context and instruction that
started it, the word (05 R147). -/
structure Offer where
  origin : Nat
  ctx : Nat
  pc : Nat
  word : VR
deriving DecidableEq, Repr

/-- A write sink's word, written in the cycle after it was switched (07 R204): context, entry, line. -/
structure ArmStore where
  ctx : Nat
  entry : Nat
  line : Int
  word : VR
deriving DecidableEq, Repr

/-- A sum of the combine unit on its way to the outputs that name source 6 (07 R223): mesh cycles to go, context, entry,
the line its write sink takes, the sum. -/
structure CombOut where
  due : Nat
  ctx : Nat
  entry : Nat
  line : Int
  word : Option VR
deriving DecidableEq, Repr

/-- One physical cell. Every field stands at its power-on reset value. -/
structure Cell where
  ctxs : FMap Ctx := []               -- contexts 0 to 3
  regs : Regs := []                   -- the cell window's registers
  istore : FMap (BitVec 32) := []     -- context * 1024 + word (R59)
  istoreEcc : FMap Ecc := []          -- check bits of those words (R60)
  istoreTold : List Nat := []         -- words that have raised ISTORE_UE since they were written (16 R461)
  errs : List MemErr := []            -- errors that the Restorer has not yet counted (16 R461)
  ports : FMap (List AWord) := []     -- Armature ports by number, oldest first, at most 2 (R62)
  recvReq : List RecvEntry := []      -- request entries, at most 24 (R63)
  recvRsp : List RecvEntry := []      -- response entries, at most 8 (R63)
  tags : List TagRec := []            -- outstanding request tags (08 R251)
  quar : List Nat := []               -- quarantined tags (08 R253)
  quarEnd : Bool := false             -- a cell reset clears them once no message for the cell remains (08 R254)
  undo : FMap Ctx := []               -- each context as it was before its latest instruction, which FREEZE may abandon (R82)
  locks : List HeldLock := []         -- held-lock table (08 R261)
  inj : List Msg := []                -- injection queue, at most 4 (04 R113)
  stop : FMap (List Msg) := []        -- Sprue stop input buffers: input * 2 + channel (08 R243)
  sprTurn : FMap Nat := []            -- the stop's arbiters (08 R243): 2 * output + channel to 1 + the input served last; 16 + output
                                      -- and 26 + channel to 1 + the cycle of an output's and of the local input's latest message;
                                      -- 24 + channel to 1 where the injection queue has the next turn
  frozen : Bool := false              -- CELL_STATUS.FROZEN (R82)
  scanning : Bool := false            -- CELL_SCAN_STATUS.BUSY
  scanImg : List (BitVec 512 × Bool) := []  -- the lines of the scan in progress, with poison (R83)
  scanIn : Bool := false              -- its direction
  scanStart : Nat := 0                -- mesh cycle of the latest GO (09 R275)
  rasp : Bool := false                -- context 3 fetches from the rasp store (R59, R74)
  raspSr : Bool := false              -- that pass runs in MODE SR
  raspSteps : Nat := 0                -- the steps it runs (16 R476)
  raspOpen : Option OpenCfg := none   -- the open accumulation's attributes before a pass in MODE SR (R74)
  spd : Memory := []                  -- scratchpad bytes (06 R174)
  spdPoison : FMap Bool := []         -- poison of its 32-bit words, by word number
  spdEcc : FMap Ecc := []             -- check bits of its words (06 R196)
  ownOld : FMap Nat := []             -- 1 + the state that a bank with a pending hand-over is checked against (06 R189)
  ownDue : FMap Nat := []             -- the mesh cycle from which its new state is checked
  clears : FMap Nat := []             -- 1 + the mesh cycle in which the clear of a bank was started (06 R198)
  rdClaim : Nat := 0                  -- 1 + the mesh cycle of the latest fixed-time claim granted on the read port (06 R180)
  wrClaim : Nat := 0                  -- the same for the write port
  acc : FMap Acc := []                -- accumulator entries 0 to 255 (05 R128, 02 R47)
  openCfg : Option OpenCfg := none    -- the open accumulation's attributes (04 R122)
  macOp : Option MacOp := none        -- the operation in progress, at its origin cell
  feeds : FMap (List Feed) := []      -- streams by port, at the cells that feed an operation (R132)
  reads : List OpRead := []           -- lines that the MAC operand reader is still to claim (05 R587)
  opBuf : List OpLine := []           -- lines that it holds
  drain : List DrainRow := []         -- rows in the patina chains, at the origin of their operation (05 R146)
  offer : Option Offer := none        -- the row that a DEST 0b01 drain offers in this cycle (05 R147)
  verdict : Nat := 0                  -- the verdict that forms at MAC_OP_COMPLETE, at the verdict cell (05 R165)
  ckFails : List (Nat × Nat × Nat) := []  -- failed comparisons: slab x, slab y, entry (15 R448)
  nbc : Nat := 0                      -- blocks since START or restart, 32 bits (15 R446)
  ckQ : Option Int := none            -- q of 15 R446
  hist : FMap Acc := []               -- the entries a recomputation from the history buffer gives (15 R444, R450)
  arbWait : Bool := false             -- a failed comparison of the slab waits for arbitration, at its origin (15 R447)
  routes : FMap (BitVec 64) := []     -- route stores: context * 256 + entry (07 R213)
  armRead : List (Option (Nat × VR)) := []  -- words read for the entries of the coming mesh cycles, with their contexts (07 R204)
  armStore : Option ArmStore := none  -- the write sink's word of the last mesh cycle (07 R204)
  armEnd : FMap Nat := []             -- 1 + the state that a running schedule takes at the end of this mesh cycle (07 R219)
  ringEnd : List (Nat × Bool) := []   -- rings whose slot is taken (false) or put (true) from the next mesh cycle on (06 R194)
  armComb : List CombOut := []        -- sums of the combine unit (07 R223)
  ringPos : FMap Nat := []            -- Armature ring accesses: ring * 2 + side (1 put) to 2 * line + 1 while refused (06 R193)
  armGo : FMap Nat := []              -- mesh cycles until an IMMEDIATE schedule starts, by context (07 R219)
  armDue : FMap Nat := []             -- 1 + the mesh cycle of a schedule's start that is to come in this frame (07 R219)
  bkt : List (Nat × VR) := []         -- bucket lines read and not yet taken, with their contexts (10 R309)
  bktBad : List Nat := []             -- contexts whose schedule does not start at the next edge: a poisoned bucket line
  recAt : Nat := 0                    -- 1 + the mesh cycle in which CELL_FAULT_REC was written (R75)
  faults : List FaultRec := []        -- fault records sent to the die's Atelier and not yet logged (R75)
  samples : List (List Nat) := []     -- the PMC sample buffer, oldest first: records as four 8-byte words (20 R562, R563)
  sampSeq : Nat := 0                  -- SEQ of the next record
  sampLatch : List Nat := []          -- the record that the latest read of word 0 latched (20 R564)
  snap : FMap Nat := []               -- the bank's latched snapshot (20 R560)
deriving DecidableEq, Repr

/-- An instruction word written with good check bits, or with the state `e` (R60). -/
def Cell.putWord (key : Nat) (v : BitVec 32) (e : Ecc) (c : Cell) : Cell :=
  { c with istore := fset (fun _ => 0) c.istore key v, istoreEcc := fset (fun _ => .ok) c.istoreEcc key e
           istoreTold := c.istoreTold.filter (fun j => j != key) }

/-- An error of a word is there to count. -/
def Cell.noteErr (kind word : Nat) (ue : Bool) (c : Cell) : Cell := { c with errs := c.errs ++ [⟨kind, word, ue⟩] }

/-- Registers of unlisted contexts, words, ports. -/
def pw0 : Nat → PW := fun _ => ⟨0, false⟩
/-- Default of predicate masks. -/
def pp0 : Nat → PP := fun _ => ⟨0, false⟩
/-- Default of v registers. -/
def vr0 : Nat → VR := fun _ => ⟨0, 0⟩
/-- Default of loop counts and instruction words. -/
def w0 : Nat → BitVec 32 := fun _ => 0
/-- Default of check bits. -/
def ecc0 : Nat → Ecc := fun _ => .ok
/-- Default of queues. -/
def nil0 {α : Type} : Nat → List α := fun _ => []
/-- Default of accumulators. -/
def acc0 : Nat → Acc := fun _ => Acc.clear
/-- Default of counts. -/
def z0 : Nat → Nat := fun _ => 0
/-- Default of route entries. -/
def r0 : Nat → BitVec 64 := fun _ => 0
/-- Default of contexts. -/
def ctx0 : Nat → Ctx := fun _ => {}

end Sys2Proof.Machine
end

