-- ==== Sys2Proof/Machine/Ops.lean ====
section
/-! DEFINITION. The named operations of a cell: registers, selection, faults, the advance of the PC with the loop
return, the Sprue queues (spec/03_cell_core.md, spec/04_cell_instructions.md). -/

namespace Sys2Proof.Machine
open Sys2Proof

/-- What a cell's instruction sees of the machine around it. -/
structure Env where
  n : Nat := 0          -- physical cell number (03 R77)
  logical : Nat := 0    -- logical cell ID (00 R8)
  tick : Nat := 0       -- the timebase
  small : Bool := false -- the part is a CTH4-128S, whose fused area is invalid (00 R3)
  cycle : Nat := 0      -- the mesh cycle
  id : Nat := 0         -- the cell's CELL_ID (03)
  transparent : Bool := false  -- its router is transparent (07 R206)
deriving DecidableEq, Repr

/-- Logical X of a cell ID (00 R8). -/
def idX (id : Nat) : Nat := id % 128
/-- Logical Y of a cell ID (00 R8). -/
def idY (id : Nat) : Nat := id / 128 % 128
/-- The ID of a logical cell (00 R8). -/
def mkId (x y : Nat) : Nat := 128 * y + x

/-- X and Y in the fused area of a CTH4-128S (00 R2). -/
def inFused (x y : Nat) : Bool := decide (32 ≤ x ∧ x ≤ 63 ∧ 32 ≤ y ∧ y ≤ 63)

/-- A valid logical cell ID (00 R8, R3). -/
def validId (small : Bool) (id : Nat) : Bool :=
  decide (id < 16384 ∧ idX id ≤ 95 ∧ idY id ≤ 95) && !(small && inFused (idX id) (idY id))

/-! ### Fields and registers of a cell -/

/-- A register field. -/
def Cell.rd (c : Cell) (f : Fld) : Nat := rget cellRst c.regs f
/-- Write a register field. -/
def Cell.wr (c : Cell) (f : Fld) (v : Nat) : Cell := { c with regs := rset cellRst c.regs f v }
/-- A one-bit field. -/
def Cell.flag (c : Cell) (f : Fld) : Bool := c.rd f != 0

/-- The field of context `k`'s register (03: the context blocks lie 0x100 apart). -/
def Fld.ctx (f : Fld) (k : Nat) : Fld := f.up (0x100 * k)

/-- A counter field one up, holding at its limit. -/
def Cell.bumpSat (c : Cell) (f : Fld) : Cell := c.wr f (min (c.rd f + 1) (2 ^ f.width - 1))

/-- Context `k`. -/
def Cell.ctx (c : Cell) (k : Nat) : Ctx := fget ctx0 c.ctxs k
/-- Replace context `k`. -/
def Cell.setCtx (c : Cell) (k : Nat) (x : Ctx) : Cell := { c with ctxs := fset ctx0 c.ctxs k x }
/-- Change context `k`. -/
def Cell.modCtx (c : Cell) (k : Nat) (f : Ctx → Ctx) : Cell := c.setCtx k (f (c.ctx k))

/-- A register written has good check bits: file * 32 + index. -/
def Ctx.fresh (x : Ctx) (r : Nat) : Ctx := { x with regUe := x.regUe.filter (fun u => u.1 != r) }

/-- s register `i`. -/
def Ctx.sReg (x : Ctx) (i : Nat) : PW := fget pw0 x.s i
/-- Write s register `i`. -/
def Ctx.setS (x : Ctx) (i : Nat) (w : PW) : Ctx :=
  { x.fresh i with s := fset pw0 x.s i w }
/-- a register `i`. -/
def Ctx.aReg (x : Ctx) (i : Nat) : PW := fget pw0 x.a i
/-- Write a register `i`. -/
def Ctx.setA (x : Ctx) (i : Nat) (w : PW) : Ctx :=
  { x.fresh (32 + i) with a := fset pw0 x.a i w }
/-- v register `i`. -/
def Ctx.vReg (x : Ctx) (i : Nat) : VR := fget vr0 x.vr i
/-- Write v register `i`. -/
def Ctx.setV (x : Ctx) (i : Nat) (w : VR) : Ctx :=
  { x.fresh (64 + i) with vr := fset vr0 x.vr i w }
/-- p register `i`. -/
def Ctx.pReg (x : Ctx) (i : Nat) : PP := fget pp0 x.p i
/-- Write p register `i`. -/
def Ctx.setP (x : Ctx) (i : Nat) (w : PP) : Ctx :=
  { x.fresh (96 + i) with p := fset pp0 x.p i w }
/-- Loop count `n`. -/
def Ctx.lReg (x : Ctx) (n : Nat) : BitVec 32 := fget w0 x.l n
/-- Write loop count `n`. -/
def Ctx.setL (x : Ctx) (n : Nat) (v : BitVec 32) : Ctx :=
  { x.fresh (128 + n) with l := fset w0 x.l n v }

/-- The value of the pair s(i+1):s(i) (03 R57). -/
def Ctx.pair (x : Ctx) (i : Nat) : Nat := (x.sReg i).v.toNat + 2 ^ 32 * (x.sReg (i + 1)).v.toNat
/-- Poison of a pair: any poisoned half poisons what depends on it. -/
def Ctx.pairP (x : Ctx) (i : Nat) : Bool := (x.sReg i).p || (x.sReg (i + 1)).p
/-- Write a pair, each word with its own poison bit (04 R91). -/
def Ctx.setPairW (x : Ctx) (i v : Nat) (pl ph : Bool) : Ctx :=
  (x.setS i ⟨BitVec.ofNat 32 v, pl⟩).setS (i + 1) ⟨BitVec.ofNat 32 (v / 2 ^ 32), ph⟩
/-- Write a pair, both words with one poison bit. -/
def Ctx.setPair (x : Ctx) (i v : Nat) (p : Bool) : Ctx := x.setPairW i v p p

/-! ### Faults (03 R75, R76) -/

/-- The niche that context `k` is bound to. -/
def Cell.nicheOf (c : Cell) (k : Nat) : Option Nat :=
  if c.flag (CTX_CONFIG_BOUND.ctx k) then some (c.rd (CTX_CONFIG_NICHE.ctx k)) else none

/-- A fault on context `k`: the context stops, the records are written, the record goes to the Atelier. A valid
CTX_FAULT keeps the context's first fault. Of the faults of one mesh cycle CELL_FAULT_REC takes the lowest context's. -/
def Cell.raise (e : Env) (k code detail pc : Nat) (c : Cell) : Cell :=
  let t := e.tick % 2 ^ 32
  let rec1 := fun (c : Cell) (fc fx fv fp fd ft : Fld) =>
    (((((c.wr fc code).wr fx k).wr fv 1).wr fp pc).wr fd detail).wr ft t
  let c := if c.rd (CTX_FAULT_VALID.ctx k) = 1 then c
    else rec1 c (CTX_FAULT_CODE.ctx k) (CTX_FAULT_CTX.ctx k) (CTX_FAULT_VALID.ctx k) (CTX_FAULT_PC.ctx k)
      (CTX_FAULT_DETAIL.ctx k) (CTX_FAULT_TICK.ctx k)
  let c := if c.rd CELL_FAULT_REC_VALID = 1 then c.wr CELL_FAULT_MORE 1 else c
  let c := if c.rd CELL_FAULT_REC_VALID = 0 ∨ (c.recAt = e.cycle + 1 ∧ k < c.rd CELL_FAULT_REC_CTX) then
      { rec1 c CELL_FAULT_REC_CODE CELL_FAULT_REC_CTX CELL_FAULT_REC_VALID CELL_FAULT_REC_PC CELL_FAULT_REC_DETAIL
          CELL_FAULT_REC_TICK with recAt := e.cycle + 1 }
    else c
  let c := c.wr CELL_FAULT_CTX_FAULTED (c.rd CELL_FAULT_CTX_FAULTED ||| 2 ^ k)
  let c := c.modCtx k (fun x => { x with state := .faulted, wait := .none })
  { c with faults := c.faults ++ [{ code := code, ctx := k, ctxValid := true, pc := pc, detail := detail,
                                    unit := e.n, index := e.logical, niche := c.nicheOf k, tick := e.tick }] }

/-- A fault of the instruction context `k` is issuing: its PC is the instruction's address. -/
def Cell.raiseHere (e : Env) (k code detail : Nat) (c : Cell) : Cell :=
  c.raise e k code detail (c.ctx k).pc.toNat

/-- ILLEGAL_INSTR: DETAIL is opcode bits [31:21]. -/
def Cell.illegal (e : Env) (k w : Nat) (c : Cell) : Cell := c.raiseHere e k 0x01 (bits w 31 21)
/-- FORMAT_INVALID with both format codes and MX flags (R76). -/
def Cell.formatInvalid (e : Env) (k f1 : Nat) (m1 : Bool) (f2 : Nat) (m2 : Bool) (c : Cell) : Cell :=
  c.raiseHere e k 0x02 (f1 * 128 + b2n m1 * 64 + f2 * 4 + b2n m2 * 2)
/-- POISON_CONSUMED with the operand number (04 R91). -/
def Cell.poisoned (e : Env) (k op : Nat) (c : Cell) : Cell := c.raiseHere e k 0x09 op

/-- A record of a cell that names no context, sent to the Atelier (03 R76, 15 R455). -/
def Cell.logOnly (e : Env) (code detail : Nat) (c : Cell) : Cell :=
  { c with faults := c.faults ++ [{ code := code, detail := detail, unit := e.n, index := e.logical, tick := e.tick }] }

/-! ### The PC and the loop return (04 R87, R97) -/

/-- The START field of loop `n` (03, CTX_LOOP0 to CTX_LOOP3). -/
def loopStart : Nat → Fld
  | 0 => CTX_LOOP0_START | 1 => CTX_LOOP1_START | 2 => CTX_LOOP2_START | _ => CTX_LOOP3_START
/-- The END field of loop `n`. -/
def loopEnd : Nat → Fld
  | 0 => CTX_LOOP0_END | 1 => CTX_LOOP1_END | 2 => CTX_LOOP2_END | _ => CTX_LOOP3_END

/-- The return test over the loops of a list, in order, at the last word's address (R97). -/
def loopTest (c : Cell) (k : Nat) (last next : BitVec 10) (x : Ctx) : List Nat → Ctx
  | [] => { x with pc := next }
  | n :: ns =>
    if x.lReg n ≠ 0 ∧ c.rd ((loopEnd n).ctx k) = last.toNat then
      let x := x.setL n (x.lReg n - 1)
      if x.lReg n ≠ 0 then { x with pc := BitVec.ofNat 10 (c.rd ((loopStart n).ctx k)) }
      else loopTest c k last next x ns
    else loopTest c k last next x ns

/-- The PC advances past an instruction of `words` words, through the return test. -/
def Cell.advance (c : Cell) (k words : Nat) : Cell :=
  c.modCtx k (fun x => loopTest c k (x.pc + BitVec.ofNat 10 (words - 1)) (x.pc + BitVec.ofNat 10 words) x [3, 2, 1, 0])

/-- The PC goes to a target: a taken branch or jump alone decides it. -/
def Cell.jump (c : Cell) (k : Nat) (t : BitVec 10) : Cell := c.modCtx k (fun x => { x with pc := t })

/-- Update context `k`, then advance by `words`. -/
def Cell.done (c : Cell) (k : Nat) (f : Ctx → Ctx) (words : Nat := 1) : Cell := (c.modCtx k f).advance k words

/-- The context blocks: the instruction stays at PC and issues again when the context is READY (log 4). -/
def Cell.block (c : Cell) (k : Nat) (wk : WaitKind) (obj : Nat) : Cell :=
  c.modCtx k (fun x => { x with state := .blocked, wait := wk, waitObj := BitVec.ofNat 32 obj, waitElapsed := 0 })

/-- A blocked context becomes READY. -/
def Cell.wake (c : Cell) (k : Nat) : Cell :=
  c.modCtx k (fun x => if x.state = .blocked then { x with state := .ready, wait := .none } else x)

/-! ### Selection (03 R67) -/

/-- Whether context `k` may be selected. -/
def Cell.eligible (c : Cell) (k : Nat) : Bool :=
  ((c.ctx k).state == .ready || (c.ctx k).state == .running) && bit (c.rd CELL_CTRL_CTX_ENABLE) k

/-- Whether `j` goes before `k`: lower PRIO first, then the RUNNING context, then the lower number. -/
def Cell.before (c : Cell) (j k : Nat) : Bool :=
  let pj := c.rd (CTX_CONFIG_PRIO.ctx j)
  let pk := c.rd (CTX_CONFIG_PRIO.ctx k)
  let rj := b2n ((c.ctx j).state == .running)
  let rk := b2n ((c.ctx k).state == .running)
  decide (pj < pk) || (pj == pk && (decide (rj > rk) || (rj == rk && decide (j < k))))

/-- The issue stage issues for context `k`: it is eligible and no other eligible context goes before it; a context that
has yielded gives way to any other. -/
def Cell.selects (c : Cell) (k : Nat) : Bool :=
  let other := [0, 1, 2, 3].filter (fun j => j != k && c.eligible j)
  c.eligible k &&
    (if (c.ctx k).yielded ≠ 0 then other.isEmpty
     else other.all (fun j => (c.ctx j).yielded != 0 || c.before k j))

/-- Context `k` takes the issue stage: it is RUNNING, no other is; what it holds is kept beside (03 R82). -/
def Cell.take (c : Cell) (k : Nat) : Cell :=
  [0, 1, 2, 3].foldl (fun c j => c.modCtx j (fun x =>
    if j = k then { x with state := .running, yielded := 0 }
    else if x.state = .running then { x with state := .ready, yielded := 0 } else { x with yielded := 0 }))
    { c with undo := fset ctx0 c.undo k (c.ctx k) }

/-! ### Request tags and the injection queue (04 R113 to R115, 08 R251) -/

/-- The next free tag number of a context from a counter on, skipping values whose tag is outstanding or quarantined; none
when every one of them is (08 R253). -/
def nextTag (c : Cell) (k ctr : Nat) : Nat → Option Nat
  | 0 => none
  | n + 1 =>
    let t := k * 1024 + ctr % 1024
    if c.tags.any (fun r => r.tag == t) || c.quar.contains t then nextTag c k (ctr + 1) n else some (ctr % 1024)

/-- The tag number that context `k` takes next. -/
def Cell.freeTag (c : Cell) (k : Nat) : Option Nat := nextTag c k (c.ctx k).tagCtr 1024
/-- Whether context `k` must wait for a tag: the cell has 8 requests outstanding (R113), or no tag of the context is free. -/
def Cell.tagsFull (c : Cell) (k : Nat) : Bool := decide (8 ≤ c.tags.length) || (c.freeTag k).isNone
/-- Whether the injection queue is full: the context stalls (R113). -/
def Cell.injFull (c : Cell) : Bool := decide (4 ≤ c.inj.length)

/-- Allocate a tag for context `k` (R114): the tag and the cell with the counter advanced. -/
def Cell.allocTag (c : Cell) (k : Nat) : Nat × Cell :=
  let v := (c.freeTag k).getD 0
  (k * 1024 + v, c.modCtx k (fun x => { x with tagCtr := (v + 1) % 1024 }))

/-- A context held for a free tag (R113, R115). -/
def Cell.blockTag (c : Cell) (k : Nat) : Cell :=
  (c.block k .tag (0x30 * 65536 + 0xFFF)).modCtx k (fun x => { x with waitMatch := (0x30, 0xFFF, 0xFFF) })

/-- Put a message into the injection queue. -/
def Cell.inject (c : Cell) (m : Msg) : Cell := { c with inj := c.inj ++ [m] }

end Sys2Proof.Machine
end

