-- ==== Sys2Proof/Machine/Operands.lean ====
section
/-! DEFINITION. Operand forms of the cell's instruction words and the classification of a word by its opcode-table row
(spec/04_cell_instructions.md R84 to R86 and the encodings of each instruction). -/

namespace Sys2Proof.Machine
open Sys2Proof

/-- The rows of the opcode table that a cell's instruction word issues. -/
inductive Row where
  | salu | salui | lui | smul | br | j | jal | jr | loop | sfp | dfp | cvt | cvtx | ld | st | vmemLoad | vmemStore
  | tileLoad | tileStore | aadd | aswap | slotTake | slotPut | valu | vfp | vcmp | vsel | perm | bcast | extract | slide
  | lxsum | lxadd | lxout | lxshr | vcvt | pred | recv | sendPosted | sendRequest | sendResponse | sync | rif | dma
  | tmac | mwait | pcfg | nop | halt | yield | fence | waitt | waitf | rdtick | rdctx | brk | rsig | raspend
deriving DecidableEq, Repr

/-- Bits [31:26] (R84). -/
def major (w : Nat) : Nat := bits w 31 26
/-- Bits [25:21] (R84). -/
def minor (w : Nat) : Nat := bits w 25 21
/-- rd, or rt, in [20:16] (R85). -/
def fRd (w : Nat) : Nat := bits w 20 16
/-- rs1 in [15:11] (R85). -/
def fRs1 (w : Nat) : Nat := bits w 15 11
/-- rs2 in [10:6] (R85). -/
def fRs2 (w : Nat) : Nat := bits w 10 6
/-- vd in [20:17] (R85, V). -/
def fVd (w : Nat) : Nat := bits w 20 17
/-- va in [16:13]. -/
def fVa (w : Nat) : Nat := bits w 16 13
/-- vb in [12:9]. -/
def fVb (w : Nat) : Nat := bits w 12 9
/-- p in [8:6]. -/
def fP (w : Nat) : Nat := bits w 8 6
/-- fmt in [5:2]. -/
def fFmt (w : Nat) : Nat := bits w 5 2
/-- pm in [1:0]. -/
def fPm (w : Nat) : Nat := bits w 1 0
/-- aA of the M format in [15:13]. -/
def fAa (w : Nat) : Nat := bits w 15 13
/-- off13 of the M format. -/
def fOff13 (w : Nat) : Nat := bits w 12 0

/-- Even register: the base of a pair (03 R58). -/
def even (i : Nat) : Bool := i % 2 == 0

/-- A field must be zero (R84). -/
def zero (x : Nat) : Bool := x == 0

/-- A 64-bit format code: its scalar operand is a pair (R99). -/
def fmt64 (c : Nat) : Bool := c == 5 || c == 14

/-- Lane bytes of a vector format (R105). -/
def laneBytes (c : Nat) : Nat := fmtBits c / 8

/-- Formats the vector column of R23 allows for lane operations. -/
def vecFmt (c : Nat) : Bool := decide (1 ≤ c ∧ c ≤ 5) || decide (11 ≤ c ∧ c ≤ 13)
/-- Formats of the scalar column of R23, FP64 included (R99). -/
def scalFmt (c : Nat) : Bool := decide (1 ≤ c ∧ c ≤ 5) || decide (11 ≤ c ∧ c ≤ 14)

/-- The pm rule of R105: reserved 0b11, and p must be 0 with 0b00. -/
def pmOk (w : Nat) : Bool := fPm w != 3 && (fPm w != 0 || zero (fP w))

/-- Ports R61 lists. -/
def portListed (p : Nat) : Bool :=
  decide (p ≤ 3) || p == 8 || p == 9 || p == 0x10 || p == 0x11 || p == 0x18 || p == 0x19
    || decide (0x20 ≤ p ∧ p ≤ 0x23) || p == 0x30
/-- Armature ports of R61. -/
def portArm (p : Nat) : Bool := portListed p && decide (0x10 ≤ p ∧ p ≤ 0x23)

/-- The parameter indices a patina stage defines, with whether each comes from a v register (05 R149). -/
def pcfgParam (stage idx : Nat) : Option Bool :=
  match stage, idx with
  | 0, 0 => some false | 0, 1 => some false | 0, 2 => some false
  | 1, 0 => some false | 1, 1 => some true
  | 2, 0 => some false | 2, 1 => some true
  | 3, 0 => some true | 3, 1 => some false
  | 4, 0 => some false | 4, 1 => some false
  | 5, 0 => some false | 5, 1 => some false
  | 6, 0 => some false
  | 7, 0 => some false | 7, 1 => some false
  | _, _ => none

/-- `some r` if the test holds. -/
def okRow (b : Bool) (r : Row) : Option Row := if b then some r else none

/-- Rows of majors 0x01 to 0x0B. -/
def rowScalar (w ext : Nat) : Option Row :=
  let m := minor w
  let rd := fRd w
  let rs1 := fRs1 w
  let rs2 := fRs2 w
  match major w with
  | 0x01 => okRow (zero (bits w 5 0) && decide (m ≤ 0x19)
      && (!decide (m = 0x10 ∨ m = 0x11) || (even rd && even rs1 && even rs2))
      && (m != 0x12 || (even rs1 && even rs2))
      && (!decide (0x13 ≤ m ∧ m ≤ 0x15) || (even rd && even rs1))
      && (m != 0x16 || zero (bits w 20 19))
      && (m != 0x17 || (zero (bits w 15 14) && zero rs2))
      && (!decide (0x18 ≤ m) || zero rs2)) .salu
  | 0x02 => okRow (decide (m ≤ 0x0F) || (m == 0x16 && zero (bits w 20 19))) .salui
  | 0x03 => okRow (m == 0) .lui
  | 0x04 => okRow (zero (bits w 5 0) && decide (m ≤ 7)
      && (m != 7 || (even rd && even rs1 && even rs2))) .smul
  | 0x05 => okRow (decide (m ≤ 5) || ((m == 8 || m == 9) && zero (bits w 20 19) && zero (bits w 15 11))) .br
  | 0x06 =>
    match m with
    | 0 => okRow (zero (bits w 20 16)) .j
    | 1 => some .jal
    | 2 => okRow (zero (bits w 20 16) && zero (bits w 10 0)) .jr
    | _ => none
  | 0x07 => okRow (m == 0 && bits w 9 0 != 0 && (bit w 18 || zero (bits w 12 10))) .loop
  | 0x08 => okRow (decide (m ≤ 0x0A) && zero (bits w 5 4) && (m != 7 || zero rs2)) .sfp
  | 0x09 => okRow (decide (m ≤ 0x0A) && zero (bits w 5 4) && even rs1
      && (if m = 7 then zero rs2 else even rs2) && (decide (8 ≤ m) || even rd)) .dfp
  | 0x0A => okRow (m == 0 && zero (bits w 1 0) && (!fmt64 (bits w 10 7) || even rs1)
      && (!fmt64 (bits w 6 3) || even rd)) .cvt
  | 0x0B => okRow (m == 0 && zero (bits w 1 0) && (!fmt64 (bits w 10 7) || even rs1)
      && (!fmt64 (bits w 6 3) || even rd) && zero (bits ext 31 8)) .cvtx
  | _ => none

/-- Rows of majors 0x10 to 0x15. -/
def rowMem (w : Nat) : Option Row :=
  let m := minor w
  let viewOk := zero (bits w 21 21) && (bit w 24 || zero (bits w 23 22))
  match major w with
  | 0x10 => okRow (zero (bits w 25 24) && (bits w 22 21 != 3 || (!bit w 23 && even (fRd w)))) .ld
  | 0x11 => okRow (zero (bits w 25 23) && (bits w 22 21 != 3 || even (fRd w))) .st
  | 0x12 => okRow (viewOk && zero (bits w 20 20)) (if bit w 25 then .vmemStore else .vmemLoad)
  | 0x13 => okRow (viewOk && decide (bits w 20 17 + bits w 13 10 ≤ 15)) (if bit w 25 then .tileStore else .tileLoad)
  | 0x14 => okRow (decide (m ≤ 3) && (m % 2 == 0 || (even (fRd w) && even (fRs1 w)))) (if m ≤ 1 then .aadd else .aswap)
  | 0x15 => okRow (zero (bits w 23 21) && (if bit w 24 then zero (bits w 20 20) else even (fRd w)))
      (if bit w 25 then .slotPut else .slotTake)
  | _ => none

/-- Rows of majors 0x18 to 0x1E. -/
def rowVec (w : Nat) : Option Row :=
  let m := minor w
  match major w with
  | 0x18 => okRow (decide (m ≤ 0x0F) && pmOk w) .valu
  | 0x19 => okRow (decide (m ≤ 7) && pmOk w && (decide (m ≤ 5) || zero (fVb w))) .vfp
  | 0x1A =>
    if m = 0x10 then okRow (zero (fPm w)) .vsel
    else okRow ((decide (m ≤ 5) || decide (8 ≤ m ∧ m ≤ 0x0B)) && pmOk w && zero (bits w 20 20)) .vcmp
  | 0x1B =>
    match m with
    | 0 => okRow (pmOk w) .perm
    | 1 => okRow (zero (bits w 11 6) && fPm w != 3 && (!(laneBytes (fFmt w) == 8) || even (bits w 16 12))) .bcast
    | 2 => okRow (zero (fPm w)
        && (!vecFmt (fFmt w) || (decide (bits w 11 6 < 64 / laneBytes (fFmt w))
          && (!(laneBytes (fFmt w) == 8) || even (bits w 20 16))))) .extract
    | 3 => okRow (pmOk w) .slide
    | _ => none
  | 0x1C =>
    match m with
    | 0 => okRow (pmOk w) .lxsum
    | 1 => okRow (pmOk w) .lxadd
    | 2 => okRow (zero (bits w 1 1) && zero (fP w)) .lxout
    | 3 => okRow (pmOk w) .lxshr
    | _ => none
  | 0x1D => okRow (m == 0 && zero (bits w 2 0)) .vcvt
  | 0x1E =>
    let pd := bits w 20 18
    let pa := bits w 17 15
    let pb := bits w 14 12
    let s := bits w 11 7
    okRow (zero (bits w 6 0) &&
      (match m with
       | 0 => zero s | 1 => zero s | 2 => zero s | 3 => zero s
       | 4 => zero pb && zero s
       | 5 => zero pa && zero pb && zero s
       | 6 => zero pa && zero pb && zero s
       | 7 => zero pa && zero pb && even s
       | 8 => zero pd && zero pb && even s
       | 9 => zero pd && zero pb
       | 0xA => zero pd && zero pb
       | _ => false)) .pred
  | _ => none

/-- Operations a SYNC may post (R116). -/
def syncPostOk (op : Nat) : Bool := [1, 2, 5, 7, 8, 9].contains op

/-- Rows of majors 0x20 to 0x31. -/
def rowSys (w ext : Nat) : Option Row :=
  let m := minor w
  match major w with
  | 0x20 => okRow (zero (bits w 24 21) && zero (bits w 4 0)
      && (if bit w 25 then zero (bits w 14 14) else even (bits w 14 10)) && even (bits w 9 5)
      && portListed (bits w 20 15) && (!portArm (bits w 20 15) || bit w 25)) .recv
  | 0x21 =>
    let ok := zero (bits w 22 21) && zero (bits w 3 0) && even (bits w 20 16)
      && (if bit w 23 then zero (bits w 15 15) && decide (bits w 10 4 ≤ 64)
          else even (bits w 15 11) && decide (bits w 10 4 ≤ 8))
    match bits w 25 24 with
    | 0 => okRow ok .sendPosted
    | 1 => okRow ok .sendRequest
    | 2 => okRow ok .sendResponse
    | _ => none
  | 0x24 => okRow (decide (bits w 24 21 ≤ 0xA) && (!bit w 25 || syncPostOk (bits w 24 21))
      && even (bits w 15 11) && even (bits w 10 6) && zero (bits w 5 0)) .sync
  | 0x25 => okRow (decide (m ≤ 4) && zero (bits w 8 0) && (!(m == 2 || m == 3) || zero (bits w 20 17))) .rif
  | 0x26 => okRow (zero (bits w 12 0) && (bit w 25 || zero (bits w 17 13))) .dma
  | 0x28 => okRow (zero (bits w 0 0) && (!bit w 22 || zero (bits w 10 9)) && (!bit w 21 || zero (bits w 7 6))
      && zero (bits ext 1 0)) .tmac
  | 0x29 => okRow (m == 0 && zero (bits w 20 0)) .mwait
  | 0x2A => okRow (zero (bits w 10 0) && pcfgParam m (bits w 14 11) == some (bit w 20)
      && (!bit w 20 || zero (bits w 19 19))) .pcfg
  | 0x30 =>
    let r := bits w 20 16
    if bits w 15 0 ≠ 0 then none
    else match m with
      | 0 => okRow (zero r) .nop
      | 1 => okRow (zero r) .halt
      | 2 => okRow (zero r) .yield
      | 3 => okRow (zero r) .fence
      | 4 => okRow (even r) .waitt
      | 5 => okRow (zero r) .waitf
      | 6 => okRow (even r) .rdtick
      | 7 => some .rdctx
      | 8 => okRow (zero r) .brk
      | _ => none
  | 0x31 =>
    match m with
    | 0 => okRow (zero (bits w 15 0)) .rsig
    | 1 => okRow (zero (bits w 20 0)) .raspend
    | _ => none
  | _ => none

/-- The row of a word with its extension word; none for an undefined word or an odd pair (R84, 03 R58). -/
def rowOf (w ext : Nat) : Option Row :=
  let mj := major w
  if mj ≤ 0x0B then rowScalar w ext
  else if mj ≤ 0x15 then rowMem w
  else if mj ≤ 0x1E then rowVec w
  else rowSys w ext

/-- Whether a major opcode has two words (R86). -/
def twoWords (w : Nat) : Bool := major w == 0x0B || major w == 0x28

/-- A register a word reads, by file (0 s, 1 a, 2 v, 3 p) and index. -/
abbrev SrcReg := Nat × Nat

/-- The words of a pair. -/
def srcPair (i : Nat) : List SrcReg := [(0, i), (0, i + 1)]

/-- Whether 32 elements of a source format need more than 64 bytes (R110). -/
def wideSrc (f : Nat) : Bool := decide (512 < 32 * fmtBits f)

/-- Registers an instruction reads, so that an uncorrectable error on one raises REGFILE_UE (03 R76). -/
def sources (r : Row) (w ext : Nat) : List SrcReg :=
  let m := minor w
  let rs1 := fRs1 w
  let rs2 := fRs2 w
  let pv : List SrcReg := if fPm w = 0 then [] else [(3, fP w)]
  match r with
  | .salu =>
    if m = 0x17 then [(1, bits w 13 11)]
    else if m = 0x10 ∨ m = 0x11 ∨ m = 0x12 then srcPair rs1 ++ srcPair rs2
    else if 0x13 ≤ m ∧ m ≤ 0x15 then srcPair rs1 ++ [(0, rs2)]
    else if 0x18 ≤ m then [(0, rs1)] else [(0, rs1), (0, rs2)]
  | .salui => [(0, rs1)]
  | .lui => []
  | .smul => if m = 7 then srcPair rs1 ++ srcPair rs2 else [(0, rs1), (0, rs2)]
  | .br => if 8 ≤ m then [(3, bits w 18 16)] else [(0, fRd w), (0, fRs1 w)]
  | .j => []
  | .jal => []
  | .jr => [(0, rs1)]
  | .loop => if bit w 18 then [] else [(0, bits w 17 13)]
  | .sfp => (if m = 3 then [(0, fRd w)] else []) ++ [(0, rs1)] ++ (if m = 7 then [] else [(0, rs2)])
  | .dfp => (if m = 3 then srcPair (fRd w) else []) ++ srcPair rs1 ++ (if m = 7 then [] else srcPair rs2)
  | .cvt => if fmt64 (bits w 10 7) then srcPair rs1 else [(0, rs1)]
  | .cvtx => if fmt64 (bits w 10 7) then srcPair rs1 else [(0, rs1)]
  | .ld => [(1, fAa w)]
  | .st => (if bits w 22 21 = 3 then srcPair (fRd w) else [(0, fRd w)]) ++ [(1, fAa w)]
  | .vmemLoad => [(1, fAa w)]
  | .vmemStore => [(2, bits w 19 16), (1, fAa w)]
  | .tileLoad => [(1, bits w 16 14)]
  | .tileStore => (List.range (bits w 13 10 + 1)).map (fun i => (2, bits w 20 17 + i)) ++ [(1, bits w 16 14)]
  | .aadd => (if m % 2 = 1 then srcPair rs1 else [(0, rs1)]) ++ [(1, bits w 10 8)]
  | .aswap => (if m % 2 = 1 then srcPair rs1 else [(0, rs1)]) ++ [(1, bits w 10 8)]
  | .slotTake => []
  | .slotPut => if bit w 24 then [(2, bits w 19 16)] else srcPair (fRd w)
  | .valu => [(2, fVa w), (2, fVb w)] ++ (if fPm w = 1 then [(2, fVd w)] else []) ++ pv
  | .vfp => [(2, fVa w)] ++ (if m ≤ 5 then [(2, fVb w)] else []) ++
      (if m = 3 ∨ fPm w = 1 then [(2, fVd w)] else []) ++ pv
  | .vcmp => [(2, fVa w), (2, fVb w)] ++ pv
  | .vsel => [(2, fVa w), (2, fVb w), (3, fP w)]
  | .perm => [(2, fVa w), (2, fVb w)] ++ (if fPm w = 1 then [(2, fVd w)] else []) ++ pv
  | .bcast => (if laneBytes (fFmt w) = 8 then srcPair (bits w 16 12) else [(0, bits w 16 12)]) ++
      (if fPm w = 1 then [(2, fVd w)] else []) ++ pv
  | .extract => [(2, bits w 15 12)]
  | .slide => [(2, fVa w)] ++ (if fPm w = 1 then [(2, fVd w)] else []) ++ pv
  | .lxsum => [(2, fVd w), (2, fVa w)] ++ srcPair (2 * fVb w) ++ pv
  | .lxadd => [(2, fVd w), (2, fVa w)] ++ srcPair (2 * fVb w) ++ pv
  | .lxout => [(2, fVa w)] ++ srcPair (2 * fVb w)
  | .lxshr => [(2, fVa w)] ++ srcPair (2 * fVb w) ++ pv
  | .vcvt => [(2, fVa w)] ++ (if bit w 3 && wideSrc (bits w 12 9) && bits w 16 13 != 15 then [(2, fVa w + 1)] else [])
  | .pred =>
    match m with
    | 4 => [(3, bits w 17 15)]
    | 5 => []
    | 6 => []
    | 7 => srcPair (bits w 11 7)
    | 8 => [(3, bits w 17 15)]
    | 9 => [(3, bits w 17 15)]
    | 0xA => [(3, bits w 17 15)]
    | _ => [(3, bits w 17 15), (3, bits w 14 12)]
  | .recv => if portArm (bits w 20 15) then [] else [(0, bits w 9 5)]
  | .sendPosted => srcPair (bits w 20 16) ++ (if bit w 23 then [(2, bits w 14 11)] else srcPair (bits w 15 11))
  | .sendRequest => [(0, bits w 20 16)] ++ (if bit w 23 then [(2, bits w 14 11)] else srcPair (bits w 15 11))
  | .sendResponse => [(0, bits w 20 16)] ++ (if bit w 23 then [(2, bits w 14 11)] else srcPair (bits w 15 11))
  | .sync => [(0, bits w 20 16)] ++ srcPair (bits w 15 11)
  | .rif => [(1, bits w 16 14)]
  | .dma => [(1, bits w 20 18)]
  | .tmac => (if bit w 22 then [] else [(1, bits w 10 8)]) ++ (if bit w 21 then [] else [(1, bits w 7 5)])
      ++ [(0, bits ext 11 7), (0, bits ext 6 2)] ++ (if bit w 12 && !bit w 22 then [(1, 6)] else [])
      ++ (if bit w 11 && !bit w 21 then [(1, 7)] else [])
  | .pcfg => if bit w 20 then [(2, bits w 18 15)] else [(0, bits w 19 15)]
  | .waitt => srcPair (fRd w)
  | .rsig => [(0, fRd w)]
  | .mwait => [] | .nop => [] | .halt => [] | .yield => [] | .fence => [] | .waitf => []
  | .rdtick => [] | .rdctx => [] | .brk => [] | .raspend => []

end Sys2Proof.Machine
end

