-- ==== Sys2Proof/Machine/Flags.lean ====
section
/-! DEFINITION. Flag computations: CTX_FPFLAGS of scalar and vector arithmetic (spec/03, CTX_FPFLAGS; R31, R33) and the
LX128 flag word (04 R109). -/

namespace Sys2Proof.Machine
open Sys2Proof

/-- The flags of CTX_FPFLAGS. -/
structure FpFlags where
  inexact : Bool := false
  underflow : Bool := false
  overflow : Bool := false
  divzero : Bool := false
  invalid : Bool := false
  cvtRange : Bool := false
deriving DecidableEq, Repr

/-- Flags of either. -/
def FpFlags.or (a b : FpFlags) : FpFlags :=
  ⟨a.inexact || b.inexact, a.underflow || b.underflow, a.overflow || b.overflow, a.divzero || b.divzero,
   a.invalid || b.invalid, a.cvtRange || b.cvtRange⟩

/-- Set a flag field if asked. -/
def Cell.orFlag (c : Cell) (f : Fld) (b : Bool) : Cell := if b then c.wr f 1 else c

/-- Gather flags into CTX_FPFLAGS: sticky. -/
def Cell.gather (c : Cell) (k : Nat) (f : FpFlags) : Cell :=
  (((((c.orFlag (CTX_FPFLAGS_INEXACT.ctx k) f.inexact).orFlag (CTX_FPFLAGS_UNDERFLOW.ctx k) f.underflow).orFlag
    (CTX_FPFLAGS_OVERFLOW.ctx k) f.overflow).orFlag (CTX_FPFLAGS_DIVZERO.ctx k) f.divzero).orFlag
    (CTX_FPFLAGS_INVALID.ctx k) f.invalid).orFlag (CTX_FPFLAGS_CVT_RANGE.ctx k) f.cvtRange

/-- An IEEE result rounded once into its format, with the IEEE flags (R31): underflow is tininess after rounding with an
inexact result. -/
def ieeeResult (c : Nat) (v : Val) (invalid divzero : Bool) : Nat × FpFlags :=
  let r := convert c false false 0 v
  (r.out, { inexact := r.inexact, underflow := r.tiny && r.inexact, overflow := r.range, divzero := divzero,
            invalid := invalid })

/-- Flags of a conversion (R33, R99): CVT_RANGE and INVALID only. -/
def convFlags (r : Conv) : FpFlags := { invalid := r.invalid, cvtRange := r.range }

/-- minimumNumber and maximumNumber of IEEE 754-2019 (R98). -/
def vMinMax (isMax : Bool) (a b : Val) : Val :=
  if a.isNaN then b
  else if b.isNaN then a
  else match vCmp a b with
    | some .lt => if isMax then b else a
    | some .gt => if isMax then a else b
    | _ =>
      -- equal: of two zeros the negative one is the smaller
      match a with
      | .fin n _ _ => if n = isMax then b else a
      | _ => a

/-- The arithmetic minors of SFP, DFP and VFP: 0 add, 1 sub, 2 mul, 3 fma (`d + a * b`), 4 min, 5 max, 6 div, 7 sqrt. -/
def fpArith (c m : Nat) (d a b : Val) : Nat × FpFlags :=
  match m with
  | 0 => let r := vAdd a b; ieeeResult c r.1 r.2 false
  | 1 => let r := vAdd a b.neg; ieeeResult c r.1 r.2 false
  | 2 => let r := vMul a b; ieeeResult c r.1 r.2 false
  | 3 => let r := vFma a b d; ieeeResult c r.1 r.2 false
  | 4 => ieeeResult c (vMinMax false a b) false false
  | 5 => ieeeResult c (vMinMax true a b) false false
  | 6 => let r := vDiv a b; ieeeResult c r.1 r.2.1 r.2.2
  | _ => let r := vSqrt a; ieeeResult c r.1 r.2 false

/-- The comparisons FEQ (0), FLT (1), FLE (2), with INVALID for FLT and FLE of a NaN (R98). -/
def fpCompare (m : Nat) (a b : Val) : Bool × Bool :=
  match vCmp a b with
  | none => (false, m != 0)
  | some o =>
    (match m with
     | 0 => o == .eq
     | 1 => o == .lt
     | _ => o != .gt, false)

/-- LX128 flags as bits 0 to 2 of the flag register (R109). -/
def lxFlagBits (inexact wovf invalid : Bool) : Nat := b2n inexact + 2 * b2n wovf + 4 * b2n invalid

end Sys2Proof.Machine
end

