-- ==== Sys2Proof/Machine/Scalar.lean ====
section
/-! DEFINITION. Scalar instructions, branches, jumps, loops, scalar floating point and conversion
(spec/04_cell_instructions.md R92 to R99). -/

namespace Sys2Proof.Machine
open Sys2Proof

/-- The 32-bit operations of SALU minors 0x00 to 0x0F, wrapping modulo 2^32 (R92). -/
def alu32 (m : Nat) (a b : BitVec 32) : BitVec 32 :=
  match m with
  | 0x00 => a + b
  | 0x01 => a - b
  | 0x02 => a &&& b
  | 0x03 => a ||| b
  | 0x04 => a ^^^ b
  | 0x05 => a <<< (b.toNat % 32)
  | 0x06 => a >>> (b.toNat % 32)
  | 0x07 => a.sshiftRight (b.toNat % 32)
  | 0x08 => if a.slt b then 1 else 0
  | 0x09 => if a.ult b then 1 else 0
  | 0x0A => if b.slt a then b else a
  | 0x0B => if a.slt b then b else a
  | 0x0C => if b.ult a then b else a
  | 0x0D => if a.ult b then b else a
  | 0x0E => BitVec.ofNat 32 (satInt 4 (a.toInt + b.toInt)).out
  | _ => BitVec.ofNat 32 (satInt 4 (a.toInt - b.toInt)).out

/-- Leading zeros of a word. -/
def clz32 (a : BitVec 32) : Nat := if a = 0 then 32 else 31 - Nat.log2 a.toNat
/-- Set bits among the low `n` bits of a number. -/
def popc (x : Nat) : Nat → Nat
  | 0 => 0
  | n + 1 => b2n (x.testBit n) + popc x n

/-- SALU and SALUI write rd (R92): `b` is rs2 or the immediate. A word of a pair is poisoned by the words of the operands that it
depends on (R91, log 132): of a sum, a difference or a left shift the low words alone for the low word, of a right shift the high
word alone for the high word, and a shift amount for both. -/
def saluCtx (w : Nat) (b : PW) (x : Ctx) : Ctx :=
  let m := minor w
  let rd := fRd w
  let rs1 := fRs1 w
  let a := x.sReg rs1
  let p := a.p || b.p
  if m ≤ 0x0F then x.setS rd ⟨alu32 m a.v b.v, p⟩
  else match m with
    | 0x10 => x.setPairW rd (x.pair rs1 + x.pair (fRs2 w)) p (x.pairP rs1 || x.pairP (fRs2 w))
    | 0x11 => x.setPairW rd (wrap 64 ((x.pair rs1 : Int) - x.pair (fRs2 w))) p (x.pairP rs1 || x.pairP (fRs2 w))
    | 0x12 =>
      let lt := decide (signed 64 (x.pair rs1) < signed 64 (x.pair (fRs2 w)))
      x.setS rd ⟨if lt then 1 else 0, x.pairP rs1 || x.pairP (fRs2 w)⟩
    | 0x13 => x.setPairW rd (x.pair rs1 <<< (b.v.toNat % 64)) p (x.pairP rs1 || b.p)
    | 0x14 => x.setPairW rd (x.pair rs1 >>> (b.v.toNat % 64)) (x.pairP rs1 || b.p) ((x.sReg (rs1 + 1)).p || b.p)
    | 0x15 => x.setPairW rd (wrap 64 (signed 64 (x.pair rs1) / ((2 ^ (b.v.toNat % 64) : Nat) : Int))) (x.pairP rs1 || b.p)
        ((x.sReg (rs1 + 1)).p || b.p)
    | 0x16 => x.setA (rd % 8) ⟨a.v + b.v, p⟩
    | 0x17 => x.setS rd (x.aReg (rs1 % 8))
    | 0x18 => x.setS rd ⟨BitVec.ofNat 32 (clz32 a.v), a.p⟩
    | _ => x.setS rd ⟨BitVec.ofNat 32 (popc a.v.toNat 32), a.p⟩

/-- SALU (R92). -/
def bodySalu (_e : Env) (k w _ext : Nat) (c : Cell) : Cell :=
  c.done k (fun x => saluCtx w (x.sReg (fRs2 w)) x)

/-- SALUI (R92): imm11 sign-extended takes the place of rs2. -/
def bodySalui (_e : Env) (k w _ext : Nat) (c : Cell) : Cell :=
  c.done k (fun x => saluCtx w ⟨BitVec.ofInt 32 (signed 11 (bits w 10 0)), false⟩ x)

/-- LUI (R93). -/
def bodyLui (_e : Env) (k w _ext : Nat) (c : Cell) : Cell :=
  c.done k (fun x => x.setS (fRd w) ⟨BitVec.ofNat 32 (bits w 15 0 * 65536), false⟩)

/-- The 32-bit results of SMUL, with the fixed results for a zero divisor and for -2^31 by -1 (R94). -/
def mul32 (m : Nat) (a b : BitVec 32) : BitVec 32 :=
  match m with
  | 0 => a * b
  | 1 => BitVec.ofInt 32 (a.toInt * b.toInt / (2 ^ 32 : Int))
  | 2 => BitVec.ofNat 32 (a.toNat * b.toNat / 2 ^ 32)
  | 3 => if b = 0 then BitVec.ofNat 32 0xFFFFFFFF else BitVec.ofInt 32 (a.toInt.tdiv b.toInt)
  | 4 => if b = 0 then BitVec.ofNat 32 0xFFFFFFFF else BitVec.ofNat 32 (a.toNat / b.toNat)
  | 5 => if b = 0 then a else BitVec.ofInt 32 (a.toInt.tmod b.toInt)
  | _ => if b = 0 then a else BitVec.ofNat 32 (a.toNat % b.toNat)

/-- SMUL (R94). -/
def bodySmul (_e : Env) (k w _ext : Nat) (c : Cell) : Cell :=
  c.done k (fun x =>
    let m := minor w
    if m = 7 then x.setPairW (fRd w) (x.pair (fRs1 w) * x.pair (fRs2 w)) ((x.sReg (fRs1 w)).p || (x.sReg (fRs2 w)).p)
      (x.pairP (fRs1 w) || x.pairP (fRs2 w))
    else
      let a := x.sReg (fRs1 w)
      let b := x.sReg (fRs2 w)
      x.setS (fRd w) ⟨mul32 m a.v b.v, a.p || b.p⟩)

/-- The condition of BR on two registers (R95). -/
def brCond (m : Nat) (a b : BitVec 32) : Bool :=
  match m with
  | 0 => a == b
  | 1 => a != b
  | 2 => a.slt b
  | 3 => !a.slt b
  | 4 => a.ult b
  | _ => !a.ult b

/-- BR (R95): a poisoned condition raises POISON_CONSUMED (R91). -/
def bodyBr (e : Env) (k w _ext : Nat) (c : Cell) : Cell :=
  let x := c.ctx k
  let m := minor w
  let target := x.pc + BitVec.ofInt 10 (signed 11 (bits w 10 0))
  if 8 ≤ m then
    let p := x.pReg (bits w 18 16)
    if p.p then c.poisoned e k 0
    else if (p.v != 0) == (m == 8) then c.jump k target else c.advance k 1
  else
    let a := x.sReg (fRd w)
    let b := x.sReg (fRs1 w)
    if a.p then c.poisoned e k 0
    else if b.p then c.poisoned e k 1
    else if brCond m a.v b.v then c.jump k target else c.advance k 1

/-- J (R96). -/
def bodyJ (_e : Env) (k w _ext : Nat) (c : Cell) : Cell :=
  c.jump k ((c.ctx k).pc + BitVec.ofInt 10 (signed 16 (bits w 15 0)))

/-- JAL (R96): rd takes the address of the next instruction. -/
def bodyJal (_e : Env) (k w _ext : Nat) (c : Cell) : Cell :=
  let pc := (c.ctx k).pc
  (c.modCtx k (fun x => x.setS (fRd w) ⟨BitVec.ofNat 32 (pc + 1).toNat, false⟩)).jump k
    (pc + BitVec.ofInt 10 (signed 16 (bits w 15 0)))

/-- JR (R96): the target is rs1[9:0]. -/
def bodyJr (e : Env) (k w _ext : Nat) (c : Cell) : Cell :=
  let a := (c.ctx k).sReg (fRs1 w)
  if a.p then c.poisoned e k 0 else c.jump k (BitVec.ofNat 10 a.v.toNat)

/-- LOOP (R97): a count of 0 skips the body. -/
def bodyLoop (e : Env) (k w _ext : Nat) (c : Cell) : Cell :=
  let x := c.ctx k
  let n := bits w 20 19
  let cnt : PW := if bit w 18 then ⟨BitVec.ofNat 32 (bits w 17 10), false⟩ else x.sReg (bits w 17 13)
  let len := BitVec.ofNat 10 (bits w 9 0)
  if cnt.p then c.poisoned e k 1
  else
    let c := (c.wr ((loopStart n).ctx k) (x.pc + 1).toNat).wr ((loopEnd n).ctx k) (x.pc + len).toNat
    let c := c.modCtx k (fun x => x.setL n cnt.v)
    if cnt.v = 0 then c.jump k (x.pc + len + 1) else c.advance k 1

/-- Scalar floating point, 16-bit and 32-bit (R98). -/
def bodySfp (e : Env) (k w _ext : Nat) (c : Cell) : Cell :=
  let f := bits w 3 0
  let m := minor w
  if ¬ (f = 0xB ∨ f = 0xC ∨ f = 0xD) then c.formatInvalid e k f false 0 false
  else
    let x := c.ctx k
    let a := x.sReg (fRs1 w)
    let b := x.sReg (fRs2 w)
    let d := x.sReg (fRd w)
    let va := unpack f a.v.toNat
    let vb := unpack f b.v.toNat
    if 8 ≤ m then
      let r := fpCompare (m - 8) va vb
      (c.gather k { invalid := r.2 }).done k (fun x => x.setS (fRd w) ⟨if r.1 then 1 else 0, a.p || b.p⟩)
    else
      let r := fpArith f m (unpack f d.v.toNat) va vb
      let p := a.p || (m != 7 && b.p) || (m == 3 && d.p)
      (c.gather k r.2).done k (fun x => x.setS (fRd w) ⟨BitVec.ofNat 32 r.1, p⟩)

/-- Scalar FP64 on register pairs (R98). -/
def bodyDfp (e : Env) (k w _ext : Nat) (c : Cell) : Cell :=
  let f := bits w 3 0
  let m := minor w
  if f ≠ 0xE then c.formatInvalid e k f false 0 false
  else
    let x := c.ctx k
    let va := unpack 14 (x.pair (fRs1 w))
    let vb := unpack 14 (x.pair (fRs2 w))
    let pa := x.pairP (fRs1 w)
    let pb := x.pairP (fRs2 w)
    if 8 ≤ m then
      let r := fpCompare (m - 8) va vb
      (c.gather k { invalid := r.2 }).done k (fun x => x.setS (fRd w) ⟨if r.1 then 1 else 0, pa || pb⟩)
    else
      let r := fpArith 14 m (unpack 14 (x.pair (fRd w))) va vb
      let p := pa || (m != 7 && pb) || (m == 3 && x.pairP (fRd w))
      (c.gather k r.2).done k (fun x => x.setPair (fRd w) r.1 p)

/-- A converted result as it fills rd: INT8 and INT16 sign-extended, UINT8 and the 16-bit formats zero-extended
(R99). -/
def cvtFill (code out : Nat) : Nat :=
  if code = 1 ∨ code = 3 then wrap 32 (signed (fmtBits code) out) else out

/-- CVT and CVTX with output exponent `o` (R99, R32 to R35). -/
def cvtBody (e : Env) (k w : Nat) (o : Int) (words : Nat) (c : Cell) : Cell :=
  let src := bits w 10 7
  let dst := bits w 6 3
  if !(scalFmt src && scalFmt dst) then c.formatInvalid e k src false dst false
  else
    let x := c.ctx k
    let v := if fmt64 src then x.pair (fRs1 w) else (x.sReg (fRs1 w)).v.toNat
    let p := if fmt64 src then x.pairP (fRs1 w) else (x.sReg (fRs1 w)).p
    let r := convert dst (fmtIsInt src) (bit w 2) o (unpack src v)
    (c.gather k (convFlags r)).done k (fun x =>
      if fmt64 dst then x.setPair (fRd w) r.out p
      else x.setS (fRd w) ⟨BitVec.ofNat 32 (cvtFill dst r.out), p⟩) words

/-- CVT (R99). -/
def bodyCvt (e : Env) (k w _ext : Nat) (c : Cell) : Cell := cvtBody e k w 0 1 c

/-- CVTX (R99): O is the extension word's low byte, signed. -/
def bodyCvtx (e : Env) (k w ext : Nat) (c : Cell) : Cell := cvtBody e k w (signed 8 (bits ext 7 0)) 2 c

end Sys2Proof.Machine
end

