-- ==== Sys2Proof/Machine/Vector.lean ====
section
/-! DEFINITION. The vector unit (spec/04_cell_instructions.md R105 to R111). -/

namespace Sys2Proof.Machine
open Sys2Proof

/-- Element `i` of `b` bits of a v register, packed from bit 0 (R24, R105). -/
def VR.elem (r : VR) (b i : Nat) : Nat := (r.v.toNat >>> (b * i)) % 2 ^ b

/-- Poison of element `i` of `b` bits: of any 32-bit word it lies in (R91). -/
def VR.elemP (r : VR) (b i : Nat) : Bool :=
  (List.range 16).any (fun j => r.p.getLsbD j && decide (32 * j < b * i + b ∧ b * i < 32 * j + 32))

/-- Poison bits of the 32-bit words that element `i` of `b` bits begins in and runs through. -/
def VR.elemM (r : VR) (b i : Nat) : Nat := (r.p.toNat >>> (b * i / 32)) % 2 ^ ((b + 31) / 32)

/-- Every word of an element if asked. -/
def allWords (q : Bool) : Nat := if q then 0xFFFF else 0

/-- What the words of a result lane depend on in an operand's lane (R91, log 132): the word in the same place, that word and the lower
ones, that word and the higher ones, or all of them. -/
inductive Dep where
  | word | up | down | all
deriving DecidableEq, Repr

/-- The poisoned words of a result lane, for a poison mask of an operand's lane. -/
def Dep.mask (d : Dep) (m : Nat) : Nat :=
  match d with
  | .word => m
  | .all => allWords (m != 0)
  | .up => (List.range 16).foldl (fun a j => a + b2n (m % 2 ^ (j + 1) != 0) * 2 ^ j) 0
  | .down => (List.range 16).foldl (fun a j => a + b2n (m / 2 ^ j != 0) * 2 ^ j) 0

/-- Value of elements placed from bit `b * i` on. -/
def packVal (b i : Nat) : List (Nat × Bool) → Nat
  | [] => 0
  | e :: es => (e.1 % 2 ^ b) * 2 ^ (b * i) + packVal b (i + 1) es

/-- Whether an element poisons word `j`. -/
def packP (b i j : Nat) : List (Nat × Bool) → Bool
  | [] => false
  | e :: es => (e.2 && decide (32 * j < b * i + b ∧ b * i < 32 * j + 32)) || packP b (i + 1) j es

/-- A v register of packed elements of `b` bits, each with its poison; the remaining bytes are 0. -/
def packVR (b : Nat) (es : List (Nat × Bool)) : VR :=
  ⟨BitVec.ofNat 512 (packVal b 0 es), BitVec.ofNat 16 ((List.range 16).foldl (fun a j => a + b2n (packP b 0 j es) * 2 ^ j) 0)⟩

/-- Whether an element with a mask of poisoned words poisons word `j`. -/
def packM (b i j : Nat) : List (Nat × Nat) → Bool
  | [] => false
  | e :: es => (e.2.testBit (j - b * i / 32) && decide (32 * j < b * i + b ∧ b * i < 32 * j + 32)) || packM b (i + 1) j es

/-- A v register of packed lanes of `b` bits, each with the mask of its poisoned words; the remaining bytes are 0. -/
def packLanes (b : Nat) (es : List (Nat × Nat)) : VR :=
  ⟨BitVec.ofNat 512 (packVal b 0 (es.map (fun e => (e.1, false)))),
   BitVec.ofNat 16 ((List.range 16).foldl (fun a j => a + b2n (packM b 0 j es) * 2 ^ j) 0)⟩

/-- Whether lane `i` of `wb` bytes is active under pm and the mask (R105, 03 R58). -/
def laneOn (w : Nat) (m : PP) (wb i : Nat) : Bool := fPm w == 0 || m.v.getLsbD (i * wb)

/-- The result of a lane operation under pm: active lanes from `f`, inactive lanes kept or zero (R105). A poisoned mask
poisons every lane; each lane has the mask of its poisoned words. -/
def laneResult (w : Nat) (m : PP) (wb : Nat) (old : VR) (f : Nat → Nat × Nat) : VR :=
  packLanes (8 * wb) ((List.range (64 / wb)).map (fun i =>
    let q := allWords (fPm w != 0 && m.p)
    if laneOn w m wb i then ((f i).1, (f i).2 ||| q)
    else if fPm w = 1 then (old.elem (8 * wb) i, old.elemM (8 * wb) i ||| q)
    else (0, q)))

/-- Flags of the active lanes. -/
def laneFlags (w : Nat) (m : PP) (wb : Nat) (f : Nat → FpFlags) : FpFlags :=
  (List.range (64 / wb)).foldl (fun a i => if laneOn w m wb i then a.or (f i) else a) {}

/-- FORMAT_INVALID of an instruction with one format code. -/
def Cell.badFmt (e : Env) (k f : Nat) (c : Cell) : Cell := c.formatInvalid e k f false 0 false

/-- One lane of VALU (R106): `b` lane bits, UINT8 when `u`. A shift amount of a 32-bit or 64-bit lane counts modulo the width, as R92
has it for scalars; of a narrower lane an amount at or above the width is a free value (log 136). -/
def valuLane (m b : Nat) (u : Bool) (x y : Nat) : Nat :=
  let sx := signed b x
  let sy := signed b y
  let sh := if b = 32 ∨ b = 64 then y % b else y
  match m with
  | 0x00 => x + y
  | 0x01 => wrap b ((x : Int) - y)
  | 0x02 => x &&& y
  | 0x03 => x ||| y
  | 0x04 => x ^^^ y
  | 0x05 => if sh < b then x <<< sh else Config.laneShift m b x y
  | 0x06 => if sh < b then x >>> sh else Config.laneShift m b x y
  | 0x07 => if sh < b then wrap b (sx / ((2 ^ sh : Nat) : Int)) else Config.laneShift m b x y
  | 0x08 => if sy < sx then y else x
  | 0x09 => if sx < sy then y else x
  | 0x0A => if y < x then y else x
  | 0x0B => if x < y then y else x
  | 0x0C => if u then min (x + y) 255
            else wrap b (max (-((2 ^ (b - 1) : Nat) : Int)) (min (((2 ^ (b - 1) : Nat) : Int) - 1) (sx + sy)))
  | 0x0D => if u then x - y
            else wrap b (max (-((2 ^ (b - 1) : Nat) : Int)) (min (((2 ^ (b - 1) : Nat) : Int) - 1) (sx - sy)))
  | 0x0E => x * y
  | _ => wrap b (sx * sy / ((2 ^ b : Nat) : Int))

/-- What a VALU result depends on in va's lane and in vb's: a shift amount in the low word (R91). -/
def valuDep (m : Nat) : Dep × Dep :=
  match m with
  | 0x00 => (.up, .up) | 0x01 => (.up, .up) | 0x02 => (.word, .word) | 0x03 => (.word, .word) | 0x04 => (.word, .word)
  | 0x05 => (.up, .all) | 0x06 => (.down, .all) | 0x07 => (.down, .all) | 0x0E => (.up, .up) | _ => (.all, .all)

/-- VALU (R106). -/
def bodyValu (e : Env) (k w _ext : Nat) (c : Cell) : Cell :=
  let f := fFmt w
  if !decide (1 ≤ f ∧ f ≤ 5) then c.badFmt e k f
  else
    c.done k (fun x =>
      let a := x.vReg (fVa w)
      let b := x.vReg (fVb w)
      let n := fmtBits f
      x.setV (fVd w) (laneResult w (x.pReg (fP w)) (laneBytes f) (x.vReg (fVd w)) (fun i =>
        let m := minor w
        let bm := if 5 ≤ m ∧ m ≤ 7 then b.elemM n i % 2 else b.elemM n i
        (valuLane m n (f == 2) (a.elem n i) (b.elem n i), (valuDep m).1.mask (a.elemM n i) ||| (valuDep m).2.mask bm))))

/-- Sign operations on an encoding: FABS (6), FNEG (7); a NaN gives the canonical NaN (R106, R29). -/
def signOp (f m x : Nat) : Nat :=
  if (unpack f x).isNaN then canonNaN f
  else
    let mag := x % 2 ^ (fmtBits f - 1)
    if m = 6 then mag else withSign f (!bit x (fmtBits f - 1)) mag

/-- VFP (R106, R31). -/
def bodyVfp (e : Env) (k w _ext : Nat) (c : Cell) : Cell :=
  let f := fFmt w
  let m := minor w
  if !decide (11 ≤ f ∧ f ≤ 13) then c.badFmt e k f
  else
    let x := c.ctx k
    let a := x.vReg (fVa w)
    let b := x.vReg (fVb w)
    let d := x.vReg (fVd w)
    let n := fmtBits f
    let g := fun i =>
      if 6 ≤ m then (signOp f m (a.elem n i), ({} : FpFlags))
      else fpArith f m (unpack f (d.elem n i)) (unpack f (a.elem n i)) (unpack f (b.elem n i))
    let pm := x.pReg (fP w)
    (c.gather k (laneFlags w pm (laneBytes f) (fun i => (g i).2))).done k (fun x =>
      x.setV (fVd w) (laneResult w pm (laneBytes f) d (fun i =>
        ((g i).1, allWords (a.elemP n i || (decide (m ≤ 5) && b.elemP n i) || (m == 3 && d.elemP n i))))))

/-- One lane of VCMP: the result and INVALID (R107). -/
def vcmpLane (f m x y : Nat) : Bool × Bool :=
  let n := fmtBits f
  match m with
  | 0 => (x == y, false)
  | 1 => (x != y, false)
  | 2 => (decide (signed n x < signed n y), false)
  | 3 => (decide (signed n x ≤ signed n y), false)
  | 4 => (decide (x < y), false)
  | 5 => (decide (x ≤ y), false)
  | 0xB => ((unpack f x).isNaN || (unpack f y).isNaN, false)
  | _ => fpCompare (m - 8) (unpack f x) (unpack f y)

/-- VCMP (R107): every bit of a lane's byte group takes the result. -/
def bodyVcmp (e : Env) (k w _ext : Nat) (c : Cell) : Cell :=
  let f := fFmt w
  let m := minor w
  if !(if m ≤ 5 then decide (1 ≤ f ∧ f ≤ 5) else decide (11 ≤ f ∧ f ≤ 13)) then c.badFmt e k f
  else
    let x := c.ctx k
    let a := x.vReg (fVa w)
    let b := x.vReg (fVb w)
    let n := fmtBits f
    let wb := laneBytes f
    let pm := x.pReg (fP w)
    let old := x.pReg (fVd w % 8)
    let g := fun i => vcmpLane f m (a.elem n i) (b.elem n i)
    let bitOf := fun j =>
      let i := j / wb
      if fPm w == 0 || pm.v.getLsbD (i * wb) then (g i).1
      else fPm w == 1 && old.v.getLsbD j
    let v := (List.range 64).foldl (fun acc j => acc + b2n (bitOf j) * 2 ^ j) 0
    let p := (List.range (64 / wb)).any (fun i => laneOn w pm wb i && (a.elemP n i || b.elemP n i))
      || (fPm w != 0 && pm.p) || (fPm w == 1 && old.p)
    (c.gather k (laneFlags w pm wb (fun i => { invalid := (g i).2 }))).done k (fun x =>
      x.setP (fVd w % 8) ⟨BitVec.ofNat 64 v, p⟩)

/-- VSEL (R107). -/
def bodyVsel (e : Env) (k w _ext : Nat) (c : Cell) : Cell :=
  let f := fFmt w
  if !vecFmt f then c.badFmt e k f
  else
    c.done k (fun x =>
      let a := x.vReg (fVa w)
      let b := x.vReg (fVb w)
      let m := x.pReg (fP w)
      let n := fmtBits f
      x.setV (fVd w) (packLanes n ((List.range (512 / n)).map (fun i =>
        let r := if m.v.getLsbD (i * laneBytes f) then a else b
        (r.elem n i, r.elemM n i ||| allWords m.p)))))

/-- PERM (R108): a lane's index is in the low word of its vb lane. The format column of R23 binds VPERM too (R105), although
R127's row for FORMAT_INVALID does not name it (log 133). -/
def bodyPerm (e : Env) (k w _ext : Nat) (c : Cell) : Cell :=
  let f := fFmt w
  if !vecFmt f then c.badFmt e k f
  else
    c.done k (fun x =>
      let a := x.vReg (fVa w)
      let b := x.vReg (fVb w)
      let n := fmtBits f
      x.setV (fVd w) (laneResult w (x.pReg (fP w)) (laneBytes f) (x.vReg (fVd w)) (fun i =>
        let j := b.elem n i % (512 / n)
        (a.elem n j, a.elemM n j ||| allWords ((b.elemM n i).testBit 0)))))

/-- BCAST (R108): its p field is 0, so pm other than 0b00 masks by p0. -/
def bodyBcast (e : Env) (k w _ext : Nat) (c : Cell) : Cell :=
  let f := fFmt w
  if !vecFmt f then c.badFmt e k f
  else
    c.done k (fun x =>
      let i := bits w 16 12
      let v := if laneBytes f = 8 then (x.pair i, b2n (x.sReg i).p + 2 * b2n (x.sReg (i + 1)).p)
        else ((x.sReg i).v.toNat, allWords (x.sReg i).p)
      x.setV (fVd w) (laneResult w (x.pReg 0) (laneBytes f) (x.vReg (fVd w)) (fun _ => v)))

/-- EXTRACT (R108): a lane narrower than 32 bits is zero-extended (log 134). -/
def bodyExtract (e : Env) (k w _ext : Nat) (c : Cell) : Cell :=
  let f := fFmt w
  if !vecFmt f then c.badFmt e k f
  else
    c.done k (fun x =>
      let a := x.vReg (bits w 15 12)
      let n := fmtBits f
      let l := bits w 11 6
      if n = 64 then x.setPairW (fRd w) (a.elem n l) ((a.elemM n l).testBit 0) ((a.elemM n l).testBit 1)
      else x.setS (fRd w) ⟨BitVec.ofNat 32 (a.elem n l), a.elemP n l⟩)

/-- SLIDE (R108): the vb field is a count of 4-byte units. -/
def bodySlide (e : Env) (k w _ext : Nat) (c : Cell) : Cell :=
  let f := fFmt w
  if !vecFmt f then c.badFmt e k f
  else
    c.done k (fun x =>
      let a := x.vReg (fVa w)
      let r : VR := ⟨a.v >>> (32 * fVb w), a.p >>> (fVb w)⟩
      let n := fmtBits f
      x.setV (fVd w) (laneResult w (x.pReg (fP w)) (laneBytes f) (x.vReg (fVd w)) (fun i => (r.elem n i, r.elemM n i))))

/-! ### Exact LX128 lanes (R109) -/

/-- The window W: s(2 * vb) bits [10:0], signed. -/
def lxW (x : Ctx) (w : Nat) : Int := signed 11 (bits (x.sReg (2 * fVb w)).v.toNat 10 0)

/-- OR flags into bits [2:0] of s(2 * vb + 1). -/
def lxOrFlags (w fl : Nat) (p : Bool) (x : Ctx) : Ctx :=
  let r := x.sReg (2 * fVb w + 1)
  x.setS (2 * fVb w + 1) ⟨r.v ||| BitVec.ofNat 32 fl, r.p || p⟩

/-- LX128 lane `j` as an integer. -/
def lxLane (r : VR) (j : Nat) : Int := signed 128 (r.elem 128 j)

/-- LXSUM (R109). -/
def bodyLxsum (e : Env) (k w _ext : Nat) (c : Cell) : Cell :=
  let f := fFmt w
  if !(decide (1 ≤ f ∧ f ≤ 5) || decide (11 ≤ f ∧ f ≤ 13)) then c.badFmt e k f
  else
    c.done k (fun x =>
      let a := x.vReg (fVa w)
      let d := x.vReg (fVd w)
      let n := fmtBits f
      let m := x.pReg (fP w)
      let win := lxW x w
      let on := (List.range (512 / n)).filter (fun i => laneOn w m (laneBytes f) i)
      let acc := on.foldl (fun (acc : Acc) i =>
        match unpack f (a.elem n i) with
        | .fin ng s q => acc.merge win (sgn ng s) q
        | _ => { acc with invalid := true }) { Acc.clear with n := BitVec.ofInt 152 (lxLane d 0) }
      let z := acc.leave
      let p := d.elemP 128 0 || on.any (fun i => a.elemP n i) || (fPm w != 0 && m.p) || (x.sReg (2 * fVb w)).p
      lxOrFlags w (lxFlagBits acc.inexact z.2 acc.invalid) p (x.setV (fVd w)
        (packLanes 128 ((List.range 4).map (fun j =>
          if j = 0 then (wrap 128 z.1, allWords p) else (d.elem 128 j, d.elemM 128 j))))))

/-- LXADD (R109): an overflow saturates (R48, log 9), and then every word of the lane depends on every word. -/
def bodyLxadd (e : Env) (k w _ext : Nat) (c : Cell) : Cell :=
  if fFmt w ≠ 15 then c.badFmt e k (fFmt w)
  else
    c.done k (fun x =>
      let a := x.vReg (fVa w)
      let d := x.vReg (fVd w)
      let m := x.pReg (fP w)
      let g := fun j => Acc.leave { Acc.clear with n := BitVec.ofInt 152 (lxLane d j + lxLane a j) }
      let ov := (List.range 4).any (fun j => laneOn w m 16 j && (g j).2)
      let p := (List.range 4).any (fun j => laneOn w m 16 j && (a.elemP 128 j || d.elemP 128 j))
        || (fPm w != 0 && m.p)
      lxOrFlags w (lxFlagBits false ov false) p (x.setV (fVd w)
        (laneResult w m 16 d (fun j => (wrap 128 (g j).1, (if (g j).2 then Dep.all else Dep.up).mask (a.elemM 128 j ||| d.elemM 128 j))))))

/-- Targets of LXOUT: the formats the vector unit handles or converts to (R23). -/
def lxoutFmt (f : Nat) : Bool := decide (f ≤ 13) || f == 15

/-- LXOUT (R109): the four lanes rounded once; results in the low four lanes, packed under R24. -/
def bodyLxout (e : Env) (k w _ext : Nat) (c : Cell) : Cell :=
  let f := fFmt w
  if !lxoutFmt f then c.badFmt e k f
  else
    let x := c.ctx k
    let a := x.vReg (fVa w)
    let win := lxW x w
    let pw := (x.sReg (2 * fVb w)).p
    let r := fun j =>
      if f = 15 then ({ out := a.elem 128 j } : Conv)
      else convert f false (bit w 0) 0 (.fin (decide (lxLane a j < 0)) (lxLane a j).natAbs win)
    let rs := (List.range 4).map r
    (c.gather k { cvtRange := rs.any (fun r => r.range) }).done k (fun x =>
      lxOrFlags w 0 false (x.setV (fVd w)
        (packLanes (fmtBits f) ((List.range 4).map (fun j =>
          ((r j).out, if f = 15 then a.elemM 128 j else allWords (a.elemP 128 j || pw)))))))

/-- LXSHR (R109). -/
def bodyLxshr (e : Env) (k w _ext : Nat) (c : Cell) : Cell :=
  if fFmt w ≠ 15 then c.badFmt e k (fFmt w)
  else
    c.done k (fun x =>
      let a := x.vReg (fVa w)
      let d := x.vReg (fVd w)
      let m := x.pReg (fP w)
      let sr := x.sReg (2 * fVb w + 1)
      let sh := bits sr.v.toNat 14 8
      let g := fun j => rneInt (lxLane a j) (-(sh : Int))
      let ix := (List.range 4).any (fun j => laneOn w m 16 j && (g j).2)
      let p := (List.range 4).any (fun j => laneOn w m 16 j && a.elemP 128 j) || (fPm w != 0 && m.p)
      lxOrFlags w (lxFlagBits ix false false) p (x.setV (fVd w)
        (laneResult w m 16 d (fun j => (wrap 128 (g j).1, allWords (a.elemP 128 j || sr.p))))))

/-! ### Vector conversion and predicates (R110, R111) -/

/-- Formats VCVT converts (R23: "yes" or "convert only"). LX128 (code 0xF), whose row gives the vector unit add, shift and convert, has
its conversion in LXOUT, with the window that VCVT does not name: VCVT refuses it with FORMAT_INVALID (log 135). -/
def vcvtFmt (f : Nat) : Bool := decide (f ≤ 13)

/-- Lanes of a conversion whose wider format has `b` bits: a register holds 21 whole groups of four 6-bit elements
(R24, log 10). -/
def cvtLanes (b : Nat) : Nat := if b = 6 then 84 else 512 / b

/-- VCVT (R110). With MX = 1 every element depends on the whole block through its scale, which is in byte 63. -/
def bodyVcvt (e : Env) (k w _ext : Nat) (c : Cell) : Cell :=
  let src := bits w 12 9
  let dst := bits w 8 5
  let mx := bit w 3
  let va := bits w 16 13
  let sb := fmtBits src
  let wide := wideSrc src
  if !(vcvtFmt src && vcvtFmt dst) then c.formatInvalid e k src false dst mx
  else if mx && (!mxOk dst true || (wide && va == 15)) then c.formatInvalid e k src false dst mx
  else
    let x := c.ctx k
    let a := x.vReg va
    let a1 := x.vReg (va + 1)
    if mx then
      let per := 512 / sb
      let el := fun i =>
        if i < per ∨ ¬ wide then (a.elem sb i, a.elemP sb i)
        else if i < 2 * per then (a1.elem sb (i - per), a1.elemP sb (i - per))
        else (Config.vcvtMissing i (a.v.toNat + 2 ^ 512 * a1.v.toNat), false)
      let es := (List.range 32).map el
      let r := mxBlock dst (es.map (fun z => unpack src z.1))
      let p := es.any (fun z => z.2)
      let body := packVR (fmtBits dst) (r.2.map (fun z => (z.out, p)))
      let out : VR := ⟨body.v ||| BitVec.ofNat 512 (r.1 * 2 ^ 504), body.p ||| BitVec.ofNat 16 (b2n p * 2 ^ 15)⟩
      (c.gather k { invalid := r.2.any (fun z => z.invalid), cvtRange := r.2.any (fun z => z.range) }).done k
        (fun x => x.setV (fVd w) out)
    else
      let n := cvtLanes (max sb (fmtBits dst))
      let rs := (List.range n).map (fun i =>
        (convert dst (fmtIsInt src) (bit w 4) 0 (unpack src (a.elem sb i)), a.elemP sb i))
      (c.gather k { invalid := rs.any (fun z => z.1.invalid), cvtRange := rs.any (fun z => z.1.range) }).done k
        (fun x => x.setV (fVd w) (packVR (fmtBits dst) (rs.map (fun z => (z.1.out, z.2)))))

/-- Index of the lowest set bit among bits `i` on, or 64. -/
def firstBit (v : BitVec 64) (i : Nat) : Nat → Nat
  | 0 => 64
  | n + 1 => if v.getLsbD i then i else firstBit v (i + 1) n

/-- PRED (R111). -/
def bodyPred (_e : Env) (k w _ext : Nat) (c : Cell) : Cell :=
  c.done k (fun x =>
    let pd := bits w 20 18
    let a := x.pReg (bits w 17 15)
    let b := x.pReg (bits w 14 12)
    let s := bits w 11 7
    match minor w with
    | 0 => x.setP pd ⟨a.v &&& b.v, a.p || b.p⟩
    | 1 => x.setP pd ⟨a.v ||| b.v, a.p || b.p⟩
    | 2 => x.setP pd ⟨a.v ^^^ b.v, a.p || b.p⟩
    | 3 => x.setP pd ⟨a.v &&& ~~~b.v, a.p || b.p⟩
    | 4 => x.setP pd ⟨~~~a.v, a.p⟩
    | 5 => x.setP pd ⟨BitVec.allOnes 64, false⟩
    | 6 => x.setP pd ⟨0, false⟩
    | 7 => x.setP pd ⟨BitVec.ofNat 64 (x.pair s), x.pairP s⟩
    | 8 => x.setPair s a.v.toNat a.p
    | 9 => x.setS s ⟨BitVec.ofNat 32 (popc a.v.toNat 64), a.p⟩
    | _ => x.setS s ⟨BitVec.ofNat 32 (firstBit a.v 0 64), a.p⟩)

end Sys2Proof.Machine
end

