-- ==== Sys2Proof/Machine/Scratchpad.lean ====
section
/-! DEFINITION. The cell scratchpad: words with poison and check bits, views, ownership, slot rings, clearing, the host
window, and the instructions that reach it (spec/06_scratchpad.md, spec/04_cell_instructions.md R100 to R104). -/

namespace Sys2Proof.Machine
open Sys2Proof

/-- Bytes of the scratchpad (R174). -/
def spdBytes : Nat := 0x30000

/-- The address bank of a byte address (R175). -/
def abank (a : Nat) : Nat := a / 64 / 192

/-- The rotation of a byte address's line (R175). -/
def spdRot (a : Nat) : Nat := 2 * (a / 64 % 8) + a / 512 % 2
/-- The physical bank of a byte address (R175). -/
def physBank (a : Nat) : Nat := (a / 4 % 16 + spdRot a) % 16
/-- Its row in that bank (R175). -/
def physRow (a : Nat) : Nat := a / 64

/-- The byte address of a row of a physical bank (R175). -/
def bankAddr (bank row : Nat) : Nat := 64 * row + 4 * ((bank + 16 - spdRot (64 * row) % 16) % 16)

/-- The field of an address bank in SPD_OWN. -/
def Cell.ownField (c : Cell) (b : Nat) : Nat := bits (c.rd SPD_OWN_STATE) (3 * b + 2) (3 * b)
/-- The ownership state that an access to an address bank is checked against (R187): while a hand-over is pending, the old
one (R189). -/
def Cell.ownState (c : Cell) (b : Nat) : Nat :=
  match fget z0 c.ownOld b with
  | 0 => c.ownField b
  | n + 1 => n
/-- Set the field of an address bank. -/
def Cell.setOwn (c : Cell) (b st : Nat) : Cell :=
  let v := c.rd SPD_OWN_STATE
  c.wr SPD_OWN_STATE (v - bits v (3 * b + 2) (3 * b) * 2 ^ (3 * b) + st % 8 * 2 ^ (3 * b))

/-- Classes an ownership state admits (R187). -/
def ownAdmits (st cls : Nat) : Bool :=
  cls == 6 || (match st with
    | 1 => cls == 0 || cls == 1 || cls == 7
    | 2 => cls == 2 || cls == 3
    | 3 => cls == 4 || cls == 5
    | 4 => cls != 6
    | _ => false)

/-- Store poison of a word: of words `a` (a byte address). -/
def Cell.wordP (c : Cell) (a : Nat) : Bool := fget noMark c.spdPoison (a / 4)

/-- Read the word at a byte address: value, poison, and the cell after the check bits were used (R196): a correctable
error is corrected and counted, an uncorrectable one poisons the stored word and is counted. -/
def Cell.spdRead (c : Cell) (a : Nat) : Nat × Bool × Cell :=
  let w := a / 4
  let v := memRead c.spd (4 * w) 4
  match fget ecc0 c.spdEcc w with
  | .ok => (v, fget noMark c.spdPoison w, c)
  | .ce => (v, fget noMark c.spdPoison w, (c.bumpSat SPD_ECC_CE_CNT).noteErr 2 w false)
  | .ue => (v, true, (({ c with spdPoison := fset noMark c.spdPoison w true
                                spdEcc := fset ecc0 c.spdEcc w .ok }).bumpSat SPD_ECC_UE_CNT).noteErr 2 w true)

/-- Write a whole word with its poison bit (R197): new check bits. -/
def Cell.spdWrite (c : Cell) (a v : Nat) (p : Bool) : Cell :=
  let w := a / 4
  { c with spd := memWrite c.spd (4 * w) 4 v
           spdPoison := fset noMark c.spdPoison w p
           spdEcc := fset ecc0 c.spdEcc w .ok }

/-- Write `n` bytes inside one word: a merge, poisoned if the word read or the source is (R185). -/
def Cell.spdMerge (c : Cell) (a n v : Nat) (p : Bool) : Cell :=
  let r := c.spdRead a
  let c := r.2.2.spdWrite (a / 4 * 4) r.1 (r.2.1 || p)
  { c with spd := memWrite c.spd a n v }

/-- Write `n` bytes from an address that may lie in several words: whole words where all four bytes are written, merges
elsewhere. -/
def Cell.spdWriteN (c : Cell) (a n v : Nat) (p : Bool) : Cell :=
  if n = 4 then c.spdWrite a v p
  else if n = 8 then (c.spdWrite a (v % 2 ^ 32) p).spdWrite (a + 4) (v / 2 ^ 32) p
  else c.spdMerge a n v p

/-- The capture of the first fault's address in the cell that refused it (R200). -/
def Cell.spdCapture (k cls code addr : Nat) (c : Cell) : Cell :=
  if c.rd SPD_FAULT_ADDR_VALID = 1 then c
  else ((((c.wr SPD_FAULT_ADDR_VALID 1).wr SPD_FAULT_ADDR_CLASS cls).wr SPD_FAULT_ADDR_CTX k).wr
    SPD_FAULT_ADDR_CODE code).wr SPD_FAULT_ADDR_ADDR addr

/-- DETAIL of a scratchpad fault (R200). -/
def spdDetail (cls code ring addr : Nat) : Nat :=
  cls * 256 + (if code = 0x40 then 15 else abank addr % 16) * 16
    + (if code = 0x43 ∨ code = 0x44 ∨ code = 0x46 then ring else addr / 4 % 16)

/-- A scratchpad fault on context `k`, with the capture of the first fault's address (R200). -/
def Cell.spdFault (e : Env) (k pc cls code ring addr : Nat) (c : Cell) : Cell :=
  (c.spdCapture k cls code addr).raise e k code (spdDetail cls code ring addr) pc

/-! ### Port claims of fixed-time requesters (R180) -/

/-- Whether a fixed-time claim holds a port (read or write) in mesh cycle `now`. -/
def Cell.portTaken (c : Cell) (rd : Bool) (now : Nat) : Bool := (if rd then c.rdClaim else c.wrClaim) == now + 1
/-- A port is claimed in mesh cycle `now`. -/
def Cell.takePort (rd : Bool) (now : Nat) (c : Cell) : Cell := if rd then { c with rdClaim := now + 1 } else { c with wrClaim := now + 1 }
/-- A fixed-time claim that is not granted: it is counted and captured; its WIDE_CLASH is the caller's to raise. -/
def Cell.lostClaim (k cls addr : Nat) (c : Cell) : Cell := (c.bumpSat SPD_CONFLICT_CLASH_CNT).spdCapture k cls 0x45 addr

/-- What is wrong with an access of a class to the words at `ws`, whose first is at its address, aligned or not: SPD_RANGE of
the address, then SPD_ALIGN, then SPD_OWNERSHIP (R177, R178, R188; the order between them is log 11). -/
def Cell.spdCheck (c : Cell) (cls : Nat) (aligned : Bool) (ws : List Nat) : Option (Nat × Nat) :=
  if spdBytes ≤ ws.headD 0 then some (0x40, ws.headD 0)
  else if !aligned then some (0x41, ws.headD 0)
  else match ws.find? (fun a => decide (spdBytes ≤ a)) with
    | some a => some (0x40, a)
    | none =>
      match ws.find? (fun a => !ownAdmits (c.ownState (abank a)) cls) with
      | some a => some (0x42, a)
      | none => none

/-- The words a view touches, each with the lanes (width in bits, index) that fill it from its low bits on (R177). -/
def viewMap (col : Bool) (wc a : Nat) : List (Nat × List (Nat × Nat)) :=
  if !col then (List.range 16).map (fun j => (a + 4 * j, [(32, j)]))
  else
    let l0 := a / 64
    let w := a / 4 % 16
    let at' := fun i d => (l0 + i) * 64 + 4 * (w + d)
    match wc with
    | 0 => (List.range 16).map (fun i => (at' i 0, [(8, i), (8, 16 + i), (8, 32 + i), (8, 48 + i)]))
    | 1 => (List.range 16).map (fun i => (at' i 0, [(16, i), (16, 16 + i)]))
    | 2 => (List.range 16).map (fun i => (at' i 0, [(32, i)]))
    | _ => (List.range 8).flatMap (fun i => [(at' i 0, [(32, 2 * i)]), (at' i 1, [(32, 2 * i + 1)])])

/-- Alignment of a view's address (R177). -/
def viewAligned (col : Bool) (wc a : Nat) : Bool :=
  if !col then a % 64 == 0
  else if wc == 3 then a % 8 == 0 && bits a 8 6 == 0
  else a % 4 == 0 && bits a 9 6 == 0

/-- The slices of a word put into their lanes: value and poisoned 32-bit words of the register. -/
def spread (v : Nat) (p : Bool) (off : Nat) : List (Nat × Nat) → Nat × Nat
  | [] => (0, 0)
  | (b, i) :: t =>
    let r := spread v p (off + b) t
    (bits v (off + b - 1) off * 2 ^ (b * i) + r.1, (b2n p * 2 ^ (b * i / 32)) ||| r.2)

/-- Load a view. -/
def Cell.viewLoad (c : Cell) : List (Nat × List (Nat × Nat)) → VR × Cell
  | [] => (⟨0, 0⟩, c)
  | (a, ls) :: t =>
    let r := c.spdRead a
    let (rest, c) := r.2.2.viewLoad t
    let s := spread r.1 r.2.1 0 ls
    (⟨rest.v ||| BitVec.ofNat 512 s.1, rest.p ||| BitVec.ofNat 16 s.2⟩, c)

/-- The word a register's lanes make, and its poison. -/
def collect (r : VR) (off : Nat) : List (Nat × Nat) → Nat × Bool
  | [] => (0, false)
  | (b, i) :: t =>
    let x := collect r (off + b) t
    (r.elem b i * 2 ^ off + x.1, r.elemP b i || x.2)

/-- Store a register through a view. -/
def Cell.viewStore (c : Cell) (r : VR) : List (Nat × List (Nat × Nat)) → Cell
  | [] => c
  | (a, ls) :: t => let x := collect r 0 ls; (c.spdWrite a x.1 x.2).viewStore r t

/-! ### Loads and stores (04 R100 to R103) -/

/-- The words `n` bytes at `a` lie in. -/
def wordsOf (a n : Nat) : List Nat := if n = 8 then [a, a + 4] else [a]

/-- LD (R100). The sum of base and offset does not wrap, so that one past 2^32 is SPD_RANGE (log 123). -/
def bodyLd (e : Env) (k w _ext : Nat) (c : Cell) : Cell :=
  let x := c.ctx k
  let ar := x.aReg (fAa w)
  let n := 2 ^ bits w 22 21
  let a := ar.v.toNat + fOff13 w * n
  if ar.p then c.poisoned e k 1
  else match c.spdCheck 0 (a % n == 0) (wordsOf a n) with
    | some (code, fa) => c.spdFault e k x.pc.toNat 0 code 0 fa
    | none =>
      let r := c.spdRead a
      let c := r.2.2
      if n = 8 then
        let r1 := c.spdRead (a + 4)
        r1.2.2.done k (fun x => (x.setS (fRd w) ⟨BitVec.ofNat 32 r.1, r.2.1⟩).setS (fRd w + 1) ⟨BitVec.ofNat 32 r1.1, r1.2.1⟩)
      else
        let v := bits r.1 (8 * (a % 4) + 8 * n - 1) (8 * (a % 4))
        let v := if bit w 23 then wrap 32 (signed (8 * n) v) else v
        c.done k (fun x => x.setS (fRd w) ⟨BitVec.ofNat 32 v, r.2.1⟩)

/-- ST (R100): a byte or half is a merge. -/
def bodySt (e : Env) (k w _ext : Nat) (c : Cell) : Cell :=
  let x := c.ctx k
  let ar := x.aReg (fAa w)
  let n := 2 ^ bits w 22 21
  let a := ar.v.toNat + fOff13 w * n
  if ar.p then c.poisoned e k 1
  else match c.spdCheck 0 (a % n == 0) (wordsOf a n) with
    | some (code, fa) => c.spdFault e k x.pc.toNat 0 code 0 fa
    | none =>
      let s := x.sReg (fRd w)
      if n = 8 then
        let s1 := x.sReg (fRd w + 1)
        ((c.spdWrite a s.v.toNat s.p).spdWrite (a + 4) s1.v.toNat s1.p).advance k 1
      else (c.spdWriteN a n s.v.toNat s.p).advance k 1

/-- The view of a VMEM or TILE word: column bit and element width. -/
def wordView (w a : Nat) : List (Nat × List (Nat × Nat)) := viewMap (bit w 24) (bits w 23 22) a
/-- Its alignment. -/
def wordAligned (w a : Nat) : Bool := viewAligned (bit w 24) (bits w 23 22) a

/-- VMEM load (R101). -/
def bodyVmemLoad (e : Env) (k w _ext : Nat) (c : Cell) : Cell :=
  let x := c.ctx k
  let ar := x.aReg (fAa w)
  let a := ar.v.toNat + fOff13 w * 64
  if ar.p then c.poisoned e k 1
  else match c.spdCheck 1 (wordAligned w a) ((wordView w a).map (·.1)) with
    | some (code, fa) => c.spdFault e k x.pc.toNat 1 code 0 fa
    | none =>
      let r := c.viewLoad (wordView w a)
      r.2.done k (fun x => x.setV (bits w 19 16) r.1)

/-- VMEM store (R101). -/
def bodyVmemStore (e : Env) (k w _ext : Nat) (c : Cell) : Cell :=
  let x := c.ctx k
  let ar := x.aReg (fAa w)
  let a := ar.v.toNat + fOff13 w * 64
  if ar.p then c.poisoned e k 1
  else match c.spdCheck 1 (wordAligned w a) ((wordView w a).map (·.1)) with
    | some (code, fa) => c.spdFault e k x.pc.toNat 1 code 0 fa
    | none => (c.viewStore (x.vReg (bits w 19 16)) (wordView w a)).advance k 1

/-- The transfers of a tile from the `i`-th on; a refused transfer faults, those before it have taken effect
(R102, R188). -/
def tileGo (e : Env) (k w base : Nat) (store : Bool) (i : Nat) : Nat → Cell → Cell
  | 0, c => c.advance k 1
  | n + 1, c =>
    let a := base + i * bits w 9 0 * 64
    let pc := (c.ctx k).pc.toNat
    match c.spdCheck 1 (wordAligned w a) ((wordView w a).map (·.1)) with
    | some (code, fa) => c.spdFault e k pc 1 code 0 fa
    | none =>
      let d := bits w 20 17 + i
      if store then tileGo e k w base store (i + 1) n (c.viewStore ((c.ctx k).vReg d) (wordView w a))
      else
        let r := c.viewLoad (wordView w a)
        tileGo e k w base store (i + 1) n (r.2.modCtx k (fun x => x.setV d r.1))

/-- TILE load (R102). -/
def bodyTileLoad (e : Env) (k w _ext : Nat) (c : Cell) : Cell :=
  let ar := (c.ctx k).aReg (bits w 16 14)
  if ar.p then c.poisoned e k 1 else tileGo e k w ar.v.toNat false 0 (bits w 13 10 + 1) c

/-- TILE store (R102). -/
def bodyTileStore (e : Env) (k w _ext : Nat) (c : Cell) : Cell :=
  let ar := (c.ctx k).aReg (bits w 16 14)
  if ar.p then c.poisoned e k 1 else tileGo e k w ar.v.toNat true 0 (bits w 13 10 + 1) c

/-- ATOM (R103, R186): `add` or swap. An AADD of a poisoned old value writes poison; an ASWAP writes its operand's. -/
def atomBody (add : Bool) (e : Env) (k w : Nat) (c : Cell) : Cell :=
  let x := c.ctx k
  let ar := x.aReg (bits w 10 8)
  let dbl := minor w % 2 == 1
  let n := if dbl then 8 else 4
  let a := ar.v.toNat + bits w 7 0 * n
  let rs := fRs1 w
  if ar.p then c.poisoned e k 2
  else match c.spdCheck 0 (a % n == 0) (wordsOf a n) with
    | some (code, fa) => c.spdFault e k x.pc.toNat 0 code 0 fa
    | none =>
      let r0 := c.spdRead a
      if dbl then
        let r1 := r0.2.2.spdRead (a + 4)
        let old := r0.1 + 2 ^ 32 * r1.1
        let p := r0.2.1 || r1.2.1
        let new := if add then old + x.pair rs else x.pair rs
        let c := r1.2.2
        let c := (c.spdWrite a (new % 2 ^ 32) (if add then p || x.pairP rs else (x.sReg rs).p)).spdWrite (a + 4)
          (new / 2 ^ 32 % 2 ^ 32) (if add then p || x.pairP rs else (x.sReg (rs + 1)).p)
        c.done k (fun x => x.setPair (fRd w) old p)
      else
        let s := x.sReg rs
        let new := if add then r0.1 + s.v.toNat else s.v.toNat
        (r0.2.2.spdWrite a (new % 2 ^ 32) (if add then r0.2.1 || s.p else s.p)).done k
          (fun x => x.setS (fRd w) ⟨BitVec.ofNat 32 r0.1, r0.2.1⟩)

/-- AADD (R103). -/
def bodyAadd (e : Env) (k w _ext : Nat) (c : Cell) : Cell := atomBody true e k w c
/-- ASWAP (R103). -/
def bodyAswap (e : Env) (k w _ext : Nat) (c : Cell) : Cell := atomBody false e k w c

/-! ### Slot rings (R191 to R195, 04 R104) -/

/-- A field of ring `r`. -/
def Fld.ring (f : Fld) (r : Nat) : Fld := f.up (0x10 * r)

/-- First byte of slot `s` of ring `r` (R191). -/
def Cell.slotBase (c : Cell) (r s : Nat) : Nat :=
  64 * (c.rd (SPD_RING_CFG_BASE.ring r) + s * (c.rd (SPD_RING_CFG_SLOT_LINES.ring r) + 1))

/-- Slot `s` of ring `r` is full. -/
def Cell.slotFull (c : Cell) (r s : Nat) : Bool := bit (c.rd (SPD_RING_ST_FE.ring r)) s

/-- The pointer after slot `s`. -/
def Cell.slotNext (c : Cell) (r s : Nat) : Nat := if s < c.rd (SPD_RING_CFG_COUNT.ring r) then s + 1 else 0

/-- Contexts blocked on ring `r` become READY when a slot changes state (R104, R194). -/
def Cell.wakeRing (c : Cell) (r : Nat) : Cell :=
  [0, 1, 2, 3].foldl (fun c j =>
    if (c.ctx j).wait = .slot ∧ (c.ctx j).waitObj.toNat = r then c.wake j else c) c

/-- Every slot of ring `r` empty, both pointers 0 (R195). -/
def Cell.ringEmpty (c : Cell) (r : Nat) : Cell :=
  (((c.wr (SPD_RING_ST_FE.ring r) 0).wr (SPD_RING_ST_FULL_CNT.ring r) 0).wr (SPD_RING_ST_TAKE.ring r) 0).wr (SPD_RING_ST_PUT.ring r) 0

/-- A slot is taken: empty, pointer on (R104, R194). -/
def Cell.slotTook (c : Cell) (r : Nat) : Cell :=
  let s := c.rd (SPD_RING_ST_TAKE.ring r)
  let fe := c.rd (SPD_RING_ST_FE.ring r)
  (((c.wr (SPD_RING_ST_FE.ring r) (fe - b2n (bit fe s) * 2 ^ s)).wr (SPD_RING_ST_FULL_CNT.ring r)
    (c.rd (SPD_RING_ST_FULL_CNT.ring r) - 1)).wr (SPD_RING_ST_TAKE.ring r) (c.slotNext r s)).wakeRing r

/-- A slot is put: full, pointer on. -/
def Cell.slotPutDone (c : Cell) (r : Nat) : Cell :=
  let s := c.rd (SPD_RING_ST_PUT.ring r)
  let fe := c.rd (SPD_RING_ST_FE.ring r)
  (((c.wr (SPD_RING_ST_FE.ring r) (fe ||| 2 ^ s)).wr (SPD_RING_ST_FULL_CNT.ring r)
    (c.rd (SPD_RING_ST_FULL_CNT.ring r) + 1)).wr (SPD_RING_ST_PUT.ring r) (c.slotNext r s)).wakeRing r

/-- A ring whose FULL_CNT is not the number of its full slots is recorded when an access finds it (01 R22, R195). -/
def Cell.ringAudit (e : Env) (r : Nat) (c : Cell) : Cell :=
  if c.rd (SPD_RING_ST_FULL_CNT.ring r) = popc (c.rd (SPD_RING_ST_FE.ring r)) 32 then c
  else c.logOnly e (Config.eventCode 11 % 256) r

/-- What the wake of its region from power-off does to a cell's scratchpad: cleared, every address bank in NONE, every ring disabled and
empty, the conflict and error counters 0 (R198). -/
def Cell.spdWake (c : Cell) : Cell :=
  let c := (List.range 16).foldl (fun c r => (c.wr (SPD_RING_CFG_ENABLE.ring r) 0).ringEmpty r) c
  let c := [SPD_OWN_STATE, SPD_STATUS_PENDING, SPD_STATUS_CLEARING, SPD_CONFLICT_NARROW_WAIT, SPD_CONFLICT_NARROW_MAX,
    SPD_CONFLICT_CLASH_CNT, SPD_CONFLICT_WIDE_VAR_WAIT, SPD_CONFLICT_WIDE_GUARD_HOLDS, SPD_ECC_CE_CNT, SPD_ECC_UE_CNT].foldl
    (fun c f => c.wr f 0) c
  { c with spd := [], spdPoison := [], spdEcc := [], ownOld := [], ownDue := [], clears := [], ringPos := [] }

/-- The ring of a SLOT word. -/
def slotRing (w : Nat) : Nat := bits w 15 12
/-- Bytes of a SLOT access. -/
def slotSize (w : Nat) : Nat := if bit w 24 then 64 else 8

/-- RING_CONFIG of R192: disabled, the acting side not the core, or OFF outside the slot. -/
def Cell.slotBad (c : Cell) (w : Nat) : Bool :=
  let r := slotRing w
  let side := if bit w 25 then SPD_RING_CFG_PROD else SPD_RING_CFG_CONS
  c.rd (SPD_RING_CFG_ENABLE.ring r) != 1 || c.rd (side.ring r) != 0
    || decide (64 * (c.rd (SPD_RING_CFG_SLOT_LINES.ring r) + 1) < bits w 11 0 * slotSize w + slotSize w)

/-- Address of a SLOT access. -/
def Cell.slotAddr (c : Cell) (w : Nat) : Nat :=
  let r := slotRing w
  c.slotBase r (c.rd ((if bit w 25 then SPD_RING_ST_PUT else SPD_RING_ST_TAKE).ring r)) + bits w 11 0 * slotSize w

/-- SLOT take (R104, R192): blocks until the slot is full. -/
def bodySlotTake (e : Env) (k w _ext : Nat) (c : Cell) : Cell :=
  let pc := (c.ctx k).pc.toNat
  let r := slotRing w
  let cls := if bit w 24 then 1 else 0
  let a := c.slotAddr w
  if c.slotBad w then c.spdFault e k pc cls 0x46 r a
  else if !c.slotFull r (c.rd (SPD_RING_ST_TAKE.ring r)) then c.block k .slot r
  else match c.spdCheck cls true ((List.range (slotSize w / 4)).map (fun i => a + 4 * i)) with
    | some (code, fa) => c.spdFault e k pc cls code r fa
    | none =>
      let c := c.ringAudit e r
      if bit w 24 then
        let x := c.viewLoad (viewMap false 0 a)
        (x.2.slotTook r).done k (fun y => y.setV (bits w 19 16) x.1)
      else
        let r0 := c.spdRead a
        let r1 := r0.2.2.spdRead (a + 4)
        (r1.2.2.slotTook r).done k (fun x => (x.setS (fRd w) ⟨BitVec.ofNat 32 r0.1, r0.2.1⟩).setS (fRd w + 1)
          ⟨BitVec.ofNat 32 r1.1, r1.2.1⟩)

/-- SLOT put (R104, R192): blocks until the slot is empty. -/
def bodySlotPut (e : Env) (k w _ext : Nat) (c : Cell) : Cell :=
  let x := c.ctx k
  let pc := x.pc.toNat
  let r := slotRing w
  let cls := if bit w 24 then 1 else 0
  let a := c.slotAddr w
  if c.slotBad w then c.spdFault e k pc cls 0x46 r a
  else if c.slotFull r (c.rd (SPD_RING_ST_PUT.ring r)) then c.block k .slot r
  else match c.spdCheck cls true ((List.range (slotSize w / 4)).map (fun i => a + 4 * i)) with
    | some (code, fa) => c.spdFault e k pc cls code r fa
    | none =>
      let c := c.ringAudit e r
      let c := if bit w 24 then c.viewStore (x.vReg (bits w 19 16)) (viewMap false 0 a)
        else (c.spdWrite a (x.sReg (fRd w)).v.toNat (x.sReg (fRd w)).p).spdWrite (a + 4)
          (x.sReg (fRd w + 1)).v.toNat (x.sReg (fRd w + 1)).p
      (c.slotPutDone r).advance k 1

/-- The word at an address of a context's program: context 3 in a rasp pass fetches from the rasp store (03 R59). -/
def Cell.fetchWord (c : Cell) (k pc : Nat) : Nat :=
  if c.rasp && k == 3 then (Config.raspWord (pc % 512)).toNat else (fget w0 c.istore (k * 1024 + pc % 1024)).toNat

/-- Whether the blocking timeout of context `k` has expired (03 R65): EXP = 31 disables it. -/
def Cell.waitOver (c : Cell) (k : Nat) : Bool :=
  let x := c.rd (CTX_TIMEOUT_EXP.ctx k)
  x != 31 && decide (2 ^ x ≤ (c.ctx k).waitElapsed)

/-- SLOT_TIMEOUT (R104, 03 R65): the blocked access raises SLOT_UNDERRUN or SLOT_OVERRUN. A slot that has the state the access
needs wins (R192). -/
def Cell.slotTimeout (e : Env) (k : Nat) (c : Cell) : Cell :=
  let x := c.ctx k
  let w := c.fetchWord k x.pc.toNat
  let r := slotRing w
  if x.state ≠ .blocked ∨ x.wait ≠ .slot ∨ c.waitOver k = false then c
  else c.spdFault e k x.pc.toNat (if bit w 24 then 1 else 0) (if bit w 25 then 0x44 else 0x43) r (c.slotAddr w)

/-! ### Ownership, clearing, rings and the host window (R189, R191, R195 to R198) -/

/-- Zero an address bank: data, poison and check bits (R198). -/
def Cell.clearBank (c : Cell) (b : Nat) : Cell :=
  let inW := fun w => decide (b * 0xC00 ≤ w ∧ w < (b + 1) * 0xC00)
  { c with spd := memZero c.spd (b * 0x3000) 0x3000
           spdPoison := fdrop inW c.spdPoison
           spdEcc := fdrop inW c.spdEcc }

/-- PENDING and CLEARING of a bank. -/
def Cell.ownMark (c : Cell) (f : Fld) (b : Nat) (on : Bool) : Cell :=
  let v := c.rd f
  c.wr f (if on then v ||| 2 ^ b else v - b2n (bit v b) * 2 ^ b)

/-- A hand-over is complete: the field's state is checked from now on. -/
def Cell.handEnd (c : Cell) (b : Nat) : Cell :=
  { c.ownMark SPD_STATUS_PENDING b false with ownOld := fset z0 c.ownOld b 0, ownDue := fset z0 c.ownDue b 0 }

/-- The hand-over of one bank in mesh cycle `now` (R189): from NONE the bank is cleared first. A pending bank ignores the write
with OWN_ERR, whatever the code written (log 124); a reserved code leaves the field (R14). -/
def Cell.ownHand (now v : Nat) (c : Cell) (b : Nat) : Cell :=
  let new := bits v (3 * b + 2) (3 * b)
  let old := c.ownField b
  if fget z0 c.ownOld b ≠ 0 then c.wr SPD_STATUS_OWN_ERR 1
  else if 5 ≤ new ∨ new = old then c
  else
    let c := (c.setOwn b new).ownMark SPD_STATUS_PENDING b true
    let c := { c with ownOld := fset z0 c.ownOld b (old + 1), ownDue := fset z0 c.ownDue b (now + (if old = 0 then 98 else 2)) }
    if old = 0 then { c with clears := fset z0 c.clears b (now + 1) } else c

/-- A write to SPD_OWN of the banks of a list (R189). -/
def Cell.ownWrite (now v : Nat) (bs : List Nat) (c : Cell) : Cell := bs.foldl (Cell.ownHand now v) c

/-- Every hand-over that waits for no clear is complete. -/
def Cell.handAll (c : Cell) : Cell :=
  (List.range 16).foldl (fun c b => if fget z0 c.ownOld b ≠ 0 ∧ fget z0 c.clears b = 0 then c.handEnd b else c) c

/-- Zero one line: data, poison, check bits (R198). -/
def Cell.clearLine (c : Cell) (l : Nat) : Cell :=
  let inW := fun w => decide (16 * l ≤ w ∧ w < 16 * l + 16)
  { c with spd := memZero c.spd (64 * l) 64, spdPoison := fdrop inW c.spdPoison, spdEcc := fdrop inW c.spdEcc }

/-- The end of a bank's clear: zero, and a hand-over that waits for it is complete (R189, R198). -/
def Cell.clearEndBank (c : Cell) (b : Nat) : Cell :=
  if fget z0 c.clears b ≠ 0 then
    let c := { (c.clearBank b).ownMark SPD_STATUS_CLEARING b false with clears := fset z0 c.clears b 0 }
    if fget z0 c.ownOld b = 1 then c.handEnd b else c
  else c

/-- BANK_CLEAR_END: every clear in progress ends (R198). -/
def Cell.clearEnd (c : Cell) : Cell := (List.range 16).foldl Cell.clearEndBank c

/-- One mesh cycle of the hand-overs and clears of a bank: the two lines of each sub-array that this cycle clears, CLEARING from
the second cycle after the write, and the new state from its cycle on (R189, R198). -/
def Cell.ownCycle (now : Nat) (c : Cell) (b : Nat) : Cell :=
  let c := match fget z0 c.clears b with
    | 0 => c
    | t + 1 =>
      if now < t + 2 then c
      else if t + 98 ≤ now then c.clearEndBank b
      else
        let i := 192 * b + 2 * (now - t - 2)
        ((c.ownMark SPD_STATUS_CLEARING b true).clearLine i).clearLine (i + 1)
  if fget z0 c.ownOld b ≠ 0 ∧ fget z0 c.ownDue b ≤ now ∧ fget z0 c.clears b = 0 then c.handEnd b else c

/-- A write of SPD_CLEAR in mesh cycle `now` (R198): banks in NONE start clearing, others set CLR_REFUSED. -/
def Cell.clearWrite (now v : Nat) (c : Cell) : Cell :=
  let c := if bit v 16 then c.wr SPD_CLEAR_CLR_REFUSED 0 else c
  (List.range 16).foldl (fun c b =>
    if !bit v b then c
    else if c.ownState b ≠ 0 then c.wr SPD_CLEAR_CLR_REFUSED 1
    else if fget z0 c.clears b ≠ 0 then c
    else { c with clears := fset z0 c.clears b (now + 1) }) c

/-- Read a line under class 6: never refused, with its check bits used (R187, R196). -/
def Cell.line6 (c : Cell) (a : Nat) : VR × Cell := c.viewLoad (viewMap false 0 a)

/-- A write of SPD_RING_CFGr (R191). -/
def Cell.ringCfgWrite (c : Cell) (r v : Nat) : Cell :=
  let c := if bit v 60 then c.wr (SPD_RING_CFG_CFG_ERR.ring r) 0 else c
  if c.rd (SPD_RING_CFG_ENABLE.ring r) = 1 then c.wr (SPD_RING_CFG_ENABLE.ring r) (bits v 63 63)
  else
    let c := ((((c.wr (SPD_RING_CFG_PROD.ring r) (bits v 62 62)).wr (SPD_RING_CFG_CONS.ring r) (bits v 61 61)).wr
      (SPD_RING_CFG_SLOT_LINES.ring r) (bits v 47 40)).wr (SPD_RING_CFG_COUNT.ring r) (bits v 36 32)).wr
      (SPD_RING_CFG_BASE.ring r) (bits v 11 0)
    if bits v 63 63 = 0 then c
    else if 3072 < bits v 11 0 + (bits v 36 32 + 1) * (bits v 47 40 + 1) then c.wr (SPD_RING_CFG_CFG_ERR.ring r) 1
    else c.wr (SPD_RING_CFG_ENABLE.ring r) 1

/-- A write of 1 to SPD_RING_STr.RESET (R195). -/
def Cell.ringReset (c : Cell) (r : Nat) : Cell :=
  if c.rd (SPD_RING_CFG_ENABLE.ring r) = 1 then c
  else c.ringEmpty r

/-- A class 7 access through SPD_HOST_DATA (R197): a write stores poison clear, a read returns the poison bit, a refused
access sets ERR and reads 0. The result is the data read. -/
def Cell.hostData (c : Cell) (wr : Bool) (v : Nat) : Nat × Cell :=
  let a := 4 * c.rd SPD_HOST_ADDR_ADDR
  let r : Nat × Cell :=
    match c.spdCheck 7 true [a] with
    | some _ => (0, (c.wr SPD_HOST_ADDR_ERR 1).wr SPD_HOST_DATA_DATA 0)
    | none =>
      if wr then (0, c.spdWrite a (v % 2 ^ 32) false)
      else
        let x := c.spdRead a
        (x.1, (x.2.2.wr SPD_HOST_DATA_POISON (b2n x.2.1)).wr SPD_HOST_DATA_DATA x.1)
  (r.1, if r.2.rd SPD_HOST_ADDR_AUTOINC = 1 then
      r.2.wr SPD_HOST_ADDR_ADDR (if a + 4 = spdBytes then 0 else a / 4 + 1)
    else r.2)

/-- SPD_ECC_WRITEBACK: the corrected word is written back (R196). -/
def Cell.spdWriteback (c : Cell) (wd : Nat) : Cell :=
  if fget ecc0 c.spdEcc wd = .ce then { c with spdEcc := fset ecc0 c.spdEcc wd .ok } else c

end Sys2Proof.Machine
end

