-- ==== Sys2Proof/Machine/Comms.lean ====
section
/-! DEFINITION. Receives, sends, request tags, SYNC, RIF, DMA and context control of a cell; the Sprue events that end
at a cell; context commands and the debug windows (spec/03_cell_core.md, spec/04 R112 to R118, R125, spec/08 R251 to
R261). -/

namespace Sys2Proof.Machine
open Sys2Proof

/-! ### Receives (R112, 03 R62 to R65) -/

/-- Whether an entry matches port, tag and mask for context `k` (R64): an RSP entry only for the context that owns its
tag, the request ports only for contexts 0 to 2. -/
def entryMatches (k port t m : Nat) (en : RecvEntry) : Bool :=
  en.port == port && (en.tag &&& m) == (t &&& m) && (if port = 0x30 then en.tag / 1024 == k else decide (k < 3))

/-- The bytes of a payload as a number, little-endian, at most `n` of them. -/
def bytesVal : List (BitVec 8) → Nat → Nat
  | _, 0 => 0
  | [], _ => 0
  | b :: bs, n + 1 => b.toNat + 256 * bytesVal bs n

/-- A number as `n` bytes, little-endian. -/
def valBytes (v : Nat) : Nat → List (BitVec 8)
  | 0 => []
  | n + 1 => BitVec.ofNat 8 v :: valBytes (v / 256) n

/-- The first element that satisfies a test, and the list without it. -/
def takeFirst {α : Type} (p : α → Bool) : List α → Option (α × List α)
  | [] => none
  | a :: l => if p a then some (a, l) else (takeFirst p l).map (fun r => (r.1, a :: r.2))

/-- Contexts held for a free tag become READY (R115). -/
def Cell.wakeTagWaiters (c : Cell) : Cell :=
  [0, 1, 2, 3].foldl (fun c j =>
    if (c.ctx j).wait = .tag then c.wake j else c) c

/-- A received entry written to the registers (R112). -/
def recvInto (w : Nat) (en : RecvEntry) (x : Ctx) : Ctx :=
  let d := bits w 14 10
  let t := bits w 9 5
  let bs := en.payload.take en.len
  let x := if bit w 25 then
      x.setV (d % 16) ⟨BitVec.ofNat 512 (bytesVal bs 64), if en.poison then BitVec.allOnes 16 else 0⟩
    else x.setPair d (bytesVal bs 8) en.poison
  (x.setS t ⟨BitVec.ofNat 32 (en.tag + en.src * 4096), false⟩).setS (t + 1) ⟨BitVec.ofNat 32 en.len, false⟩

/-- RECV (R112). A poisoned s(T) is used as it stands: R91 lists no fault for it (log 122). -/
def bodyRecv (e : Env) (k w _ext : Nat) (c : Cell) : Cell :=
  let port := bits w 20 15
  let x := c.ctx k
  if portArm port then
    match fget nil0 c.ports port with
    | [] => c.raiseHere e k 0x05 port
    | a :: as =>
      let c := { c with ports := fset nil0 c.ports port as }
      c.done k (fun x => ((x.setV (bits w 13 10) ⟨a.v, if a.p then BitVec.allOnes 16 else 0⟩).setS (bits w 9 5)
        ⟨0, false⟩).setS (bits w 9 5 + 1) ⟨64, false⟩)
  else
    let tv := (x.sReg (bits w 9 5)).v.toNat
    let t := bits tv 11 0
    let m := bits tv 27 16
    if port = 0x30 then
      match takeFirst (entryMatches k port t m) c.recvRsp with
      | some (en, rest) =>
        let c := { c with recvRsp := rest, tags := c.tags.filter (fun r => r.tag != en.tag) }
        (c.wakeTagWaiters).done k (recvInto w en)
      | none => (c.block k .recv (port * 65536 + t)).modCtx k (fun x => { x with waitMatch := (port, t, m) })
    else
      match takeFirst (entryMatches k port t m) c.recvReq with
      | some (en, rest) => ({ c with recvReq := rest }).done k (recvInto w en)
      | none => (c.block k .recv (port * 65536 + t)).modCtx k (fun x => { x with waitMatch := (port, t, m) })

/-- An entry has arrived: contexts blocked on a receive that it matches become READY (R64). -/
def Cell.wakeRecv (c : Cell) (en : RecvEntry) : Cell :=
  [0, 1, 2, 3].foldl (fun c j =>
    let x := c.ctx j
    if x.state = .blocked ∧ x.wait = .recv ∧ entryMatches j x.waitMatch.1 x.waitMatch.2.1 x.waitMatch.2.2 en then c.wake j else c) c

/-- RECV_TIMEOUT (R65): DETAIL is the port; a context held for a tag does not time out by it. -/
def Cell.recvTimeout (e : Env) (k : Nat) (c : Cell) : Cell :=
  let x := c.ctx k
  if x.state ≠ .blocked ∨ x.wait ≠ .recv ∨ c.waitOver k = false then c
  else c.raise e k 0x07 x.waitMatch.1 x.pc.toNat

/-! ### Sends (R113 to R115) -/

/-- A tag becomes outstanding (08 R251). -/
def Cell.addTag (c : Cell) (r : TagRec) : Cell := { c with tags := c.tags ++ [r] }

/-- The payload of a SEND and its poison. -/
def sendPayload (w : Nat) (x : Ctx) : List (BitVec 8) × Bool :=
  let n := bits w 10 4
  if bit w 23 then
    let r := x.vReg (bits w 14 11)
    (valBytes r.v.toNat n, (List.range ((n + 3) / 4)).any (fun j => r.p.getLsbD j))
  else
    let i := bits w 15 11
    (valBytes (x.pair i) n, (decide (0 < n) && (x.sReg i).p) || (decide (4 < n) && (x.sReg (i + 1)).p))

/-- The destination unit of a SEND: a reserved or refused one counts as 0xF, which the stop refuses (R113, 08 R238). -/
def sendUnit (dv : Nat) (req : Bool) : Nat :=
  let u := bits dv 23 20
  if bits dv 31 24 ≠ 0 then 15
  else if u = 0 then 0
  else if u = 4 ∧ ¬ req then 4
  else 15

/-- SEND, POSTED (R113). -/
def bodySendPosted (e : Env) (k w _ext : Nat) (c : Cell) : Cell :=
  let x := c.ctx k
  let d := x.sReg (bits w 20 16)
  let dv := d.v.toNat
  if d.p then c.poisoned e k 0
  else if !validId e.small (bits dv 13 0) then c.raiseHere e k 0x08 (bits dv 10 0)
  else if c.injFull then c
  else
    let pl := sendPayload w x
    (c.inject { kind := .posted, len := bits w 10 4, srcCtx := k, tag := bits (x.sReg (bits w 20 16 + 1)).v.toNat 11 0
                unit := sendUnit dv false, port := bits dv 19 14, dest := bits dv 13 0, src := e.logical
                poison := pl.2, payload := pl.1 }).advance k 1

/-- SEND, REQUEST (R113): the tag goes to s(D + 1)[11:0]. -/
def bodySendRequest (e : Env) (k w _ext : Nat) (c : Cell) : Cell :=
  let x := c.ctx k
  let i := bits w 20 16
  let dv := (x.sReg i).v.toNat
  if (x.sReg i).p then c.poisoned e k 0
  else if !validId e.small (bits dv 13 0) then c.raiseHere e k 0x08 (bits dv 10 0)
  else if c.tagsFull k then c.blockTag k
  else if c.injFull then c
  else
    let pl := sendPayload w x
    let t := c.allocTag k
    let c := t.2.inject { kind := .request, len := bits w 10 4, srcCtx := k, tag := t.1, unit := sendUnit dv true
                          port := bits dv 19 14, dest := bits dv 13 0, src := e.logical, poison := pl.2
                          payload := pl.1 }
    let c := c.addTag { tag := t.1, ctx := k, kind := .send, pc := x.pc.toNat }
    c.done k (fun x =>
      let r := x.sReg (i + 1)
      x.setS (i + 1) ⟨BitVec.ofNat 32 (r.v.toNat / 4096 * 4096 + t.1), r.p⟩)

/-- SEND, RESPONSE (R113): to the source cell of the request, at port RSP, with its tag. -/
def bodySendResponse (e : Env) (k w _ext : Nat) (c : Cell) : Cell :=
  let x := c.ctx k
  let d := x.sReg (bits w 20 16)
  let dest := bits d.v.toNat 25 12
  if d.p then c.poisoned e k 0
  else if !validId e.small dest then c.raiseHere e k 0x08 (bits dest 10 0)
  else if c.injFull then c
  else
    let pl := sendPayload w x
    (c.inject { kind := .response, len := bits w 10 4, srcCtx := k, tag := bits d.v.toNat 11 0, unit := 0, port := 0x30
                dest := dest, src := e.logical, poison := pl.2, payload := pl.1 }).advance k 1

/-! ### SYNC, RIF, DMA (R116 to R118) -/

/-- The hub cell of a package court (08 R237). -/
def hubId (cx cy : Nat) : Nat := mkId (8 * cx + 4) (8 * cy + 4)

/-- A valid sync object number (08 R255). -/
def syncObjOk (small : Bool) (o : Nat) : Bool :=
  let cy := bits o 14 11
  let cx := bits o 10 7
  o / 2 ^ 15 == 0 && decide (cx ≤ 11 ∧ cy ≤ 11) && !(small && inFused (8 * cx) (8 * cy))

/-- SYNC (R116): a posted operation sends and goes on; any other waits for its response. -/
def bodySync (e : Env) (k w _ext : Nat) (c : Cell) : Cell :=
  let x := c.ctx k
  let so := x.sReg (bits w 20 16)
  let o := so.v.toNat
  let v := bits w 15 11
  let op := bits w 24 21
  let r := bits w 10 6
  let held := c.locks.filter (fun h => h.ctx == k)
  let msg : Msg := { kind := if bit w 25 then .posted else .request, len := 8, srcCtx := k, unit := 1, port := 0
                     dest := hubId (bits o 10 7) (bits o 14 11), src := e.logical
                     payload := valBytes (x.pair v) 8, info := [op, o] }
  if so.p then c.poisoned e k 0
  else if x.pairP v then c.poisoned e k 1
  else if !syncObjOk e.small o then c.raiseHere e k 0x08 (bits o 10 0)
  else if op = 6 ∧ 8 ≤ held.length then
    c.done k (fun x => (x.setS r ⟨BitVec.ofNat 32 (Config.heldLimitValue o), false⟩).setS (r + 1) ⟨7, false⟩)
  else if bit w 25 then
    if c.injFull then c
    else
      let c := if op = 7 then { c with locks := c.locks.filter (fun h => !(h.ctx == k && h.obj == o)) } else c
      (c.inject msg).advance k 1
  else if c.tagsFull k then c.blockTag k
  else if c.injFull then c
  else
    let t := c.allocTag k
    let c := if op = 7 then { t.2 with locks := t.2.locks.filter (fun h => !(h.ctx == k && h.obj == o)) } else t.2
    let c := (c.inject { msg with tag := t.1 }).block k .sync o
    let c := c.addTag { tag := t.1, ctx := k, kind := .sync, pc := x.pc.toNat, obj := o, op := op, rd := r,
                          court := 12 * bits o 14 11 + bits o 10 7 }
    c.modCtx k (fun x => { x with waitTag := t.1 })

/-- RIF (R117): one request to the own court's hub; sD takes the tag. -/
def bodyRif (e : Env) (k w _ext : Nat) (c : Cell) : Cell :=
  let x := c.ctx k
  let a := x.aReg (bits w 16 14)
  if a.p then c.poisoned e k 0
  else if c.tagsFull k then c.blockTag k
  else if c.injFull then c
  else
    let t := c.allocTag k
    let c := t.2.inject { kind := .request, len := 8, srcCtx := k, tag := t.1, unit := 2, port := minor w
                          dest := hubId (idX e.logical / 8) (idY e.logical / 8), src := e.logical
                          info := [a.v.toNat, bits w 20 17 + 1] }
    let c := c.addTag { tag := t.1, ctx := k, kind := .rif, pc := x.pc.toNat }
    c.done k (fun x => x.setS (bits w 13 9) ⟨BitVec.ofNat 32 t.1, false⟩)

/-- DMA (R118, 11 R333): the 64-byte descriptor is read as a class 1 access and sent to the hub. -/
def bodyDma (e : Env) (k w _ext : Nat) (c : Cell) : Cell :=
  let x := c.ctx k
  let a := x.aReg (bits w 20 18)
  let ad := a.v.toNat
  let resp := bit w 25
  if a.p then c.poisoned e k 0
  else if resp && c.tagsFull k then c.blockTag k
  else if c.injFull then c
  else match c.spdCheck 1 (ad % 64 == 0) ((viewMap false 0 ad).map (·.1)) with
    | some (code, fa) => c.spdFault e k x.pc.toNat 1 code 0 fa
    | none =>
      let d := c.viewLoad (viewMap false 0 ad)
      let m : Msg := { kind := if resp then .request else .posted, len := 64, srcCtx := k, unit := 3
                       port := bits w 24 21, dest := hubId (idX e.logical / 8) (idY e.logical / 8)
                       src := e.logical, poison := d.1.p != 0, payload := valBytes d.1.v.toNat 64
                       info := [x.pc.toNat] }
      if resp then
        let t := d.2.allocTag k
        let c := t.2.inject { m with tag := t.1 }
        let c := c.addTag { tag := t.1, ctx := k, kind := .dma, pc := x.pc.toNat }
        c.done k (fun x => x.setS (bits w 17 13) ⟨BitVec.ofNat 32 t.1, false⟩)
      else (d.2.inject m).advance k 1

/-! ### Context control (R125) -/

/-- NOP. -/
def bodyNop (_e : Env) (k _w _ext : Nat) (c : Cell) : Cell := c.advance k 1
/-- HALT: HALTED, PC at the next instruction. -/
def bodyHalt (_e : Env) (k _w _ext : Nat) (c : Cell) : Cell :=
  (c.advance k 1).modCtx k (fun x => { x with state := .halted })
/-- YIELD: left out of the next selection. -/
def bodyYield (_e : Env) (k _w _ext : Nat) (c : Cell) : Cell :=
  (c.advance k 1).modCtx k (fun x => { x with yielded := 2 })
/-- FENCE: stalls while a message of the context is still in the stop's injection queue; stores are performed at once. The
NACKs and notices that the stop itself queues are no message of the context. -/
def bodyFence (_e : Env) (k _w _ext : Nat) (c : Cell) : Cell :=
  if c.inj.any (fun m => m.srcCtx == k && m.kind != .nack && !m.priv) then c else c.advance k 1
/-- WAITT: BLOCKED until the timebase reaches the target. -/
def bodyWaitt (e : Env) (k w _ext : Nat) (c : Cell) : Cell :=
  let x := c.ctx k
  let t := x.pair (fRd w)
  if x.pairP (fRd w) then c.poisoned e k 0
  else if t ≤ e.tick then c.advance k 1
  else ((c.advance k 1).block k .time t).modCtx k (fun x => { x with waitTick := t, waitEdge := false })
/-- WAITF: BLOCKED until the next frame edge; OBJECT is the tick of the edge once known. -/
def bodyWaitf (obj : Nat) (_e : Env) (k _w _ext : Nat) (c : Cell) : Cell :=
  ((c.advance k 1).block k .time obj).modCtx k (fun x => { x with waitEdge := true })
/-- RDTICK. -/
def bodyRdtick (e : Env) (k w _ext : Nat) (c : Cell) : Cell := c.done k (fun x => x.setPair (fRd w) e.tick false)
/-- RDCTX. -/
def bodyRdctx (e : Env) (k w _ext : Nat) (c : Cell) : Cell :=
  c.done k (fun x => x.setS (fRd w) ⟨BitVec.ofNat 32 (k + c.rd (CTX_CONFIG_NICHE.ctx k) * 4
    + c.rd (CTX_CONFIG_BOUND.ctx k) * 64 + e.logical * 65536), false⟩)
/-- BRK: as HALT, with STEP_DONE. -/
def bodyBrk (_e : Env) (k _w _ext : Nat) (c : Cell) : Cell :=
  (c.advance k 1).modCtx k (fun x => { x with state := .halted, stepDone := true })

/-- A context may run PRIV (R126). -/
def Cell.privOk (c : Cell) (k : Nat) : Bool := k == 3 && c.rd (CTX_CONFIG_RESTORER.ctx k) == 1

/-- The end of a timed wait, whose instruction is complete: a STEP ends with it. -/
def Cell.wakeDone (c : Cell) (k : Nat) : Cell :=
  c.modCtx k (fun x =>
    if x.stepping then { x with state := .halted, wait := .none, stepping := false, stepDone := true }
    else { x with state := .ready, wait := .none })

/-- WAITT_WAKE: the timebase has reached the target. -/
def Cell.waittWake (e : Env) (k : Nat) (c : Cell) : Cell :=
  let x := c.ctx k
  if x.state = .blocked ∧ x.wait = .time ∧ x.waitEdge = false ∧ x.waitTick ≤ e.tick then c.wakeDone k else c

/-- Contexts waiting on WAITF become READY at the frame edge. -/
def Cell.edgeWake (c : Cell) : Cell :=
  [0, 1, 2, 3].foldl (fun c j =>
    if (c.ctx j).state = .blocked ∧ (c.ctx j).wait = .time ∧ (c.ctx j).waitEdge then c.wakeDone j else c) c

/-! ### Context commands and reset (03 R66, R69, R70) -/

/-- An orphan notice for context `k` to a court (08 R261). -/
def orphanNotice (e : Env) (k court epoch : Nat) : Msg :=
  { kind := .posted, priv := true, len := 0, srcCtx := k, unit := 1, port := 1, epoch := epoch
    dest := hubId (court % 12) (court / 12), src := e.logical, info := [0, 0] }

/-- The court of a sync object number. -/
def objCourt (o : Nat) : Nat := 12 * bits o 14 11 + bits o 10 7

/-- Courts that get an orphan notice for context `k`, with the epoch the recorded message used: those of its held locks
and of its outstanding SYNC tags, each once (R261). -/
def Cell.orphanCourts (c : Cell) (k : Nat) : List (Nat × Nat) :=
  ((c.locks.filter (fun h => h.ctx == k)).map (fun h => (objCourt h.obj, h.epoch))
    ++ (c.tags.filter (fun r => r.ctx == k && r.kind == .sync)).map (fun r => (r.court, r.epoch))).foldl
    (fun l p => if l.any (fun q => q.1 == p.1) then l else l ++ [p]) []

/-- Tags of context `k` abandoned (R70, 08 R253): one whose response lies in the receive buffer is free, the others are
quarantined; the context's RSP entries are discarded. -/
def Cell.abandonTags (c : Cell) (k : Nat) : Cell :=
  let mine := c.tags.filter (fun r => r.ctx == k)
  let here := fun t => c.recvRsp.any (fun en => en.tag == t)
  { c with tags := c.tags.filter (fun r => r.ctx != k)
           quar := c.quar ++ (mine.filter (fun r => !here r.tag)).map (fun r => r.tag)
           recvRsp := c.recvRsp.filter (fun en => en.tag / 1024 != k) }

/-- The state of a context after its reset: HALTED with a valid program, else OFF (R70). -/
def Cell.idleState (c : Cell) (k : Nat) : CtxState := if c.rd (CTX_CONFIG_PROG_VALID.ctx k) = 1 then .halted else .off

/-- Zero the registers of context `k` that a context reset clears, and PC to ENTRY. -/
def Cell.clearCtx (c : Cell) (k : Nat) : Cell :=
  let lo := 0x400 + 0x100 * k
  let c := { c with regs := fdrop (fun key => decide (lo + 0x38 ≤ key / 64 ∧ key / 64 ≤ lo + 0x58)) c.regs }
  c.setCtx k { pc := BitVec.ofNat 10 (c.rd (CTX_PC_ENTRY.ctx k)), state := c.idleState k, tagCtr := (c.ctx k).tagCtr }

/-- A scan in progress ends with ERROR and SCAN_ERR when a reset reaches the cell (R83). -/
def Cell.endScan (c : Cell) : Cell :=
  if c.scanning then
    { ((c.wr CELL_SCAN_STATUS_ERROR 1).wr CELL_SCAN_STATUS_BUSY 0).wr CELL_FAULT_SCAN_ERR 1 with scanning := false, scanImg := [] }
  else c

/-- A context reset of one cell (R70, 08 R261). -/
def Cell.resetCtx (e : Env) (k : Nat) (c : Cell) : Cell :=
  let notes := (c.orphanCourts k).map (fun p => orphanNotice e k p.1 p.2)
  let c := (c.endScan).abandonTags k
  let c := { c with locks := c.locks.filter (fun h => h.ctx != k), inj := c.inj ++ notes }
  c.clearCtx k

/-- CTX_CTRL RESET (R69, R70): the context is RESETTING for 10 mesh cycles; a reset in progress ignores it. -/
def Cell.ctxReset (e : Env) (k : Nat) (c : Cell) : Cell :=
  if (c.ctx k).state = .resetting then c
  else (c.resetCtx e k).modCtx k (fun x => { x with state := .resetting, resetDue := e.cycle + 10 })

/-- CTX_CTRL START (R69): ignored for context 3 as a maquette (R72). -/
def Cell.start (k : Nat) (c : Cell) : Cell :=
  if k = 3 ∧ c.rd CELL_CTRL_CTX3_ROLE = 1 then c
  else if (c.ctx k).state = .halted then c.modCtx k (fun x => { x with state := .ready, stepping := false }) else c

/-- CTX_CTRL HALT (R69): a blocked operation is abandoned without effect; its tag is quarantined (log 5). -/
def Cell.haltCtx (k : Nat) (c : Cell) : Cell :=
  let x := c.ctx k
  match x.state with
  | .ready => c.modCtx k (fun x => { x with state := .halted })
  | .running => c.modCtx k (fun x => { x with state := .halted })
  | .blocked =>
    let c := if x.wait = .sync then
        { c with tags := c.tags.filter (fun r => r.tag != x.waitTag), quar := c.quar ++ [x.waitTag] }
      else c
    c.modCtx k (fun x => { x with state := .halted, wait := .none, stepping := false })
  | _ => c

/-- A write of CTX_CONFIG.PROG_VALID (R66): OFF to HALTED, or HALTED to OFF. -/
def Cell.progValid (k : Nat) (v : Bool) (c : Cell) : Cell :=
  match (c.ctx k).state with
  | .off => if v then (c.wr (CTX_CONFIG_PROG_VALID.ctx k) 1).modCtx k (fun x => { x with state := .halted }) else c
  | .halted => if v then c else (c.wr (CTX_CONFIG_PROG_VALID.ctx k) 0).modCtx k (fun x => { x with state := .off })
  | _ => if v then c.wr (CTX_CONFIG_PROG_VALID.ctx k) 1 else c

/-! ### The instruction store and register windows (R57, R59) -/

/-- An access to CELL_IS_DATA (R59): the word read. -/
def Cell.isData (wr : Bool) (v : Nat) (c : Cell) : Nat × Cell :=
  let k := c.rd CELL_IS_ADDR_CTX
  let i := c.rd CELL_IS_ADDR_WORD
  let st := (c.ctx k).state
  let key := k * 1024 + i
  let inc := fun (c : Cell) =>
    if c.rd CELL_IS_ADDR_AUTOINC = 1 then c.wr CELL_IS_ADDR_WORD ((i + 1) % 1024) else c
  if wr then
    if st = .off ∨ st = .halted then
      (0, inc (c.putWord key (BitVec.ofNat 32 v) .ok))
    else (0, inc (c.wr CELL_IS_ADDR_BUSY_ERR 1))
  else
    let r := (fget w0 c.istore key).toNat
    (r, inc (c.wr CELL_IS_DATA_WORD r))

/-- An access to CELL_REG_DATA (R57): 32-bit registers use bits [31:0]; a write clears the poison of the written words;
both report the poison. -/
def Cell.regData (wr : Bool) (v : Nat) (c : Cell) : Nat × Cell :=
  let k := c.rd CELL_REG_SEL_CTX
  let i := c.rd CELL_REG_SEL_INDEX
  let x := c.ctx k
  let one := fun (p : Bool) => 3 * b2n p
  if ¬ (x.state = .halted ∨ x.state = .faulted) then (0, (c.wr CELL_REG_SEL_ACC_ERR 1).wr CELL_REG_DATA_DATA 0)
  else
    let r : Nat × Nat × Ctx :=
      match c.rd CELL_REG_SEL_FILE with
      | 0 =>
        if 32 ≤ i then (0, 0, x)
        else if wr then (v, 0, x.setS i ⟨BitVec.ofNat 32 v, false⟩)
        else ((x.sReg i).v.toNat, one (x.sReg i).p, x)
      | 1 =>
        if 8 ≤ i then (0, 0, x)
        else if wr then (v, 0, x.setA i ⟨BitVec.ofNat 32 v, false⟩)
        else ((x.aReg i).v.toNat, one (x.aReg i).p, x)
      | 2 =>
        if 128 ≤ i then (0, 0, x)
        else
          let g := x.vReg (i / 8)
          let j := i % 8
          if wr then
            let keep := packVR 32 ((List.range 16).map (fun t =>
              if t = 2 * j then (v % 2 ^ 32, false) else if t = 2 * j + 1 then (v / 2 ^ 32, false)
              else (g.elem 32 t, g.elemP 32 t)))
            (v, 0, x.setV (i / 8) keep)
          else (g.elem 64 j, b2n (g.p.getLsbD (2 * j)) + 2 * b2n (g.p.getLsbD (2 * j + 1)), x)
      | _ =>
        if i < 8 then
          if wr then (v, 0, x.setP i ⟨BitVec.ofNat 64 v, false⟩) else ((x.pReg i).v.toNat, one (x.pReg i).p, x)
        else if i < 12 then
          if wr then (v, 0, x.setL (i - 8) (BitVec.ofNat 32 v)) else ((x.lReg (i - 8)).toNat, 0, x)
        else (0, 0, x)
    (r.1, ((c.setCtx k r.2.2).wr CELL_REG_SEL_POISON r.2.1).wr CELL_REG_DATA_DATA r.1)

/-! ### Freeze (R82) -/

/-- A write of CELL_CTRL.FREEZE. -/
def Cell.freezeWrite (v : Bool) (c : Cell) : Cell :=
  let c := c.wr CELL_CTRL_FREEZE (b2n v)
  if v then c else { c with frozen := false }

/-- A context whose instruction is abandoned: it has written no register (R82). -/
def Ctx.abandon (old x : Ctx) : Ctx :=
  { x with s := old.s, a := old.a, vr := old.vr, p := old.p, l := old.l, regUe := old.regUe, abandoned := true }

/-- FREEZE_COMPLETE: FROZEN, and the contexts of `late`, whose instruction had not completed, are ABANDONED. -/
def Cell.freezeComplete (late : Nat) (c : Cell) : Cell :=
  if c.rd CELL_CTRL_FREEZE = 1 then
    [0, 1, 2, 3].foldl (fun c j => if bit late j then c.modCtx j (Ctx.abandon (fget c.ctx c.undo j)) else c)
      { c with frozen := true }
  else c

/-! ### What a mesh cycle does to the contexts -/

/-- Whether the context watchdog counts in a mesh cycle (17 R486). -/
def Ctx.watched (x : Ctx) : Bool :=
  match x.state with
  | .ready => true | .running => true
  | .blocked => x.wait != .time
  | _ => false

/-- What the context watchdog has counted at the end of a mesh cycle (17 R486). -/
def Ctx.watchNext (x : Ctx) : Nat :=
  if x.state = .off ∨ x.state = .halted then 0 else if x.watched then x.watch + 1 else x.watch

/-- A context at the end of a mesh cycle: the watchdog and ELAPSED count, a yield passes, a context reset ends (R65, R70). -/
def Cell.ctxCycle (now : Nat) (c : Cell) (k : Nat) : Cell :=
  let x := { c.ctx k with watch := (c.ctx k).watchNext }
  if x.state = .blocked then c.setCtx k { x with waitElapsed := x.waitElapsed + 1, yielded := x.yielded - 1 }
  else if x.state = .resetting ∧ x.resetDue ≤ now + 1 then c.setCtx k { x with state := c.idleState k, resetDue := 0 }
  else c.setCtx k { x with yielded := x.yielded - 1 }

/-! ### Responses (08 R238, R251 to R253) -/

/-- A message that ends at a tag nothing waits for any more is discarded and counted; a quarantined tag becomes free
(R253). -/
def Cell.stale (tag : Nat) (c : Cell) : Cell :=
  ({ c with quar := c.quar.filter (fun t => t != tag) }).bumpSat SPR_STATUS_STALE_CNT

/-- NACK_RECEIVE (R238): the tag is free, and SPR_REFUSED is raised on the context in the tag. -/
def Cell.nackReceive (e : Env) (m : Msg) (c : Cell) : Cell :=
  match takeFirst (fun (r : TagRec) => r.tag == m.tag) c.tags with
  | none => c.stale m.tag
  | some (r, rest) =>
    let reason := (m.payload.headD 0).toNat
    (({ c with tags := rest }).raise e r.ctx 0xA0 (reason % 16) r.pc).wakeTagWaiters

/-- The result of a SYNC written, and the lock table kept (04 R116, 08 R261). -/
def Cell.syncResult (r : TagRec) (m : Msg) (c : Cell) : Cell :=
  let v := bytesVal m.payload 8
  let res := v / 2 ^ 32
  let c := if r.op = 6 ∧ (res = 0 ∨ res = 1) then
      { c with locks := c.locks ++ [{ ctx := r.ctx, obj := r.obj, epoch := r.epoch }] }
    else c
  let x := c.ctx r.ctx
  if x.state = .blocked ∧ x.wait = .sync ∧ x.waitTag = r.tag then
    let c := (c.modCtx r.ctx (fun x => (x.setS r.rd ⟨BitVec.ofNat 32 v, m.poison⟩).setS (r.rd + 1)
      ⟨BitVec.ofNat 32 res, m.poison⟩)).advance r.ctx 1
    c.modCtx r.ctx (fun x => if x.stepping then { x with state := .halted, wait := .none, stepping := false, stepDone := true }
      else { x with state := .ready, wait := .none })
  else c

/-- A completion's fault code and DETAIL, as RIF and DMA responses carry them in their payload (09 R280, 11 R340):
bytes 0 and 1 to 2. -/
def complCode (m : Msg) : Nat := (m.info.headD 0)
/-- Its DETAIL. -/
def complDetail (m : Msg) : Nat := (m.info.getD 1 0)

/-- RESPONSE_RECEIVE (R251): a response for an outstanding tag lands in the receive buffer, or completes its SYNC; a
Riffler or DMA completion with a fault code faults the context (03 R75); a response for no outstanding tag is stale. -/
def Cell.responseReceive (e : Env) (m : Msg) (c : Cell) : Cell :=
  match takeFirst (fun (r : TagRec) => r.tag == m.tag) c.tags with
  | none => c.stale m.tag
  | some (r, rest) =>
    match r.kind with
    | .sync => (({ c with tags := rest }).syncResult r m).wakeTagWaiters
    | _ =>
      -- the tag stays outstanding until RECV takes the entry
      let en : RecvEntry := ⟨m.payload, m.len, 0x30, m.tag, m.src, m.poison⟩
      let c := { c with recvRsp := c.recvRsp ++ [en] }
      let c := (c.wakeRecv en).wakeTagWaiters
      if (r.kind == .rif || r.kind == .dma) && complCode m != 0 then
        c.raise e r.ctx (complCode m) (complDetail m) r.pc
      else c

/-- SPR_RSP_TIMEOUT (R252, R253): the tag leaves the limit and is quarantined; the owning context faults. -/
def Cell.rspTimeout (e : Env) (tag : Nat) (c : Cell) : Cell :=
  match takeFirst (fun (r : TagRec) => r.tag == tag) c.tags with
  | none => c
  | some (r, rest) =>
    if c.recvRsp.any (fun en => en.tag == tag) then c
    else (({ c with tags := rest, quar := c.quar ++ [tag] }).raise e r.ctx 0xA1 (tag % 1024) r.pc).wakeTagWaiters

end Sys2Proof.Machine
end

