-- ==== Sys2Proof/Machine/Mac.lean ====
section
/-! DEFINITION. MAC blocks and fused slabs: operands, the array, checksums, verdicts (spec/05_slabs_patina.md R128 to
R145, R162 to R173, R587; spec/04 R119 to R123). -/

namespace Sys2Proof.Machine
open Sys2Proof

/-- The cells of the package, by physical number. -/
abbrev Cells := FMap Cell
/-- Default of cells. -/
def cell0 : Nat → Cell := fun _ => {}
/-- A cell. -/
def cget (cs : Cells) (n : Nat) : Cell := fget cell0 cs n
/-- Change a cell. -/
def cmod (cs : Cells) (n : Nat) (f : Cell → Cell) : Cells := fset cell0 cs n (f (cget cs n))

/-! ### Geometry (R135) -/

/-- A slab as its origin configures it, with the physical cells of its positions in row order, checksum cells
included. -/
structure Slab where
  w : Nat
  h : Nat
  kseg : Nat
  ckcol : Bool
  ckrow : Bool
  cells : List (Nat × Nat × Nat)   -- x, y, physical cell
deriving DecidableEq, Repr

/-- The physical cell at a slab position. -/
def Slab.at (s : Slab) (x y : Nat) : Nat :=
  match s.cells.find? (fun p => p.1 == x && p.2.1 == y) with
  | some p => p.2.2
  | none => 0

/-- Whether a position is a member. -/
def Slab.member (s : Slab) (x y : Nat) : Bool := decide (x < s.w ∧ y < s.h)

/-- The slab of a cell with ENABLE = 0: itself (R135). -/
def soloSlab (n : Nat) : Slab := ⟨1, 1, 1, false, false, [(0, 0, n)]⟩

/-- The positions of a slab's rectangle, row by row; the corner exists with both checksums only. -/
def slabPos (w h : Nat) (ckcol ckrow : Bool) : List (Nat × Nat) :=
  (List.range (h + b2n ckrow)).flatMap (fun y => (List.range (w + b2n ckcol)).map (fun x => (x, y)))

/-- The slab that an origin's CELL_SLAB_CFG describes; `ph` maps a logical cell ID to its physical cell. -/
def slabOf (ph : Nat → Nat) (c : Cell) (logical : Nat) : Slab :=
  let w := c.rd CELL_SLAB_CFG_WIDTH + 1
  let h := c.rd CELL_SLAB_CFG_HEIGHT + 1
  let cc := c.flag CELL_SLAB_CFG_CKCOL
  let cr := c.flag CELL_SLAB_CFG_CKROW
  ⟨w, h, c.rd CELL_SLAB_CFG_KSEG + 1, cc, cr,
   (slabPos w h cc cr).map (fun p => (p.1, p.2, ph (mkId (idX logical + p.1) (idY logical + p.2))))⟩

/-- DETAIL naming a slab position (R134). -/
def slabDetail (x y : Nat) : Nat := min x 31 * 32 + min y 31

/-- The role a position has (R135). -/
def slabRole (s : Slab) (x y : Nat) : Nat :=
  if s.member x y then 0 else if x = s.w ∧ y = s.h then 3 else if x = s.w then 1 else 2

/-- Whether a cell agrees with the origin's configuration at its position (R141). -/
def slabAgrees (s : Slab) (o c : Cell) (x y : Nat) : Bool :=
  c.flag CELL_SLAB_CFG_ENABLE && c.rd CELL_SLAB_CFG_SLAB_ID == o.rd CELL_SLAB_CFG_SLAB_ID
    && c.rd CELL_SLAB_CFG_ROLE == slabRole s x y && c.rd CELL_SLAB_CFG_POS_X == x && c.rd CELL_SLAB_CFG_POS_Y == y
    && c.rd CELL_SLAB_CFG_WIDTH + 1 == s.w && c.rd CELL_SLAB_CFG_HEIGHT + 1 == s.h
    && c.rd CELL_SLAB_CFG_KSEG + 1 == s.kseg && c.flag CELL_SLAB_CFG_CKCOL == s.ckcol
    && c.flag CELL_SLAB_CFG_CKROW == s.ckrow

/-! ### Fields of TMAC (04 R119) -/

/-- MODE: output-stationary. -/
def tmOs (w : Nat) : Bool := bit w 25
/-- START. -/
def tmStart (w : Nat) : Bool := bit w 24
/-- DRAIN. -/
def tmDrain (w : Nat) : Bool := bit w 23
/-- SRCA: from a port. -/
def tmPortA (w : Nat) : Bool := bit w 22
/-- SRCB: from a port. -/
def tmPortB (w : Nat) : Bool := bit w 21
/-- FMTA. -/
def tmFa (w : Nat) : Nat := bits w 20 17
/-- FMTB. -/
def tmFb (w : Nat) : Nat := bits w 16 13
/-- MXA. -/
def tmMxa (w : Nat) : Bool := bit w 12
/-- MXB. -/
def tmMxb (w : Nat) : Bool := bit w 11
/-- Output rows of an iteration. -/
def tmRows (w : Nat) : Nat := bits w 4 1 + 1
/-- Reduction length; 0 means 4,096. -/
def tmKlen (ext : Nat) : Nat := if bits ext 31 20 = 0 then 4096 else bits ext 31 20
/-- Iterations. -/
def tmBatch (ext : Nat) : Nat := bits ext 19 12 + 1
/-- Blocks of a reduction: NB of R120. -/
def tmNb (ext : Nat) : Nat := (tmKlen ext + 31) / 32
/-- Lines of an operand row: PA or PB of R120. -/
def tmLines (fmt ext : Nat) : Nat := (tmKlen ext * fmtBits fmt + 511) / 512
/-- A stride, signed, in lines. -/
def tmStrideA (op : MacOp) : Int := signed 16 (bits op.strides 15 0)
/-- B stride. -/
def tmStrideB (op : MacOp) : Int := signed 16 (bits op.strides 31 16)
/-- The port of operand A. -/
def tmPortNoA (w : Nat) : Nat := 0x10 + bits w 8 8
/-- The port of operand B. -/
def tmPortNoB (w : Nat) : Nat := 0x18 + bits w 5 5

/-- Cycles per row per block of a format pair (04 R123). -/
def pairCycles (fa fb : Nat) : Nat :=
  let c := fun (f : Nat) => if fmtBits f ≤ 6 then 1 else if fmtBits f = 8 then 2 else if fmtBits f = 16 then 8 else 32
  max (c fa) (c fb)

/-! ### The timeline of an operation (04 R123, 05 R132, R139, R587) -/

/-- Mesh cycles of one row-block. -/
def MacOp.c (op : MacOp) : Nat := pairCycles (tmFa op.w) (tmFb op.w)
/-- Base of the A scales of iteration `b` (04 R121). -/
def MacOp.scaleA (op : MacOp) (b : Nat) : Int :=
  (op.a6 : Int) + ((if tmStrideA op = 0 then 0 else b) * tmRows op.w * tmNb op.ext : Nat)
/-- Base of the B scales of iteration `b`. -/
def MacOp.scaleB (op : MacOp) (b : Nat) : Int :=
  (op.a7 : Int) + ((if tmStrideB op = 0 then 0 else b) * 16 * tmNb op.ext : Nat)
/-- The lines that hold `n` bytes from an address, in ascending order. -/
def byteLines (a : Int) (n : Nat) : List Int :=
  (List.range ((a + n - 1) / 64 - a / 64 + 1).toNat).map (fun i => (a / 64 + i) * 64)
/-- Whether one LOAD serves every iteration: strideB = 0 in WS mode (R123). -/
def MacOp.loadsOnce (op : MacOp) : Bool := !tmOs op.w && tmStrideB op == 0
/-- Cycles of the LOAD of iteration `b` (R123). -/
def MacOp.load (op : MacOp) (b : Nat) : Nat :=
  if tmOs op.w then 0
  else 16 * tmLines (tmFb op.w) op.ext + (if !tmMxb op.w then 0 else if tmPortB op.w then (16 * tmNb op.ext + 63) / 64
    else (byteLines (op.scaleB b) (16 * tmNb op.ext)).length)
/-- Cycles of COMPUTE in one iteration. -/
def MacOp.comp (op : MacOp) : Nat := tmRows op.w * tmNb op.ext * op.c
/-- The cycle in which COMPUTE of iteration `b` begins. -/
def MacOp.at (op : MacOp) (b : Nat) : Nat :=
  (if op.loadsOnce then op.load 0 else ((List.range (b + 1)).map op.load).sum) + b * op.comp
/-- The cycle in which LOAD of iteration `b` begins. -/
def MacOp.loadAt (op : MacOp) (b : Nat) : Nat := op.at b - op.load b
/-- A cycle moved by the excess of the largest lag (R587). -/
def MacOp.moved (op : MacOp) (t : Nat) : Nat := if op.lagFrom ≤ t then t + op.lagBy else t
/-- The cycle in which row `m` of iteration `b` leaves the array of a cell without skew: the last row at the end of FILL, the
rows before it one in each cycle (log 119). -/
def MacOp.leaves (op : MacOp) (b m : Nat) : Nat :=
  op.moved (op.at b + op.comp) + 30 + m + 1 - tmRows op.w

/-! ### Operands -/

/-- A block of 32 elements of one operand row, or the fault code with which it cannot be read. -/
structure Blk where
  es : List Val
  scale : Option Int     -- the MX scale exponent; 0 without MX; none for the NaN scale
  poison : Bool
deriving DecidableEq, Repr

/-- A line read by the MAC operand reader (class 2): its data, or the refusal (R587, 06 R188). -/
def Cell.macLine (c : Cell) (a : Int) (scale : Bool) : (Except MacErr VR) × Cell :=
  if a < 0 then (.error ⟨0x40, (a % 0x100000000).toNat, scale⟩, c)
  else
    let n := a.toNat
    match c.spdCheck 2 (n % 64 == 0) ((viewMap false 0 n).map (·.1)) with
    | some (code, fa) => (.error ⟨code, fa, scale⟩, c)
    | none => let r := c.viewLoad (viewMap false 0 n); (.ok r.1, r.2)

/-- The claim of a line: the reader holds what it gives (R587). In mesh cycle `port` it takes the read port, unless a claim of a
higher class has: then it has no effect, and the consumption fails with WIDE_CLASH (06 R180, log 125). -/
def Cell.claimLine (port : Option Nat) (c : Cell) (r : OpRead) : Cell :=
  let lost := match port with | some now => c.portTaken true now | none => false
  let c := if lost then c.bumpSat SPD_CONFLICT_CLASH_CNT else match port with | some now => c.takePort true now | none => c
  let x := if lost then (.error ⟨0x45, (r.addr % 0x100000000).toNat, r.kind % 2 == 1⟩, c) else c.macLine r.addr (r.kind % 2 == 1)
  let held := match x.1 with
    | .ok v => ⟨r.kind, r.it, r.addr, some v, ⟨0, 0, false⟩⟩
    | .error e => ⟨r.kind, r.it, r.addr, none, e⟩
  { x.2 with opBuf := x.2.opBuf ++ [held] }

/-- A line that the reader holds for an iteration. -/
def Cell.heldLine (c : Cell) (kind it : Nat) (a : Int) : Except MacErr VR :=
  match c.opBuf.find? (fun l => l.kind == kind && l.it == it && l.addr == a) with
  | some l => (match l.word with | some v => .ok v | none => .error l.err)
  | none => .error ⟨0x05, 0, kind % 2 == 1⟩

/-- A byte of a held line (MX scales, R121): value and poison, or why it is absent. -/
def Cell.heldByte (c : Cell) (kind it : Nat) (a : Int) : Except MacErr (Nat × Bool) :=
  let la := a / 64 * 64
  match c.heldLine kind it la with
  | .error e => .error e
  | .ok v => let i := (a - la).toNat; .ok (v.elem 8 i, v.elemP 8 i)

/-- Elements `lo` to `lo + 31` of an operand row held as lines, zeros from `klen` on (R120, R42): the first line that
cannot be read decides. -/
def rowBlock (fmt : Nat) (mx : Bool) (klen lo : Nat) (ls : List (Except MacErr VR)) : Except MacErr (List Val × Bool) :=
  let b := fmtBits fmt
  let hi := min klen (lo + 32)
  let l0 := lo * b / 512
  let l1 := (hi * b - 1) / 512
  let used := (ls.drop l0).take (l1 + 1 - l0)
  match used.find? (fun r => match r with | .error _ => true | .ok _ => false) with
  | some (.error e) => .error e
  | _ =>
    let val := (used.zipIdx).foldl (fun acc (r : (Except MacErr VR) × Nat) =>
      match r.1 with | .ok v => acc + v.v.toNat * 2 ^ (512 * r.2) | .error _ => acc) 0
    let poisonAt := fun k => (used.zipIdx).any (fun (r : (Except MacErr VR) × Nat) =>
      match r.1 with
      | .ok v => (List.range 16).any (fun j => v.p.getLsbD j
          && decide (512 * (l0 + r.2) + 32 * j < b * k + b ∧ b * k < 512 * (l0 + r.2) + 32 * j + 32))
      | .error _ => false)
    .ok ((List.range 32).map (fun i =>
        if lo + i < hi then unpackMx fmt mx ((val >>> (b * (lo + i) - 512 * l0)) % 2 ^ b) else .fin false 0 0),
      (List.range (hi - lo)).any (fun i => poisonAt (lo + i)))

/-- The elements of a port block: packed from byte 0 of one word, or of two words for FP32 (R132). -/
def portBlock (fmt : Nat) (mx : Bool) (klen lo : Nat) (ws : List AWord) : List Val × Bool :=
  let b := fmtBits fmt
  let val := (ws.zipIdx).foldl (fun acc (r : AWord × Nat) => acc + r.1.v.toNat * 2 ^ (512 * r.2)) 0
  ((List.range 32).map (fun i =>
    if lo + i < klen then unpackMx fmt mx ((val >>> (b * i)) % 2 ^ b) else .fin false 0 0), ws.any (fun a => a.p))

/-- Words of a port block: two for FP32, one otherwise. -/
def blkWords (fmt : Nat) : Nat := if fmt = 13 then 2 else 1

/-- The scale of a block from its byte: the block of a NaN scale is 32 NaNs (R36, R37). -/
def withScale (mx : Bool) (byte : Nat) (es : List Val) (p : Bool) : Blk :=
  if mx then
    match e8m0 byte with
    | some x => ⟨es, some x, p⟩
    | none => ⟨es.map (fun _ => .nan), none, p⟩
  else ⟨es, some 0, p⟩

/-- Rows of blocks of one operand for one iteration: row `r`, block `j`. -/
abbrev Operand := List (List (Except MacErr Blk))

/-- Block `j` of row `r`. -/
def Operand.get (o : Operand) (r j : Nat) : Except MacErr Blk := (o.getD r []).getD j (.error ⟨0x05, 0, false⟩)

/-- The blocks of one row held from the scratchpad: data at `a`, scales at `sa` (R120, R121). -/
def Cell.spdRow (c : Cell) (fmt : Nat) (mx : Bool) (ext kind it : Nat) (a sa : Int) : List (Except MacErr Blk) :=
  let ls := (List.range (tmLines fmt ext)).map (fun i => c.heldLine kind it (a + (64 * i : Nat)))
  (List.range (tmNb ext)).map (fun j =>
    match rowBlock fmt mx (tmKlen ext) (32 * j) ls with
    | .error e => .error e
    | .ok d =>
      if mx then
        match c.heldByte (kind + 1) it (sa + j) with
        | .error e => .error e
        | .ok s => .ok (withScale true s.1 d.1 (d.2 || s.2))
      else .ok (withScale false 0 d.1 d.2))

/-- All rows of an operand held from the scratchpad. -/
def Cell.spdOperand (c : Cell) (fmt : Nat) (mx : Bool) (ext rows kind it : Nat) (a sa : Int) : Operand :=
  (List.range rows).map (fun r =>
    c.spdRow fmt mx ext kind it (a + (r * tmLines fmt ext * 64 : Nat)) (sa + (r * tmNb ext : Nat)))

/-- An operand from a port stream of row-blocks, block-major (R132); a word that has not come is an underrun. -/
def streamOperand (fmt : Nat) (mx : Bool) (ext rows port : Nat) (ws : List AWord) : Operand :=
  let n := blkWords fmt
  (List.range rows).map (fun r => (List.range (tmNb ext)).map (fun j =>
    let i := (j * rows + r) * n
    let b := (ws.drop i).take n
    if b.length < n then .error ⟨0x05, port, false⟩
    else
      let d := portBlock fmt mx (tmKlen ext) (32 * j) b
      .ok (withScale mx (bits (b.headD ⟨0, false⟩).v.toNat 511 504) d.1 d.2)))

/-- B in WS mode from a port: the lines of R120's column layout, then the scale words (R132). -/
def streamColumns (fmt : Nat) (mx : Bool) (ext port : Nat) (ws : List AWord) : Operand :=
  let pb := tmLines fmt ext
  let nb := tmNb ext
  let toLine : Option AWord → Except MacErr VR := fun o =>
    match o with | some a => .ok ⟨a.v, if a.p then BitVec.allOnes 16 else 0⟩ | none => .error ⟨0x05, port, false⟩
  (List.range 16).map (fun n =>
    let ls := (List.range pb).map (fun i => toLine (ws[n * pb + i]?))
    (List.range nb).map (fun j =>
      match rowBlock fmt mx (tmKlen ext) (32 * j) ls with
      | .error e => .error e
      | .ok d =>
        if mx then
          let i := n * nb + j
          match ws[16 * pb + i / 64]? with
          | none => .error ⟨0x05, port, true⟩
          | some s => .ok (withScale true (bits s.v.toNat (8 * (i % 64) + 7) (8 * (i % 64))) d.1 (d.2 || s.p))
        else .ok (withScale false 0 d.1 d.2)))

/-- Words of one iteration of an A stream. -/
def needA (w ext : Nat) : Nat := tmNb ext * tmRows w * blkWords (tmFa w)
/-- Words of one iteration of a B stream, in either mode. -/
def needB (w ext : Nat) : Nat :=
  if tmOs w then tmNb ext * 16 * blkWords (tmFb w)
  else 16 * tmLines (tmFb w) ext + (if tmMxb w then (16 * tmNb ext + 63) / 64 else 0)
/-- Loads of B: one an iteration, or one for all when strideB is 0 in WS mode (R123). -/
def loadsB (op : MacOp) : Nat := if op.loadsOnce then 1 else tmBatch op.ext

/-- The cycle in which word `i` of a stream is consumed (R132): the first of its block's computation, or its LOAD cycle. -/
def MacOp.wordAt (op : MacOp) (isB : Bool) (i : Nat) : Nat :=
  let n := if isB then needB op.w op.ext else needA op.w op.ext
  let b := i / n
  let r := i % n
  op.moved (if isB && !tmOs op.w then op.loadAt b + r
    else op.at b + r / blkWords (if isB then tmFb op.w else tmFa op.w) * op.c)

/-- The words that a feed of a port has given to an origin. -/
def Cell.fed (c : Cell) (port origin : Nat) : List AWord :=
  match (fget nil0 c.feeds port).find? (fun f => f.origin == origin) with
  | some f => f.got
  | none => []

/-- Operand A of iteration `b` at a cell that reads it (R120, R121, R138). -/
def readA (op : MacOp) (origin b : Nat) (c : Cell) : Operand :=
  let w := op.w
  let rows := tmRows w
  if tmPortA w then
    let n := needA w op.ext
    streamOperand (tmFa w) (tmMxa w) op.ext rows (tmPortNoA w) (((c.fed (tmPortNoA w) origin).drop (b * n)).take n)
  else c.spdOperand (tmFa w) (tmMxa w) op.ext rows 0 b ((op.aA : Int) + tmStrideA op * b * 64) (op.scaleA b)

/-- Operand B of iteration `b` at a cell that reads it; with one LOAD, what that LOAD put into the weight stores (R130). -/
def readB (op : MacOp) (origin b : Nat) (c : Cell) : Operand :=
  let w := op.w
  let b := if op.loadsOnce then 0 else b
  if tmPortB w then
    let n := needB w op.ext
    let ws := ((c.fed (tmPortNoB w) origin).drop (b * n)).take n
    if tmOs w then streamOperand (tmFb w) (tmMxb w) op.ext 16 (tmPortNoB w) ws
    else streamColumns (tmFb w) (tmMxb w) op.ext (tmPortNoB w) ws
  else c.spdOperand (tmFb w) (tmMxb w) op.ext 16 2 b ((op.aB : Int) + tmStrideB op * b * 64) (op.scaleB b)

/-! ### The claims of the operand reader (R587) -/

/-- Data lines of an operand of iteration `b` with their need cycles: `use r j` is the cycle in which block `j` of row `r`
is consumed. -/
def dataLines (fmt ext rows : Nat) (base : Int) (use : Nat → Nat → Nat) : List (Int × Nat) :=
  (List.range rows).flatMap (fun r => (List.range (tmLines fmt ext)).map (fun l =>
    (base + ((r * tmLines fmt ext + l) * 64 : Nat), use r (512 * l / fmtBits fmt / 32))))

/-- Scale lines of an operand of iteration `b`: a line is needed with the first block whose scale it holds. -/
def scaleLines (ext rows : Nat) (base : Int) (use : Nat → Nat → Nat) : List (Int × Nat) :=
  (byteLines base (rows * tmNb ext)).map (fun a =>
    (a, ((List.range rows).flatMap (fun r => ((List.range (tmNb ext)).filter (fun j =>
      (base + (r * tmNb ext + j : Nat)) / 64 * 64 == a)).map (use r))).foldl (fun m u => min m u) (2 ^ 64)))

/-- The lines that a cell reads for iteration `b`, with their kinds and need cycles. -/
def MacOp.lines (op : MacOp) (rdA rdB : Bool) (b : Nat) : List (Nat × Int × Nat) :=
  let w := op.w
  let ext := op.ext
  let aUse := fun r j => op.at b + (j * tmRows w + r) * op.c
  let bUse := fun r j => op.at b + (16 * j + r) * op.c
  let ad := if rdA then dataLines (tmFa w) ext (tmRows w) ((op.aA : Int) + tmStrideA op * b * 64) aUse else []
  let as := if rdA && tmMxa w then scaleLines ext (tmRows w) (op.scaleA b) aUse else []
  let base := (op.aB : Int) + tmStrideB op * b * 64
  let bd := if !rdB || (op.loadsOnce && b != 0) then []
    else if tmOs w then dataLines (tmFb w) ext 16 base bUse
    else (List.range (16 * tmLines (tmFb w) ext)).map (fun i => (base + (64 * i : Nat), op.loadAt b + i))
  let bs := if !rdB || !tmMxb w || (op.loadsOnce && b != 0) then []
    else if tmOs w then scaleLines ext 16 (op.scaleB b) bUse
    else ((byteLines (op.scaleB b) (16 * tmNb ext)).zipIdx).map (fun p =>
      (p.1, op.loadAt b + 16 * tmLines (tmFb w) ext + p.2))
  ad.map (fun p => (0, p)) ++ as.map (fun p => (1, p)) ++ bd.map (fun p => (2, p)) ++ bs.map (fun p => (3, p))

/-- The order of the claims: need cycle, kind, address. -/
def lineBefore (a b : Nat × Nat × Int × Nat) : Bool :=
  decide (a.2.2.2 < b.2.2.2) || (a.2.2.2 == b.2.2.2 && (decide (a.2.1 < b.2.1) || (a.2.1 == b.2.1 && decide (a.2.2.1 ≤ b.2.2.1))))

/-- A line put into its place. -/
def lineInsert (a : Nat × Nat × Int × Nat) : List (Nat × Nat × Int × Nat) → List (Nat × Nat × Int × Nat)
  | [] => [a]
  | b :: t => if lineBefore a b then a :: b :: t else b :: lineInsert a t

/-- The claims in their order: each in the later of its need cycle and the cycle after the claim before it. -/
def claimCycles (origin skew : Nat) : Nat → List (Nat × Nat × Int × Nat) → List OpRead
  | _, [] => []
  | t, (it, k, a, u) :: ls => ⟨origin, k, it, a, u + skew, max u t + skew⟩ :: claimCycles origin skew (max u t + 1) ls

/-- The claims of a cell for an operation. -/
def MacOp.reads (op : MacOp) (origin skew : Nat) (rdA rdB : Bool) : List OpRead :=
  claimCycles origin skew 0 ((((List.range (tmBatch op.ext)).flatMap (fun b => (op.lines rdA rdB b).map (fun p => (b, p)))).reverse).foldl
    (fun acc a => lineInsert a acc) [])

/-- The excess of the largest lag over 30 cycles, and the need cycle from which it moves the operation. -/
def lagOf (skew : Nat) (rs : List OpRead) : Nat × Nat :=
  let late := rs.filter (fun r => decide (r.need + 30 < r.off))
  ((late.map (fun r => r.off - r.need - 30)).foldl max 0, (late.map (fun r => r.need - skew)).foldl min (2 ^ 64))

/-! ### The array (R128 to R131, R122) -/

/-- A failing consumption: its place in the order of an iteration's consumptions, block, row, reason. In a WS LOAD, `row`
is the column whose line or word failed (log 117). -/
structure Fail where
  idx : Nat
  block : Nat
  row : Nat
  err : MacErr
deriving DecidableEq, Repr

/-- The earlier of two failures. -/
def Fail.min (a b : Option Fail) : Option Fail :=
  match a, b with
  | none, b => b
  | a, none => a
  | some x, some y => if y.idx < x.idx then some y else some x

/-- Place in the order of consumption of A's row-block (j, m); B's column-block of the same cycle comes after it (R587). The
places below `2 * base` are those of WS mode's LOAD. -/
def idxA (base rows j m : Nat) : Nat := 2 * (base + j * rows + m) + 1
/-- Place of B's column-block (j, n) in OS mode. -/
def idxB (base j n : Nat) : Nat := 2 * (base + 16 * j + n) + 2
/-- Places that LOAD takes: its data column by column, then its scales. -/
def idxBase (w nb : Nat) : Nat := if tmOs w then 0 else 32 * nb
/-- Place of B's block (j, n), by the word that failed. -/
def idxOfB (w nb : Nat) (j n : Nat) (e : MacErr) : Nat :=
  if tmOs w then idxB 0 j n else 2 * ((if e.scale then 16 * nb else 0) + n * nb + j)

/-- The first failing consumption of an operand. -/
def opFail (o : Operand) (nb rows : Nat) (idx : Nat → Nat → MacErr → Nat) : Option Fail :=
  (List.range nb).foldl (fun acc j => (List.range rows).foldl (fun acc r =>
    match o.get r j with
    | .error e => Fail.min acc (some ⟨idx j r e, j, r, e⟩)
    | .ok _ => acc) acc) none

/-- Whether a block was consumed before the failure. -/
def before (f : Option Fail) (i : Nat) : Bool :=
  match f with
  | none => true
  | some x => decide (i < x.idx)

/-- Entry (m, n) after the blocks of one iteration that were consumed before the failure (R41 to R50, R129, R130). -/
def accEntry (w : Nat) (win : Int) (f : Option Fail) (rows nb : Nat) (a b : Operand) (m n : Nat) (acc : Acc) : Acc :=
  (List.range nb).foldl (fun acc j =>
    if before f (idxA (idxBase w nb) rows j m) && (!tmOs w || before f (idxB 0 j n)) then
      match a.get m j, b.get n j with
      | .ok x, .ok y =>
        let blk := blockSum (tmFa w) (tmFb w) (tmMxa w) (tmMxb w) (x.scale.getD 0) (y.scale.getD 0) (x.es.zip y.es)
        let acc := acc.addBlock win blk
        { acc with poison := acc.poison || x.poison || y.poison }
      | _, _ => acc
    else acc) acc

/-- Accumulator entry (m, n) of a cell (R128). -/
def Cell.entry (c : Cell) (m n : Nat) : Acc := fget acc0 c.acc (16 * m + n)
/-- Write an entry. -/
def Cell.setEntry (c : Cell) (m n : Nat) (a : Acc) : Cell := { c with acc := fset acc0 c.acc (16 * m + n) a }
/-- The shared window. -/
def Cell.win (c : Cell) : Int := signed 11 (c.rd CELL_MAC_ACC_SEL_W)

/-- Every entry of rows below `rows` changed. -/
def Cell.modEntries (c : Cell) (rows : Nat) (f : Nat → Nat → Acc → Acc) : Cell :=
  (List.range rows).foldl (fun c m => (List.range 16).foldl (fun c n => c.setEntry m n (f m n (c.entry m n))) c) c

/-- A restart after a drain: N, special state and flags clear, the poison bit kept until START (R133, R144). -/
def Acc.restart (a : Acc) : Acc := { Acc.clear with poison := a.poison }

/-! ### Checksums (R142, R143, R163, R164, 15 R445, R446) -/

/-- The former's sum of operand blocks: exact, or in FP32 for the anchored formats (R143). -/
def formerSum (anch : Bool) (bs : List (List Val)) : List Val :=
  (List.range 32).map (fun k =>
    match bs with
    | [] => .fin false 0 0
    | b :: t => t.foldl (fun acc l =>
        let s := (vAdd acc (l.getD k (.fin false 0 0))).1
        if anch then unpack 13 (convert 13 false false 0 s).out else s) (b.getD k (.fin false 0 0)))

/-- A value of an anchored format as the FP32 element that a checksum cell runs on (R143). -/
def asF32 (v : Val) : Val := unpack 13 (convert 13 false false 0 v).out

/-- A checksum cell's block: exact on the pair's grid, or anchored as FP32 (R143). -/
def ckBlock (w : Nat) (xa xb : Int) (es : List (Val × Val)) : Block :=
  if anchored (tmFa w) then blockSum 13 13 false false 0 0 (es.map (fun e => (asF32 e.1, asF32 e.2)))
  else
    let g := opQmin (tmFa w) (tmMxa w) + opQmin (tmFb w) (tmMxb w)
    let ps := es.map (fun e => prodOf (tmFa w) (tmFb w) e.1 e.2)
    ⟨[(gridSum g (fun _ => true) ps, g + xa + xb)], false, ps⟩

/-- The sum operand of a column or row of operands: block `j` of rows `r` added over the list (R142). -/
def sumOperand (anch : Bool) (rows nb : Nat) (os : List Operand) : Operand :=
  (List.range rows).map (fun r => (List.range nb).map (fun j =>
    let bs := os.map (fun o => o.get r j)
    if bs.any (fun b => match b with | .error _ => true | .ok _ => false) then .error ⟨0x05, 0, false⟩
    else
      let oks := bs.filterMap (fun b => match b with | .ok x => some x | .error _ => none)
      .ok ⟨formerSum anch (oks.map (fun x => x.es)), (oks.headD ⟨[], some 0, false⟩).scale, oks.any (fun x => x.poison)⟩))

/-- A checksum entry after one iteration. -/
def ckEntry (w : Nat) (win : Int) (f : Option Fail) (nb : Nat) (a b : Operand) (m n : Nat) (acc : Acc) : Acc :=
  (List.range nb).foldl (fun acc j =>
    if before f (idxA 0 16 j m) && before f (idxB 0 j n) then
      match a.get m j, b.get n j with
      | .ok x, .ok y =>
        let acc := acc.addBlock win (ckBlock w (x.scale.getD 0) (y.scale.getD 0) (x.es.zip y.es))
        { acc with poison := acc.poison || x.poison || y.poison }
      | _, _ => acc
    else acc) acc

/-- Combination of partial sums of one window (R54, R140, R163): a part, or the sum, outside the 128-bit range is flagged
(R55). -/
def Acc.join (a b : Acc) : Acc :=
  let s := a.special.join b.special
  let z := a.n.toInt + b.n.toInt
  { n := BitVec.ofInt 152 z, special := s.1, inexact := a.inexact || b.inexact
    wovf := a.wovf || b.wovf || !in128 a.n.toInt || !in128 b.n.toInt || !in128 z, invalid := a.invalid || b.invalid || s.2, poison := a.poison || b.poison }

/-- Outcomes of one comparison. -/
inductive Cmp where
  | equal | fails | skipped
deriving DecidableEq, Repr

/-- A side that makes a comparison skipped (R445). -/
def Acc.skips (a : Acc) : Bool := a.wovf || a.invalid || a.special != .finite || a.poison

/-- One comparison: equality, or the tolerance of R446 in value units: both sides are `n * 2^w`. -/
def compareCk (exact : Bool) (nbc terms : Nat) (q w : Int) (a b : Acc) : Cmp :=
  if a.skips || b.skips then .skipped
  else
    let d := (a.n.toInt - b.n.toInt).natAbs
    if exact && !a.inexact && !b.inexact then (if d = 0 then .equal else .fails)
    else
      let lo := min (min w (q - 15)) (w - 1)
      let tol := (if exact then 0 else nbc * terms * terms * 2 ^ (q - 15 - lo).toNat)
        + nbc * (terms + 1) * 2 ^ (w - 1 - lo).toNat
      if d * 2 ^ (w - lo).toNat ≤ tol then .equal else .fails

/-- The larger of two values that may be absent. -/
def optMax (a b : Option Int) : Option Int :=
  match a, b with
  | none, b => b
  | a, none => a
  | some x, some y => some (max x y)

/-- The largest Pmax of an operand pair's blocks (15 R446); `ck` for a checksum cell, which runs them as FP32. -/
def opPmax (w nb rows : Nat) (ck : Bool) (a b : Operand) : Option Int :=
  let f := fun (v : Val) => if ck then asF32 v else v
  let fa := if ck then 13 else tmFa w
  let fb := if ck then 13 else tmFb w
  (List.range nb).foldl (fun acc j => (List.range rows).foldl (fun acc m => (List.range 16).foldl (fun acc n =>
    match a.get m j, b.get n j with
    | .ok x, .ok y => optMax acc (pMax ((x.es.zip y.es).map (fun e => prodOf fa fb (f e.1) (f e.2))))
    | _, _ => acc) acc) acc) none

/-- One comparison of a slab: what it finds, the cell that makes it and its entry, and whether a side is poisoned. -/
structure CmpAt where
  res : Cmp
  x : Nat
  y : Nat
  entry : Nat
  poison : Bool
deriving DecidableEq, Repr

/-- The comparison that cell (x, y) makes of its entries with the sum of those of a list of cells (R163); q is the largest
that has entered either side (15 R446). -/
def cmpAt (cs : Cells) (s : Slab) (exact : Bool) (nbc terms : Nat) (win : Int) (x y : Nat) (ps : List (Nat × Nat)) : List CmpAt :=
  let me := cget cs (s.at x y)
  let q := (ps.foldl (fun a p => optMax a (cget cs (s.at p.1 p.2)).ckQ) me.ckQ).getD 0
  (List.range 16).flatMap (fun m => (List.range 16).map (fun n =>
    let sum := match ps.map (fun p => (cget cs (s.at p.1 p.2)).entry m n) with
      | [] => Acc.clear
      | a :: t => t.foldl Acc.join a
    ⟨if nbc = 2 ^ 32 - 1 then .skipped else compareCk exact nbc terms q win sum (me.entry m n), x, y, 16 * m + n,
      sum.poison || (me.entry m n).poison⟩))

/-- The comparisons of a slab's final checkpoint (R163). -/
def slabCompare (cs : Cells) (s : Slab) (exact : Bool) (nbc : Nat) (win : Int) : List CmpAt :=
  let xs := List.range s.w
  let ys := List.range s.h
  let rowC := if s.ckrow then xs.flatMap (fun x => cmpAt cs s exact nbc s.h win x s.h (ys.map (fun y => (x, y)))) else []
  let colC := if s.ckcol then ys.flatMap (fun y => cmpAt cs s exact nbc s.w win s.w y (xs.map (fun x => (x, y)))) else []
  let cor := if s.ckrow && s.ckcol then
      cmpAt cs s exact nbc (s.w * s.h) win s.w s.h (xs.map (fun x => (x, s.h)))
        ++ cmpAt cs s exact nbc (s.w * s.h) win s.w s.h (ys.map (fun y => (s.w, y))) else []
  rowC ++ colC ++ cor

/-- The cell where the verdict forms (R165). -/
def Slab.verdictCell (s : Slab) : Nat :=
  if s.ckrow && s.ckcol then s.at s.w s.h else if s.ckrow then s.at (s.w - 1) s.h else s.at s.w (s.h - 1)

end Sys2Proof.Machine
end

