-- ==== Sys2Proof/Machine/Patina.lean ====
section
/-! DEFINITION. The patina chain, the plumb stage and the drain of one cell (spec/05_slabs_patina.md R145 to R162, R166). -/

namespace Sys2Proof.Machine
open Sys2Proof

/-! ### Parameters (R149, R161) -/

/-- Byte `i` of an array of parameter registers. -/
def Cell.patByte (c : Cell) (f : Fld) (i : Nat) : Nat := bits (c.rd (f.up (8 * (i / 8)))) (8 * (i % 8) + 7) (8 * (i % 8))
/-- A little-endian value of `n` bytes of such an array. -/
def Cell.patVal (c : Cell) (f : Fld) (i : Nat) : Nat → Nat
  | 0 => 0
  | n + 1 => c.patByte f i + 256 * c.patVal f (i + 1) n

/-- DEST. -/
def Cell.patDest (c : Cell) : Nat := bits (c.rd CELL_PAT_DRAIN0) 1 0
/-- Whether the stage with a PCFG minor (1 to 7) is present: enabled, and the drain is not raw (R147, R149). -/
def Cell.patOn (c : Cell) (i : Nat) : Bool := bit (c.rd CELL_PAT_DRAIN0) (7 + i) && c.patDest != 2
/-- Base address of the drain. -/
def Cell.patBase (c : Cell) : Nat := bits (c.rd CELL_PAT_DRAIN0) 49 32
/-- Row pitch in bytes. -/
def Cell.patPitch (c : Cell) : Nat := bits (c.rd CELL_PAT_DRAIN1) 15 0
/-- Tile stride in lines. -/
def Cell.patStride (c : Cell) : Nat := bits (c.rd CELL_PAT_DRAIN1) 31 16
/-- SCALE's exponent E. -/
def Cell.patScaleE (c : Cell) : Int := signed 11 (c.rd CELL_PAT_SCALE)
/-- SCALE's factor of column `n`. -/
def Cell.patScaleM (c : Cell) (n : Nat) : Int := signed 16 (c.patVal CELL_PAT_SCALE_M (2 * n) 2)
/-- BIAS: its format code. -/
def Cell.patBiasFmt (c : Cell) : Nat := bits (c.rd CELL_PAT_BIAS) 3 0
/-- BIAS: the exponent of an INT32 bias. -/
def Cell.patBiasE (c : Cell) : Int := signed 8 (bits (c.rd CELL_PAT_BIAS) 15 8)
/-- BIAS of column `n`. -/
def Cell.patBiasV (c : Cell) (n : Nat) : Nat := c.patVal CELL_PAT_BIAS_V (4 * n) 4
/-- ACT's MODE. -/
def Cell.patActMode (c : Cell) : Nat := bits (c.rd CELL_PAT_ACT) 1 0
/-- FP16 entry `i` of ACT's table. -/
def Cell.patActT (c : Cell) (i : Nat) : Val := unpack 11 (c.patVal CELL_PAT_ACT_T (2 * i) 2)
/-- RESID's format code. -/
def Cell.patResFmt (c : Cell) : Nat := bits (c.rd CELL_PAT_RESID) 31 28
/-- Row pitch of the residual. -/
def Cell.patResPitch (c : Cell) : Nat := bits (c.rd CELL_PAT_RESID) 47 32
/-- QUANT's MX bit. -/
def Cell.patMx (c : Cell) : Bool := c.patOn 7 && bit (c.rd CELL_PAT_QUANT) 4
/-- SAT of QUANT, 0 when it is not enabled (R148). -/
def Cell.patSat (c : Cell) : Bool := c.patOn 7 && bit (c.rd CELL_PAT_QUANT) 5
/-- OFMT: FP32 when QUANT is not enabled (R148). -/
def Cell.patOfmt (c : Cell) : Nat := if c.patOn 7 then bits (c.rd CELL_PAT_QUANT) 3 0 else 13
/-- O of QUANT. -/
def Cell.patO (c : Cell) : Int := if c.patOn 7 then signed 8 (bits (c.rd CELL_PAT_QUANT) 15 8) else 0
/-- Whether the exit point is the EXIT stage (R148). -/
def Cell.patEarly (c : Cell) : Bool := c.patOn 3 || c.patOn 5 || c.patOn 6
/-- Bytes of a packed row: 16 elements of OFMT, or of 16 bytes when raw (R147). -/
def Cell.patRowBytes (c : Cell) : Nat := if c.patDest = 2 then 256 else 2 * fmtBits c.patOfmt

/-- Whether ACT's table has a NaN breakpoint or decreasing breakpoints (R153). -/
def Cell.actTableBad (c : Cell) : Bool :=
  (List.range 7).any (fun i => (c.patActT i).isNaN)
    || (List.range 6).any (fun i => vCmp (c.patActT (i + 1)) (c.patActT i) == some .lt)

/-- The Order of the first stage in the chain whose parameter is invalid at drain start (R153, R158, R160); `w` is the
slab's width. -/
def Cell.patBad (c : Cell) (w : Nat) : Option Nat :=
  let f := c.patOfmt
  if c.patOn 2 && !(c.patBiasFmt == 4 || c.patBiasFmt == 13) then some 3
  else if c.patOn 3 && (decide (2 ≤ c.patActMode) || (c.patActMode == 0 && c.actTableBad)) then some 5
  else if c.patOn 5 && (!(decide (11 ≤ c.patResFmt ∧ c.patResFmt ≤ 13))
      || decide (c.patResPitch < 2 * fmtBits c.patResFmt)) then some 7
  else if c.patOn 7 && (f == 14 || f == 15
      || (c.patMx && (w % 2 == 1 || !(f == 1 || decide (6 ≤ f ∧ f ≤ 10))))) then some 10
  else if c.patDest == 3 || (c.patDest == 1 && decide (64 < c.patRowBytes))
      || decide (c.patPitch < c.patRowBytes) then some 11
  else none

/-! ### Drain accesses (class 3) -/

/-- The words that `n` bytes at `a` touch: word address, first byte, byte count. -/
def spanWords (a n : Nat) : List (Nat × Nat × Nat) :=
  (List.range ((a + n + 3) / 4 - a / 4)).map (fun i =>
    let wa := (a / 4 + i) * 4
    let lo := max a wa
    (wa, lo, min (a + n) (wa + 4) - lo))

/-- Whether the drain may reach `n` bytes at `a` (R188: a refused access reports DRAIN_ADDR). -/
def Cell.drainOk (c : Cell) (a n : Nat) : Bool := (c.spdCheck 3 true ((spanWords a n).map (·.1))).isNone

/-- Write `n` bytes of a value; `pz` says whether a byte of it is poisoned. -/
def Cell.spanWrite (c : Cell) (a n v : Nat) (pz : Nat → Bool) : Cell :=
  (spanWords a n).foldl (fun c s =>
    let off := s.2.1 - a
    let x := v / 256 ^ off % 256 ^ s.2.2
    let p := (List.range s.2.2).any (fun i => pz (off + i))
    if s.2.2 = 4 then c.spdWrite s.1 x p else c.spdMerge s.2.1 s.2.2 x p) c

/-- Read `n` bytes: the value, and the poison of each byte's word. -/
def Cell.spanRead (c : Cell) (a n : Nat) : Nat × List Bool × Cell :=
  (spanWords a n).foldl (fun (r : Nat × List Bool × Cell) s =>
    let x := r.2.2.spdRead s.1
    (r.1 + bits x.1 (8 * (s.2.1 - s.1 + s.2.2) - 1) (8 * (s.2.1 - s.1)) * 256 ^ (s.2.1 - a),
     r.2.1 ++ List.replicate s.2.2 x.2.1, x.2.2)) (0, [], c)

/-! ### Stages -/

/-- One element on its way through the chain: the value, the entry with the flags so far, the window's weight. -/
structure Elem where
  v : Val
  acc : Acc
  weight : Int
  poison : Bool
  range : Bool := false     -- CVT_RANGE so far
deriving DecidableEq, Repr

/-- SCALE (R150): the special state stays. -/
def Elem.scale (e : Elem) (m ex : Int) : Elem :=
  let z := e.acc.n.toInt * m
  { e with acc := { e.acc with n := BitVec.ofInt 152 z, wovf := e.acc.wovf || !in128 z }, weight := e.weight + ex }

/-- BIAS (R151). -/
def Elem.bias (e : Elem) (fmt : Nat) (be : Int) (b : Nat) : Elem :=
  if fmt = 4 then { e with acc := e.acc.merge e.weight (signed 32 b) be }
  else match unpack 13 b with
    | .nan => { e with acc := e.acc.addNaN }
    | .inf n => { e with acc := e.acc.addInf n }
    | .fin n s q => { e with acc := e.acc.merge e.weight (sgn n s) q }

/-- Rounding to FP32 as a value. -/
def toF32 (v : Val) : Val := unpack 13 (convert 13 false false 0 v).out

/-- The value as it leaves the accumulator (R53). -/
def Elem.exit (e : Elem) (early sat : Bool) : Elem :=
  let v := e.acc.value e.weight
  if early then
    let r := convert 13 false sat 0 v
    { e with v := unpack 13 r.out, range := e.range || r.range }
  else { e with v := v }

/-- The segment of ACT's table that holds a value (R152). -/
def actSegment (bs : List Val) (x : Val) : Nat :=
  match x with
  | .inf n => if n then 0 else 7
  | _ => ((bs.zipIdx).foldl (fun acc (b : Val × Nat) =>
      match vCmp b.1 x with
      | some .gt => acc
      | none => acc
      | _ => b.2 + 1) 0)

/-- ACT (R152). -/
def Cell.act (c : Cell) (x : Val) : Val :=
  if x.isNaN then .nan
  else if c.patActMode = 1 then
    (match x with
     | .inf n => if n then .fin false 0 0 else .inf false
     | .fin n s q => if n || s = 0 then .fin false 0 0 else .fin false s q
     | .nan => .nan)
  else
    let i := actSegment ((List.range 7).map c.patActT) x
    let sl := c.patActT (7 + i)
    let ic := c.patActT (15 + i)
    match x, sl with
    | .inf _, .fin _ 0 _ => toF32 ic
    | _, _ => toF32 (vFma sl x ic).1

/-- CLAMP (R154): a NaN passes. -/
def Cell.clamp (c : Cell) (x : Val) : Val :=
  let lo := unpack 13 (bits (c.rd CELL_PAT_CLAMP) 31 0)
  let hi := unpack 13 (bits (c.rd CELL_PAT_CLAMP) 63 32)
  if vCmp x lo == some .lt then lo else if vCmp x hi == some .gt then hi else x

/-- Fraction bits of the exponent times successive square roots of 2, in fixed point with 200 fraction bits. -/
def exp2Go (f : Nat) : Nat → Nat → Nat → Nat
  | 0, _, acc => acc
  | n + 1, r, acc =>
    let r := isqrt (r <<< 200)
    exp2Go f n r (if f.testBit n then (acc * r) >>> 200 else acc)

/-- 2 to a value, correctly rounded to FP32 (R156). A magnitude of at most 2^-25 rounds to 1; any other FP32 value has
at most 48 fraction bits. -/
def exp2F32 : Val → Val
  | .nan => .nan
  | .inf n => if n then .fin false 0 0 else .inf false
  | .fin n s q =>
    if s = 0 then .fin false 1 0
    else
      let top : Int := (Nat.log2 s : Int) + q
      if 9 ≤ top then (if n then .fin false 0 0 else .inf false)
      else if top < -25 || (top = -25 && s = 2 ^ Nat.log2 s) then .fin false 1 0
      else
        let z := (rneInt (sgn n s) (q + 48)).1     -- exact: no bit lies below 2^-48
        let i := z / (2 ^ 48 : Nat)
        let f := (z % (2 ^ 48 : Nat)).toNat
        if f = 0 then toF32 (.fin false 1 i)
        else toF32 (.fin false (2 * exp2Go f 48 (2 <<< 200) (1 <<< 200) + 1) (i - 201))

/-- log2 e in FP32 (R156). -/
def log2e : Val := unpack 13 0x3FB8AA3B

/-- SOFTMAX of a row: the elements, the maximum, the sum (R156). -/
def softmaxRow (xs : List Val) : List Val × Val × Val :=
  if xs.any Val.isNaN then (xs.map (fun _ => .nan), .nan, .nan)
  else
    let m := match xs with | [] => .nan | a :: t => t.foldl (vMinMax true) a
    let es := xs.map (fun x => exp2F32 (toF32 (vMul (toF32 (vAdd x m.neg).1) log2e).1))
    let sum := match es with | [] => .fin false 0 0 | a :: t => t.foldl (fun acc y => toF32 (vAdd acc y).1) a
    (es, m, sum)

/-! ### Flags and the plumb stage (R145, R162, R166) -/

/-- The flag bits of R51 of an element: INEXACT, WINDOW_OVERFLOW, INVALID. -/
def Elem.flags (e : Elem) : Nat :=
  b2n e.acc.inexact + 2 * b2n e.acc.leave.2 + 4 * b2n e.acc.invalid

/-- A sticky flag set. -/
def Cell.setIf (c : Cell) (f : Fld) (b : Bool) : Cell := if b then c.wr f 1 else c

/-- HEADROOM and TRAIL of one drained N (CELL_MAC_FLAGS). -/
def Cell.macSpan (c : Cell) (n : Int) : Cell :=
  let c := if n = 0 then c
    else c.wr CELL_MAC_FLAGS_TRAIL (min (c.rd CELL_MAC_FLAGS_TRAIL)
      (((List.range 128).find? (fun i => n.natAbs.testBit i)).getD 127))
  if n = 0 ∨ n = -1 then c
  else
    let m := if n < 0 then (-1 - n).toNat else n.toNat
    c.wr CELL_MAC_FLAGS_HEADROOM (min (c.rd CELL_MAC_FLAGS_HEADROOM) (127 - Nat.log2 m))

/-- CELL_MAC_FLAGS after a drained entry: `n` is its N, `e` its element (R145). -/
def Cell.macFlags (c : Cell) (n : Int) (e : Elem) : Cell :=
  ((((c.macSpan n).setIf CELL_MAC_FLAGS_INEXACT e.acc.inexact).setIf CELL_MAC_FLAGS_WINDOW_OVERFLOW e.acc.leave.2).setIf
    CELL_MAC_FLAGS_INVALID e.acc.invalid).setIf CELL_MAC_FLAGS_POISON e.poison

/-- What the plumb stage finds in one row: elements out of range, not finite, flagged, poisoned, and the flag bits of the
first flagged one. -/
structure Plumb where
  range : Nat
  nonfin : Nat
  flagged : Nat
  poison : Nat
  bits : Nat
deriving DecidableEq, Repr

/-- The plumb stage on a row (R133, R162). -/
def Cell.plumbRow (c : Cell) (es : List Elem) : Plumb :=
  let lo := unpack 13 (c.rd INT_PLUMB_RANGE_LO)
  let hi := unpack 13 (c.rd INT_PLUMB_RANGE_HI)
  let live := es.filter (fun e => !e.poison)
  let out := fun (e : Elem) => vCmp e.v lo == some .lt || vCmp e.v hi == some .gt
  let bad := fun (e : Elem) => match e.v with | .fin _ _ _ => false | _ => true
  let fl := fun (e : Elem) => e.acc.leave.2 || e.acc.invalid || (c.flag INT_PLUMB_CFG_INEXACT_IS_FLAG && e.acc.inexact)
  { range := if c.flag INT_PLUMB_CFG_RANGE_EN then live.countP out else 0
    nonfin := live.countP bad
    flagged := live.countP fl
    poison := es.countP (fun e => e.poison)
    bits := match live.find? fl with | some e => e.flags | none => 0 }

/-- A counter field up by `n`, holding at its limit. -/
def Cell.addSat (c : Cell) (f : Fld) (n : Nat) : Cell := c.wr f (min (c.rd f + n) (2 ^ f.width - 1))

/-- The counters of a row's plumb checks, and the faults (code, DETAIL) that ACT = 2 raises for row `m` (R166). -/
def Cell.plumbCount (c : Cell) (m : Nat) (r : Plumb) : Cell × List (Nat × Nat) :=
  let one := fun (s : Cell × List (Nat × Nat)) (n : Nat) (act cnt : Fld) (fault : Nat × Nat) =>
    let a := s.1.rd act
    if n = 0 ∨ ¬ (a = 1 ∨ a = 2) then s
    else (s.1.addSat cnt n, if a = 2 then s.2 ++ [fault] else s.2)
  let s := (c.addSat INT_PLUMB_STATUS_POISON_CNT r.poison, [])
  let s := one s r.range INT_PLUMB_CFG_RANGE_ACT INT_PLUMB_STATUS_RANGE_CNT (0x66, m)
  let s := one s r.nonfin INT_PLUMB_CFG_NONFIN_ACT INT_PLUMB_STATUS_NONFIN_CNT (0x67, m)
  one s r.flagged INT_PLUMB_CFG_FLAG_ACT INT_PLUMB_STATUS_FLAGGED_CNT (0x68, r.bits)

/-! ### A row -/

/-- Address and size of the residual row `m` of iteration `b` (R155). -/
def Cell.residAt (c : Cell) (b m : Nat) : Nat × Nat :=
  (bits (c.rd CELL_PAT_RESID) 17 0 + b * bits (c.rd CELL_PAT_RESID) 63 48 * 64 + m * c.patResPitch, 2 * fmtBits c.patResFmt)

/-- The parts of `n` bytes at `a` that lie in one line each. -/
def lineParts (a n : Nat) : List (Nat × Nat) :=
  let k := min n (64 - a % 64)
  if k < n then [(a, k), (a + k, n - k)] else [(a, n)]

/-- Byte `i` of a residual row as its parts have been read, with its poison; none where the part's claim gave nothing. -/
def residByte (ps : List (Nat × Nat)) (a i : Nat) : List (Option (Nat × List Bool)) → Option (Nat × Bool)
  | [] => none
  | r :: rs =>
    match ps with
    | [] => none
    | p :: ps =>
      if a + i < p.1 + p.2 then r.map (fun v => (bits v.1 (8 * (a + i - p.1) + 7) (8 * (a + i - p.1)), v.2.getD (a + i - p.1) false))
      else residByte ps a i rs

/-- RESID (R155): an element whose read gave nothing is added nothing. -/
def Cell.addResid (c : Cell) (b m : Nat) (res : List (Option (Nat × List Bool))) (es : List Elem) : List Elem :=
  let f := c.patResFmt
  let sz := fmtBits f / 8
  let at' := c.residAt b m
  let byte := fun i => residByte (lineParts at'.1 at'.2) at'.1 i res
  (es.zipIdx).map (fun (e : Elem × Nat) =>
    let bs := (List.range sz).map (fun i => byte (e.2 * sz + i))
    if bs.any (fun o => o.isNone) then e.1
    else
      let v := bs.foldr (fun o acc => (o.getD (0, false)).1 + 256 * acc) 0
      { e.1 with v := toF32 (vAdd e.1.v (unpack f v)).1, poison := e.1.poison || bs.any (fun o => (o.getD (0, false)).2) })

/-- Address of SOFTMAX's side words (R156). -/
def Cell.sideAt (c : Cell) (rows b m : Nat) : Nat := bits (c.rd CELL_PAT_SOFTMAX) 17 0 + (b * rows + m) * 8

/-- Row `m` of iteration `b` from the entries that leave the array to SOFTMAX's end, and SOFTMAX's side words with their poison:
a poisoned element poisons the row and its side words (R146 to R156). -/
def Cell.rowElems (c : Cell) (win : Int) (b m : Nat) (res : List (Option (Nat × List Bool))) (accs : List Acc) :
    List Elem × Nat × Bool :=
  let es := (accs.zipIdx).map (fun (x : Acc × Nat) =>
    let e : Elem := ⟨.nan, x.1, win, x.1.poison, false⟩
    let e := if c.patOn 1 then e.scale (c.patScaleM x.2) c.patScaleE else e
    let e := if c.patOn 2 then e.bias c.patBiasFmt c.patBiasE (c.patBiasV x.2) else e
    let e := e.exit c.patEarly c.patSat
    let e := if c.patOn 3 then { e with v := c.act e.v } else e
    if c.patOn 4 then { e with v := c.clamp e.v } else e)
  let es := if c.patOn 5 then c.addResid b m res es else es
  if c.patOn 6 then
    let r := softmaxRow (es.map (fun e => e.v))
    let p := es.any (fun e => e.poison)
    let enc := fun v => (convert 13 false false 0 v).out
    ((es.zip r.1).map (fun (x : Elem × Val) => { x.1 with v := x.2, poison := p }), enc r.2.1 + 2 ^ 32 * enc r.2.2, p)
  else (es, 0, false)

/-- CELL_MAC_FLAGS of the entries and the plumb stage of a row (R145, R162, R166). -/
def Cell.rowChecks (c : Cell) (m : Nat) (accs : List Acc) (es : List Elem) : Cell × List (Nat × Nat) :=
  let c := (accs.zip es).foldl (fun c (x : Acc × Elem) => c.macFlags x.1.leave.1 x.2) c
  c.plumbCount m (c.plumbRow es)

/-! ### The accesses of the chain (class 3) -/

/-- Whether a write of `n` bytes at `a` covers a word in part, and so merges (06 R185). -/
def merges (a n : Nat) : Bool := a % 4 != 0 || (a + n) % 4 != 0

/-- What loses a class 3 claim at an address for context `k`: the WIDE_CLASH to raise. -/
def Cell.drainLost (k a : Nat) (c : Cell) : Cell × List (Nat × Nat) := (c.lostClaim k 3 a, [(0x45, spdDetail 3 0x45 0 a)])

/-- A class 3 claim of a port in mesh cycle `now` (06 R180). -/
def Cell.drainClaim (rd : Bool) (now k a : Nat) (c : Cell) : Bool × Cell × List (Nat × Nat) :=
  if c.portTaken rd now then (false, c.drainLost k a) else (true, c.takePort rd now, [])

/-- The conversions of a row of values by QUANT without MX. -/
def Cell.quantRow (c : Cell) (es : List Elem) : List Conv := es.map (fun e => convert c.patOfmt false c.patSat c.patO e.v)

/-- N of a raw row as 16-byte words (R147). -/
def rawRow (es : List Elem) : List Conv := es.map (fun e => { out := wrap 128 e.acc.leave.1 })

/-- Bits of a list, the first lowest. -/
def packBits : List Bool → Nat
  | [] => 0
  | b :: t => b2n b + 2 * packBits t

/-- Where a row's WRITE stores under DEST 0b00 and 0b10 (R147). -/
def Cell.rowAt (c : Cell) (b m : Nat) : Nat := c.patBase + b * c.patStride * 64 + m * c.patPitch
/-- Where the east cell of an MX pair stores a row's scale (R157). -/
def Cell.scaleAt (c : Cell) (rows b m : Nat) : Nat := bits (c.rd CELL_PAT_QUANT) 49 32 + b * rows + m

/-- What the WRITE of a row stores: bytes at an address with the poison of each, and the Order of the stage that a refusal
names. -/
structure Put where
  stage : Nat
  at' : Nat
  n : Nat
  v : Nat
  pz : List Bool
deriving DecidableEq, Repr

/-- One store of a drain (R188: a refusal reports DRAIN_ADDR). -/
def Cell.put (p : Put) (c : Cell) : Cell × List (Nat × Nat) :=
  if c.drainOk p.at' p.n then (c.spanWrite p.at' p.n p.v (fun i => p.pz.getD i false), []) else (c, [(0x64, p.stage)])

/-- Stores of one class 3 claim of the write port in mesh cycle `now`; `lost` says that their merge read was lost. -/
def Cell.puts (now k : Nat) (lost : Bool) (ps : List Put) (c : Cell) : Cell × List (Nat × Nat) :=
  match ps with
  | [] => (c, [])
  | p :: _ =>
    if lost then (c, [])
    else
      let r := c.drainClaim false now k p.at'
      if r.1 then ps.foldl (fun (a : Cell × List (Nat × Nat)) q => let o := a.1.put q; (o.1, a.2 ++ o.2)) (r.2.1, [])
      else r.2

/-- WRITE of row `m` of iteration `b`: `xs` are the conversions, `w` their bits, `ps` the poison of the elements; `sc` is the MX
scale byte that this cell writes. The conversions set CVT_RANGE and INVALID (R51). The stores are made in mesh cycle `now`. -/
def Cell.writeRow (c : Cell) (now origin : Nat) (r : DrainRow) (lost : Bool) (w : Nat) (xs : List Conv) (ps : List Bool)
    (sc : Option Nat) : Cell × List (Nat × Nat) :=
  let v := (xs.zipIdx).foldl (fun acc (x : Conv × Nat) => acc + x.1.out % 2 ^ w * 2 ^ (w * x.2)) 0
  let c := (c.setIf CELL_MAC_FLAGS_CVT_RANGE (xs.any (fun x => x.range))).setIf CELL_MAC_FLAGS_INVALID (xs.any (fun x => x.invalid))
  let pz := fun i => (ps.zipIdx).any (fun (p : Bool × Nat) => p.1 && decide (w * p.2 < 8 * i + 8 ∧ 8 * i < w * p.2 + w))
  let q := ps.any (fun p => p)
  let scale : List Put := match sc with
    | none => []
    | some byte => [⟨10, c.scaleAt r.rows r.b r.m, 1, byte, [q]⟩]
  if c.patDest = 1 then
    let pw := packBits ((List.range 16).map (fun j => ([0, 1, 2, 3].any (fun i => pz (4 * j + i))) || (j == 15 && sc.isSome && q)))
    ({ c with offer := some ⟨origin, r.ctx, r.pc, ⟨BitVec.ofNat 512 (v + (sc.getD 0) * 2 ^ 504), BitVec.ofNat 16 pw⟩⟩ }).puts now r.ctx lost scale
  else c.puts now r.ctx lost (scale ++ [⟨11, c.rowAt r.b r.m, 2 * w, v, (List.range (2 * w)).map pz⟩])

/-- A row from PLUMB to WRITE for a cell that needs no partner. -/
def Cell.finishRow (c : Cell) (now origin : Nat) (r : DrainRow) (lost : Bool) (es : List Elem) : Cell × List (Nat × Nat) :=
  let c := c.setIf CELL_MAC_FLAGS_CVT_RANGE (es.any (fun e => e.range))
  let ps := es.map (fun e => e.poison)
  if c.patDest = 2 then c.writeRow now origin r lost 128 (rawRow es) ps none
  else c.writeRow now origin r lost (fmtBits c.patOfmt) (c.quantRow es) ps none

/-- The row that a cell of an MX pair is to send and does not, because its own drain raised PATINA_PARAM: R157 gives no values
for it, and they are free (log 118). -/
def absentRow (b m : Nat) : List Elem :=
  (List.range 16).map (fun n => ⟨unpack 13 (Config.pairMissing b (16 * m + n)), Acc.clear, 0, false, false⟩)

/-- A row of an MX pair (R157, R38): `west` and `east` are the elements of the two cells, `isEast` says which cell this is. -/
def Cell.finishMx (c : Cell) (now origin : Nat) (r : DrainRow) (lost : Bool) (west east : List Elem) (isEast : Bool) :
    Cell × List (Nat × Nat) :=
  let all := west ++ east
  let x := mxBlock c.patOfmt (all.map (fun e => e.v))
  let p := all.any (fun e => e.poison)
  let mine := if isEast then x.2.drop 16 else x.2.take 16
  let c := c.setIf CELL_MAC_FLAGS_CVT_RANGE ((if isEast then east else west).any (fun e => e.range))
  c.writeRow now origin r lost (fmtBits c.patOfmt) mine (List.replicate 16 p) (if isEast then some x.1 else none)

/-- Cycles from the end of SOFTMAX to a row's WRITE (R149). -/
def Cell.patTail (c : Cell) : Nat := 3 + (if c.patOn 7 then (if c.patMx then 10 else 2) else 0)

/-- Depth of a drain cell's chain (R149, R159); `comb` with the COMBINE stage. -/
def Cell.patDepth (c : Cell) (comb : Bool) : Nat :=
  let st := fun (i d : Nat) => if c.patOn i then d else 0
  b2n comb + (if c.patDest = 2 then 3
    else st 1 2 + st 2 2 + 3 + st 3 3 + st 4 1 + st 5 4 + st 6 6 + 2 + (if c.patOn 7 then (if c.patMx then 10 else 2) else 0) + 1)

/-! ### Writing parameters: PCFG (04 R124) -/

/-- The low or high half of a register written. -/
def Cell.wrHalf (c : Cell) (f : Fld) (hi : Bool) (v : Nat) : Cell :=
  let o := c.rd f
  c.wr f (if hi then bits o 31 0 + 2 ^ 32 * (v % 2 ^ 32) else o / 2 ^ 32 * 2 ^ 32 + v % 2 ^ 32)

/-- `n` registers of an array written from a v register's low bytes. -/
def Cell.wrVec (c : Cell) (f : Fld) (n v : Nat) : Cell :=
  (List.range n).foldl (fun c i => c.wr (f.up (8 * i)) (bits v (64 * i + 63) (64 * i))) c

/-- Parameter `idx` of the stage with a PCFG minor written (R149, R161). -/
def Cell.pcfgWrite (c : Cell) (stage idx v : Nat) : Cell :=
  match stage, idx with
  | 0, 0 => c.wrHalf CELL_PAT_DRAIN0 false v
  | 0, 1 => c.wrHalf CELL_PAT_DRAIN0 true v
  | 0, _ => c.wrHalf CELL_PAT_DRAIN1 false v
  | 1, 0 => c.wrHalf CELL_PAT_SCALE false v
  | 1, _ => c.wrVec CELL_PAT_SCALE_M 4 v
  | 2, 0 => c.wrHalf CELL_PAT_BIAS false v
  | 2, _ => c.wrVec CELL_PAT_BIAS_V 8 v
  | 3, 0 => c.wrVec CELL_PAT_ACT_T 6 v
  | 3, _ => c.wrHalf CELL_PAT_ACT false v
  | 4, 0 => c.wrHalf CELL_PAT_CLAMP false v
  | 4, _ => c.wrHalf CELL_PAT_CLAMP true v
  | 5, 0 => c.wrHalf CELL_PAT_RESID false v
  | 5, _ => c.wrHalf CELL_PAT_RESID true v
  | 6, _ => c.wrHalf CELL_PAT_SOFTMAX false v
  | _, 0 => c.wrHalf CELL_PAT_QUANT false v
  | _, _ => c.wrHalf CELL_PAT_QUANT true v

end Sys2Proof.Machine
end

