-- ==== Sys2Proof/Machine/Slab.lean ====
section
/-! DEFINITION. TMAC, PCFG and MWAIT: a tile operation from its checks to the end of its array time, on one cell or on a
slab (spec/04_cell_instructions.md R119 to R124, spec/05_slabs_patina.md R132 to R173, spec/15_integrity.md R443 to R447). -/

namespace Sys2Proof.Machine
open Sys2Proof

/-- The slab that an operation of the origin runs on. -/
def opSlab (ph : Nat → Nat) (o : Cell) (n logical : Nat) : Slab :=
  if o.flag CELL_SLAB_CFG_ENABLE then slabOf ph o logical else soloSlab n

/-- The physical cells of a slab. -/
def Slab.nums (s : Slab) : List Nat := s.cells.map (fun p => p.2.2)

/-- A change of every cell of a list. -/
def cmodAll (cs : Cells) (ns : List Nat) (f : Cell → Cell) : Cells := ns.foldl (fun cs n => cmod cs n f) cs

/-- The kth lambda of R139: 3 across a region boundary. -/
def hopCost (x0 x : Nat) : Nat := (List.range x).foldl (fun acc i => acc + (if (x0 + i + 1) % 16 = 0 then 3 else 1)) 0
/-- The skew of a slab position (R139). -/
def slabSkew (s : Slab) (logical x y : Nat) : Nat :=
  hopCost (idX logical) x + hopCost (idY logical) y + (if s.member x y then 0 else 2)

/-- The position, of least skew, at which a cell disagrees with the origin (R141). -/
def slabMismatch (cs : Cells) (s : Slab) (o : Cell) (logical : Nat) : Option (Nat × Nat) :=
  (s.cells.filter (fun p => !slabAgrees s o (cget cs p.2.2) p.1 p.2.1)).foldl (fun acc p =>
    match acc with
    | none => some (p.1, p.2.1)
    | some q => if slabSkew s logical p.1 p.2.1 < slabSkew s logical q.1 q.2 then some (p.1, p.2.1) else acc) none

/-! ### Checks at issue (04 R122, R137) -/

/-- The fault of a TMAC at issue, as an effect on the origin, and none when it may start. -/
def tmacCheck (e : Env) (k w ext : Nat) (o : Cell) : Option (Cell → Cell) :=
  let x := o.ctx k
  let fa := tmFa w
  let fb := tmFb w
  let ill : Option (Cell → Cell) := some (fun c => c.illegal e k w)
  let isOpen := o.flag CELL_MAC_ACC_SEL_OPEN && o.rd CELL_MAC_ACC_SEL_OWNER == k
  let sS := bits ext 11 7
  let sW := bits ext 6 2
  let pa := !tmPortA w && (x.aReg (bits w 10 8)).p
  let pb := !tmPortB w && (x.aReg (bits w 7 5)).p
  let strides := decide (1 < tmBatch ext) && (!tmPortA w || !tmPortB w || !tmOs w)
  let ps := (strides && (x.sReg sS).p) || (tmStart w && (x.sReg sW).p)
  let p67 := (tmMxa w && !tmPortA w && (x.aReg 6).p) || (tmMxb w && !tmPortB w && (x.aReg 7).p)
  if !macPairOk fa fb || !mxOk fa (tmMxa w) || !mxOk fb (tmMxb w) then
    some (fun c => c.formatInvalid e k fa (tmMxa w) fb (tmMxb w))
  else if tmOs w && tmRows w != 16 then ill
  else if !tmOs w && decide (65536 < 32 * tmNb ext * 16 * fmtBits fb) then ill
  else if !tmStart w && !isOpen then ill
  else if !tmStart w && o.openCfg != some ⟨tmOs w, fa, fb, tmMxa w, tmMxb w⟩ then ill
  else if pa || pb || ps || p67 then
    some (fun c => c.poisoned e k (if pa then 0 else if pb then 1 else if ps then 3 else 4))
  else none

/-- SLAB_CONFIG at the origin (R137): position (0, 0). -/
def slabConfigBad (w logical : Nat) (o : Cell) (s : Slab) : Bool :=
  o.flag CELL_SLAB_CFG_ENABLE &&
    ((!tmOs w && (s.ckcol || s.ckrow)) || (tmOs w && decide (1 < s.kseg)) || (s.ckcol && tmMxb w) || (s.ckrow && tmMxa w)
      || idX logical / 48 != (idX logical + s.w - 1 + b2n s.ckcol) / 48
      || idY logical / 48 != (idY logical + s.h - 1 + b2n s.ckrow) / 48
      || s.h % s.kseg != 0)

/-! ### The end of an operation -/

/-- A block whose array is idle: its entries and OPEN stay. -/
def Cell.macIdle (c : Cell) : Cell :=
  { ((c.wr CELL_MAC_STATUS_BUSY 0).wr CELL_MAC_STATUS_PHASE 0).wr CELL_MAC_STATUS_SLAB_HELD 0 with macOp := none }

/-- Contexts that wait for the MAC block of a cell become READY (03 R71, R167). -/
def Cell.wakeMac (c : Cell) : Cell :=
  [0, 1, 2, 3].foldl (fun c k => if (c.ctx k).state = .blocked ∧ (c.ctx k).wait = .mac then c.wake k else c) c

/-- The operands of an origin's operation let go: its streams, the claims to come, the lines held. -/
def Cell.dropFeeds (origin : Nat) (c : Cell) : Cell :=
  { c with feeds := [0x10, 0x11, 0x18, 0x19].foldl (fun m p =>
      fset nil0 m p ((fget nil0 m p).filter (fun f => f.origin != origin))) c.feeds
           reads := c.reads.filter (fun r => r.origin != origin), opBuf := [] }

/-- Whether rows of a list are still in the chain of a cell. -/
def drainsAt (rs : List DrainRow) (n : Nat) : Bool := rs.any (fun r => r.cells.any (fun d => d.n == n))

/-- Every cell of the slab stops: its array is idle, its operands are let go, the contexts that wait for it issue again. A
drain that has started goes on (04 R122), and its cell waits for it. -/
def stopSlab (cs : Cells) (ns : List Nat) (origin : Nat) : Cells :=
  let rs := (cget cs origin).drain
  cmodAll cs ns (fun c => let c := c.macIdle.dropFeeds origin; if c.flag CELL_MAC_STATUS_DRAINING then c else c.wakeMac)
  |> fun cs => cmodAll cs (ns.filter (fun n => !drainsAt rs n)) (fun c => (c.wr CELL_MAC_STATUS_DRAINING 0).wakeMac)

/-- The drains of an origin's slab stop with the rows they hold (R141). -/
def stopDrain (cs : Cells) (ns : List Nat) (origin : Nat) : Cells :=
  cmodAll (cmod cs origin (fun c => { c with drain := [] })) ns (fun c => c.wr CELL_MAC_STATUS_DRAINING 0)

/-- Faults (code, DETAIL) raised against the origin's issuing context. -/
def raiseOrigin (e : Env) (ctx pc : Nat) (cs : Cells) (origin : Nat) (fs : List (Nat × Nat)) : Cells :=
  fs.foldl (fun cs f => cmod cs origin (fun c => c.raise { e with n := origin } ctx f.1 f.2 pc)) cs

/-- The operation stops at a failing consumption of cell `at'` in iteration `b`: its entries stay open (R122, R141). -/
def macFail (e : Env) (op : MacOp) (cs : Cells) (s : Slab) (origin at' b : Nat) (f : Fail) : Cells :=
  let cs := cmodAll cs s.nums (fun c =>
    ((c.wr CELL_MAC_STATUS_ITER b).wr CELL_MAC_STATUS_BLOCK f.block).wr CELL_MAC_STATUS_ROW f.row)
  let cs := stopSlab cs s.nums origin
  if f.err.code = 0x05 then raiseOrigin e op.ctx op.pc cs origin [(0x05, f.err.addr)]
  else
    let a := f.err.addr
    raiseOrigin e op.ctx op.pc (cmod cs at' (fun c => c.spdCapture op.ctx 2 f.err.code a)) origin
      [(f.err.code, spdDetail 2 f.err.code 0 a)]

/-! ### One iteration -/

/-- The cells that read operand A: the west edge (R138). -/
def Slab.readsA (s : Slab) : List (Nat × Nat) := (List.range s.h).map (fun y => (0, y))
/-- The cells that read operand B: the north edge in OS mode, every member in WS mode. -/
def Slab.readsB (s : Slab) (os : Bool) : List (Nat × Nat) :=
  if os then (List.range s.w).map (fun x => (x, 0))
  else (List.range s.h).flatMap (fun y => (List.range s.w).map (fun x => (x, y)))

/-- The earliest failure over operands read at cells. -/
def firstFail (nb rows : Nat) (idx : Nat → Nat → MacErr → Nat) : List (Nat × Operand) → Option (Nat × Fail)
  | [] => none
  | (n, o) :: t =>
    match opFail o nb rows idx, firstFail nb rows idx t with
    | none, r => r
    | some f, none => some (n, f)
    | some f, some (m, g) => if g.idx < f.idx then some (m, g) else some (n, f)

/-- The earlier of two failures with their cells; at the same place the first. -/
def earlier (a b : Option (Nat × Fail)) : Option (Nat × Fail) :=
  match a, b with
  | none, b => b
  | a, none => a
  | some x, some y => if y.2.idx < x.2.idx then some y else some x

/-- Blocks counted and q kept at a cell of a slab with checksums (15 R446, INT_CK_STATE). -/
def Cell.countBlocks (nb : Nat) (q : Option Int) (c : Cell) : Cell :=
  let c := { c with nbc := min (c.nbc + nb) (2 ^ 32 - 1), ckQ := optMax c.ckQ q }
  let c := c.wr INT_CK_STATE_NBC (min c.nbc 4095)
  match c.ckQ with
  | none => c
  | some q => c.wr INT_CK_STATE_Q (wrap 12 q)

/-- The blocks of iteration `b` in every cell of the slab, from the words and lines that its cells hold
(R120, R128 to R131, R138, R142). -/
def macIter (op : MacOp) (s : Slab) (origin b : Nat) (cs : Cells) : Cells × Option (Nat × Fail) :=
  let w := op.w
  let rows := tmRows w
  let nb := tmNb op.ext
  let win := (cget cs origin).win
  let os := tmOs w
  let west := s.readsA.map (fun p => s.at p.1 p.2)
  let ra := west.map (fun n => readA op origin b (cget cs n))
  let north := (s.readsB os).map (fun p => s.at p.1 p.2)
  let rb := north.map (fun n => readB op origin b (cget cs n))
  let f := earlier (firstFail nb rows (fun j m _ => idxA (idxBase w nb) rows j m) (west.zip ra))
    (firstFail nb 16 (fun j n e => idxOfB w nb j n e) (north.zip rb))
  let fail := f.map (fun p => p.2)
  let opA := fun y => ra.getD y []
  let opB := fun x y => if os then rb.getD x [] else rb.getD (y * s.w + x) []
  let anch := anchored (tmFa w)
  let bsum := if s.ckcol then sumOperand anch 16 nb ((List.range s.w).map (fun x => opB x 0)) else []
  let asum := if s.ckrow then sumOperand anch 16 nb ((List.range s.h).map opA) else []
  let ck := s.ckcol || s.ckrow
  let cs := s.cells.foldl (fun cs p =>
    let x := p.1
    let y := p.2.1
    cmod cs p.2.2 (fun c =>
      let c := if !s.member x y && c.nbc == 0 then c.modEntries 16 (fun _ _ a => a.restart) else c
      let a := if y < s.h then opA y else asum
      let o := if x < s.w then opB x (if y < s.h then y else 0) else bsum
      let c := if s.member x y then c.modEntries rows (accEntry w win fail rows nb a o)
        else c.modEntries 16 (ckEntry w win fail nb a o)
      if ck then c.countBlocks nb (opPmax w nb rows (!s.member x y) a o) else c)) cs
  (cs, f)

/-! ### The drain of one iteration (R140, R144, R146, R157, R160) -/

/-- The segments of the group whose bottom is (x, y), in order (R140). -/
def Slab.segments (s : Slab) (x y : Nat) : List Nat :=
  (List.range s.kseg).map (fun i => s.at x (y + i + 1 - s.kseg))

/-- The cells that drain: every member in OS mode, the bottom of each group in WS mode. -/
def Slab.drains (s : Slab) : List (Nat × Nat) :=
  (List.range s.h).flatMap (fun y =>
    if (y + 1) % s.kseg = 0 then (List.range s.w).map (fun x => (x, y)) else [])

/-- Entries of row `m` as they leave at a drain cell: its own, or its group's combined (R54). -/
def drainEntries (cs : Cells) (s : Slab) (x y m : Nat) : List Acc :=
  (List.range 16).map (fun n =>
    match (s.segments x y).map (fun g => (cget cs g).entry m n) with
    | [] => Acc.clear
    | a :: t => t.foldl Acc.join a)

/-- The drain cells whose rows travel together: the two of an MX pair, any other alone. -/
def Slab.drainSets (cs : Cells) (s : Slab) : List (List (Nat × Nat)) :=
  let mx := fun (d : Nat × Nat) => (cget cs (s.at d.1 d.2)).patMx
  s.drains.filterMap (fun d =>
    if !mx d then some [d]
    else if d.1 % 2 = 0 then some [d, (d.1 + 1, d.2)]
    else if mx (d.1 - 1, d.2) then none else some [(d.1 - 1, d.2), d])

/-- The rows that the drain of iteration `b` hands to the chains in mesh cycle `now`. A row whose WRITE cycle has passed, and a
row behind it, follow one in each mesh cycle (log 119). -/
def macRows (op : MacOp) (s : Slab) (b now : Nat) (win : Int) (cs : Cells) : List DrainRow :=
  let bad := fun (d : Nat × Nat) => ((cget cs (s.at d.1 d.2)).patBad s.w).isSome
  ((s.drainSets cs).filter (fun ds => ds.any (fun d => s.member d.1 d.2 && !bad d))).flatMap (fun ds =>
    ((List.range (tmRows op.w)).foldl (fun (acc : List DrainRow × Nat) m =>
      let at' := fun (d : Nat × Nat) => op.start + slabSkew s op.logical d.1 d.2 + op.leaves b m
        + (cget cs (s.at d.1 d.2)).patDepth (decide (1 < s.kseg))
      let due := max ((ds.map at').foldl max 0) acc.2
      (acc.1 ++ [⟨due, b, m, tmRows op.w, win, op.ctx, op.pc, ds.map (fun d =>
        { x := d.1, n := s.at d.1 d.2, accs := drainEntries cs s d.1 d.2 m
          out := bad d || (ds.length == 2 && !(cget cs (s.at d.1 d.2)).patMx) })⟩], due + 1))
      ([], now + 1)).1)

/-- The drain of iteration `b` starts: its rows are handed over, the entries restart, and the first drain cell whose parameters
are invalid names the stage (R144, R160). -/
def macDrain (op : MacOp) (s : Slab) (origin b now : Nat) (win : Int) (cs : Cells) : Cells × Option Nat :=
  let bad := s.drains.filter (fun d => ((cget cs (s.at d.1 d.2)).patBad s.w).isSome)
  let rs := macRows op s b now win cs
  let stage := bad.head?.bind (fun d => (cget cs (s.at d.1 d.2)).patBad s.w)
  let cs := s.cells.foldl (fun cs p =>
    if s.member p.1 p.2.1 then cmod cs p.2.2 (fun c => { c.modEntries (tmRows op.w) (fun _ _ a => a.restart) with nbc := 0 })
    else cmod cs p.2.2 (fun c => { c with nbc := 0 })) cs
  let cs := cmodAll cs (s.nums.filter (drainsAt rs)) (fun c => c.wr CELL_MAC_STATUS_DRAINING 1)
  (cmod cs origin (fun c => { c with drain := c.drain ++ rs }), stage)

/-- What a part of a row does to its cell: the part, the cell, the faults (code, DETAIL). -/
abbrev PartOut := DrainAt × Cell × List (Nat × Nat)

/-- The next part of the residual read, one line in one claim; `port` is the mesh cycle of its claim, none for a read that the row
is too late to claim (log 119). -/
def residStep (port : Option Nat) (r : DrainRow) (d : DrainAt) (c : Cell) : PartOut :=
  let at' := c.residAt r.b r.m
  match (lineParts at'.1 at'.2)[d.res.length]? with
  | none => (d, c, [])
  | some p =>
    let g := match port with | some now => c.drainClaim true now r.ctx p.1 | none => (true, c, [])
    let none' := { d with res := d.res ++ [none] }
    if !g.1 then (none', g.2.1, g.2.2)
    else if !g.2.1.drainOk p.1 p.2 then (none', g.2.1, [(0x64, 7)])
    else let v := g.2.1.spanRead p.1 p.2; ({ d with res := d.res ++ [some (v.1, v.2.1)] }, v.2.2, [])

/-- The reads of a row's part in mesh cycle `now`: RESID's lines from the first cycle of its stage on (R155), and the merge
reads of its writes in the cycle before them (06 R185). -/
def drainReadAt (now : Nat) (r : DrainRow) (d : DrainAt) (c : Cell) : PartOut :=
  if d.out || d.mute then (d, c, [])
  else
    let soft := if c.patOn 6 then 6 else 0
    let s1 : PartOut := if c.patOn 5 && decide (r.due + d.res.length ≤ now + c.patTail + soft + 4) then residStep (some now) r d c else (d, c, [])
    let merge := fun (o : PartOut) (which : Bool) (a : Nat) =>
      let g := o.2.1.drainClaim true now r.ctx a
      let v := if g.1 then 1 else 2
      ({ o.1 with merge := if which then (v, o.1.merge.2) else (o.1.merge.1, v) }, g.2.1, o.2.2 ++ g.2.2)
    let a := c.sideAt r.rows r.b r.m
    let s2 : PartOut := if c.patOn 6 && d.merge.1 == 0 && !d.side && merges a 8 && r.due == now + 1 + c.patTail then merge s1 true a else s1
    let w := c.rowAt r.b r.m
    let sc := c.patMx && d.x % 2 == 1
    if d.merge.2 == 0 && r.due == now + 1 && (sc || (c.patDest != 1 && merges w c.patRowBytes)) then
      merge s2 false (if sc then c.scaleAt r.rows r.b r.m else w) else s2

/-- The side write of a row's part at the end of SOFTMAX (R156; the cycle is log 126). -/
def drainSideAt (now : Nat) (r : DrainRow) (d : DrainAt) (c : Cell) : PartOut :=
  if d.out || d.mute || d.side || !c.patOn 6 || decide (now + c.patTail < r.due) then (d, c, [])
  else
    let v := (c.rowElems r.win r.b r.m d.res d.accs).2
    let o := c.puts now r.ctx (d.merge.1 == 2) [⟨8, c.sideAt r.rows r.b r.m, 8, v.1, List.replicate 8 v.2⟩]
    ({ d with side := true }, o.1, o.2)

/-- A step of every part of a row. -/
def rowParts (f : DrainRow → DrainAt → Cell → PartOut) (r : DrainRow) (cs : Cells) : DrainRow × Cells × List (Nat × Nat) :=
  r.cells.foldl (fun (a : DrainRow × Cells × List (Nat × Nat)) d =>
    let o := f r d (cget a.2.1 d.n)
    ({ a.1 with cells := a.1.cells ++ [o.1] }, cmod a.2.1 d.n (fun _ => o.2.1), a.2.2 ++ o.2.2)) ({ r with cells := [] }, cs, [])

/-- A row leaves its chains in mesh cycle `now`: what it has not read yet, the checks of each of its cells, then WRITE
(R146 to R157). The faults are returned. -/
def drainRow (now origin : Nat) (r0 : DrainRow) (cs : Cells) : Cells × List (Nat × Nat) :=
  let late := fun r d (c : Cell) => if d.out || !c.patOn 5 then ((d, c, []) : PartOut) else residStep none r d c
  let s1 := rowParts late r0 cs
  let s2 := rowParts late s1.1 s1.2.1
  let s3 := rowParts (drainSideAt now) s2.1 s2.2.1
  let r := s3.1
  let live := r.cells.filter (fun d => !d.out)
  let es := live.map (fun d => (d.n, ((cget s3.2.1 d.n).rowElems r.win r.b r.m d.res d.accs).1))
  let rowOf := fun (d : DrainAt) => match es.find? (fun p => p.1 == d.n) with | some p => p.2 | none => absentRow r.b r.m
  (live.filter (fun d => !d.mute)).foldl (fun (a : Cells × List (Nat × Nat)) d =>
    let k := (cget a.1 d.n).rowChecks r.m d.accs (rowOf d)
    let lost := d.merge.2 == 2
    let o := match r.cells with
      | [w, e] => k.1.finishMx now origin r lost (rowOf w) (rowOf e) (d.x % 2 == 1)
      | _ => k.1.finishRow now origin r lost (rowOf d)
    (cmod a.1 d.n (fun _ => o.1), a.2 ++ k.2 ++ o.2)) (s3.2.1, s1.2.2 ++ s2.2.2 ++ s3.2.2)

/-! ### The verdict (R163 to R166) -/

/-- Verdicts combined over the reductions of one operation: MISMATCH, then SKIPPED, then PASS. -/
def verdictMax (a b : Nat) : Nat := if a = 2 ∨ b = 2 then 2 else if a = 3 ∨ b = 3 then 3 else max a b

/-- A checkpoint: the history buffer holds its entries and blocks (15 R443, R444). -/
def Cell.checkpoint (nb : Nat) (c : Cell) : Cell :=
  { (c.wr INT_CK_STATE_HIST_VALID 1).wr INT_CK_STATE_HIST_BLOCKS (if nb % 2 = 0 then 2 else 1) with hist := c.acc }

/-- A checkpoint's result has formed: the buffer is let go (15 R444, INT_CK_STATE). -/
def Cell.ckFormed (block : Nat) (c : Cell) : Cell :=
  { ((c.wr INT_CK_STATE_LAST_CKPT block).wr INT_CK_STATE_HIST_VALID 0).wr INT_CK_STATE_HIST_BLOCKS 0 with hist := [] }

/-- Skipped comparisons counted at the cell that makes them: in POISON_CNT where a side is poisoned (15 R437), and else in
FLAGGED_CNT (log 120). -/
def Cell.countSkips (rs : List CmpAt) (c : Cell) : Cell :=
  let sk := rs.filter (fun r => r.res == .skipped)
  (c.addSat INT_PLUMB_STATUS_POISON_CNT (sk.countP (fun r => r.poison))).addSat INT_PLUMB_STATUS_FLAGGED_CNT
    (sk.countP (fun r => !r.poison))

/-- The comparisons at a reduction's last block. -/
def macCheck (op : MacOp) (s : Slab) (origin : Nat) (cs : Cells) : Cells :=
  let o := cget cs origin
  if !(s.ckcol || s.ckrow) || !o.flag INT_PLUMB_CFG_CK_EN then cs
  else
    let v := s.verdictCell
    let nbc := (cget cs v).nbc
    let r := slabCompare cs s (!anchored (tmFa op.w)) nbc o.win
    let fails := (r.filter (fun p => p.res == .fails)).map (fun p => (p.x, p.y, p.entry))
    let verdict := if !fails.isEmpty then 2 else if r.any (fun p => p.res == .skipped) then 3 else 1
    let cs := s.cells.foldl (fun cs p => cmod cs p.2.2 (Cell.countSkips (r.filter (fun a => a.x == p.1 && a.y == p.2.1)))) cs
    let cs := fails.foldl (fun cs f => cmod cs (s.at f.1 f.2.1) (fun c => c.wr INT_PLUMB_STATUS_MISMATCH 1)) cs
    let cs := cmodAll cs s.nums (Cell.checkpoint nbc)
    cmod cs v (fun c => { c with verdict := verdictMax c.verdict verdict, ckFails := c.ckFails ++ fails })

/-! ### The timeline (04 R123, 05 R587) -/

/-- The largest skew of a cell of the slab. -/
def slabReach (s : Slab) (logical : Nat) : Nat := (s.cells.map (fun p => slabSkew s logical p.1 p.2.1)).foldl max 0

/-- The operation in progress at an origin changed. -/
def setOp (cs : Cells) (origin : Nat) (op : MacOp) : Cells := cmod cs origin (fun c => { c with macOp := some op })

/-- An iteration is computed in mesh cycle `now` from what the cells hold: a failing consumption stops the operation, and else
its drain starts where it drains, and the next iteration is to come. -/
def macStep (e : Env) (op : MacOp) (s : Slab) (origin now : Nat) (cs : Cells) : Cells :=
  let b := op.iter
  let r := macIter op s origin b cs
  match r.2 with
  | some f => macFail e op r.1 s origin f.1 b f.2
  | none =>
    let last := b + 1 == tmBatch op.ext
    let cs := cmodAll r.1 s.nums (fun c => { c.wr CELL_MAC_STATUS_ITER b with
      opBuf := c.opBuf.filter (fun l => l.it != b || (op.loadsOnce && decide (2 ≤ l.kind))) })
    let op := { op with iter := b + 1, ended := last }
    let cs := if last then cmodAll cs s.nums (fun c => c.wr CELL_MAC_STATUS_PHASE 3) else cs
    let cs := setOp cs origin op
    if tmDrain op.w then
      let cs := macCheck op s origin cs
      let d := macDrain op s origin b now (cget cs origin).win cs
      match d.2 with
      | some st => raiseOrigin e op.ctx op.pc (stopSlab d.1 s.nums origin) origin [(0x65, st)]
      | none => d.1
    else if last then macCheck op s origin cs else cs

/-- Claims of a cell made while they are admitted: in their order, those that satisfy a test, up to the first refusal. -/
def claimGo (port : Option Nat) (p : OpRead → Bool) : List OpRead → Cell → Cell
  | [], c => { c with reads := [] }
  | r :: rs, c =>
    if p r then
      let c := c.claimLine port r
      if c.opBuf.any (fun l => l.word.isNone) then { c with reads := rs } else claimGo port p rs c
    else { c with reads := r :: rs }

/-- A cell's claims that satisfy a test; `port` is the mesh cycle in which they take the read port, if they do. -/
def Cell.claim (port : Option Nat) (p : OpRead → Bool) (c : Cell) : Cell := claimGo port p c.reads c

/-- A stream consumes the words due by a cycle of the timeline: a word that is absent is an underrun (03 R62). -/
def takeWords (op : MacOp) (tau : Nat) : Nat → Feed → List AWord → Feed × List AWord
  | 0, f, q => (f, q)
  | n + 1, f, q =>
    if f.under || decide (f.need ≤ f.got.length) || decide (tau < op.wordAt f.isB f.got.length + f.skew) then (f, q)
    else match q with
      | [] => ({ f with under := true }, [])
      | a :: q => takeWords op tau n { f with got := f.got ++ [a] } q

/-- The streams of a cell that feed an origin consume what is due by a cycle. -/
def Cell.consume (op : MacOp) (origin tau : Nat) (c : Cell) : Cell :=
  [0x10, 0x11, 0x18, 0x19].foldl (fun c p =>
    match (fget nil0 c.feeds p).find? (fun f => f.origin == origin) with
    | none => c
    | some f =>
      let r := takeWords op tau (f.need + 1) f (fget nil0 c.ports p)
      { c with ports := fset nil0 c.ports p r.2
               feeds := fset nil0 c.feeds p ((fget nil0 c.feeds p).map (fun g => if g.origin == origin then r.1 else g)) }) c

/-- Whether a consumption of the current iteration has failed at a cell. -/
def Cell.macStuck (op : MacOp) (origin : Nat) (c : Cell) : Bool :=
  c.opBuf.any (fun l => l.word.isNone && decide (l.it ≤ op.iter)) || [0x10, 0x11, 0x18, 0x19].any (fun p =>
    (fget nil0 c.feeds p).any (fun f => f.origin == origin && f.under
      && decide (f.got.length / (if f.isB then needB op.w op.ext else needA op.w op.ext) ≤ op.iter)))

/-- The end of COMPUTE of the current iteration in every cell of the slab. -/
def MacOp.iterEnd (op : MacOp) (s : Slab) : Nat :=
  op.moved (op.at op.iter + op.comp - 1) + 1 + slabReach s op.logical

/-- The end of the operation's array time. -/
def MacOp.arrayEnd (op : MacOp) (s : Slab) : Nat :=
  op.leaves (tmBatch op.ext - 1) (tmRows op.w - 1) + slabReach s op.logical

/-- What an operation's cells do up to a cycle of its timeline: claims, consumption, and iterations that end. `k` bounds the
iterations; `port` is the mesh cycle in which the claims take their port, none when the rest is made at once. -/
def macUpTo (e : Env) (ph : Nat → Nat) (origin now tau : Nat) (port : Option Nat) : Nat → Cells → Cells
  | 0, cs => cs
  | k + 1, cs =>
    match (cget cs origin).macOp with
    | none => cs
    | some op =>
      if op.ended then cs
      else
        let s := opSlab ph (cget cs origin) origin op.logical
        let fin := op.iterEnd s
        let cs := cmodAll cs s.nums (fun c => (c.claim port (fun r => r.origin == origin && decide (r.off ≤ tau))).consume op origin tau)
        if s.nums.any (fun n => (cget cs n).macStuck op origin) then
          macStep e op s origin now (cmodAll cs s.nums (Cell.claim none (fun r => r.origin == origin && decide (r.need ≤ tau))))
        else if fin ≤ tau then macUpTo e ph origin now tau port k (macStep e op s origin now cs)
        else cs

/-- The verdict of an operation whose rows have been written forms, and the operation is over: the contexts that wait for it go
on, or after MISMATCH the origin's waits for the arbitration (R165 to R167, 15 R447). After the rows of a decided arbitration the
contexts go on (15 R452). -/
def macFinish (e : Env) (op : MacOp) (s : Slab) (origin : Nat) (cs : Cells) : Cells :=
  let ck := (s.ckcol || s.ckrow) && (cget cs origin).flag INT_PLUMB_CFG_CK_EN && !op.decided
  let v := s.verdictCell
  let verdict := if ck then (cget cs v).verdict else 0
  let cs := if ck then cmod cs v (fun c => (c.wr INT_PLUMB_STATUS_VERDICT verdict).wr INT_PLUMB_STATUS_DONE 1) else cs
  if verdict = 2 then
    let d := match (cget cs v).ckFails with | [] => 0 | f :: _ => slabDetail f.1 f.2.1
    let cs := cmodAll cs (s.nums.filter (fun n => n != origin)) Cell.wakeMac
    cmod cs origin (fun c =>
      { c.wr CELL_MAC_STATUS_VERDICT_WAIT 1 with
        macOp := some op, arbWait := true
        faults := c.faults ++ [{ code := 0x69, ctx := op.ctx, ctxValid := true, pc := op.pc, detail := d, unit := origin
                                 index := op.logical, niche := c.nicheOf op.ctx, tick := e.tick }] })
  else cmodAll cs s.nums (fun c => (if ck then c.ckFormed (c.rd INT_CK_STATE_NBC - 1) else c).wakeMac)
    |> fun cs => cmod cs origin (fun c => { c with macOp := none })

/-- The corrected rows of the drain cell at slab position `p`, from the entries that its arbiter has recomputed, into its own
scratchpad: the first after the depth of its chain, one every 2 mesh cycles (15 R452). In an MX pair the partner gives its elements. -/
def redrainRows (op : MacOp) (s : Slab) (now : Nat) (win : Int) (p : Nat × Nat) (cs : Cells) : List DrainRow :=
  let c := cget cs (s.at p.1 p.2)
  let row := fun (q : Nat × Nat) (m : Nat) => (List.range 16).map (fun n => fget acc0 (cget cs (s.at q.1 q.2)).hist (16 * m + n))
  let part := fun (q : Nat × Nat) (m : Nat) => { x := q.1, n := s.at q.1 q.2, accs := row q m, mute := q != p : DrainAt }
  let set := if !c.patMx then [p] else if p.1 % 2 = 0 then [p, (p.1 + 1, p.2)] else [(p.1 - 1, p.2), p]
  (List.range (tmRows op.w)).map (fun m =>
    ⟨now + c.patDepth false + 2 * m, tmBatch op.ext - 1, m, tmRows op.w, win, op.ctx, op.pc, set.map (fun q => part q m)⟩)

/-- Corrected rows are handed to the chain of cell `n`; the operation goes on until they are written (15 R452). -/
def redrain (op : MacOp) (origin n : Nat) (rs : List DrainRow) (cs : Cells) : Cells :=
  let cs := cmod cs n (fun c => c.wr CELL_MAC_STATUS_DRAINING 1)
  cmod cs origin (fun c => { c with drain := c.drain ++ rs, macOp := some { op with left := true, decided := true } })

/-- The last output row has left the array of every cell: the arrays are idle, and where nothing drains the operation is
over. -/
def macLeaves (e : Env) (op : MacOp) (s : Slab) (origin : Nat) (cs : Cells) : Cells :=
  let op := { op with left := true }
  let cs := setOp (cmodAll cs s.nums (fun c => c.macIdle.dropFeeds origin)) origin op
  if (cget cs origin).drain.isEmpty then macFinish e op s origin cs else cs

/-- MAC_OP_COMPLETE at the origin: what is left of the operation's array time takes place, and its last row leaves the array
(R123). While FREEZE holds the pipeline nothing moves (03 R82). -/
def macComplete (e : Env) (ph : Nat → Nat) (now origin : Nat) (cs : Cells) : Cells :=
  if (cget cs origin).flag CELL_CTRL_FREEZE then cs
  else
    let cs := match (cget cs origin).macOp with
      | none => cs
      | some op => macUpTo e ph origin now (op.arrayEnd (opSlab ph (cget cs origin) origin op.logical)) none (tmBatch op.ext) cs
    match (cget cs origin).macOp with
    | none => cs
    | some op =>
      if (cget cs origin).arbWait || op.left || !op.ended then cs
      else macLeaves e op (opSlab ph (cget cs origin) origin op.logical) origin cs

/-- A step of every part of the rows of an origin. -/
def drainParts (e : Env) (origin : Nat) (f : DrainRow → DrainAt → Cell → PartOut) (cs : Cells) : Cells :=
  (cget cs origin).drain.zipIdx.foldl (fun cs p =>
    let o := rowParts f p.1 cs
    let cs := cmod o.2.1 origin (fun c => { c with drain := c.drain.set p.2 o.1 })
    raiseOrigin e p.1.ctx p.1.pc cs origin o.2.2) cs

/-- Whether the pipeline of an origin stands still (03 R82). -/
def pipeHeld (cs : Cells) (origin : Nat) : Bool := (cget cs origin).flag CELL_CTRL_FREEZE

/-- The writes that an origin's rows make in mesh cycle `now`; a drain cell whose last row has been written is no longer
draining. -/
def drainWrites (e : Env) (now origin : Nat) (cs : Cells) : Cells :=
  if (cget cs origin).drain.isEmpty || pipeHeld cs origin then cs
  else
    let due := (cget cs origin).drain.filter (fun r => decide (r.due ≤ now))
    let rest := (cget cs origin).drain.filter (fun r => !decide (r.due ≤ now))
    let cs := cmod cs origin (fun c => { c with drain := rest })
    let cs := due.foldl (fun cs r => let o := drainRow now origin r cs; raiseOrigin e r.ctx r.pc o.1 origin o.2) cs
    let cs := drainParts e origin (drainSideAt now) cs
    cmodAll cs (((due.flatMap (fun r => r.cells.map (fun d => d.n))).dedup).filter (fun n => !drainsAt rest n)) (fun c =>
      let c := c.wr CELL_MAC_STATUS_DRAINING 0
      if c.flag CELL_MAC_STATUS_BUSY || c.macOp.isSome then c else c.wakeMac)

/-- The reads that an origin's rows make in mesh cycle `now`. -/
def drainReads (e : Env) (now origin : Nat) (cs : Cells) : Cells :=
  if (cget cs origin).drain.isEmpty || pipeHeld cs origin then cs else drainParts e origin (drainReadAt now) cs

/-- What CELL_MAC_STATUS shows of an operation in a cycle of its timeline: the phase, and in COMPUTE the block and the row. -/
def macShow (op : MacOp) (s : Slab) (tau : Nat) (cs : Cells) : Cells :=
  s.cells.foldl (fun cs p =>
    let t := tau - slabSkew s op.logical p.1 p.2.1
    let b := op.at op.iter
    let u := (t - b) / op.c
    cmod cs p.2.2 (fun c =>
      if t < b then ((c.wr CELL_MAC_STATUS_PHASE 1).wr CELL_MAC_STATUS_BLOCK 0).wr CELL_MAC_STATUS_ROW 0
      else ((c.wr CELL_MAC_STATUS_PHASE 2).wr CELL_MAC_STATUS_BLOCK (min (u / tmRows op.w) (tmNb op.ext - 1))).wr
        CELL_MAC_STATUS_ROW (u % tmRows op.w))) cs

/-- One mesh cycle of the array of an origin's operation: its timeline, its end, its verdict. A block held by FREEZE stands still,
and its rows with it (03 R82). -/
def macCycle (e : Env) (ph : Nat → Nat) (now origin : Nat) (cs : Cells) : Cells :=
  let o := cget cs origin
  if o.macOp.isNone && o.drain.isEmpty then cs
  else if pipeHeld cs origin then
    cmod cs origin (fun c => { c with macOp := c.macOp.map (fun op => { op with start := op.start + 1 })
                                      drain := c.drain.map (fun r => { r with due := r.due + 1 }) })
  else
    let cs := match o.macOp with
      | none => cs
      | some op =>
        if decide (now < op.start) || o.arbWait || op.ended then cs
        else
          let cs := macUpTo e ph origin now (now - op.start) (some now) 256 cs
          match (cget cs origin).macOp with
          | none => cs
          | some op => if op.ended then cs else macShow op (opSlab ph o origin op.logical) (now - op.start) cs
    match (cget cs origin).macOp with
    | none => cs
    | some op =>
      let s := opSlab ph (cget cs origin) origin op.logical
      let t := op.start + op.arrayEnd s
      if !op.ended || (cget cs origin).arbWait then cs
      else if !op.left then (if t ≤ now then macLeaves e op s origin cs else cs)
      else if (cget cs origin).drain.isEmpty && (!(s.ckcol || s.ckrow) || decide (t + 8 ≤ now)) then macFinish e op s origin cs
      else cs

/-! ### TMAC, MWAIT, PCFG -/

/-- A stream opened at a port (R132). -/
def Cell.openFeed (origin port need skew : Nat) (isB : Bool) (c : Cell) : Cell :=
  { c with feeds := fset nil0 c.feeds port (fget nil0 c.feeds port ++ [⟨origin, isB, skew, need, [], false⟩]) }

/-- START in one cell (R128, R144, R173). -/
def Cell.macStart (k : Nat) (win : Nat) (cfg : OpenCfg) (c : Cell) : Cell :=
  { (((c.wr CELL_MAC_ACC_SEL_OPEN 1).wr CELL_MAC_ACC_SEL_OWNER k).wr CELL_MAC_ACC_SEL_W win).wr
      CELL_MAC_STATUS_INTERRUPTED 0 with
    acc := [], openCfg := some cfg, nbc := 0, ckQ := none }

/-- The block busy with an operation of context `k`. -/
def Cell.macBusy (k : Nat) (slab : Bool) (phase : Nat) (c : Cell) : Cell :=
  let c := (((c.wr CELL_MAC_STATUS_BUSY 1).wr CELL_MAC_STATUS_CTX k).wr CELL_MAC_STATUS_PHASE phase).wr
    CELL_MAC_STATUS_SLAB_HELD (b2n slab)
  { ((c.wr CELL_MAC_STATUS_ITER 0).wr CELL_MAC_STATUS_BLOCK 0).wr CELL_MAC_STATUS_ROW 0 with
    verdict := 0, ckFails := [], hist := [], opBuf := [], reads := [] }

/-- Whether the MAC block is busy: in an operation, in a drain, or before the verdict of its last operation (03 R71, R167). -/
def Cell.macHeld (c : Cell) : Bool :=
  c.flag CELL_MAC_STATUS_BUSY || c.flag CELL_MAC_STATUS_DRAINING || c.macOp.isSome

/-- The operation that a TMAC starts in mesh cycle `now`, with the lags of its claims to come. -/
def tmacOp (e : Env) (k w ext now : Nat) (o : Cell) : MacOp :=
  let x := o.ctx k
  { w := w, ext := ext, ctx := k, pc := x.pc.toNat, aA := (x.aReg (bits w 10 8)).v.toNat
    aB := (x.aReg (bits w 7 5)).v.toNat, a6 := (x.aReg 6).v.toNat, a7 := (x.aReg 7).v.toNat
    strides := (x.sReg (bits ext 11 7)).v.toNat, slab := o.flag CELL_SLAB_CFG_ENABLE, logical := e.logical
    start := now + 1 }

/-- The claims of a slab position for an operation. -/
def opReads (op : MacOp) (s : Slab) (origin : Nat) (p : Nat × Nat) : List OpRead :=
  op.reads origin (slabSkew s op.logical p.1 p.2) (!tmPortA op.w && s.readsA.contains p)
    (!tmPortB op.w && (s.readsB (tmOs op.w)).contains p)

/-- The operation with the excess of the largest lag of its claims (R587). -/
def MacOp.withLag (op : MacOp) (s : Slab) (origin : Nat) : MacOp :=
  let ls := s.cells.map (fun p => lagOf (slabSkew s op.logical p.1 p.2.1) (opReads op s origin (p.1, p.2.1)))
  { op with lagBy := (ls.map (fun l => l.1)).foldl max 0, lagFrom := (ls.map (fun l => l.2)).foldl min (2 ^ 64) }

/-- A TMAC that has passed its checks starts: every cell of the slab is busy, and its claims and streams stand. -/
def tmacStart (op : MacOp) (s : Slab) (origin : Nat) (cs : Cells) : Cells :=
  let w := op.w
  let cs := cmodAll cs s.nums (Cell.macBusy op.ctx op.slab (if tmOs w then 2 else 1))
  let cs := cmod cs origin (fun c => { c.advance op.ctx 2 with macOp := some (op.withLag s origin) })
  let cs := s.cells.foldl (fun cs p => cmod cs p.2.2 (fun c => { c with reads := opReads op s origin (p.1, p.2.1) })) cs
  let feed := fun (isB : Bool) (port need : Nat) (cs : Cells) (p : Nat × Nat) =>
    cmod cs (s.at p.1 p.2) (Cell.openFeed origin port need (slabSkew s op.logical p.1 p.2) isB)
  let cs := if tmPortA w then s.readsA.foldl (feed false (tmPortNoA w) (needA w op.ext * tmBatch op.ext)) cs else cs
  if tmPortB w then (s.readsB (tmOs w)).foldl (feed true (tmPortNoB w) (needB w op.ext * loadsB op)) cs else cs

/-- TMAC (04 R119 to R123, R137, R141): after its checks it starts, and its array runs on its timeline. MAC_INTERRUPTED, the
wait for a busy block and SLAB_MEMBER come before the checks of R122 (log 121). -/
def tmacBody (e : Env) (ph : Nat → Nat) (now k w ext : Nat) (cs : Cells) : Cells :=
  let n := e.n
  let o := cget cs n
  let x := o.ctx k
  let here := fun f => cmod cs n f
  if o.flag CELL_MAC_STATUS_INTERRUPTED && !tmStart w && o.rd CELL_MAC_ACC_SEL_OWNER == k then
    here (fun c => c.raiseHere e k 0x60 0)
  else if o.macHeld then here (fun c => c.block k .mac 0)
  else if o.flag CELL_SLAB_CFG_ENABLE
      && !(o.rd CELL_SLAB_CFG_POS_X == 0 && o.rd CELL_SLAB_CFG_POS_Y == 0 && o.rd CELL_SLAB_CFG_ROLE == 0) then
    here (fun c => c.raiseHere e k 0x62 0)
  else match tmacCheck e k w ext o with
    | some f => here f
    | none =>
      let s := opSlab ph o n e.logical
      if slabConfigBad w e.logical o s then here (fun c => c.raiseHere e k 0x61 0)
      else
        let slab := o.flag CELL_SLAB_CFG_ENABLE
        let win := bits (x.sReg (bits ext 6 2)).v.toNat 10 0
        let bad := if slab then slabMismatch cs s o e.logical else none
        let good := s.cells.filter (fun p => !slab || slabAgrees s o (cget cs p.2.2) p.1 p.2.1)
        let cs := if tmStart w then cmodAll cs (good.map (fun p => p.2.2))
            (Cell.macStart k win ⟨tmOs w, tmFa w, tmFb w, tmMxa w, tmMxb w⟩) else cs
        match bad with
        | some p => cmod cs n (fun c => c.raiseHere e k 0x61 (slabDetail p.1 p.2))
        | none => tmacStart (tmacOp e k w ext now o) s n cs

/-- Whether MWAIT of context `k` waits at a cell: for the operations that it started here, and in another cell of a slab for
the slab's operation and its drain there (04 R123, R136, R167). -/
def Cell.macWaits (c : Cell) (k : Nat) : Bool :=
  match c.macOp with
  | some op => op.ctx == k
  | none => (c.flag CELL_MAC_STATUS_BUSY || c.flag CELL_MAC_STATUS_DRAINING)
      && (c.flag CELL_SLAB_CFG_ENABLE || c.rd CELL_MAC_STATUS_CTX == k)

/-- MWAIT (04 R123, R167, R173). -/
def bodyMwait (e : Env) (k _w _ext : Nat) (c : Cell) : Cell :=
  if c.flag CELL_MAC_STATUS_INTERRUPTED && c.rd CELL_MAC_ACC_SEL_OWNER == k then c.raiseHere e k 0x60 0
  else if c.macWaits k then c.block k .mac 0
  else c.advance k 1

/-- PCFG (04 R124, R173). -/
def bodyPcfg (e : Env) (k w _ext : Nat) (c : Cell) : Cell :=
  let x := c.ctx k
  let vec := bit w 20
  let src := if vec then bits w 18 15 else bits w 19 15
  if c.flag CELL_MAC_STATUS_INTERRUPTED && c.rd CELL_MAC_ACC_SEL_OWNER == k then c.raiseHere e k 0x60 0
  else if c.flag CELL_MAC_STATUS_BUSY || c.flag CELL_MAC_STATUS_DRAINING then c.block k .mac 0
  else if (if vec then (x.vReg src).p != 0 else (x.sReg src).p) then c.poisoned e k 0
  else (c.pcfgWrite (minor w) (bits w 14 11) (if vec then (x.vReg src).v.toNat else (x.sReg src).v.toNat)).advance k 1

/-- CELL_MAC_FLAGS.RESTART written with 1 (CELL_MAC_FLAGS). -/
def Cell.macFlagsRestart (c : Cell) : Cell := (c.wr CELL_MAC_FLAGS_TRAIL 0xFF).wr CELL_MAC_FLAGS_HEADROOM 0x7F

/-- SLAB_BROKEN (R141): a cell of a busy slab was reset, frozen, isolated or fenced. `n` is that cell; nothing happens
when no operation of a slab runs on it. -/
def slabBroken (e : Env) (ph : Nat → Nat) (n : Nat) (cs : Cells) : Cells :=
  if !(cget cs n).flag CELL_MAC_STATUS_SLAB_HELD then cs
  else
    (cs.map (fun p => p.1)).foldl (fun cs o =>
      match (cget cs o).macOp with
      | none => cs
      | some op =>
        let s := opSlab ph (cget cs o) o op.logical
        match s.cells.find? (fun p => p.2.2 == n) with
        | none => cs
        | some p =>
          if !op.slab then cs
          else
            let cs := stopSlab (stopDrain cs s.nums o) s.nums o
            let cs := cmodAll cs s.nums (fun c => { c.wr CELL_MAC_ACC_SEL_OPEN 0 with openCfg := none })
            raiseOrigin e op.ctx op.pc cs o [(0x63, slabDetail p.1 p.2.1)]) cs

end Sys2Proof.Machine
end

