-- ==== Sys2Proof/Machine/Scan.lean ====
section
/-! DEFINITION. Scan images: the lines of a cell's state and their restoration (spec/03_cell_core.md R78 to R83,
spec/05_slabs_patina.md R170, R171, R173). -/

namespace Sys2Proof.Machine
open Sys2Proof

/-- A line of an image or of a transfer: 512 bits and its poison. -/
abbrev Line := BitVec 512 × Bool

/-- Values of `w` bits put one after the other, the first lowest. -/
def packNat (w : Nat) : List Nat → Nat
  | [] => 0
  | x :: t => x % 2 ^ w + 2 ^ w * packNat w t

/-- `n` lines of a number. -/
def linesOf (v n : Nat) (p : Nat → Bool) : List Line :=
  (List.range n).map (fun i => (BitVec.ofNat 512 (bits v (512 * i + 511) (512 * i)), p i))

/-! ### Register words of the cell window -/

/-- CELL_STATUS (03). -/
def Cell.statusWord (c : Cell) : Nat :=
  let st := fun k => (c.ctx k).state.code * 2 ^ (12 + 3 * k)
  let run := (List.range 4).find? (fun k => (c.ctx k).state == .running)
  st 0 + st 1 + st 2 + st 3 + (match run with | some k => k * 1024 + 512 | none => 0)
    + 256 * b2n c.scanning + 128 * c.rd CELL_MAC_STATUS_BUSY + 64 * b2n c.frozen

/-- CTX_STATE. -/
def Ctx.stateWord (x : Ctx) : Nat := 16 * b2n x.abandoned + 8 * b2n x.stepDone + x.state.code
/-- CTX_WAIT. -/
def Ctx.waitWord (x : Ctx) : Nat := x.wait.code * 2 ^ 60 + min x.waitElapsed (2 ^ 24 - 1) * 2 ^ 32 + x.waitObj.toNat

/-- The status word of an accumulator entry: bits [31:0] of CELL_MAC_ACC_ST (R170). -/
def Acc.stWord (a : Acc) : Nat :=
  let sp := match a.special with | .finite => 0 | .posInf => 1 | .negInf => 2 | .nan => 3
  b2n a.poison * 2 ^ 29 + b2n a.invalid * 2 ^ 28 + b2n a.wovf * 2 ^ 27 + b2n a.inexact * 2 ^ 26 + sp * 2 ^ 24
    + bits a.n.toNat 151 128

/-- An entry from its N and its status word. -/
def Acc.ofWords (n st : Nat) : Acc :=
  { n := BitVec.ofNat 152 (n % 2 ^ 128 + bits st 23 0 * 2 ^ 128)
    special := match bits st 25 24 with | 0 => .finite | 1 => .posInf | 2 => .negInf | _ => .nan
    inexact := bit st 26, wovf := bit st 27, invalid := bit st 28, poison := bit st 29 }

/-- SPR_STATUS: quarantined tags, outstanding requests, and the held locks of the context that SEL selects (08 R264). -/
def Cell.stopWord (c : Cell) (plain : Nat) : Nat :=
  plain - plain % 2 ^ 16 + min c.quar.length 63 * 2 ^ 10 + c.tags.length % 16 * 2 ^ 6
    + (c.locks.filter (fun h => h.ctx == c.rd SPR_STATUS_SEL)).length % 16 * 4 + c.rd SPR_STATUS_SEL

/-- A register of the cell window as a 64-bit word. -/
def Cell.word (e : Env) (c : Cell) (off : Nat) : Nat :=
  let plain := regWord cellRst cellRegs c.regs off
  let sel := fget acc0 c.acc (c.rd CELL_MAC_ACC_SEL_ENTRY)
  if off = 0 then e.id
  else if off = 0xC00 then plain + 16 * b2n e.transparent
  else if off = 0xD88 then c.stopWord plain
  else if off = 0x10 then c.statusWord
  else if off = 0x60 then
    b2n (decide (24 ≤ c.recvReq.length)) * 2 ^ 16 + c.recvReq.length * 256 + c.recvRsp.length
  else if off = 0x828 then bits sel.n.toNat 63 0
  else if off = 0x830 then bits sel.n.toNat 127 64
  else if off = 0x838 then sel.stWord
  else if 0x400 ≤ off ∧ off < 0x800 then
    let x := c.ctx (off / 0x100 - 4)
    match off % 0x100 with
    | 0x00 => x.stateWord
    | 0x10 => plain - plain % 1024 + x.pc.toNat
    | 0x28 => x.waitWord
    | _ => plain
  else plain

/-! ### Sections (R78) -/

/-- Lines of 8 registers each from an offset. -/
def Cell.regLines (e : Env) (c : Cell) (off n : Nat) : List Line :=
  linesOf (packNat 64 ((List.range (8 * n)).map (fun i => c.word e (off + 8 * i)))) n (fun _ => false)

/-- The section REGS of context `k`. -/
def Cell.secRegs (e : Env) (c : Cell) (k : Nat) : List Line :=
  let x := c.ctx k
  let s := (List.range 32).map x.sReg
  let a := (List.range 8).map x.aReg
  let p := (List.range 8).map x.pReg
  let o := 0x400 + 0x100 * k
  linesOf (packNat 32 (s.map (fun w => w.v.toNat))) 2 (fun i => ((s.drop (16 * i)).take 16).any (fun w => w.p))
  ++ linesOf (packNat 32 (a.map (fun w => w.v.toNat) ++ (List.range 4).map (fun i => (x.lReg i).toNat))) 1
      (fun _ => a.any (fun w => w.p))
  ++ linesOf (packNat 64 (p.map (fun w => w.v.toNat))) 1 (fun _ => p.any (fun w => w.p))
  ++ c.regLines e o 1
  ++ linesOf (packNat 64 ((List.range 4).map (fun i => c.word e (o + 0x40 + 8 * i)))) 1 (fun _ => false)
  ++ (List.range 16).map (fun i => ((x.vReg i).v, (x.vReg i).p != 0))

/-- Ports of section PORTS, in its order. -/
def scanPorts : List Nat := [0x10, 0x11, 0x18, 0x19, 0x20, 0x21, 0x22, 0x23]

/-- The section PORTS: entry lines, then valid bits in [15:0] and poison bits in [31:16] of line 16 (log 13). -/
def Cell.secPorts (c : Cell) : List Line :=
  let es := scanPorts.flatMap (fun p => [(fget nil0 c.ports p)[0]?, (fget nil0 c.ports p)[1]?])
  es.map (fun e => match e with | some a => (a.v, a.p) | none => (0, false))
  ++ [(BitVec.ofNat 512 (packNat 1 (es.map (fun e => b2n e.isSome))
        + 2 ^ 16 * packNat 1 (es.map (fun e => match e with | some a => b2n a.p | none => 0))), false)]

/-- The 80 bytes of a receive-buffer entry: payload, then LEN, port, tag, source ID, poison, arrival order and a valid
bit (log 13). -/
def recvWord (o : Option (RecvEntry × Nat)) : Nat :=
  match o with
  | none => 0
  | some (en, i) => bytesVal en.payload 64 + 2 ^ 512 * (en.len % 128 + 2 ^ 7 * (en.port % 64) + 2 ^ 13 * (en.tag % 4096)
      + 2 ^ 25 * (en.src % 16384) + 2 ^ 39 * b2n en.poison + 2 ^ 40 * (i % 32) + 2 ^ 45)

/-- The section RECV: entries 0 to 23 and 24 to 31, in arrival order. -/
def Cell.secRecv (c : Cell) : List Line :=
  let slot := fun (l : List RecvEntry) i => (l[i]?).map (fun en => (en, i))
  let es := (List.range 24).map (slot c.recvReq) ++ (List.range 8).map (slot c.recvRsp)
  let poisoned := fun i => (List.range 32).any (fun j =>
    decide (640 * j < 512 * i + 512 ∧ 512 * i < 640 * j + 512) && (match es[j]? with | some (some (en, _)) => en.poison | _ => false))
  linesOf (packNat 640 (es.map recvWord)) 40 poisoned

/-- The section MAC (R170). -/
def Cell.secMac (e : Env) (c : Cell) : List Line :=
  let es := (List.range 256).map (fun i => fget acc0 c.acc i)
  linesOf (packNat 128 (es.map (fun a => a.n.toNat))) 64 (fun _ => false)
  ++ linesOf (packNat 32 (es.map Acc.stWord)) 16 (fun _ => false)
  ++ c.regLines e 0x800 8

/-- The lines of a section by its bit. -/
def Cell.section (e : Env) (c : Cell) (i : Nat) : List Line :=
  if i = 0 then c.regLines e 0 1 ++ linesOf (packNat 64 ((List.range 5).map (fun j => c.word e (0x40 + 8 * j)))) 1 (fun _ => false)
  else if i ≤ 4 then c.secRegs e (i - 1)
  else if i ≤ 8 then
    linesOf (packNat 32 ((List.range 1024).map (fun j => (fget w0 c.istore ((i - 5) * 1024 + j)).toNat))) 64
      (fun l => (List.range 16).any (fun j => fget ecc0 c.istoreEcc ((i - 5) * 1024 + 16 * l + j) == .ue))
  else if i = 9 then c.secPorts
  else if i = 10 then c.secRecv
  else c.secMac e

/-- Lines of a section. -/
def secLines (i : Nat) : Nat :=
  if i = 0 then 2 else if i ≤ 4 then 22 else if i ≤ 8 then 64 else if i = 9 then 17 else if i = 10 then 40 else 88

/-- Lines of an image with the selected sections. -/
def imageLines (sel : Nat) : Nat := ((List.range 12).filter (fun i => bit sel i)).foldl (fun n i => n + secLines i) 0

/-- The image of the selected sections, in section order. -/
def Cell.image (e : Env) (c : Cell) (sel : Nat) : List Line :=
  ((List.range 12).filter (fun i => bit sel i)).flatMap (c.section e)

/-! ### Scan-in (R79, R171, R173) -/

/-- A number from lines. -/
def lineVal (ls : List Line) : Nat := packNat 512 (ls.map (fun l => l.1.toNat))

/-- The fields of the register at an offset that a scan-in restores: every one but RO and WO ones. -/
def Cell.restoreReg (c : Cell) (off v : Nat) : Cell :=
  let m := (cellRegs.filter (fun r => r.at off)).foldl (fun m r => r.fields.foldl (fun m f =>
    if f.acc = .ro ∨ f.acc = .wo then m
    else rset cellRst m ⟨off, f.lsb, f.width⟩ (bits v (f.lsb + f.width - 1) f.lsb)) m) c.regs
  { c with regs := m }

/-- Registers from an offset restored from packed 64-bit words. -/
def Cell.restoreRegs (c : Cell) (off n v : Nat) : Cell :=
  (List.range n).foldl (fun c i => c.restoreReg (off + 8 * i) (bits v (64 * i + 63) (64 * i))) c

/-- The context state that an image shows: a blocked context waits on what CTX_WAIT names (R82). -/
def Ctx.restoreState (x : Ctx) (tick st wt : Nat) : Ctx :=
  let s : CtxState := match bits st 2 0 with
    | 0 => .off | 1 => .halted | 2 => .ready | 3 => .ready | 4 => .blocked | 5 => .faulted | _ => .halted
  let k : WaitKind := match bits wt 63 60 with
    | 1 => .recv | 2 => .slot | 3 => .sync | 4 => .time | 5 => .mac | _ => .none
  let o := bits wt 31 0
  { x with state := s, stepDone := bit st 3, abandoned := bit st 4, wait := if s = .blocked then k else .none
           waitObj := BitVec.ofNat 32 o, waitElapsed := bits wt 55 32, waitMatch := (bits o 21 16, bits o 11 0, 0)
           waitTick := tick / 2 ^ 32 * 2 ^ 32 + o, waitEdge := k == .time && o == 0 }

/-- REGS of context `k` restored; a poisoned line poisons every word it reaches. -/
def Cell.restoreCtx (c : Cell) (tick k : Nat) (ls : List Line) : Cell :=
  let v := lineVal ls
  let pz := fun i => match ls[i]? with | some l => l.2 | none => false
  let o := 0x400 + 0x100 * k
  let w32 := fun i => bits v (32 * i + 31) (32 * i)
  let w64 := fun i => bits v (64 * i + 63) (64 * i)
  let c := (c.restoreRegs o 8 (bits v (5 * 512 - 1) (4 * 512))).restoreRegs (o + 0x40) 4 (bits v (6 * 512 - 1) (5 * 512))
  c.modCtx k (fun x =>
    let x := (List.range 32).foldl (fun x i => x.setS i ⟨BitVec.ofNat 32 (w32 i), pz (i / 16)⟩) x
    let x := (List.range 8).foldl (fun x i => x.setA i ⟨BitVec.ofNat 32 (w32 (32 + i)), pz 2⟩) x
    let x := (List.range 4).foldl (fun x i => x.setL i (BitVec.ofNat 32 (w32 (40 + i)))) x
    let x := (List.range 8).foldl (fun x i => x.setP i ⟨BitVec.ofNat 64 (w64 (24 + i)), pz 3⟩) x
    let x := (List.range 16).foldl (fun x i => x.setV i ⟨BitVec.ofNat 512 (bits v (512 * (6 + i) + 511) (512 * (6 + i))),
      if pz (6 + i) then BitVec.allOnes 16 else 0⟩) x
    { x.restoreState tick (w64 32) (w64 37) with pc := BitVec.ofNat 10 (w64 34) })

/-- PORTS restored. -/
def Cell.restorePorts (c : Cell) (ls : List Line) : Cell :=
  let st := match ls[16]? with | some l => l.1.toNat | none => 0
  (scanPorts.zipIdx).foldl (fun c (p : Nat × Nat) =>
    let q := [2 * p.2, 2 * p.2 + 1].filterMap (fun i =>
      if bit st i then (match ls[i]? with | some l => some ⟨l.1, l.2 || bit st (16 + i)⟩ | none => none) else none)
    { c with ports := fset nil0 c.ports p.1 q }) c

/-- RECV restored: an entry is poisoned by either line that its 80 bytes reach. -/
def Cell.restoreRecv (c : Cell) (ls : List Line) : Cell :=
  let v := lineVal ls
  let pz := fun i => match ls[i]? with | some l => l.2 | none => false
  let entry := fun i =>
    let e := bits v (640 * i + 639) (640 * i)
    let h := e / 2 ^ 512
    if bit h 45 then
      some (({ payload := valBytes (e % 2 ^ 512) 64, len := bits h 6 0, port := bits h 12 7, tag := bits h 24 13,
               src := bits h 38 25,
               poison := bit h 39 || pz (640 * i / 512) || pz ((640 * i + 639) / 512) } : RecvEntry))
    else none
  { c with recvReq := (List.range 24).filterMap entry, recvRsp := (List.range 8).filterMap (fun i => entry (24 + i)) }

/-- The MAC block idle, with nothing of an operation left: no streams, claims, lines, rows, verdict or arbitration. -/
def Cell.macEmpty (c : Cell) : Cell :=
  { (c.macIdle.wr CELL_MAC_STATUS_DRAINING 0).wr CELL_MAC_STATUS_VERDICT_WAIT 0 with
    feeds := [], reads := [], opBuf := [], drain := [], offer := none, arbWait := false, verdict := 0, ckFails := [] }

/-- MAC restored (R171, R173): an entry is poisoned by the line of its N or of its status word. The block is idle, whatever
it was doing is let go, and the image of a busy block sets INTERRUPTED; RO fields are otherwise ignored. -/
def Cell.restoreMac (c : Cell) (ls : List Line) : Cell :=
  let v := lineVal ls
  let pz := fun i => match ls[i]? with | some l => l.2 | none => false
  let acc := (List.range 256).foldl (fun m i =>
    let a := Acc.ofWords (bits v (128 * i + 127) (128 * i)) (bits v (64 * 512 + 32 * i + 31) (64 * 512 + 32 * i))
    fset acc0 m i { a with poison := a.poison || pz (i / 4) || pz (64 + i / 16) }) []
  let regs := bits v (88 * 512 - 1) (80 * 512)
  (({ c with acc := acc }).restoreRegs 0x800 64 regs).macEmpty.setIf CELL_MAC_STATUS_INTERRUPTED (bit regs 29 || bit regs 28)

/-- CTRL restored: FREEZE, ISOLATE and the scan registers keep their values (R79). -/
def Cell.restoreCtrl (c : Cell) (ls : List Line) : Cell :=
  let v := lineVal ls
  let keep := fun (d : Cell) => ((d.wr CELL_CTRL_FREEZE (c.rd CELL_CTRL_FREEZE)).wr CELL_CTRL_ISOLATE (c.rd CELL_CTRL_ISOLATE))
  let w := fun i => bits v (64 * i + 63) (64 * i)
  ((keep (c.restoreReg 0x008 (w 1))).restoreReg 0x018 (w 3)).restoreRegs 0x040 5 (v / 2 ^ 512)

/-- ISTORE of context `k` restored; a poisoned line leaves its words uncorrectable. -/
def Cell.restoreIstore (c : Cell) (k : Nat) (ls : List Line) : Cell :=
  let v := lineVal ls
  (List.range 1024).foldl (fun c j =>
    let e : Ecc := match ls[j / 16]? with | some (_, true) => .ue | _ => .ok
    c.putWord (k * 1024 + j) (BitVec.ofNat 32 (bits v (32 * j + 31) (32 * j))) e) c

/-- Whether the scan-in may write the instruction store of context `k` (R59). -/
def Cell.storeOpen (c : Cell) (k : Nat) : Bool := (c.ctx k).state == .off || (c.ctx k).state == .halted

/-- One section restored from its lines. `pre` is the cell before a scan-in, whose context states decide whether its stores
take the words (R59, log 127); none for a state shift. -/
def Cell.restoreSection (pre : Option Cell) (tick i : Nat) (c : Cell) (ls : List Line) : Cell :=
  if i = 0 then c.restoreCtrl ls
  else if i ≤ 4 then c.restoreCtx tick (i - 1) ls
  else if i ≤ 8 then
    if pre.all (fun d => d.storeOpen (i - 5)) then c.restoreIstore (i - 5) ls else c.wr CELL_IS_ADDR_BUSY_ERR 1
  else if i = 9 then c.restorePorts ls
  else if i = 10 then c.restoreRecv ls
  else c.restoreMac ls

/-- Sections of a list restored from consecutive lines. -/
def Cell.restoreGo (pre : Option Cell) (tick : Nat) : List Nat → List Line → Cell → Cell
  | [], _, c => c
  | i :: t, ls, c =>
    Cell.restoreGo pre tick t (ls.drop (secLines i)) (c.restoreSection pre tick i (ls.take (secLines i)))

/-- What a restored receive waits for, read from the instruction that it is blocked at: an image names its port and tag, not
its mask, and gives a wait for a free tag the same kind (R64, 04 R115). -/
def Cell.rewait (c : Cell) (k : Nat) : Cell :=
  let x := c.ctx k
  let pc := x.pc.toNat
  let w := c.fetchWord k pc
  if x.state ≠ .blocked ∨ x.wait ≠ .recv then c
  else if rowOf w (c.fetchWord k (pc + 1)) = some .recv then
    let tv := (x.sReg (bits w 9 5)).v.toNat
    c.modCtx k (fun x => { x with waitMatch := (bits w 20 15, bits tv 11 0, bits tv 27 16) })
  else c.modCtx k (fun x => { x with wait := .tag, waitMatch := (0x30, 0xFFF, 0xFFF) })

/-- An image restored: ERROR when a line is poisoned (R79). -/
def Cell.restore (pre : Option Cell) (tick sel : Nat) (c : Cell) (ls : List Line) : Cell :=
  let c := Cell.restoreGo pre tick ((List.range 12).filter (fun i => bit sel i)) ls c
  let c := (((c.rewait 0).rewait 1).rewait 2).rewait 3
  if ls.any (fun l => l.2) then (c.wr CELL_SCAN_STATUS_ERROR 1).wr CELL_FAULT_SCAN_ERR 1 else c

/-! ### GO (R80, R81) -/

/-- Whether GO may start a scan; `east` is the east neighbour (R81). -/
def Cell.scanOk (c east : Cell) : Bool :=
  let sel := c.rd CELL_SCAN_CTRL_SECTIONS
  let quiet := fun k => (c.ctx k).state == .off || (c.ctx k).state == .halted || (c.ctx k).state == .faulted
  let wide := [0, 9, 10, 11].any (fun i => bit sel i)
  let alone := (List.range 8).all (fun i => !bit sel (i + 1) || quiet (i % 4))
  let both := fun (d : Cell) => d.frozen && d.flag CELL_CTRL_ISOLATE
  !c.scanning && c.rd CELL_SCAN_CTRL_DEST != 3 &&
    (if c.flag CELL_SCAN_CTRL_DIR then both c
     else if c.rd CELL_SCAN_CTRL_DEST = 2 then both c && both east
     else if wide then c.frozen else alone)

/-- A write of GO: the scan starts with the snapshot of a scan-out, or is refused (R81, R83). -/
def Cell.scanGo (e : Env) (c east : Cell) : Cell :=
  if c.scanOk east then
    let out := !c.flag CELL_SCAN_CTRL_DIR
    let img := if out then c.image e (c.rd CELL_SCAN_CTRL_SECTIONS) else []
    { (((c.wr CELL_SCAN_STATUS_BUSY 1).wr CELL_SCAN_STATUS_LINES_DONE 0).wr CELL_SCAN_STATUS_LATE_ARRIVALS 0).setIf
        CELL_SCAN_STATUS_ERROR (img.any (fun l => l.2)) with
      scanning := true, scanImg := img, scanIn := !out }
  else c.wr CELL_SCAN_STATUS_REFUSED 1

/-- The end of a scan at the cell (R80). -/
def Cell.scanEnd (c : Cell) (lines : Nat) : Cell :=
  { (((c.wr CELL_SCAN_STATUS_BUSY 0).wr CELL_SCAN_STATUS_DONE 1).wr CELL_SCAN_STATUS_LINES_DONE lines).setIf
      CELL_FAULT_SCAN_ERR (c.flag CELL_SCAN_STATUS_ERROR) with scanning := false, scanImg := [] }

end Sys2Proof.Machine
end

