-- ==== Sys2Proof/Machine/Armature.lean ====
section
/-! DEFINITION. The Armature router of one cell: route schedules, one mesh cycle of switching, the combine unit, shift mode
(spec/07_armature.md R202 to R229). -/

namespace Sys2Proof.Machine
open Sys2Proof

/-! ### Fields of an entry (R214) -/

/-- Repetitions. -/
def reRep (v : Nat) : Nat := bits v 63 56
/-- Source of mesh output `d` (N 0, E 1, S 2, W 3). -/
def reOut (v d : Nat) : Nat := bits v (55 - 3 * d) (53 - 3 * d)
/-- Source of the port sink. -/
def reDsrc (v : Nat) : Nat := bits v 43 41
/-- Port number. -/
def reDport (v : Nat) : Nat := bits v 40 35
/-- Source of the write sink. -/
def reWsrc (v : Nat) : Nat := bits v 34 32
/-- The write sink puts into a ring. -/
def reWring (v : Nat) : Bool := bit v 31
/-- Address generator or ring of the write sink. -/
def reWidx (v : Nat) : Nat := bits v 30 27
/-- Local source. -/
def reLsrc (v : Nat) : Nat := bits v 26 25
/-- Address generator or ring of the local source. -/
def reLidx (v : Nat) : Nat := bits v 24 21
/-- Combine unit in use. -/
def reComb (v : Nat) : Bool := bit v 20
/-- First combine input. -/
def reCa (v : Nat) : Nat := bits v 19 17
/-- Second combine input. -/
def reCb (v : Nat) : Nat := bits v 16 14
/-- Combine format. -/
def reCfmt (v : Nat) : Nat := bits v 13 12

/-- Every source field of an entry. -/
def reSources (v : Nat) : List Nat := [reOut v 0, reOut v 1, reOut v 2, reOut v 3, reDsrc v, reWsrc v]

/-- Whether an entry is invalid (R209, R216): `first` is the schedule cycle of its first cycle, `fused` says that the
router belongs to a fused-off cell. -/
def entryBad (v first : Nat) (fused : Bool) : Bool :=
  let ss := reSources v
  let l := reLsrc v
  ss.any (fun s => s == 7) || bits v 7 0 != 0
  || (!reWring v && decide (4 ≤ reWidx v))
  || (l == 1 && decide (4 ≤ reLidx v)) || ((l == 0 || l == 3) && reLidx v != 0)
  || (reDsrc v != 0 && !([0x10, 0x11, 0x18, 0x19, 0x20, 0x21, 0x22, 0x23].contains (reDport v)))
  || (ss.any (fun s => s == 5) && l == 0)
  || (ss.any (fun s => s == 6) && !reComb v)
  || (!reComb v && (reCa v != 0 || reCb v != 0 || reCfmt v != 0))
  || (reComb v && (reCa v == 0 || decide (5 < reCa v) || reCb v == 0 || decide (5 < reCb v) || reCa v == reCb v
        || reCfmt v == 3 || ((reCa v == 5 || reCb v == 5) && l == 0)))
  || (l == 1 && !reWring v && reWsrc v != 0 && reLidx v == reWidx v)
  || ((l == 1 || l == 2) && decide (first < 2))
  || (fused && (l != 0 || reDsrc v != 0 || reWsrc v != 0 || reComb v))

/-! ### The sequencer (R217, R218) -/

/-- A register field of context `k`'s Armature block. -/
def Fld.arm (f : Fld) (k : Nat) : Fld := f.up (0x50 * k)
/-- A field of address generator `i` of context `k`. -/
def Fld.ag (f : Fld) (k i : Nat) : Fld := f.up (0x50 * k + 8 * i)

/-- START of loop `n`. -/
def armStartF : Nat → Fld
  | 0 => ARM_LOOP01_START0 | 1 => ARM_LOOP01_START1 | 2 => ARM_LOOP23_START2 | _ => ARM_LOOP23_START3
/-- COUNT of loop `n`. -/
def armCountF : Nat → Fld
  | 0 => ARM_LOOP01_COUNT0 | 1 => ARM_LOOP01_COUNT1 | 2 => ARM_LOOP23_COUNT2 | _ => ARM_LOOP23_COUNT3
/-- LEFT of loop `n`. -/
def armLeftF : Nat → Fld
  | 0 => ARM_LOOP_LEFT_LEFT0 | 1 => ARM_LOOP_LEFT_LEFT1 | 2 => ARM_LOOP_LEFT_LEFT2 | _ => ARM_LOOP_LEFT_LEFT3

/-- Where a schedule stands: entry, cycles of it still to run after this one, LEFT counts, use counts. -/
structure Seq where
  entry : Nat
  rep : Nat
  left : List Nat
  used : List Nat
deriving DecidableEq, Repr

/-- Entry `i` of context `k`'s route schedule store. -/
def Cell.route (c : Cell) (k i : Nat) : Nat := (fget r0 c.routes (256 * k + i)).toNat

/-- The sequencer as the registers hold it. -/
def Cell.seq (c : Cell) (k : Nat) : Seq :=
  { entry := c.rd (ARM_SCHED_STATUS_ENTRY.arm k), rep := c.rd (ARM_SCHED_STATUS_REP_LEFT.arm k)
    left := (List.range 4).map (fun n => c.rd ((armLeftF n).arm k))
    used := (List.range 4).map (fun i => c.rd (ARM_AG0_USED.ag k i)) }

/-- The registers of a sequencer. -/
def Cell.setSeq (c : Cell) (k : Nat) (q : Seq) : Cell :=
  let c := (c.wr (ARM_SCHED_STATUS_ENTRY.arm k) q.entry).wr (ARM_SCHED_STATUS_REP_LEFT.arm k) q.rep
  (List.range 4).foldl (fun c n =>
    (c.wr ((armLeftF n).arm k) (q.left.getD n 0)).wr (ARM_AG0_USED.ag k n) (q.used.getD n 0)) c

/-- The state of context `k`'s schedule: 0 IDLE, 1 ARMED, 2 RUNNING, 3 STOPPED. -/
def Cell.sched (c : Cell) (k : Nat) : Nat := c.rd (ARM_SCHED_STATUS_STATE.arm k)
/-- Set it, with the ACTIVE bits. -/
def Cell.setSched (c : Cell) (k st : Nat) : Cell :=
  let a := c.rd ARM_STATUS_ACTIVE
  (c.wr (ARM_SCHED_STATUS_STATE.arm k) st).wr ARM_STATUS_ACTIVE
    (if st = 2 then a ||| 2 ^ k else a - b2n (bit a k) * 2 ^ k)

/-- One use of an address generator. -/
def agUse (c : Cell) (k i : Nat) (u : List Nat) : List Nat :=
  u.set i (if u.getD i 0 < c.rd (ARM_AG0_LEN.ag k i) then u.getD i 0 + 1 else 0)

/-- Use counts after one cycle of an entry. -/
def useStep (c : Cell) (k v : Nat) (u : List Nat) : List Nat :=
  let u := if reLsrc v = 1 then agUse c k (reLidx v % 4) u else u
  if !reWring v && reWsrc v != 0 then agUse c k (reWidx v % 4) u else u

/-- The line an address generator yields at a use count (R218). -/
def agLine (c : Cell) (k i : Nat) (u : List Nat) : Int :=
  (c.rd (ARM_AG0_BASE.ag k i) : Int) + signed 12 (c.rd (ARM_AG0_STRIDE.ag k i)) * (u.getD i 0 : Nat)

/-- What follows a cycle of a schedule: the next place, the end by HALT, or a fetch past entry 255 (R217). -/
inductive SeqNext where
  | at (q : Seq)
  | halt (q : Seq)
  | past
deriving DecidableEq, Repr

/-- The entry after `q`'s, with the LEFT counts given. -/
def seqFall (c : Cell) (k : Nat) (q : Seq) (v : Nat) : SeqNext :=
  if bit v 8 then .halt q
  else if q.entry = 255 then .past
  else .at { q with entry := q.entry + 1, rep := reRep (c.route k (q.entry + 1)) }

/-- One mesh cycle of the sequencer. -/
def seqStep (c : Cell) (k : Nat) (q : Seq) : SeqNext :=
  let v := c.route k q.entry
  let q := { q with used := useStep c k v q.used }
  if 0 < q.rep then .at { q with rep := q.rep - 1 }
  else if bit v 11 then
    let n := bits v 10 9
    if 0 < q.left.getD n 0 then
      let s := c.rd ((armStartF n).arm k)
      .at { q with left := q.left.set n (q.left.getD n 0 - 1), entry := s, rep := reRep (c.route k s) }
    else seqFall c k { q with left := q.left.set n (c.rd ((armCountF n).arm k)) } v
  else seqFall c k q v

/-- The place of a running schedule `n` cycles on. -/
def seqAhead (c : Cell) (k : Nat) : Nat → Seq → Option Seq
  | 0, q => some q
  | n + 1, q => match seqStep c k q with
    | .at q => seqAhead c k n q
    | _ => none

/-! ### Starting and ending a schedule (R219) -/

/-- A fault of a route schedule: its PC is 0 (03 CELL_FAULT_REC). -/
def Cell.schedFault (e : Env) (k code detail : Nat) (c : Cell) : Cell := c.raise e k code detail 0

/-- An invalid entry: it does not take effect, the schedule stops (R229). -/
def Cell.schedInvalid (e : Env) (k entry : Nat) (c : Cell) : Cell :=
  (c.setSched k 3).schedFault e k 0x80 (entry % 256)

/-- No start of context `k` is to come. -/
def Cell.armCalm (k : Nat) (c : Cell) : Cell := { c with armDue := fset z0 c.armDue k 0, armGo := fset z0 c.armGo k 0 }

/-- A start: pointer, counts and generators afresh, entry 0 fetched and checked. -/
def Cell.schedStart (e : Env) (fused : Bool) (k : Nat) (c : Cell) : Cell :=
  let c := c.armCalm k
  let q : Seq := { entry := 0, rep := reRep (c.route k 0)
                   left := (List.range 4).map (fun n => c.rd ((armCountF n).arm k)), used := [0, 0, 0, 0] }
  let c := ((c.setSeq k q).wr (ARM_SCHED_STATUS_CYCLE.arm k) 0)
  if entryBad (c.route k 0) 0 fused then c.schedInvalid e k 0 else c.setSched k 2

/-- The end by HALT: ARMED again under MODE EVERY, else IDLE; ONCE clears ENABLE. -/
def Cell.schedHalt (k : Nat) (c : Cell) : Cell :=
  match c.rd (ARM_SCHED_CTRL_MODE.arm k) with
  | 0 => c.setSched k (if c.flag (ARM_SCHED_CTRL_ENABLE.arm k) then 1 else 0)
  | 1 => (c.setSched k 0).wr (ARM_SCHED_CTRL_ENABLE.arm k) 0
  | _ => c.setSched k 0

/-- A running schedule ends at the end of this mesh cycle, in a state: IDLE by STOP, STOPPED by an overrun (R219). -/
def Cell.endSched (k st : Nat) (c : Cell) : Cell := { c with armEnd := fset z0 c.armEnd k (st + 1) }

/-- FRAME_OVERRUN of a running schedule: it stops at the end of this mesh cycle (R219). -/
def Cell.overrun (e : Env) (k : Nat) (c : Cell) : Cell :=
  (c.endSched k 3).schedFault e k 0x85 (c.rd (ARM_SCHED_STATUS_ENTRY.arm k))

/-- A start at a frame edge: the schedule is ARMED and its cycle, the edge + OFFSET, is this one (R219). -/
def Cell.startsNow (c : Cell) (k now : Nat) : Bool :=
  c.sched k == 1 && c.flag (ARM_SCHED_CTRL_ENABLE.arm k) && fget z0 c.armDue k == now + 1

/-- SCHED_START: a schedule whose start falls in this mesh cycle starts; one that runs, under MODE IMMEDIATE or at its next start,
raises FRAME_OVERRUN and stops. -/
def Cell.schedEvent (e : Env) (fused : Bool) (k : Nat) (c : Cell) : Cell :=
  if c.flag ARM_CTRL_SHIFT then c
  else if c.startsNow k e.cycle then c.schedStart e fused k
  else if c.sched k = 2 ∧ fget z0 c.armDue k = e.cycle + 1 then c.overrun e k
  else c

/-- The frame edge at one cell in this mesh cycle: running schedules overrun; a start that the last edge promised and that has not
come is FRAME_OVERRUN with DETAIL 0xFF; armed schedules, and idle ones of MODE EVERY, count OFFSET afresh (R219). -/
def Cell.schedEdge (e : Env) (c : Cell) : Cell :=
  [0, 1, 2, 3].foldl (fun c k =>
    let mode := c.rd (ARM_SCHED_CTRL_MODE.arm k)
    let on := c.flag (ARM_SCHED_CTRL_ENABLE.arm k)
    let arm := fun (c : Cell) =>
      { c.setSched k 1 with armDue := fset z0 c.armDue k (e.cycle + c.rd (ARM_SCHED_CTRL_OFFSET.arm k) + 1) }
    match c.sched k with
    | 2 => if mode = 2 then c else c.overrun e k
    | 1 =>
      let c := if fget z0 c.armDue k ≠ 0 then c.schedFault e k 0x85 0xFF else c
      if on && decide (mode < 2) then arm c else c
    | 0 => if on && mode == 0 then arm c else c
    | _ => c) c

/-- ARM_SCHED_CTRL.GO (R219): ignored but under MODE IMMEDIATE with ENABLE = 1. -/
def Cell.armGoWrite (e : Env) (k : Nat) (c : Cell) : Cell :=
  if c.rd (ARM_SCHED_CTRL_MODE.arm k) ≠ 2 ∨ c.rd (ARM_SCHED_CTRL_ENABLE.arm k) = 0 then c
  else if c.sched k = 2 then c.overrun e k
  else { c.setSched k 1 with armGo := fset z0 c.armGo k (e.cycle + 5) }

/-- ARM_SCHED_CTRL.STOP (R219): a running schedule ends at the end of this mesh cycle. -/
def Cell.armStop (k : Nat) (c : Cell) : Cell :=
  let c := c.armCalm k
  if c.sched k = 2 then c.endSched k 0 else c.setSched k 0

/-- A schedule stops at once (R221). -/
def Cell.armCut (k : Nat) (c : Cell) : Cell :=
  { (c.armCalm k).setSched k 0 with armEnd := fset z0 c.armEnd k 0 }

/-- A write of ENABLE (R219): setting it arms an EVERY or ONCE schedule, clearing it lets a running one reach HALT. -/
def Cell.armEnable (k : Nat) (v : Bool) (c : Cell) : Cell :=
  let c := c.wr (ARM_SCHED_CTRL_ENABLE.arm k) (b2n v)
  if v then
    (if c.rd (ARM_SCHED_CTRL_MODE.arm k) < 2 ∧ c.sched k ≠ 2 then c.setSched k 1 else c)
  else if c.sched k = 1 then (c.setSched k 0).armCalm k
  else c

/-- An access to ARM_RS_DATA (R213): the entry read. -/
def Cell.rsData (wr : Bool) (v : Nat) (c : Cell) : Nat × Cell :=
  let k := c.rd ARM_RS_ADDR_CTX
  let i := c.rd ARM_RS_ADDR_ENTRY
  let inc := fun (c : Cell) => if c.rd ARM_RS_ADDR_AUTOINC = 1 then c.wr ARM_RS_ADDR_ENTRY ((i + 1) % 256) else c
  if wr then
    if c.sched k = 0 then (0, inc { c with routes := fset r0 c.routes (256 * k + i) (BitVec.ofNat 64 v) })
    else (0, inc (c.wr ARM_RS_ADDR_BUSY_ERR 1))
  else
    let r := c.route k i
    (r, inc (c.wr ARM_RS_DATA_ENTRY r))

/-! ### Local source and sinks (R204, 06 R193) -/

/-- A mesh word as a port holds it: one poison bit (03 R62). -/
def VR.aword (r : VR) : AWord := ⟨r.v, r.p != 0⟩

/-- The byte address of a line that a generator yields; one outside the scratchpad is SPD_RANGE (R218). -/
def lineAddr (line : Int) : Nat := if line < 0 then 0x40000 else line.toNat * 64

/-- A class 4 claim of a port by the schedule of context `k` at an address: not granted, it has no effect and raises WIDE_CLASH on
its own context (R229, 06 R180). -/
def Cell.armClaim (e : Env) (rd : Bool) (k a : Nat) (c : Cell) : Bool × Cell :=
  if c.portTaken rd e.cycle then (false, (c.bumpSat SPD_CONFLICT_CLASH_CNT).spdFault e k 0 4 0x45 0 a)
  else (true, c.takePort rd e.cycle)

/-- Read a scratchpad line under class 4: the word, none where the read is refused. -/
def Cell.armLine (e : Env) (k : Nat) (line : Int) (c : Cell) : Option VR × Cell :=
  let a := lineAddr line
  let g := c.armClaim e true k a
  if !g.1 then (none, g.2)
  else match g.2.spdCheck 4 true ((viewMap false 0 a).map (·.1)) with
    | some (code, fa) => (none, g.2.spdFault e k 0 4 code 0 fa)
    | none => let r := g.2.viewLoad (viewMap false 0 a); (some r.1, r.2)

/-- Write a scratchpad line under class 4: whether it took effect. -/
def Cell.armStoreLine (e : Env) (k : Nat) (line : Int) (w : VR) (c : Cell) : Bool × Cell :=
  let a := lineAddr line
  let g := c.armClaim e false k a
  if !g.1 then g
  else match g.2.spdCheck 4 true ((viewMap false 0 a).map (·.1)) with
    | some (code, fa) => (false, g.2.spdFault e k 0 4 code 0 fa)
    | none => (true, g.2.viewStore w (viewMap false 0 a))

/-- Where an Armature access of ring `r` stands after this one: next line, refused or not. -/
def Cell.ringStep (c : Cell) (r side line : Nat) (skip : Bool) : Cell :=
  let last := decide (c.rd (SPD_RING_CFG_SLOT_LINES.ring r) ≤ line)
  { c with ringPos := fset z0 c.ringPos (2 * r + side) (if last then 0 else 2 * (line + 1) + b2n skip) }

/-- The access of a slot's last line has moved it: the slot changes state in the next cycle (06 R194). -/
def Cell.ringMoved (c : Cell) (r line : Nat) (put : Bool) : Cell :=
  if c.rd (SPD_RING_CFG_SLOT_LINES.ring r) ≤ line then { c with ringEnd := c.ringEnd ++ [(r, put)] } else c

/-- A ring take by a route schedule (06 R193): a refused access has no effect on the slot (06 R188). -/
def Cell.ringTake (e : Env) (k r : Nat) (c : Cell) : Option VR × Cell :=
  let pos := fget z0 c.ringPos (2 * r)
  let line := pos / 2
  let s := c.rd (SPD_RING_ST_TAKE.ring r)
  let a := c.slotBase r s + 64 * line
  if c.rd (SPD_RING_CFG_ENABLE.ring r) ≠ 1 ∨ c.rd (SPD_RING_CFG_CONS.ring r) ≠ 1 then (none, c.spdFault e k 0 4 0x46 r a)
  else if line = 0 ∧ c.slotFull r s = false then (none, (c.spdFault e k 0 4 0x43 r a).ringStep r 0 0 true)
  else if line ≠ 0 ∧ pos % 2 = 1 then (none, c.ringStep r 0 line true)
  else
    let x := (if line = 0 then c.ringAudit e r else c).armLine e k (a / 64)
    (x.1, (if x.1.isSome then x.2.ringMoved r line false else x.2).ringStep r 0 line false)

/-- A ring put by a route schedule (06 R193). -/
def Cell.ringPut (e : Env) (k r : Nat) (w : VR) (c : Cell) : Cell :=
  let pos := fget z0 c.ringPos (2 * r + 1)
  let line := pos / 2
  let s := c.rd (SPD_RING_ST_PUT.ring r)
  let a := c.slotBase r s + 64 * line
  if c.rd (SPD_RING_CFG_ENABLE.ring r) ≠ 1 ∨ c.rd (SPD_RING_CFG_PROD.ring r) ≠ 1 then c.spdFault e k 0 4 0x46 r a
  else if line = 0 ∧ c.slotFull r s = true then (c.spdFault e k 0 4 0x44 r a).ringStep r 1 0 true
  else if line ≠ 0 ∧ pos % 2 = 1 then c.ringStep r 1 line true
  else
    let x := (if line = 0 then c.ringAudit e r else c).armStoreLine e k (a / 64) w
    (if x.1 then x.2.ringMoved r line true else x.2).ringStep r 1 line false

/-- The write sink's word of the last mesh cycle is written (R204). -/
def Cell.armWrites (e : Env) (c : Cell) : Cell :=
  match c.armStore with
  | none => c
  | some w =>
    let c := { c with armStore := none }
    if reWring w.entry then c.ringPut e w.ctx (reWidx w.entry) w.word else (c.armStoreLine e w.ctx w.line w.word).2

/-- A word delivered into an Armature port (03 R62). -/
def Cell.deliver (e : Env) (k port : Nat) (w : VR) (c : Cell) : Cell :=
  if c.flag CELL_CTRL_ISOLATE then c.wr CELL_FAULT_ISO_DROP 1
  else
    let q := fget nil0 c.ports port
    if 2 ≤ q.length then c.schedFault e k 0x06 port else { c with ports := fset nil0 c.ports port (q ++ [w.aword]) }

/-! ### The combine unit (R223) -/

/-- Lanes of two words added in a combine format. -/
def combAdd (f : Nat) (a b : VR) : VR :=
  let w := if f = 2 then 16 else 32
  let fc := if f = 1 then 13 else 12
  let x := fun i => bits a.v.toNat (w * i + w - 1) (w * i)
  let y := fun i => bits b.v.toNat (w * i + w - 1) (w * i)
  let lane := fun i =>
    if f = 0 then (x i + y i) % 2 ^ 32
    else (convert fc false false 0 (vAdd (unpack fc (x i)) (unpack fc (y i))).1).out
  ⟨BitVec.ofNat 512 (packNat w ((List.range (512 / w)).map lane)), a.p ||| b.p⟩

/-- The combine result of two sources that may be empty. -/
def combine (f : Nat) : Option VR → Option VR → Option VR
  | some a, some b => some (combAdd f a b)
  | some a, none => some a
  | none, b => b

/-! ### One mesh cycle of a router -/

/-- A claim of a resource: context, source code, the word, whether the source is the drain, entry, write line. -/
structure Claim where
  ctx : Nat
  word : Option VR
  drain : Bool
  entry : Nat
  line : Int
deriving DecidableEq, Repr

/-- The claims of resource selector `sel` (the source an entry gives the resource) in this cycle. -/
def claimsOf (sel : Nat → Nat) (cur : List (Nat × Nat × Int)) (src : Nat → Nat → Option VR) (due : List CombOut) :
    List Claim :=
  cur.filterMap (fun p =>
    let s := sel p.2.1
    if s = 0 ∨ s = 6 then none
    else some ⟨p.1, src p.1 s, s == 5 && reLsrc p.2.1 == 3, p.2.1, p.2.2⟩)
  ++ due.filterMap (fun d => if sel d.entry = 6 then some ⟨d.ctx, d.word, false, d.entry, d.line⟩ else none)

/-- The claim granted, that of the lowest context, and the contexts that clash (R220). -/
def grant (cs : List Claim) : Option Claim × List Nat :=
  match cs with
  | [] => (none, [])
  | a :: t =>
    let g := t.foldl (fun b x => if x.ctx < b.ctx then x else b) a
    (some g, ((a :: t).filter (fun x => x != g)).map (fun x => x.ctx))

/-- ROUTE_CLASH of every loser. -/
def Cell.clashes (e : Env) (res : Nat) (ks : List Nat) (c : Cell) : Cell :=
  ks.foldl (fun c k => c.schedFault e k 0x81 res) c

/-- What a router's cycle puts out: words on mesh outputs. -/
structure RouterOut where
  cell : Cell
  outs : List (Nat × VR) := []
deriving DecidableEq, Repr

/-- A mesh output served (R225). -/
def RouterOut.mesh (e : Env) (edge d : Nat) (g : Option Claim) (r : RouterOut) : RouterOut :=
  match g with
  | none => r
  | some cl => match cl.word with
    | none => r
    | some w =>
      if bit edge d then { r with cell := r.cell.schedFault e cl.ctx 0x82 d }
      else { r with outs := r.outs ++ [(d, w)] }

/-- The port sink served. -/
def RouterOut.port (e : Env) (g : Option Claim) (r : RouterOut) : RouterOut :=
  match g with
  | none => r
  | some cl => match cl.word with
    | none => if cl.drain then r else { r with cell := r.cell.schedFault e cl.ctx 0x84 0 }
    | some w => { r with cell := r.cell.deliver e cl.ctx (reDport cl.entry) w }

/-- The write sink served: its word is written in the next cycle. -/
def RouterOut.write (e : Env) (g : Option Claim) (r : RouterOut) : RouterOut :=
  match g with
  | none => r
  | some cl => match cl.word with
    | none => if cl.drain then r else { r with cell := r.cell.schedFault e cl.ctx 0x84 1 }
    | some w =>
      if r.cell.flag CELL_CTRL_ISOLATE then { r with cell := r.cell.wr CELL_FAULT_ISO_DROP 1 }
      else { r with cell := { r.cell with armStore := some ⟨cl.ctx, cl.entry, cl.line, w⟩ } }

/-- The schedules that run in this cycle. -/
def Cell.running (c : Cell) : List Nat := if c.flag ARM_CTRL_SHIFT then [] else [0, 1, 2, 3].filter (fun k => c.sched k == 2)

/-- The starts that fall in this mesh cycle: at a frame edge + OFFSET, or 4 cycles after GO (R219). -/
def Cell.armStarts (e : Env) (fused : Bool) (c : Cell) : Cell :=
  if c.flag ARM_CTRL_SHIFT then c
  else [0, 1, 2, 3].foldl (fun c k =>
    if c.startsNow k e.cycle || fget z0 c.armGo k == e.cycle + 1 then c.schedStart e fused k else c) c

/-- The read claims of this cycle, for the entries two cycles on (R204, R218): that of the lowest context is made. -/
def Cell.armReads (e : Env) (c : Cell) : Cell :=
  let ks := c.running
  let next := ks.filterMap (fun k => match seqAhead c k 2 (c.seq k) with
    | some q => if reLsrc (c.route k q.entry) ≠ 0 then some (k, q) else none
    | none => none)
  let r : Option (Nat × VR) × Cell :=
    match next with
    | [] => (none, c)
    | (k, q) :: _ =>
      let v := c.route k q.entry
      let x := match reLsrc v with
        | 1 => c.armLine e k (agLine c k (reLidx v % 4) q.used)
        | 2 => c.ringTake e k (reLidx v)
        | _ => (none, c)
      (x.1.map (fun w => (k, w)), x.2)
  if ks.isEmpty then { c with armRead := [] }
  else { r.2 with armRead := (if c.armRead.length = 2 then c.armRead else [none, none]) ++ [r.1] }

/-- The end of the cycle for one running schedule: the next entry is fetched and checked. -/
def Cell.schedNext (e : Env) (fused : Bool) (k : Nat) (c : Cell) : Cell :=
  let q := c.seq k
  let cyc := c.rd (ARM_SCHED_STATUS_CYCLE.arm k)
  let c := c.bumpSat (ARM_SCHED_STATUS_CYCLE.arm k)
  match seqStep c k q with
  | .at r =>
    let fresh := q.rep = 0
    if fresh ∧ entryBad (c.route k r.entry) (cyc + 1) fused = true then (c.setSeq k r).schedInvalid e k r.entry
    else c.setSeq k r
  | .halt r => (c.setSeq k r).schedHalt k
  | .past => c.schedInvalid e k 256

/-- The end of the cycle for the schedules of a cell: those that a STOP or an overrun ends, and the others' next entries. -/
def Cell.armEnds (e : Env) (fused : Bool) (ks : List Nat) (c : Cell) : Cell :=
  { (ks.foldl (fun c k =>
      if c.sched k ≠ 2 then c
      else match fget z0 c.armEnd k with
        | 0 => c.schedNext e fused k
        | st + 1 => c.setSched k st) c) with armEnd := [] }

/-- Words that arrive on inputs that no entry switches, or that are blocked, are dropped (R225, R229). -/
def Cell.dropInputs (edge : Nat) (ins : List (Nat × VR)) (cur : List (Nat × Nat × Int)) (c : Cell) : Cell :=
  let used := fun d => cur.any (fun p => (reSources p.2.1 ++ [reCa p.2.1, reCb p.2.1]).contains (d + 1))
  let n := ins.countP (fun i => bit edge i.1 || !used i.1)
  if n = 0 then c else (c.addSat ARM_STATUS_DROP_CNT n).wr ARM_STATUS_DROP 1

/-- The word of a lane's parity: bit `i` is the parity of 64-bit lane `i` (R202). -/
def parityOf (v : BitVec 512) : BitVec 8 :=
  BitVec.ofNat 8 ((List.range 8).foldl (fun acc i =>
    acc + 2 ^ i * (((List.range 64).countP (fun j => v.getLsbD (64 * i + j))) % 2)) 0)

/-- A word checked against its parity: a lane in error poisons its two words (R227). The number of such lanes. -/
def checkParity (w : VR) (par : BitVec 8) : VR × Nat :=
  let bad := (List.range 8).filter (fun i => (parityOf w.v).getLsbD i != par.getLsbD i)
  (if bad.isEmpty then w else { w with p := bad.foldl (fun p i => p ||| BitVec.ofNat 16 (3 * 4 ^ i)) w.p }, bad.length)

/-- Parity errors counted at the receiving router (R227). -/
def Cell.parityErrors (n : Nat) (c : Cell) : Cell :=
  if n = 0 then c else (c.addSat ARM_STATUS_PAR_CNT n).wr ARM_STATUS_PAR_ERR 1

/-- One mesh cycle of a router: `ins` are the words that arrive on its mesh inputs, `outer` the directions that face the
die's outer edge, `fused` a fused-off cell (R202 to R229). Its starts, writes and read claims of the cycle are done. -/
def Cell.routerCycle (e : Env) (fused : Bool) (outer : Nat) (ins : List (Nat × VR)) (c : Cell) : RouterOut :=
  let edge := c.rd ARM_CTRL_EDGE ||| outer
  let ks := c.running
  if ks.isEmpty && c.armComb.isEmpty then { cell := if ins.isEmpty then c else c.dropInputs edge ins [] }
  else
    let cur := ks.map (fun k =>
      let q := c.seq k
      let v := c.route k q.entry
      (k, v, agLine c k (reWidx v % 4) q.used))
    let here := c.armRead.headD none
    let c := { c with armRead := c.armRead.drop 1 }
    let locals := cur.filter (fun p => reLsrc p.2.1 != 0)
    let k0 := (locals.head?).map (fun p => p.1)
    let c := c.clashes e 6 ((locals.drop 1).map (fun p => p.1))
    let dr := match locals.head? with
      | some p => reLsrc p.2.1 == 3
      | none => false
    let local' := if dr then c.offer.map (fun o => o.word) else here.bind (fun p => if k0 = some p.1 then some p.2 else none)
    let c := if dr then (match c.offer, k0 with
        | none, some k => c.schedFault e k 0x83 1
        | _, _ => { c with offer := none }) else c
    let src := fun (k s : Nat) =>
      if s = 5 then (if k0 = some k then local' else none)
      else if 1 ≤ s ∧ s ≤ 4 then
        (if bit edge (s - 1) then none else (ins.find? (fun i => i.1 == s - 1)).map (fun i => i.2))
      else none
    let combs := cur.filter (fun p => reComb p.2.1)
    let c := c.clashes e 7 ((combs.drop 1).map (fun p => p.1))
    let due := c.armComb.filter (fun d => d.due == 0)
    let rest := (c.armComb.filter (fun d => d.due != 0)).map (fun d => { d with due := d.due - 1 })
    let new := (combs.take 1).map (fun p =>
      (⟨1, p.1, p.2.1, p.2.2, combine (reCfmt p.2.1) (src p.1 (reCa p.2.1)) (src p.1 (reCb p.2.1))⟩ : CombOut))
    let c := { c with armComb := rest ++ new }
    let c := c.dropInputs edge ins cur
    let out := fun d => grant (claimsOf (fun v => reOut v d) cur src due)
    let c := [0, 1, 2, 3].foldl (fun c d => c.clashes e d (out d).2) c
    let pt := grant (claimsOf reDsrc cur src due)
    let wt := grant (claimsOf reWsrc cur src due)
    let c := (c.clashes e 4 pt.2).clashes e 5 wt.2
    let r := [0, 1, 2, 3].foldl (fun r d => RouterOut.mesh e edge d (out d).1 r) ({ cell := c } : RouterOut)
    let r := (r.port e pt.1).write e wt.1
    { r with cell := r.cell.armEnds e fused ks }

/-- The slots whose last line moved in this cycle change state (06 R194). -/
def Cell.ringEnds (c : Cell) : Cell :=
  { (c.ringEnd.foldl (fun c p => if p.2 then c.slotPutDone p.1 else c.slotTook p.1) c) with ringEnd := [] }

/-- A cell reset or wider: all schedules stop and become IDLE (R221). -/
def Cell.armReset (c : Cell) : Cell :=
  { ([0, 1, 2, 3].foldl (fun c k => c.armCut k) c) with armRead := [], armComb := [], armStore := none, ringEnd := [], offer := none }

/-! ### Shift mode (R210) -/

/-- Every line of the scratchpad read under class 6: correctable words are counted, uncorrectable ones become poisoned
(R210, 06 R196). -/
def Cell.spdScrub (c : Cell) : Cell :=
  c.spdEcc.foldl (fun c e => (c.spdRead (4 * e.1)).2.2) c

/-- What a cell receives from its west neighbour in shift mode: the scratchpad lines, with new check bits, and the Armature
state. -/
def Cell.shiftFrom (w c : Cell) : Cell :=
  let keys := fun key => decide (0xC40 ≤ key / 64 ∧ key / 64 < 0xD80)
  { c with spd := w.spd, spdPoison := w.spdScrub.spdPoison, spdEcc := [], routes := w.routes
           regs := (w.regs.filter (fun e => keys e.1 && (cellRegs.any (fun r => r.at (e.1 / 64)
               && r.fields.any (fun f => f.lsb == e.1 % 64 && f.acc != .ro))))).foldl
             (fun m e => fset cellRst m e.1 e.2) (fdrop (fun key => keys key && (cellRegs.any (fun r => r.at (key / 64)
               && r.fields.any (fun f => f.lsb == key % 64 && f.acc != .ro)))) c.regs) }

/-- The scratchpad's registers at 0xA00 to 0xB47 go with its lines: ownership, rings and their state. -/
def Cell.spdRegsTo (w c : Cell) : Cell :=
  let keys := fun key => decide (0xA00 ≤ key / 64 ∧ key / 64 < 0xB48)
  { c with regs := (w.regs.filter (fun e => keys e.1)).foldl (fun m e => fset cellRst m e.1 e.2) (fdrop keys c.regs)
           ownOld := w.ownOld, ownDue := w.ownDue, clears := w.clears, ringPos := w.ringPos }

end Sys2Proof.Machine
end

