-- ==== Sys2Proof/Machine/CourtState.lean ====
section
/-! DEFINITION. The state of one court: plinth, sync store, Riffler, DMA queues, route tables
(spec/08_sprue_sync.md R247, R255 to R262, spec/09_courts_riffler.md, spec/11_hbm_dma.md R333 to R341). -/

namespace Sys2Proof.Machine
open Sys2Proof

/-- A waiter entry of a sync store (08 R259): the operation that waits. `phase` is the barrier phase an ARRIVE waits for. -/
structure Waiter where
  obj : Nat
  op : Nat
  src : Nat
  ctx : Nat
  tag : Nat
  op1 : Nat
  op2 : Nat
  phase : Nat
deriving DecidableEq, Repr

/-- Where a Riffler operation stands: held, in its rounds or sorting, done with its completion still to leave. -/
inductive RifPhase where
  | held | running | moved | done
deriving DecidableEq, Repr

/-- An accepted Riffler operation (09 R276 to R280). -/
structure RifOp where
  src : Nat            -- requesting logical cell
  ctx : Nat
  tag : Nat
  op : Nat             -- RIF minor
  aD : Nat
  fan : Nat            -- declared fan-in bound F
  arrive : Nat         -- mesh cycle A
  edge : Nat           -- E at A
  phase : RifPhase := .held
  launch : Nat := 0    -- L
  due : Nat := 0       -- the mesh cycle in which its completion may leave (R278, R279)
  desc : List Nat := []     -- D0 to D7
  list : List Nat := []     -- indices or segment lengths
  code : Nat := 0
  detail : Nat := 0
  fact : Nat := 0
  flags : Nat := 0     -- status bits [23:17]
  inline : List Nat := []   -- result pairs of a TOPK with INLINE
deriving DecidableEq, Repr

/-- A descriptor in a DMA queue (11 R333 to R340). -/
structure DmaOp where
  words : List Nat     -- D0 to D7
  poisoned : Bool
  src : Nat            -- requesting logical cell
  ctx : Nat
  tag : Nat
  resp : Bool
  pc : Nat
  accept : Nat         -- mesh cycle of acceptance
  active : Bool := false
  line : Nat := 0      -- lines taken so far
  written : Nat := 0   -- LINES_DONE
  code : Nat := 0
  detail : Nat := 0
  ended : Bool := false     -- nothing more moves
  own : Bool := false       -- OWN_REFUSED
  pz : Bool := false        -- POISON
  bchk : Bool := false      -- BCHK_FAIL
deriving DecidableEq, Repr

/-- One court. -/
structure Court where
  regs : Regs := []
  rt : FMap (BitVec 64) := []       -- route tables: version * 144 + index (08 R247)
  syncIn : List Msg := []           -- operations at the court port, in arrival order (08 R260)
  rifIn : List Msg := []            -- Riffler requests at the court port
  dmaIn : List Msg := []            -- DMA descriptors at the court port
  out : List Msg := []              -- messages the court's units offer at the court port
  waiters : List Waiter := []       -- oldest first, at most 64 (08 R259)
  plinth : Memory := []
  plnPoison : FMap Bool := []       -- by word number (09 R268)
  plnEcc : FMap Ecc := []
  edge : Option Nat := none         -- mesh cycle of the latest frame edge seen (09 R272)
  round : Nat := 0                  -- 1 + the mesh cycle in which the latest DMA and scan round started (09 R270)
  rif : List RifOp := []            -- held and running operations, at most 4 (09 R276)
  rifEnd : Nat := 0                 -- mesh cycle at which the last launched operation completes
  dma : FMap (List DmaOp) := []     -- queues 0 to 15
  raspBanks : Nat := 0              -- address banks in NONE when the current cell's rasp test began (16 R476)
  raspGone : Nat := 0               -- those of them that have left NONE since (16 R478)
  raspKept : Nat := 0               -- the signature before the current pass (16 R480)
  errs : List MemErr := []          -- errors that the Restorer has not yet counted (16 R461)
  raspMiss : Bool := false          -- the current cell's last test ended in a mismatch (16 R479)
  faults : List FaultRec := []      -- records sent to the die's Atelier
  snap : FMap Nat := []             -- the latched snapshot (20 R560)
deriving DecidableEq, Repr

/-- Default of courts. -/
def court0 : Nat → Court := fun _ => {}

/-- A register field. -/
def Court.rd (c : Court) (f : Fld) : Nat := rget courtRst c.regs f
/-- Write a register field. -/
def Court.wr (c : Court) (f : Fld) (v : Nat) : Court := { c with regs := rset courtRst c.regs f v }
/-- A one-bit field. -/
def Court.flag (c : Court) (f : Fld) : Bool := c.rd f != 0
/-- A counter field up by `n`, holding at its limit. -/
def Court.addSat (c : Court) (f : Fld) (n : Nat) : Court := c.wr f (min (c.rd f + n) (2 ^ f.width - 1))

/-! ### Words and lines of the plinth (09 R265 to R268) -/

/-- Bytes of a plinth (R265). -/
def plnBytes : Nat := 0x400000

/-- An error of a plinth word is there to count (16 R461). -/
def Court.noteErr (w : Nat) (ue : Bool) (c : Court) : Court := { c with errs := c.errs ++ [⟨3, w, ue⟩] }

/-- Read the word at a byte address: value, poison, and the court after its check bits were used (R268). -/
def Court.plnRead (c : Court) (a : Nat) : Nat × Bool × Court :=
  let w := a / 4
  let v := memRead c.plinth (4 * w) 4
  match fget ecc0 c.plnEcc w with
  | .ok => (v, fget noMark c.plnPoison w, c)
  | .ce => (v, fget noMark c.plnPoison w, (c.addSat CRT_PLN_ECC_CE_CNT 1).noteErr w false)
  | .ue => (v, true, (({ c with plnPoison := fset noMark c.plnPoison w true
                                plnEcc := fset ecc0 c.plnEcc w .ok }).addSat CRT_PLN_ECC_UE_CNT 1).noteErr w true)

/-- Write a word with its poison bit (R268). -/
def Court.plnWrite (c : Court) (a v : Nat) (p : Bool) : Court :=
  let w := a / 4
  { c with plinth := memWrite c.plinth (4 * w) 4 v
           plnPoison := fset noMark c.plnPoison w p
           plnEcc := fset ecc0 c.plnEcc w .ok }

/-- Read `n` words from a byte address: values with poison. -/
def Court.plnWords (c : Court) (a : Nat) : Nat → List (Nat × Bool) × Court
  | 0 => ([], c)
  | n + 1 =>
    let r := c.plnRead a
    let t := r.2.2.plnWords (a + 4) n
    ((r.1, r.2.1) :: t.1, t.2)

/-- Write words from a byte address on. -/
def Court.plnPut (c : Court) (a : Nat) : List (Nat × Bool) → Court
  | [] => c
  | e :: es => (c.plnWrite a e.1 e.2).plnPut (a + 4) es

/-- What the wake of its region from power-off does to a plinth: zero data, poison clear, valid check bits (R269). -/
def Court.plnWake (c : Court) : Court := { c with plinth := [], plnPoison := [], plnEcc := [] }

/-- Read a line. -/
def Court.plnLine (c : Court) (a : Nat) : VR × Court :=
  let r := c.plnWords (a / 64 * 64) 16
  (packVR 32 r.1, r.2)

/-- The 16 words of a line, each with its poison. -/
def VR.words (r : VR) : List (Nat × Bool) := (List.range 16).map (fun i => (r.elem 32 i, r.elemP 32 i))

/-- Write a line. -/
def Court.plnPutLine (c : Court) (a : Nat) (r : VR) : Court := c.plnPut (a / 64 * 64) r.words

end Sys2Proof.Machine
end

