-- ==== Sys2Proof/Machine/UnitState.lean ====
section
/-! DEFINITION. The state of niches, rings, host queues, links, pod time and collective instances beside their registers
(spec/12_zovar_links.md, spec/13_pod_time_collectives.md, spec/14_host_niches.md, spec/16_restorer.md). -/

namespace Sys2Proof.Machine
open Sys2Proof

/-- A frame edge that is raised and not yet seen (13 R390): the mesh cycle in which the cells see it, its bucket, and the
ingress ring, slot and entry sequence that started it. -/
structure Edge where
  due : Nat
  bucket : Nat
  tick : Nat
  entry : Option (Nat × Nat × Nat) := none
deriving DecidableEq, Repr

/-- A collective segment that waits for its ACK (13 R404). -/
structure Unacked where
  step : Nat
  idx : Nat
  pkt : Packet
deriving DecidableEq, Repr

/-- An open instance of a collective plan (13 R399 to R405). -/
structure Inst where
  plan : Nat
  seq : Nat
  started : Bool := false
  start : Nat := 0                  -- own start tick
  acc : FMap Acc := []              -- partials by element (13 R402)
  raw : FMap Nat := []              -- elements that travel unchanged, and MAX or MIN partials: encoding + 1
  have' : List (Nat × Nat) := []    -- merged segments: step, index
  sent : List Nat := []             -- steps whose segments have been sent
  unacked : List Unacked := []
  flags : Nat := 0                  -- INEXACT, WINDOW_OVERFLOW, INVALID, POISON
  minT : Option Nat := none
  maxT : Nat := 0
  maxFrom : Nat := 0
  ended : Bool := false             -- it has ended; segments of it still wait for their ACK
deriving DecidableEq, Repr

/-- What a niche holds beside its registers. -/
structure Niche where
  cast : Option CastFile := none    -- the loaded cast (10 R317)
  trig : Option Nat := none         -- mesh cycle of the latest trigger of its generator (13 R390)
  count : Nat := 0                  -- edges triggered since MODE was written
  edges : List Edge := []           -- edges to come
  edgeTick : Nat := 0               -- tick of the latest edge's trigger
  frame : Option (Nat × Nat × Nat) := none  -- ring, slot and sequence of the entry that started the frame in progress
  fresh : Bool := false             -- contexts in use become READY at the next edge (10 R317)
  held : Bool := false              -- the generator is held by the Restorer or by the supplies (16 R464, 19 R539)
  mq : Bool := false                -- the maquette is to be activated at the next edge (16 R471)
  mqOn : Bool := false              -- it is active
  mqTick : Option Nat := none       -- activation edge tick of a FALLBACK (13 R398)
  heal : List Nat := []             -- cells a heal in progress takes (16 R464)
  healAt : Nat := 0                 -- mesh cycle in which its pause began
  insts : List Inst := []           -- open collective instances
  next : FMap Nat := []             -- next instance number by plan
  slots : List Nat := []            -- plan slots sent in this frame (13 R395)
  planEdge : FMap Nat := []         -- tick + 1 of the edge that each plan with START = 1 last started for (13 R399)
  stopped : Bool := false           -- stopped for a niche fault (15 R438)
  hang : Nat := 0                   -- mesh cycles that the niche watchdog has counted (17 R486)
deriving DecidableEq, Repr

/-- A ring beside NCH_RING and NCH_RST (14 R431). -/
structure Ring where
  seq : Nat := 0                    -- entry sequence of the next ingress entry, or egress sequence
  full : List Nat := []             -- full egress slots, in the order they were filled
  tag : FMap Nat := []              -- by slot: entry sequence + 1, or the frame sequence + 1 of a full egress slot (16 R469)
  sent : FMap Nat := []             -- frame sequence + 1 last sent from a slot
  marked : FMap Nat := []           -- mesh cycle in which an ingress slot was marked full (13 R390)
deriving DecidableEq, Repr

/-- A pendant pair beside its registers (16 R473). -/
structure Pend where
  held : List (Nat × Nat × List (BitVec 8)) := []  -- member, frame sequence, answer sent and held for comparison
  old : List Nat := []              -- frame sequences whose PEND_WAIT has passed
  singles : Nat := 0                -- consecutive SINGLEs
deriving DecidableEq, Repr

/-- A submission and completion queue pair of a function (14 R417, R421): entries fetched, posted, written and consumed
since the queues came into service; an index is a count modulo the queue's size. -/
structure HostQ where
  sqHead : Nat := 0
  sqTail : Nat := 0
  cqTail : Nat := 0
  cqHead : Nat := 0
  sqStop : Bool := false
  cqStop : Bool := false
deriving DecidableEq, Repr

/-- A host egress ring of a function: slots consumed and written since it came into service. -/
structure HostRing where
  head : Nat := 0
  tail : Nat := 0
deriving DecidableEq, Repr

/-- The fields of a HELLO (12 R367). -/
structure Hello where
  verMax : Nat
  verMin : Nat
  dev : Nat
  port : Nat
  role : Nat
  hstate : Nat
  fecReq : Nat
  features : Nat
  b : List Nat
  seenDev : Nat
  seenPort : Nat
deriving DecidableEq, Repr

/-- A link's saved-settings record in the NV store (12 R370). -/
structure Saved where
  dev : Nat
  port : Nat
  rate : Nat
  fec : Nat
  delay : Nat
deriving DecidableEq, Repr

/-- A VL0 packet with the tick before which it is not sent (13 R395). -/
structure InPkt where
  pkt : Packet
  tick : Nat := 0
deriving DecidableEq, Repr

/-- A link beside its registers (12 R354 to R373). -/
structure Link where
  txSeq : Nat := 0                  -- SEQ of the next new DATA frame (R358)
  expect : Nat := 0                 -- E (R359)
  retry : List (Frame × Packet) := []  -- unacknowledged DATA frames, oldest first, at most 128 (R360)
  replay : List Frame := []         -- frames still to resend
  replays : Nat := 0                -- consecutive replays without an ACK advance
  nak : Bool := false               -- the next frame carries NAK
  episode : Bool := false           -- a NAK episode is open (R359)
  used : FMap Nat := []             -- frames sent by VL, modulo 64
  back : FMap Nat := []             -- frames returned by VL, from the last good CRD
  freed : FMap Nat := []            -- own CRD counters by VL
  held : FMap Nat := []             -- receive buffers occupied by VL (R357)
  niche : Option Nat := none        -- LNK_CTRL.NICHE where NBOUND = 1, as taken at NEGOTIATE (R378)
  transit : Bool := false           -- TRANSIT as taken at NEGOTIATE
  edge : Bool := false              -- EDGE as taken at NEGOTIATE
  vl0 : List InPkt := []            -- VL0 packets that wait for their send time
  out : FMap (List Packet) := []    -- packets waiting to be sent by VL
  cur : FMap (List (Frame × Packet)) := []  -- the remaining frames of the packet in transmission by VL
  passed : Nat := 0                 -- consecutive slots in which a ready VL1 frame was passed over (R356)
  part : FMap (List (BitVec 8)) := []  -- bytes of the packet being received by VL
  partFrames : FMap Nat := []       -- its frames
  rx : List Packet := []            -- whole packets not yet looked at (R362)
  inbox : List Packet := []         -- packets for this device, by class (R364, R365)
  late : List Packet := []          -- VL0 packets held for their tick
  lastTx : Option Frame := none     -- the frame last put on the wire
  block : List Frame := []          -- frames sent of the FEC block that forms, at most 4 (R349)
  blockSent : List Frame := []      -- the five frames of the latest complete block
  hello : Option Hello := none      -- the last HELLO of this negotiation
  hstate : Nat := 0                 -- own HSTATE
  sent2 : Bool := false             -- a HELLO with HSTATE = 2 has been sent
  locked : Bool := false            -- lock has returned in RECOVER
  lockFails : Nat := 0              -- LOCK_T expiries in a row
  recFails : Nat := 0               -- failed recoveries in a row
  rs : Bool := false                -- RS(544,514) is forced until full training (R352)
  fecReq : Bool := false            -- own FEC_REQ
  pings : List (Nat × Nat) := []    -- outstanding PINGs: ID and t1
  pingId : Nat := 0
  meas : List Nat := []             -- the last 64 delays, in picoseconds
  refill : Nat := 0                 -- measurements to come before the link may be a parent again (13 R388)
  saved : Option Saved := none
  full : Bool := true               -- EQ runs full training (R370)
  degrade : FMap Nat := []          -- tick + 1 of the latest FEC_DEGRADE that a lane alone caused, by lane (16 R461)
  eqFails : FMap Nat := []          -- failed trainings in a row, by lane (16 R461)
deriving DecidableEq, Repr

/-- What a TIME link has heard (13 R383). -/
structure Heard where
  leader : Nat
  hops : Nat
  seq : Nat
deriving DecidableEq, Repr

/-- Pod time beside its registers (13 R382 to R386). -/
structure PodTime where
  seq : Nat := 0                    -- own announce sequence
  heard : FMap (Option Heard) := [] -- by package link
  last : FMap Nat := []             -- last accepted sequence + 1, by leader
  good : Nat := 0                   -- consecutive SYNCs within 16 sixteenths
  bad : Nat := 0                    -- consecutive SYNCs beyond 32
  seen : List (List (BitVec 8)) := []  -- FALLBACK messages forwarded
deriving DecidableEq, Repr

/-- A kept CAP response (19 R527): the requester, its REQ_ID, the tick, the response. -/
structure Kept where
  who : Nat
  req : Nat
  tick : Nat
  resp : List (BitVec 8)
deriving DecidableEq, Repr

/-- An SPDM session (19 R523): its requester, its level of R522 and the tick of its latest traffic. -/
structure Session where
  who : Nat
  id : Nat
  level : Nat
  tick : Nat
deriving DecidableEq, Repr

/-- A record of a journal of the NV store (19 R544): the area (0 saved settings, 1 flaw map, 2 objects, 3 crash summaries,
4 boot records, 5 byte-valued objects), the key and the data. -/
structure NvRec where
  area : Nat
  key : Nat
  data : List (BitVec 8)
deriving DecidableEq, Repr

/-- A firmware slot's image of one role, as far as its checks have read it (19 R549): its bytes, whether its signature is
good, and its SVN. -/
structure FwImage where
  bytes : Memory := []
  good : Bool := false
  svn : Nat := 0
deriving DecidableEq, Repr

/-- A GPIO pin in a hold (21 R583): the level that it holds (none: undriven), the function it takes and the always-on
cycles to go. -/
structure PinHold where
  level : Option Bool := none
  code : Nat := 0
  left : Nat := 0
deriving DecidableEq, Repr

/-- Settings of the management Ethernet port (19 R536): MODE, ADDR, PREFIX, GATEWAY, UDP_PORT. -/
structure Net where
  mode : Nat := 0
  addr : List (BitVec 8) := []
  plen : Nat := 0
  gateway : List (BitVec 8) := []
  port : Nat := 7710
deriving DecidableEq, Repr

/-- Bring-up, supplies, power, the NV store, the Catalogue's protocol and security, beside their registers. -/
structure Mgmt where
  sysRst : Bool := true             -- SYS_RST# is asserted (18 R501)
  powerOn : Bool := true            -- the next bring-up is the first since power-on (18 R514)
  seamsOut : List Nat := []         -- seam bridges that did not align (18 R516)
  soleStack : Option Nat := none    -- the one stack of the map of 18 R518
  badSegs : List Nat := []          -- segments that bring-up has taken out of the allocatable range (16 R461)
  factory : Option (List Nat × List Nat × List (Nat × Nat)) := none  -- the variant fuses, the fused cells, and the fused row repairs
                                    -- and lanes, as the first bring-up has read them (00 R1, 18 R504)
  saved : Bool := false             -- the NV store holds valid saved settings (18 R514)
  cycleReq : Bool := false          -- PWR_CYCLE_REQ# is asserted, until power is removed (17 R497)
  clockLost : Bool := false         -- REFCLK is lost (21 R579)
  tripped : Bool := false           -- THERM_TRIP# is asserted (19 R539)
  thermLimit : Bool := false        -- THERM_LIMIT is in force
  thermWant : Bool := false         -- a thermal step down is in force or is requested again
  capWant : Bool := false           -- a power cap step down is in force or is requested again
  goal : Option Nat := none         -- the profile of an accepted change (19 R542)
  nvQueue : List NvRec := []        -- writes that wait (19 R538)
  nv : List NvRec := []             -- valid records of the NV store, oldest first
  kept : List Kept := []
  answer : List (BitVec 8) := []    -- the response to the latest CAP or SPDM request
  sessions : List Session := []
  nonces : Nat := 0                 -- debug tokens tried (19 R548)
  gate : Bool := false              -- the scan gate is open (19 R547)
  fwTarget : Nat := 0               -- FW_TARGET
  fwImages : FMap FwImage := []     -- by slot * 2 + role
  fwState : FMap Nat := []          -- FW_STATE by die (19 R536)
  fwRuns : FMap Nat := []           -- slot that a die runs
  fwSince : FMap Nat := []          -- tick at which a die's TRIAL began (19 R549)
  forceRs : FMap Nat := []          -- 1 + the value written to a link's FORCE_RS object since the straps were sampled (19 R530)
  fwSlot : FMap Nat := []           -- slot selection in the active-slot record, by die
  svn : Option Nat := none          -- SVN_MIN as SVN_RAISE has blown it into the fuses (19 R549)
  net : Net := {}                   -- the MGMT_NET settings in force (19 R536)
  blobs : FMap (List (BitVec 8)) := [] -- byte values of objects, by index * 256 + subindex
  holds : FMap PinHold := []        -- by pin (21 R583)
  bwPrev : FMap Nat := []           -- derived byte counters at the last window but one (20 R566), by object and subindex
  bwNow : FMap Nat := []            -- at the last window
  bwTick : Nat := 0
  gsnap : Bool := false             -- a snapshot of every bank is to come at PMC_GSNAP.AT (20 R560)
  lastCat : FMap Nat := []          -- 32-bit halves latched by reads, by register key (13 R380, 20 R558)
deriving DecidableEq, Repr

/-- Default of niches. -/
def niche0 : Nat → Niche := fun _ => {}
/-- Default of rings. -/
def ring0 : Nat → Ring := fun _ => {}
/-- Default of pairs. -/
def pend0 : Nat → Pend := fun _ => {}
/-- Default of host queues. -/
def hostq0 : Nat → HostQ := fun _ => {}
/-- Default of host rings. -/
def hostring0 : Nat → HostRing := fun _ => {}
/-- Default of links. -/
def link0 : Nat → Link := fun _ => {}
/-- Default of byte values. -/
def blob0 : Nat → List (BitVec 8) := fun _ => []
/-- Default of firmware images. -/
def fw0 : Nat → FwImage := fun _ => {}
/-- Default of pin holds. -/
def hold0 : Nat → PinHold := fun _ => {}
/-- Default of what a link has heard. -/
def heard0 : Nat → Option Heard := fun _ => none

end Sys2Proof.Machine
end

