-- ==== Sys2Proof/Machine/State.lean ====
section
/-! DEFINITION. The state of one Coeth C4 package and the reasons a command can stop. -/

namespace Sys2Proof.Machine
open Sys2Proof

/-- Why the machine stops with a fault. -/
inductive Fault where
  /-- A command names a cell, context, court, die, link, niche or queue that the package does not have
  (`WellFormed.lean`). Safe: no such command can be given to the hardware. -/
  | noSuchUnit
deriving DecidableEq, Repr

/-- Why a command is refused. -/
inductive Refusal where
  /-- The command has no meaning in the model: raised by the dispatch only. Safe. -/
  | notModelled (mnemonic : String)
deriving DecidableEq, Repr

/-- A word between two routers: the mesh cycle in which it arrives, the logical cells it comes from and goes to, the input it
arrives on, and its sideband's parity (07 R202, R206). -/
structure Flight where
  due : Nat
  src : Nat
  dest : Nat
  input : Nat
  word : VR
  par : BitVec 8
deriving DecidableEq, Repr

/-- A memory error that the Restorer has counted: the unit it lies in (physical cell, court, none for HBM) and its tick (16
R461). -/
structure ErrAt where
  unit : Nat
  err : MemErr
  tick : Nat
deriving DecidableEq, Repr

/-- An entry of the flaw map, or a factory fuse entry (16 R458, R459). -/
structure Flaw where
  kind : Nat
  cause : Nat
  die : Nat
  applied : Bool
  confirmed : Bool
  loc : Nat
  tick : Nat
  stored : Bool        -- written to the NV store (16 R460)
deriving DecidableEq, Repr

/-- A reset step that is due: its level of R487, its unit (cell * 4 + context, cell, niche, die), and the cause that
RST_CAUSE names (17 R491, R492). -/
structure ResetReq where
  level : Nat
  unit : Nat
  trigger : Nat
  seq : Nat := 0
  die : Nat := 0
  code : Nat := 0
  niche : Option Nat := none
  since : Nat := 0     -- tick of the decision (17 R489)
deriving DecidableEq, Repr

/-- One package. -/
structure State where
  small : Bool := false               -- the part is a CTH4-128S (00 R2)
  lite : Bool := false                -- the part is a CTH4-144L (00 R2)
  cycle : Nat := 0                    -- mesh cycles since power-on
  cells : FMap Cell := []             -- by physical cell number (03 R77)
  courts : FMap Court := []           -- by 12 * Y + X
  dieRegs : FMap Regs := []           -- by die
  events : FMap (List FaultRec) := [] -- records of a die's other units on their way to its fault log, by die
  flog : FMap (BitVec 256) := []      -- fault log entries, by die * 1024 + entry (15 R455)
  flogSeq : FMap Nat := []            -- next SEQ, by die
  fuses : List Flaw := []             -- factory fuse entries (16 R458)
  flaws : List Flaw := []             -- the field flaw map, at most 2,048 entries
  hbmErrs : List MemErr := []         -- HBM errors that the Restorer has not yet counted, by half-line (16 R461)
  errLog : List ErrAt := []           -- errors counted: correctable ones of the last 24 hours, and uncorrectable ones (16 R461)
  decided : List Nat := []            -- cells decided at fault that no heal has taken yet (16 R461, R464)
  unexplained : List (Nat × Nat) := []  -- unexplained silent errors: physical cell, tick (16 R481, R483)
  doubts : List (List Nat) := []      -- pendant disagreements whose rasp tests run: the courts still to be tested (16 R473)
  pendDoubt : List Nat := []          -- ticks of unexplained pendant disagreements (16 R483)
  irq : FMap Bool := []               -- MSI-X vectors raised: (port * 17 + function) * 64 + vector (14 R422)
  dieHalt : FMap Bool := [(0, true), (1, true), (2, true), (3, true)]  -- dies whose clocks stand still (18 R501, 21 R577)
  dieStart : FMap Nat := []           -- the first mesh cycle of a die since its last reset (09 R272)
  regions : FMap Bool := []           -- regions that have been powered, by 6 * (Y / 2) + X / 2 of their courts (01 R17, 07 R211)
  mgmt : Mgmt := {}                   -- bring-up, supplies, NV store, Catalogue, security
  pkgRegs : Regs := []
  niches : FMap Niche := []
  rings : FMap Ring := []
  pends : FMap Pend := []
  hostQs : FMap HostQ := []           -- by function * 8 + queue
  hostRings : FMap HostRing := []     -- by function * 16 + ring
  hostMem : Memory := []              -- host bytes that the C4 has written
  hostEp : FMap Bool := []            -- lines of it that travelled with EP (14 R412)
  stepping : Nat := 0xB1              -- the part's stepping (10 R297)
  links : FMap Link := []             -- by package link number
  pod : PodTime := {}
  dirty : List (Nat × Nat) := []      -- dirty HBM segments: first and count (17 R498)
  lastReset : List (Nat × ResetReq) := []  -- context and cell reset steps taken, with their ticks (17 R491)
  pkgResets : List Nat := []          -- ticks of package resets (17 R491)
  crashSeq : Nat := 0                 -- crash casts begun (17 R496)
  crashOpen : Bool := false           -- the latest has not ended
  crashFrozen : List Nat := []        -- cells that it froze, until the reset that follows it
  dieSnap : FMap (FMap Nat) := []     -- latched snapshots of the die banks, by die (20 R560)
  objects : FMap Nat := []            -- Catalogue values by index * 256 + subindex (19 R525)
  hbm : Memory := []                  -- HBM bytes by device address (11 R319)
  hbmPoison : FMap Bool := []         -- poison marks of half-lines, by number (11 R324)
  hbmEcc : FMap Ecc := []             -- stack ECC state of half-lines
  hbmCheck : FMap Nat := []           -- stored block checks by block number (11 R328)
  mailbox : FMap (List Msg) := []     -- messages to a die's Atelier (08 R236)
  resets : List ResetReq := []        -- reset steps that are due (17 R491)
  tickFrac : Nat := 0                 -- the timebase's fraction, 40 bits (13 R379)
  meshAcc : Nat := 0                  -- fifteenths of a mesh cycle gone since the last one
  flights : List Flight := []
  free : Nat := 0                     -- the model's counter of free values
  readVal : Nat := 0                  -- what the last read command answered
  readStat : Nat := 0                 -- how: 0 with data, 1 with EP, 2 Unsupported Request (14 R412)
  pending : List Instr := []
deriving DecidableEq, Repr

/-- The package right after power-on reset. -/
def State.reset : State := {}

/-- The three outcomes of a command. -/
abbrev Out := Host.Outcome State Fault Refusal

end Sys2Proof.Machine
end

