-- ==== Sys2Proof/Machine/Unit.lean ====
section
/-! DEFINITION. The units of the package: where cells, courts and dies lie, and the operations that read or change one
of them (spec/00_scope.md R7 to R9, spec/03_cell_core.md R77, spec/16_restorer.md R462). -/

namespace Sys2Proof.Machine
open Sys2Proof

/-! ### Geometry -/

/-- Physical cells of the package. -/
def cellCount : Nat := 10368

/-- The die of a physical cell (R77). -/
def cellDie (n : Nat) : Nat := n / 2592
/-- The court block of a physical cell in its die, row by row. -/
def cellBlock (n : Nat) : Nat := n % 2592 / 72
/-- The row of a physical cell in its court. -/
def cellRow (n : Nat) : Nat := n % 72 / 9
/-- The physical column of a cell in its court. -/
def cellCol (n : Nat) : Nat := n % 9
/-- The package court 12 * Y + X of a physical cell. -/
def cellCourt (n : Nat) : Nat :=
  12 * (6 * (cellDie n / 2) + cellBlock n / 6) + (6 * (cellDie n % 2) + cellBlock n % 6)
/-- The die of a package court. -/
def courtDie (q : Nat) : Nat := q % 12 / 6 + 2 * (q / 12 / 6)
/-- The first physical cell of a package court's row. -/
def rowBase (q r : Nat) : Nat := courtDie q * 2592 + (q / 12 % 6 * 6 + q % 12 % 6) * 72 + r * 9

/-! ### Registers -/

/-- A court. -/
def State.court (s : State) (q : Nat) : Court := fget court0 s.courts q
/-- Change a court. -/
def State.modCourt (s : State) (q : Nat) (f : Court → Court) : State := { s with courts := fset court0 s.courts q (f (s.court q)) }
/-- A physical cell. -/
def State.cell (s : State) (n : Nat) : Cell := cget s.cells n
/-- Change a physical cell. -/
def State.modCell (s : State) (n : Nat) (f : Cell → Cell) : State := { s with cells := cmod s.cells n f }
/-- Default of a die's registers. -/
def regs0 : Nat → Regs := fun _ => []
/-- A field of a die's block. -/
def State.dieRd (s : State) (d : Nat) (f : Fld) : Nat := rget dieRst (fget regs0 s.dieRegs d) f
/-- Write a field of a die's block. -/
def State.dieWr (s : State) (d : Nat) (f : Fld) (v : Nat) : State :=
  { s with dieRegs := fset regs0 s.dieRegs d (rset dieRst (fget regs0 s.dieRegs d) f v) }
/-- A counter field of a die's block up by `n`, holding at its limit. -/
def State.dieAdd (s : State) (d : Nat) (f : Fld) (n : Nat) : State := s.dieWr d f (min (s.dieRd d f + n) (2 ^ f.width - 1))
/-- A field of the package block. -/
def State.rd (s : State) (f : Fld) : Nat := rget pkgRst s.pkgRegs f
/-- Write a field of the package block. -/
def State.wr (s : State) (f : Fld) (v : Nat) : State := { s with pkgRegs := rset pkgRst s.pkgRegs f v }
/-- A one-bit field of the package block. -/
def State.flag (s : State) (f : Fld) : Bool := s.rd f != 0
/-- A counter field of the package block up by `n`, holding at its limit. -/
def State.addSat (s : State) (f : Fld) (n : Nat) : State := s.wr f (min (s.rd f + n) (2 ^ f.width - 1))
/-- The timebase (13 R379). -/
def State.tick (s : State) : Nat := s.rd TMB_TICK_TICK

/-! ### Records for the fault logs (15 R455, R586) -/

/-- A record on its way to a die's Atelier. -/
def State.event (s : State) (d : Nat) (r : FaultRec) : State :=
  { s with events := fmod nil0 s.events d (fun l => l ++ [{ r with tick := s.tick }]) }

/-- A bit of MGT_ALERT becomes 1; ALERT# is asserted while any is (19 R552). -/
def State.alert (s : State) (f : Fld) : State := s.wr f 1

/-- Restorer events marked for ALERT# (16 R484). -/
def resAlerts : List Nat := [5, 9, 10, 11, 14, 15]

/-- A Restorer event: in the die's log, in RES_EVENT, and at ALERT# where marked (16 R484). -/
def State.resEvent (s : State) (d code : Nat) (r : FaultRec) : State :=
  let s := s.event d { r with code := code, space := 3 }
  let s := s.wr RES_EVENT_EV (s.rd RES_EVENT_EV ||| 2 ^ (code - 1))
  if resAlerts.contains code then s.alert MGT_ALERT_RESTORER else s

/-! ### Where a logical cell lies (16 R462) -/

/-- The fenced physical column of a court row, 15 for none: FENCE0 of RES_ROWMAP. -/
def State.fence (s : State) (q r : Nat) : Nat := bits ((s.court q).rd RES_ROWMAP_ROWS) (8 * r + 3) (8 * r)

/-- The physical cell that carries a valid logical cell. -/
def State.phys (s : State) (id : Nat) : Nat :=
  let q := 12 * (idY id / 8) + idX id / 8
  let k := idX id % 8
  rowBase q (idY id % 8) + (if k < s.fence q (idY id % 8) then k else k + 1)

/-- The logical cell that a physical cell carries: none at the fenced column, or at the unused spare. -/
def State.logical (s : State) (n : Nat) : Option Nat :=
  let q := cellCourt n
  let f := min (s.fence q (cellRow n)) 8
  let y := 8 * (q / 12) + cellRow n
  if cellCol n = f then none
  else some (mkId (8 * (q % 12) + (if cellCol n < f then cellCol n else cellCol n - 1)) y)

/-- Whether a physical cell is fused off: every one of the 16 inner courts of a CTH4-128S, spare positions included (00 R2). -/
def State.fused (s : State) (n : Nat) : Bool := s.small && inFused (8 * (cellCourt n % 12)) (8 * (cellCourt n / 12))

/-- Whether the cores of a cell's die have clocks and the cell is not fused off. NICHE_CREATE
powers the regions of its niche, and no rule names an event that powers one off but the loss of all power, nor what an access to a unit
of a region that no niche has powered yet does: the model serves it (01 R17, log 131: the model's choice). -/
def State.powered (s : State) (n : Nat) : Bool := !fget noMark s.dieHalt (cellDie n) && !s.fused n

/-- Whether a physical cell is fenced: by a factory fuse entry or by the flaw map (16 R458). -/
def State.cellFenced (s : State) (n : Nat) : Bool := (s.fuses ++ s.flaws).any (fun f => f.kind == 1 && f.loc == n)

/-- CELL_ID of a physical cell (03). LOGICAL_ID of a cell that carries none is not valid, and free. -/
def State.cellId (s : State) (n : Nat) : Nat :=
  cellDie n * 2 ^ 62 + cellBlock n % 6 * 2 ^ 59 + cellBlock n / 6 * 2 ^ 56 + cellCol n * 2 ^ 52 + cellRow n * 2 ^ 49
    + b2n (s.logical n).isSome * 2 ^ 48 + b2n (s.cellFenced n) * 2 ^ 47 + b2n (s.fused n) * 2 ^ 46
    + (s.logical n).getD (Config.unmappedId n % 16384)

/-- What a cell sees of the machine. -/
def State.env (s : State) (n : Nat) : Env :=
  { n := n, logical := (s.logical n).getD (Config.unmappedId n % 16384), tick := s.tick, small := s.small, cycle := s.cycle
    id := s.cellId n, transparent := (s.logical n).isNone }

/-- A command that names a physical cell: it has an effect where the cell has clocks. -/
def State.onCell (s : State) (n : Nat) (f : State → State) : Out :=
  if n < cellCount then .next (if s.powered n then f s else s) else .fault .noSuchUnit

/-- A command that reaches the window of every cell of a die with clocks, fused-off ones included: the Atelier's writes of
CELL_CTRL and CELL_SCAN_CTRL, and reads (03 R77). -/
def State.onAnyCell (s : State) (n : Nat) (f : State → State) : Out :=
  if n < cellCount then .next (if fget noMark s.dieHalt (cellDie n) then s else f s) else .fault .noSuchUnit

/-- A command that names a context of a physical cell. -/
def State.onCtx (s : State) (x : CtxRef) (f : State → State) : Out :=
  if x.ctx < 4 then s.onCell x.cell f else .fault .noSuchUnit

/-- A command that names a package court. -/
def State.onCourt (s : State) (q : Nat) (f : State → State) : Out :=
  if q < 144 then
    .next (if fget noMark s.dieHalt (courtDie q) || (s.small && inFused (8 * (q % 12)) (8 * (q / 12))) then s else f s)
  else .fault .noSuchUnit

end Sys2Proof.Machine
end

