-- ==== Sys2Proof/Machine/Niche.lean ====
section
/-! DEFINITION. Niches: their registers, courts and cells, and the vectors of their functions (spec/14_host_niches.md
R422 to R434). -/

namespace Sys2Proof.Machine
open Sys2Proof

/-- The field of niche `i`'s register in the niche table. -/
def Fld.niche (f : Fld) (i : Nat) : Fld := f.up (0x10 * i)

/-- The state code of a niche (R423). -/
def State.nicheState (s : State) (i : Nat) : Nat := s.rd (NCH_STATE_STATE.niche i)

/-- Whether a package court lies in a created niche's rectangle. -/
def State.nicheHas (s : State) (i q : Nat) : Bool :=
  let ax := s.rd (NCH_CFG_AX.niche i)
  let ay := s.rd (NCH_CFG_AY.niche i)
  s.flag (NCH_CFG_VALID.niche i) && decide (ax ≤ q % 12 ∧ q % 12 ≤ ax + s.rd (NCH_CFG_WIDTH.niche i)
    ∧ ay ≤ q / 12 ∧ q / 12 ≤ ay + s.rd (NCH_CFG_HEIGHT.niche i))

/-- The niche that a package court belongs to. -/
def State.nicheAt (s : State) (q : Nat) : Option Nat := (List.range 16).find? (fun i => s.nicheHas i q)

/-- The courts of a niche, row by row. -/
def State.nicheCourts (s : State) (i : Nat) : List Nat := (List.range 144).filter (s.nicheHas i)

/-- The logical cells of a court, row by row. -/
def courtIds (q : Nat) : List Nat :=
  (List.range 64).map (fun j => mkId (8 * (q % 12) + j % 8) (8 * (q / 12) + j / 8))

/-- The logical cells of a niche. -/
def State.nicheIds (s : State) (i : Nat) : List Nat := (s.nicheCourts i).flatMap courtIds

/-- The physical cells that carry a niche's logical cells. -/
def State.nicheCells (s : State) (i : Nat) : List Nat := (s.nicheIds i).map s.phys

/-- Change several cells. -/
def State.modCells (s : State) (ns : List Nat) (f : Cell → Cell) : State := { s with cells := cmodAll s.cells ns f }

/-- Change several courts. -/
def State.modCourts (s : State) (qs : List Nat) (f : Court → Court) : State := qs.foldl (fun s q => s.modCourt q f) s

/-- Vector 0 of a function: port 0 or 1, function 0 (PF) to 16. -/
def State.vector (s : State) (port fn v : Nat) : State := { s with irq := fset noMark s.irq ((port * 17 + fn) * 64 + v) true }

/-- Vector 0 of the functions bound to a niche (R422, R426). -/
def State.nicheVector (s : State) (i : Nat) : State :=
  let s := if s.flag (NCH_CFG_VFA_VALID.niche i) then s.vector 0 (s.rd (NCH_CFG_VFA.niche i) + 1) 0 else s
  if s.flag (NCH_CFG_VFB_VALID.niche i) then s.vector 1 (s.rd (NCH_CFG_VFB.niche i) + 1) 0 else s

/-- The record of an event that concerns a niche as a whole: it names the anchor court. -/
def State.nicheRec (s : State) (i : Nat) : FaultRec :=
  { kind := 1, index := 12 * s.rd (NCH_CFG_AY.niche i) + s.rd (NCH_CFG_AX.niche i), niche := some i }

/-- A Restorer event of a niche, in the log of its anchor court's die. -/
def State.nicheEvent (s : State) (i code : Nat) : State := s.resEvent (courtDie (s.nicheRec i).index) code (s.nicheRec i)

/-- A niche enters a state: CHANGED, and vector 0 of its functions (R423, NCH_STATE). -/
def State.setNiche (s : State) (i st : Nat) : State :=
  if s.nicheState i = st then s
  else ((s.wr (NCH_STATE_STATE.niche i) st).wr (NCH_STATE_CHANGED.niche i) 1).nicheVector i

/-! ### Frame generators and their next edge (13 R379, R390, R391) -/

/-- The field of an array whose registers lie 16 bytes apart. -/
def Fld.by16 (f : Fld) (i : Nat) : Fld := f.up (16 * i)
/-- The field of an array whose registers lie 8 bytes apart. -/
def Fld.by8 (f : Fld) (i : Nat) : Fld := f.up (8 * i)
/-- The field of a function's page: function `fn` is port * 17 + number (R416). -/
def Fld.page (f : Fld) (fn : Nat) : Fld := f.up (0x10000 + 0x20000 * (fn / 17) + 0x1000 * (fn % 17))

/-- A niche. -/
def State.niche (s : State) (i : Nat) : Niche := fget niche0 s.niches i
/-- Change a niche. -/
def State.modNiche (s : State) (i : Nat) (f : Niche → Niche) : State := { s with niches := fset niche0 s.niches i (f (s.niche i)) }

/-- Mesh cycles in 15 clocks of the timebase, by profile (00, 19 R542). -/
def meshRate (profile : Nat) : Nat := match profile with | 0 => 15 | 1 => 12 | _ => 10

/-- RATE_ADJ (R379). -/
def State.rateAdj (s : State) : Int := signed 32 (s.rd TMB_SERVO_RATE_ADJ)

/-- MODE of a niche's generator: 0 OFF, 1 FREE, 2 EVENT, 3 POD. -/
def State.frameMode (s : State) (i : Nat) : Nat := s.rd (TMB_NFRAME_MODE.by16 i)
/-- FRAME_LEN of a niche. -/
def State.frameLen (s : State) (i : Nat) : Nat := s.rd (TMB_NFRAME_FRAME_LEN.by16 i) + 1

/-- Four times FRAME_TICKS of R391 at the profile in force. -/
def State.frameTicks4 (s : State) (i : Nat) : Nat :=
  s.frameLen i * (match s.rd PWR_STATUS_PROFILE with | 0 => 4 | 1 => 5 | _ => 6)

/-- The tick of the next POD edge of a niche. -/
def State.podTick (s : State) (i : Nat) : Nat :=
  s.rd (TMB_NSTART_START_TICK.by16 i) + (s.niche i).count * s.frameTicks4 i / 4

/-- TICK `d` mesh cycles from now, at the profile and the RATE_ADJ in force. -/
def State.tickAhead (s : State) (d : Nat) : Nat :=
  let rate := meshRate (s.rd PWR_STATUS_PROFILE)
  let clocks := (15 * d - s.meshAcc + rate - 1) / rate
  s.tick + (((s.tickFrac : Int) + clocks * (2 ^ 40 + s.rateAdj)) / 2 ^ 40).toNat

/-- Mesh cycles until the first one that begins at or after the clock in which TICK reaches a tick. -/
def State.cyclesTo (s : State) (tick : Nat) : Nat :=
  let left : Int := ((tick : Int) - s.tick) * 2 ^ 40 - s.tickFrac
  let step : Int := 2 ^ 40 + s.rateAdj
  let clocks := ((left + step - 1) / step).toNat
  (s.meshAcc + clocks * meshRate (s.rd PWR_STATUS_PROFILE) + 14) / 15

/-- Mesh cycles until a niche's cells see its next edge: one raised, or one that FREE or POD schedules (R390). -/
def State.nextEdge (s : State) (i : Nat) : Option Nat :=
  match (s.niche i).edges with
  | e :: _ => some (e.due - s.cycle)
  | [] => match s.frameMode i with
    | 1 => (s.niche i).trig.map (fun t => t + s.frameLen i + 16 - s.cycle)
    | 3 => some (s.cyclesTo (s.podTick i) + 16)
    | _ => none

/-- The tick at which a cell sees its niche's next edge, 0 while no such edge is known (04 R125 WAITF). -/
def State.edgeObj (s : State) (n : Nat) : Nat :=
  match (s.nicheAt (cellCourt n)).bind s.nextEdge with
  | some d => s.tickAhead d
  | none => 0

/-- Whether a heal or a relocation in its pause is to move a physical cell (16 R464, R475): DMA lines for its crossbar port wait. -/
def State.moving (s : State) (n : Nat) : Bool :=
  match s.nicheAt (cellCourt n) with
  | none => false
  | some i => s.rd (RES_HEAL_STATUS_STEP.by8 i) == 7
      || (s.niche i).heal.any (fun m => cellCourt m == cellCourt n && cellRow m == cellRow n && decide (cellCol m ≤ cellCol n))

end Sys2Proof.Machine
end

