-- ==== Sys2Proof/Machine/Fence.lean ====
section
/-! DEFINITION. Decisions that fence a cell, and the package's health (spec/16_restorer.md R458 to R463, R482, R483). -/

namespace Sys2Proof.Machine
open Sys2Proof

/-- No niche starts a frame from its next edge on, and RUNNING niches are LOADED (R483). -/
def State.stopFrames (s : State) : State :=
  let s := (List.range 16).foldl (fun s i => if s.nicheState i = 3 then (s.wr (TMB_NFRAME_MODE.niche i) 0).setNiche i 2 else s) s
  s.wr TMB_STATUS_POD_ACTIVE (b2n ((List.range 16).any (fun i => s.rd (TMB_NFRAME_MODE.niche i) == 3)))

/-- REPLACE (R483): ALERT#. -/
def State.replace (s : State) : State :=
  if s.flag RES_PKG_STATUS_REPLACE then s
  else ((((s.wr RES_PKG_STATUS_REPLACE 1).alert MGT_ALERT_REPLACE)).resEvent 0 0x0F { kind := 1 }).stopFrames

/-- REPLACE_SOON (R482): ALERT#. -/
def State.replaceSoon (s : State) : State :=
  if s.flag RES_PKG_STATUS_REPLACE_SOON then s
  else (((s.wr RES_PKG_STATUS_REPLACE_SOON 1).alert MGT_ALERT_REPLACE_SOON)).resEvent 0 0x0E { kind := 1 }

/-- 24 hours of the timebase. -/
def dayTicks : Nat := 77760000000000

/-- An unexplained silent error on a cell (R481, R483). -/
def State.unexplain (s : State) (n : Nat) (r : FaultRec) : State :=
  let u := (s.unexplained.filter (fun p => p.1 != n && decide (s.tick < p.2 + dayTicks))) ++ [(n, s.tick)]
  let s := { (s.wr RES_PKG_STATUS_UNEXPLAINED_24H (min u.length 255)).resEvent (cellDie n) 0x09 r with unexplained := u }
  if 3 ≤ u.length then s.replace else s

/-- A pendant disagreement that its rasp tests do not place (R473, R483). -/
def State.unexplainPair (s : State) : State :=
  let u := s.pendDoubt.filter (fun t => decide (s.tick < t + dayTicks)) ++ [s.tick]
  let s := { s with pendDoubt := u }
  if 3 ≤ u.length then s.replace else s

/-- UNEXPLAINED_24H as a read returns it: the distinct cells of the last 24 hours. -/
def State.unexplained24 (s : State) : Nat := min (s.unexplained.filter (fun p => decide (s.tick < p.2 + dayTicks))).length 255

/-- A court has tested every cell: disagreements all of whose courts have been tested are unexplained (R473). -/
def State.sweepDone (s : State) (q : Nat) : State :=
  let ds := s.doubts.map (fun d => d.filter (fun c => c != q))
  let s' := { s with doubts := ds.filter (fun d => !d.isEmpty) }
  (ds.filter (fun d => d.isEmpty)).foldl (fun s _ => s.unexplainPair) s'

/-- A new flaw map entry (R459, R460, R482, R483): a full map takes none and the package reports REPLACE. -/
def State.addFlaw (s : State) (f : Flaw) : State :=
  if 2048 ≤ s.flaws.length then s.replace
  else
    let s := { s with flaws := s.flaws ++ [f] }
    let s := s.wr RES_PKG_STATUS_FLAW_USED s.flaws.length
    let s := if 1843 ≤ s.flaws.length then s.replaceSoon else s
    if 2048 ≤ s.flaws.length then s.replace else s

/-- The record that a Restorer event about a cell gives (15 R455). -/
def State.cellRec (s : State) (n : Nat) : FaultRec :=
  { unit := n, kind := 0, index := (s.logical n).getD 0, niche := s.nicheAt (cellCourt n) }

/-- A cell is decided at fault (R461): its entry is in force at once, and a heal is due (R464). -/
def State.decideCell (s : State) (n cause : Nat) : State :=
  if s.cellFenced n then s
  else
    let s := s.addFlaw { kind := 1, cause := cause, die := cellDie n, applied := false, confirmed := false, loc := n
                         tick := s.tick, stored := false }
    let s := s.addSat RES_PKG_STATUS_FENCED 1
    { s.resEvent (cellDie n) 0x01 (s.cellRec n) with decided := s.decided ++ [n] }

end Sys2Proof.Machine
end

