-- ==== Sys2Proof/Machine/Objects.lean ====
section
/-! DEFINITION. The stored values of the Catalogue's objects and their defaults (spec/19_catalogue_atelier.md R531 to
R536, spec/12_zovar_links.md R372, spec/13_pod_time_collectives.md R408). -/

namespace Sys2Proof.Machine
open Sys2Proof

/-- Defaults of a link's TIMERS in the row order of R372: durations in nanoseconds, BER_SHORT as binary32. -/
def linkTimer : Nat → Nat
  | 1 => 100000 | 2 => 10000000 | 3 => 0x358637BD | 4 => 1000000 | 5 => 1000 | 6 => 10000000 | 7 => 100000 | 8 => 2000
  | 9 => 8 | 10 => 4000 | 11 => 20000 | 12 => 3 | 13 => 10000000 | 14 => 1000000 | 15 => 1000 | _ => 0

/-- Defaults of the pod timers in the row order of R408. -/
def podTimer : Nat → Nat
  | 1 => 100000 | 2 => 10000 | 3 => 16 | 4 => 64 | 5 => 10000000 | 6 => 18000 | 7 => 20000 | 8 => 200000 | 9 => 100000000
  | _ => 0

/-- Thresholds of rails 5 to 12 in millivolts: brown-out and overvoltage (R537). -/
def railLimits : Nat → Nat × Nat
  | 5 => (740, 880) | 6 => (790, 930) | 7 => (1100, 1300) | 8 => (1020, 1200) | 9 => (360, 450) | 10 => (1660, 1980)
  | 11 => (1620, 1980) | 12 => (2900, 3630) | _ => (0, 0)

/-- The default of an object; a value that the spec leaves to fuses, measurement or calibration is `Config.objectValue`. -/
def objDefault (key : Nat) : Nat :=
  let i := key / 256
  let j := key % 256
  if 0x3000 ≤ i ∧ i < 0x3600 then
    match i % 16 with
    | 0 => 1
    | 4 => linkTimer j
    | 7 => 0x40A00000
    | _ => 0
  else if i = 0x2001 ∧ 5 ≤ j then (railLimits j).1
  else if i = 0x2002 ∧ 5 ≤ j then (railLimits j).2
  else match i with
    | 0x1001 => 0xB1 | 0x1102 => 1
    | 0x2012 => 0x42BE0000 | 0x2022 => 0
    | 0x3800 => 0xFFF | 0x3802 => podTimer j
    | 0x4040 => 0 | 0x4041 => 1000000000 | 0x4042 => 2 | 0x4043 => 2000 | 0x4044 => 0
    | 0x4060 => (match j with | 1 => 26 | 2 => 24 | 3 => 10 | _ => 0)
    | 0x5010 => 1 | 0x5011 => 1
    | 0x7001 => 0 | 0x7006 => 60000000000
    | 0x7020 => (match j with | 1 => 16000000000 | 2 => 8 | 3 => 2592000000000000 | 4 => 1 | _ => 0)
    | 0x6000 => 1000000 | 0x7050 => (if j = 5 then 7710 else 0)
    | _ => Config.objectValue i j

/-- The stored value of an object. -/
def State.obj (s : State) (i j : Nat) : Nat := fget objDefault s.objects (i * 256 + j)
/-- Set it. -/
def State.setObj (s : State) (i j v : Nat) : State := { s with objects := fset objDefault s.objects (i * 256 + j) v }

/-- The device's own ID (R513). -/
def State.devId (s : State) : Nat := s.obj 0x3800 0 % 4096
/-- A timer of the pod, by its row of R408. -/
def State.podT (s : State) (i : Nat) : Nat := s.obj 0x3802 i
/-- A timer or limit of link `l`, by its row of R372. -/
def State.linkT (s : State) (l i : Nat) : Nat := s.obj (0x3000 + 16 * l + 4) i

end Sys2Proof.Machine
end

