-- ==== Sys2Proof/Machine/Cast.lean ====
section
/-! DEFINITION. The bytes of a cast and what they say: the header, the section table, the records of the sections, the shape buckets
(spec/10_casts_mapping.md R292 to R294, R298, R306, R307, spec/13_pod_time_collectives.md R393, R394, R399). -/

namespace Sys2Proof
open Sys2Proof.Machine

/-- A header field of `n` bytes at an offset. -/
def CastFile.h (c : CastFile) (off n : Nat) : Nat := bytesVal (c.header.drop off) n
/-- A bit of FLAGS. -/
def CastFile.flagBit (c : CastFile) (i : Nat) : Bool := bit (c.h 0x28 4) i
/-- MAQUETTE. -/
def CastFile.maquette (c : CastFile) : Bool := c.flagBit 0
/-- PENDANT. -/
def CastFile.pendant (c : CastFile) : Bool := c.flagBit 1
/-- COMBINING: set by the conversion of a cast of FMT_MAJOR 1 too (R295). -/
def CastFile.combining (c : CastFile) : Bool := c.flagBit 2 || c.h 4 2 == 1
/-- EVENT_FRAMES. -/
def CastFile.eventFrames (c : CastFile) : Bool := c.flagBit 4
/-- II_AREA. -/
def CastFile.iiArea (c : CastFile) : Bool := c.flagBit 5
/-- FRAME_LEN. -/
def CastFile.frameLen (c : CastFile) : Nat := c.h 0x20 4
/-- BUCKETS. -/
def CastFile.bucketCount (c : CastFile) : Nat := c.h 0x24 1
/-- MQ_KIND. -/
def CastFile.mqKind (c : CastFile) : Nat := c.h 0x2C 1
/-- PROFILES. -/
def CastFile.profiles (c : CastFile) : Nat := c.h 0x1F 1
/-- CAST_ID. -/
def CastFile.castId (c : CastFile) : Nat := c.h 0x40 16

end Sys2Proof

namespace Sys2Proof.Machine
open Sys2Proof

/-! ### The file (R292, R293)

The spec gives the layout of the header, the section table, BUCKETS, XDEV and RELOC, and names what the records of the other sections
hold. The layout of those records is the model's choice (log 140): records of one size per section, the place first, every 32-bit word
aligned, and no marks of poison in a line. -/

/-- A little-endian field of `n` bytes. -/
def le (bs : List (BitVec 8)) (off n : Nat) : Nat := bytesVal (bs.drop off) n

/-- The first `k` pieces of `n` bytes. -/
def chunks (n : Nat) : Nat → List (BitVec 8) → List (List (BitVec 8))
  | 0, _ => []
  | k + 1, bs => bs.take n :: chunks n k (bs.drop n)

/-- A section table entry. -/
def sectionOf (b : List (BitVec 8)) : CastSection := ⟨le b 0 2, le b 2 2, le b 8 8, le b 0x10 8, le b 0x18 4⟩

/-- Bytes of a record of a section. -/
def recSize (t : Nat) : Nat :=
  match t with
  | 1 => 48 | 2 => 12 | 6 => 72 | 7 => 72 | 8 => 72 | 9 => 24 | 0xB => 8 | 0x11 => 8 | _ => 16

/-- The bytes of a section, none where the table does not list it. -/
def sectionBytes (raw : List (BitVec 8)) (ss : List CastSection) (t : Nat) : List (BitVec 8) :=
  match ss.find? (fun x => x.type == t) with
  | some x => (raw.drop x.offset).take x.length
  | none => []

/-- The place that begins a record. -/
def relOf (b : List (BitVec 8)) : Rel := ⟨le b 0 1, le b 1 1⟩
/-- A place in one byte: X in [3:0], Y in [7:4]. -/
def relByte (v : Nat) : Rel := ⟨v % 16, v / 16 % 16⟩
/-- Piece `i` of `n` bytes from an offset, as 64-bit words and numbers. -/
def w64 (b : List (BitVec 8)) (off : Nat) : W64 := BitVec.ofNat 64 (le b off 8)

/-- A record of CELL_TABLE. -/
def cellRecOf (b : List (BitVec 8)) : CellRec :=
  { at' := relOf b, used := le b 2 1, role3 := le b 3 1 != 0, prio := (List.range 4).map (fun k => le b (4 + k) 1)
    entry := (List.range 4).map (fun k => le b (8 + 2 * k) 2), timeout := (List.range 4).map (fun k => w64 b (16 + 8 * k)) }

/-- A record of ISTORE. -/
def wordRecOf (b : List (BitVec 8)) : WordRec 32 := ⟨relOf b, le b 2 1, le b 4 2, BitVec.ofNat 32 (le b 8 4)⟩
/-- A record of RSCHED. -/
def routeRecOf (b : List (BitVec 8)) : WordRec 64 := ⟨relOf b, le b 2 1, le b 4 2, w64 b 8⟩
/-- A record of ARMREG or CELLREG. -/
def regRecOf (b : List (BitVec 8)) : RegRec := ⟨relOf b, le b 2 2, w64 b 8⟩
/-- A record of SCRATCH, PLINTH or HBM. -/
def dataRecOf (hbm : Bool) (b : List (BitVec 8)) : DataRec :=
  ⟨if hbm then ⟨0, 0⟩ else relOf b, if hbm then le b 0 8 else le b 4 4, { v := BitVec.ofNat 512 (le b 8 64) }⟩
/-- A record of SYNC. -/
def syncRecOf (b : List (BitVec 8)) : SyncRec := ⟨relOf b, le b 2 1, w64 b 8, w64 b 16⟩
/-- A record of DMAQ. -/
def dmaRecOf (b : List (BitVec 8)) : SyncRec := ⟨relOf b, le b 2 1, w64 b 8, 0⟩
/-- A record of WINDOWS. -/
def windowOf (b : List (BitVec 8)) : TestWindow := ⟨relOf b, le b 2 2, le b 4 4, le b 8 4⟩
/-- A record of RINGS. -/
def ringRecOf (b : List (BitVec 8)) : BindRec := ⟨le b 0 1, le b 2 2, w64 b 8⟩

/-- A relocation entry (R298): TYPE in [63:48], the byte offset in [47:16], the bit position in [12:8], the kind in [3:0]. -/
def relocOf (b : List (BitVec 8)) : Reloc :=
  let v := le b 0 8
  ⟨bits v 63 48, bits v 47 16, bits v 12 8, bits v 3 0⟩

/-- A slot entry (13 R394). -/
def slotOf (b : List (BitVec 8)) : SlotRec :=
  ⟨le b 0 4, le b 4 4, le b 8 1, le b 9 1, le b 10 2, le b 12 2, relByte (le b 14 1), le b 16 4 % 2 ^ 22, w64 b 20, w64 b 28⟩

/-- A plan entry (13 R399). -/
def planOf (b : List (BitVec 8)) : PlanRec :=
  { op := le b 0 1, fmt := le b 1 1, ofmt := le b 2 1, flags := le b 3 1, w := signed 11 (le b 4 2 % 2 ^ 11), root := le b 6 1
    home := relByte (le b 7 1), elems := le b 8 4, startOfs := le b 12 4, src := w64 b 16, dst := w64 b 24, status := w64 b 32
    trig := le b 40 4, trigStep := le b 44 4, cpl := le b 48 4, cplAdd := le b 52 4, mask := w64 b 56, routeA := w64 b 64
    routeB := w64 b 72, bind := le b 80 2 }

/-- The XDEV section (13 R393). -/
def xdevOf (b : List (BitVec 8)) : Xdev :=
  let n := le b 0 1
  let slots := le b 2 2
  { me := le b 1 1, parts := (chunks 8 n (b.drop 64)).map (fun p => le p 0 2)
    slots := (chunks 48 slots (b.drop (64 + 8 * n))).map slotOf
    plans := (chunks 96 (le b 4 1) (b.drop (64 + 8 * n + 48 * slots))).map planOf }

/-- What the bytes of a cast hold. A record of MAQUETTE names in its third byte what it is: 0 an instruction word, 1 a route entry,
2 an ARM register. -/
def parseCast (raw : List (BitVec 8)) : CastFile :=
  let ss := (chunks 32 (min (le raw 0xC 4) 256) (raw.drop 128)).map sectionOf
  let sec := sectionBytes raw ss
  let recs := fun (t : Nat) => chunks (recSize t) ((sec t).length / recSize t) (sec t)
  let mq := fun (k : Nat) => (recs 0x10).filter (fun b => le b 2 1 == k)
  { raw := raw, header := raw.take 128, sections := ss, cells := (recs 1).map cellRecOf, istore := (recs 2).map wordRecOf
    rsched := (recs 3).map routeRecOf, armreg := (recs 4).map regRecOf, cellreg := (recs 5).map regRecOf
    scratch := (recs 6).map (dataRecOf false), plinth := (recs 7).map (dataRecOf false), hbm := (recs 8).map (dataRecOf true)
    sync := (recs 9).map syncRecOf, dmaq := (recs 0xA).map dmaRecOf
    buckets := (recs 0xB).map (fun b => [le b 0 2, le b 2 2, le b 4 2]), windows := (recs 0xC).map windowOf
    timing := (sec 0xD).map (fun b => b.toNat), xdev := if ss.any (fun x => x.type == 0xE) then some (xdevOf (sec 0xE)) else none
    rings := (recs 0xF).map ringRecOf, mqWords := (mq 0).map wordRecOf, mqSched := (mq 1).map routeRecOf
    mqReg := (mq 2).map (fun b => ⟨relOf b, le b 4 2, w64 b 8⟩), reloc := (recs 0x11).map relocOf }

/-- The bucket for a shape (R306): it fits, has the smallest product, and the lowest number among equals. -/
def bucketFor (bs : List (List Nat)) (d : List Nat) : Option Nat :=
  let fits := (bs.zipIdx).filter (fun b => (List.range 3).all (fun i => decide (d.getD i 0 ≤ b.1.getD i 0)))
  let size := fun (b : List Nat × Nat) => b.1.getD 0 0 * b.1.getD 1 0 * b.1.getD 2 0
  (fits.foldl (fun (best : Option (List Nat × Nat)) b =>
    match best with | none => some b | some x => if size b < size x then some b else some x) none).map (fun b => b.2)

/-- Whether the entries of a niche carry shape words (R307). -/
def Niche.shaped (n : Niche) : Bool :=
  match n.cast with | some c => c.eventFrames && decide (1 < c.bucketCount) | none => false

/-- An ingress entry of a niche as the rim writes it: with the selected bucket and SELECTED in its shape word; none where
no bucket fits (R307, R308). -/
def Niche.shape (n : Niche) (bs : List (BitVec 8)) : Option (List (BitVec 8)) :=
  if !n.shaped then some bs
  else
    let w := bytesVal bs 8
    match bucketFor ((n.cast.map (fun c => c.buckets)).getD []) [bits w 15 0, bits w 31 16, bits w 47 32] with
    | none => none
    | some b => some (valBytes (w % 2 ^ 56 + b * 2 ^ 56 + 2 ^ 63) 8 ++ bs.drop 8)

end Sys2Proof.Machine
end

