-- ==== Sys2Proof/Machine/Rasp.lean ====
section
/-! DEFINITION. Rasp passes: their start, RSIG, RASPEND and their end (spec/04_cell_instructions.md R126,
spec/03_cell_core.md R74, spec/16_restorer.md R476 to R480). -/

namespace Sys2Proof.Machine
open Sys2Proof

/-- The physical cell under test in a court. -/
def State.raspCell (s : State) (q : Nat) : Nat := rowBase q 0 + (s.court q).rd RES_RASP_CTRL_CELL % 72

/-- The niche whose RUNNING state decides how a pass treats a cell: the cell carries one of its logical cells. -/
def State.runningNiche (s : State) (n : Nat) : Bool :=
  (s.logical n).isSome && (match s.nicheAt (cellCourt n) with | some i => s.nicheState i == 3 | none => false)

/-- Steps of the test of a cell (R476). -/
def raspTotal (banks : Nat) : Nat := 2048 + 16 * ((List.range 16).filter (fun b => bit banks b)).length

/-- Address banks in NONE. -/
def Cell.noneBanks (c : Cell) : Nat := ((List.range 16).filter (fun b => c.ownState b == 0)).foldl (fun m b => m + 2 ^ b) 0

/-- The position after one in the order of R476: logical columns 0 to 7 of each row, then the positions that carry no
logical cell and are not fenced. -/
def State.raspOrder (s : State) (q : Nat) : List Nat :=
  let at' := fun p => (s.logical (rowBase q 0 + p)).isSome
  (List.range 72).filter at' ++ (List.range 72).filter (fun p => !at' p && !s.cellFenced (rowBase q 0 + p))

/-- The next position, and whether the court's sweep is complete. -/
def State.raspNext (s : State) (q p : Nat) : Nat × Bool :=
  match (s.raspOrder q).dropWhile (fun x => x != p) with
  | _ :: n :: _ => (n, false)
  | _ => ((s.raspOrder q).headD 0, true)

/-- Where a pass in MODE SR keeps a line of its two sections: the plinth from CELL_SCAN_BASE on (R74, log 128). -/
def Cell.raspLine (c : Cell) (j : Nat) : Nat := 64 * (c.rd CELL_SCAN_BASE_ADDR + j) % plnBytes

/-- The scan-out before a pass in MODE SR: REGS of context 3 and MAC, 110 lines, each in a crossbar round (R74, R477). -/
def State.raspSave (s : State) (n : Nat) : State :=
  let c := s.cell n
  s.modCourt (cellCourt n) (fun k =>
    (((c.section (s.env n) 4 ++ c.section (s.env n) 11).zipIdx).foldl (fun k l =>
      k.plnPutLine (c.raspLine l.2) ⟨l.1.1, if l.1.2 then BitVec.allOnes 16 else 0⟩) k).addSat CRT_XBAR_CNT_OTHER_ROUNDS 110)

/-- The scan-in after it: both sections hold what they held. -/
def State.raspBack (s : State) (n : Nat) : State :=
  let c := s.cell n
  let r := (List.range 110).foldl (fun (r : List Line × Court) j =>
    let x := r.2.plnLine (c.raspLine j)
    (r.1 ++ [(x.1.v, x.1.p != 0)], x.2)) ([], s.court (cellCourt n))
  (s.modCourt (cellCourt n) (fun _ => r.2.addSat CRT_XBAR_CNT_OTHER_ROUNDS 110)).modCell n (fun c =>
    { c.restore none s.tick 0x810 r.1 with openCfg := c.raspOpen, raspOpen := none })

/-- RASP_PASS_START: a pass of `steps` whole steps begins in context 3 of the cell under test. A position that the row remap has
taken out of the order gives way to the first one. -/
def State.raspStart (s : State) (q steps : Nat) : State :=
  let p := (s.court q).rd RES_RASP_CTRL_CELL
  let s := if (s.raspOrder q).contains p then s
    else s.modCourt q (fun k => (k.wr RES_RASP_CTRL_CELL ((s.raspOrder q).headD 0)).wr RES_RASP_CTRL_STEP 0)
  let n := s.raspCell q
  let c := s.cell n
  let k := s.court q
  if !k.flag RES_RASP_CTRL_ENABLE || c.rasp || s.fused n then s
  else
    let step := k.rd RES_RASP_CTRL_STEP
    let banks := if step = 0 then c.noneBanks else k.raspBanks
    let run := min steps (raspTotal banks - step)
    let sr := s.runningNiche n && !k.flag RES_RASP_CTRL_MODE
    let s := s.modCourt q (fun k =>
      let k := if step = 0 then { k.wr RES_RASP_SIG_SIG 0 with raspGone := 0 } else k
      { k with raspBanks := banks, raspKept := k.rd RES_RASP_SIG_SIG })
    let s := if sr then s.raspSave n else s
    s.modCell n (fun c =>
      let c := { c with rasp := true, raspSr := sr, raspSteps := run, raspOpen := if sr then c.openCfg else none }
      (c.wr (CTX_CONFIG_RESTORER.ctx 3) 1).modCtx 3 (fun x =>
        { (x.setS 0 ⟨BitVec.ofNat 32 step, false⟩).setS 1 ⟨BitVec.ofNat 32 run, false⟩ with
          pc := 0, state := .ready, wait := .none, stepping := false }))

/-- The 8 register lines of R170 rewritten from the II area of the court's plinth (R477). -/
def State.raspRewrite (s : State) (n : Nat) (c : Cell) : Cell :=
  match s.logical n with
  | none => c
  | some id =>
    let k := 8 * (idY id % 8) + idX id % 8
    c.restoreRegs 0x800 64 (memRead (s.court (cellCourt n)).plinth (0x3F6000 + 512 * k) 512)

/-- The banks whose steps a pass has run are cleared before it ends (06 R199): 16 steps a bank in ascending order, after the
2,048 steps of the core (R476). A bank that has left NONE is no longer under test. -/
def Cell.raspClear (c : Cell) (banks gone step : Nat) : Cell :=
  let bs := (List.range 16).filter (fun b => bit banks b)
  (bs.zipIdx).foldl (fun c p =>
    if step < 2064 + 16 * p.2 ∧ 2048 + 16 * p.2 < step + c.raspSteps ∧ !bit gone p.1 ∧ c.ownState p.1 = 0 then c.clearBank p.1 else c) c

/-- The end of a pass in its cell (R74, R477): MODE SR restores what it saved, MODE II reinitialises. -/
def State.raspLeave (s : State) (n : Nat) : State :=
  let rewrite := s.runningNiche n
  let k := s.court (cellCourt n)
  let s := s.modCell n (fun c => c.raspClear k.raspBanks k.raspGone (k.rd RES_RASP_CTRL_STEP))
  let s := if (s.cell n).raspSr then s.raspBack n else s
  s.modCell n (fun c =>
    if c.raspSr then { c.wr (CTX_CONFIG_RESTORER.ctx 3) 0 with rasp := false, raspSteps := 0, raspSr := false }
    else
      let r := (c.resetCtx (s.env n) 3).wr (CTX_CONFIG_RESTORER.ctx 3) 0
      let r := ((((((r.wr CELL_MAC_FLAGS_POISON 0).wr CELL_MAC_FLAGS_CVT_RANGE 0).wr CELL_MAC_FLAGS_INVALID 0).wr
        CELL_MAC_FLAGS_WINDOW_OVERFLOW 0).wr CELL_MAC_FLAGS_INEXACT 0).wr CELL_MAC_ACC_SEL_OPEN 0).macFlagsRestart
      let r := { r.macEmpty with rasp := false, raspSteps := 0, acc := [], openCfg := none }
      if rewrite then s.raspRewrite n r else r)

/-- The signature that the rasp store holds for a whole test (R479). -/
def raspExpected : Nat := (Config.raspWord 510).toNat + 2 ^ 32 * (Config.raspWord 511).toNat

/-- A mismatch ends the test of the cell (R479): it starts again from step 0; the second in a row fences the cell. -/
def State.raspFail (s : State) (q n : Nat) : State :=
  let again := (s.court q).raspMiss
  let s := s.modCourt q (fun k => { (((k.wr RES_RASP_STATUS_FAIL 1).addSat RES_RASP_STATUS_FAILS 1).wr RES_RASP_CTRL_STEP 0) with
    raspMiss := !again })
  let s := s.resEvent (cellDie n) 0x08 (s.cellRec n)
  if again then State.decideCell { s with doubts := s.doubts.filter (fun d => !d.contains q) } n 2 else s

/-- RASPEND: the steps of the pass are done; after the last the signature decides, and the next cell is due. -/
def State.raspEnd (s : State) (n : Nat) : State :=
  let q := cellCourt n
  let k := s.court q
  let step := k.rd RES_RASP_CTRL_STEP + (s.cell n).raspSteps
  let here := s.raspCell q = n
  let s := s.raspLeave n
  if !here then s
  else if step < raspTotal k.raspBanks then s.modCourt q (fun k => k.wr RES_RASP_CTRL_STEP step)
  else if k.rd RES_RASP_SIG_SIG = raspExpected then
    let nx := s.raspNext q (k.rd RES_RASP_CTRL_CELL)
    let s := s.modCourt q (fun k =>
      let k := { (k.wr RES_RASP_CTRL_STEP 0).wr RES_RASP_CTRL_CELL nx.1 with raspMiss := false }
      if nx.2 then k.wr RES_RASP_STATUS_SWEEPS (k.rd RES_RASP_STATUS_SWEEPS + 1) else k)
    if nx.2 then s.sweepDone q else s
  else s.raspFail q n

/-- A pass cut short (R480): its steps do not count, and the signature is what it was before them (R479); a reset ends it without
restore. -/
def State.raspCut (s : State) (n : Nat) (restore : Bool) : State :=
  let q := cellCourt n
  if !(s.cell n).rasp then s
  else
  let s := if s.raspCell q = n then s.modCourt q (fun k => k.wr RES_RASP_SIG_SIG k.raspKept) else s
  if restore then s.raspLeave n
  else s.modCell n (fun c => { c with rasp := false, raspSteps := 0, raspSr := false })

/-- RSIG (04 R126, 16 R479). -/
def State.bodyRsig (e : Env) (k w _ext : Nat) (s : State) : State :=
  let c := s.cell e.n
  if !c.privOk k then s.modCell e.n (fun c => c.raiseHere e k 0x0A (bits w 31 21))
  else
    let v := ((c.ctx k).sReg (fRd w)).v.toNat
    let s := s.modCourt (cellCourt e.n) (fun q =>
      let g := q.rd RES_RASP_SIG_SIG
      q.wr RES_RASP_SIG_SIG (((g * 32) % 2 ^ 64 + g / 2 ^ 59) ^^^ v))
    s.modCell e.n (fun c => c.advance k 1)

/-- RASPEND (04 R126): the pass ends; outside a pass only the PC advances. -/
def State.bodyRaspend (e : Env) (k w _ext : Nat) (s : State) : State :=
  let c := s.cell e.n
  if !c.privOk k then s.modCell e.n (fun c => c.raiseHere e k 0x0A (bits w 31 21))
  else if c.rasp then s.raspEnd e.n
  else s.modCell e.n (fun c => c.advance k 1)

end Sys2Proof.Machine
end

