-- ==== Sys2Proof/Machine/Issue.lean ====
section
/-! DEFINITION. The issue of one instruction by a context of a cell: selection, fetch, checks, the instruction's effect,
and the end of a STEP (spec/03_cell_core.md R59, R60, R66 to R69, R75, R76, spec/04_cell_instructions.md R84 to R91). -/

namespace Sys2Proof.Machine
open Sys2Proof

/-- What an instruction does, from its words, to the package. -/
abbrev Body := Env → Nat → Nat → Nat → State → State

/-- The effect of an instruction that reaches its own cell only. -/
def cellBody (b : Env → Nat → Nat → Nat → Cell → Cell) : Body := fun e k w ext s => s.modCell e.n (b e k w ext)

/-- The check bits of that word. -/
def Cell.fetchEcc (c : Cell) (k pc : Nat) : Ecc :=
  if c.rasp && k == 3 then .ok else fget ecc0 c.istoreEcc (k * 1024 + pc % 1024)

/-- Addresses of the words that the fetch at PC reads. -/
def Cell.fetchAddrs (c : Cell) (k : Nat) : List Nat :=
  let pc := (c.ctx k).pc.toNat
  if twoWords (c.fetchWord k pc) then [pc, (pc + 1) % 1024] else [pc]

/-- The word at PC. -/
def Cell.word0 (c : Cell) (k : Nat) : Nat := c.fetchWord k (c.ctx k).pc.toNat
/-- The extension word. -/
def Cell.word1 (c : Cell) (k : Nat) : Nat := c.fetchWord k ((c.ctx k).pc.toNat + 1)

/-- Whether the issue stage of a cell issues for context `k` now. -/
def State.mayIssue (s : State) (n k : Nat) : Bool :=
  let c := s.cell n
  ((s.logical n).isSome || c.rasp) && !c.flag CELL_CTRL_FREEZE && !c.frozen && c.selects k

/-- Registers whose stored check bits an instruction finds uncorrectable. DETAIL names the file and the index (03 R76), packed as
file * 32 + index, where the spec gives no packing (log 138). -/
def Cell.badSources (c : Cell) (k : Nat) (r : Row) : List Nat :=
  ((sources r (c.word0 k) (c.word1 k)).map (fun p => p.1 * 32 + p.2)).filter (fun i => (c.ctx k).regUe.any (fun u => u.1 == i))

/-- Rows that wait in the issue stage with their PC unchanged (R113, R125). -/
def stallRows : List Row := [.sendPosted, .sendRequest, .sendResponse, .sync, .rif, .dma, .fence]

/-- The end of an instruction's issue for a context under STEP (R69). -/
def Cell.stepEnd (k : Nat) (r : Row) (pc : BitVec 10) (c : Cell) : Cell :=
  c.modCtx k (fun x =>
    if !x.stepping then x
    else match x.state with
      | .running =>
        if stallRows.contains r && x.pc == pc then x
        else { x with state := .halted, stepping := false, stepDone := true }
      | .halted => { x with stepping := false, stepDone := true }
      | .faulted => { x with stepping := false }
      | _ => x)

/-- Correctable words of a fetch, corrected and written back (R60). -/
def Cell.correct (k : Nat) (as : List Nat) (c : Cell) : Cell :=
  as.foldl (fun c a =>
    if fget ecc0 c.istoreEcc (k * 1024 + a) = .ce
    then Cell.noteErr 4 (k * 1024 + a) false { c with istoreEcc := fset ecc0 c.istoreEcc (k * 1024 + a) .ok } else c) c

/-- An ISTORE_UE at a word: the Restorer counts it once until the word is rewritten (16 R461). -/
def Cell.tellWord (key : Nat) (c : Cell) : Cell :=
  if c.istoreTold.contains key then c else Cell.noteErr 4 key true { c with istoreTold := c.istoreTold ++ [key] }

/-- A REGFILE_UE at a register, counted once until the register is written. -/
def Cell.tellReg (k r : Nat) (c : Cell) : Cell :=
  if (c.ctx k).regUe.contains (r, true) then c
  else (c.noteErr 8 (256 * k + r) true).modCtx k (fun x => { x with regUe := (x.regUe.filter (fun u => u.1 != r)) ++ [(r, true)] })

/-- The instruction at PC, of row `r`, takes effect: its checks, then its body. -/
def State.perform (r : Row) (body : Body) (n k : Nat) (s : State) : State :=
  let e := s.env n
  let c := s.cell n
  if (c.badSources k r).isEmpty then
    (body e k (c.word0 k) (c.word1 k) s).modCell n (Cell.stepEnd k r (c.ctx k).pc)
  else
    let s := s.dieAdd (cellDie n) INT_DIE_UE_REGFILE 1
    s.modCell n (fun c => ((c.tellReg k ((c.badSources k r).headD 0)).raiseHere e k 0x04 ((c.badSources k r).headD 0)).stepEnd k r
      (c.ctx k).pc)

/-- The fetch: an uncorrectable word raises ISTORE_UE, a correctable one is corrected and counted, an undefined one
raises ILLEGAL_INSTR; a defined one of the row `r` is performed. -/
def State.issueAt (r : Row) (body : Body) (n k : Nat) (s0 : State) : State :=
  let s := s0.modCell n (fun c => c.take k)
  let c := s.cell n
  let as := c.fetchAddrs k
  let e := s.env n
  if as.any (fun a => c.fetchEcc k a == .ue) then
    let bad := (as.filter (fun a => c.fetchEcc k a == .ue)).headD 0
    (s.dieAdd (cellDie n) INT_DIE_UE_ISTORE 1).modCell n (fun c =>
      ((c.tellWord (k * 1024 + bad % 1024)).raiseHere e k 0x03 0).stepEnd k r (c.ctx k).pc)
  else
    let ces := (as.filter (fun a => c.fetchEcc k a == .ce)).length
    let s := if ces = 0 then s else (s.dieAdd (cellDie n) INT_DIE_CE_ISTORE ces).modCell n (Cell.correct k as)
    match rowOf (c.word0 k) (c.word1 k) with
    | none => s.modCell n (fun c => (c.illegal e k (c.word0 k)).stepEnd k r (c.ctx k).pc)
    | some r' => if r' = r then s.perform r body n k else s0

/-- A row of the instruction set: the context issues the instruction at its PC when the issue stage selects it and the
word there is of this row. -/
def State.issue (r : Row) (body : Body) (x : CtxRef) (s : State) : Out :=
  s.onCtx x (fun s => if s.mayIssue x.cell x.ctx then s.issueAt r body x.cell x.ctx else s)

end Sys2Proof.Machine
end

