-- ==== Sys2Proof/Machine/CellExec.lean ====
section
/-! DEFINITION. The meanings of the cell's instructions, one for each row of the opcode table
(spec/04_cell_instructions.md R92 to R126). -/

namespace Sys2Proof.Machine
open Sys2Proof

/-- SALU (R92). -/
def execSalu (x : CtxRef) (s : State) : Out := s.issue .salu (cellBody bodySalu) x
/-- SALUI (R92). -/
def execSalui (x : CtxRef) (s : State) : Out := s.issue .salui (cellBody bodySalui) x
/-- LUI (R93). -/
def execLui (x : CtxRef) (s : State) : Out := s.issue .lui (cellBody bodyLui) x
/-- SMUL (R94). -/
def execSmul (x : CtxRef) (s : State) : Out := s.issue .smul (cellBody bodySmul) x
/-- BR (R95). -/
def execBr (x : CtxRef) (s : State) : Out := s.issue .br (cellBody bodyBr) x
/-- J (R96). -/
def execJ (x : CtxRef) (s : State) : Out := s.issue .j (cellBody bodyJ) x
/-- JAL (R96). -/
def execJal (x : CtxRef) (s : State) : Out := s.issue .jal (cellBody bodyJal) x
/-- JR (R96). -/
def execJr (x : CtxRef) (s : State) : Out := s.issue .jr (cellBody bodyJr) x
/-- LOOP (R97). -/
def execLoop (x : CtxRef) (s : State) : Out := s.issue .loop (cellBody bodyLoop) x
/-- SFP (R98). -/
def execSfp (x : CtxRef) (s : State) : Out := s.issue .sfp (cellBody bodySfp) x
/-- DFP (R98). -/
def execDfp (x : CtxRef) (s : State) : Out := s.issue .dfp (cellBody bodyDfp) x
/-- CVT (R99). -/
def execCvt (x : CtxRef) (s : State) : Out := s.issue .cvt (cellBody bodyCvt) x
/-- CVTX (R99). -/
def execCvtx (x : CtxRef) (s : State) : Out := s.issue .cvtx (cellBody bodyCvtx) x
/-- LD (R100). -/
def execLd (x : CtxRef) (s : State) : Out := s.issue .ld (cellBody bodyLd) x
/-- ST (R100). -/
def execSt (x : CtxRef) (s : State) : Out := s.issue .st (cellBody bodySt) x
/-- VMEM_LOAD (R101). -/
def execVmemLoad (x : CtxRef) (s : State) : Out := s.issue .vmemLoad (cellBody bodyVmemLoad) x
/-- VMEM_STORE (R101). -/
def execVmemStore (x : CtxRef) (s : State) : Out := s.issue .vmemStore (cellBody bodyVmemStore) x
/-- TILE_LOAD (R102). -/
def execTileLoad (x : CtxRef) (s : State) : Out := s.issue .tileLoad (cellBody bodyTileLoad) x
/-- TILE_STORE (R102). -/
def execTileStore (x : CtxRef) (s : State) : Out := s.issue .tileStore (cellBody bodyTileStore) x
/-- AADD (R103). -/
def execAadd (x : CtxRef) (s : State) : Out := s.issue .aadd (cellBody bodyAadd) x
/-- ASWAP (R103). -/
def execAswap (x : CtxRef) (s : State) : Out := s.issue .aswap (cellBody bodyAswap) x
/-- SLOT_TAKE (R104). -/
def execSlotTake (x : CtxRef) (s : State) : Out := s.issue .slotTake (cellBody bodySlotTake) x
/-- SLOT_PUT (R104). -/
def execSlotPut (x : CtxRef) (s : State) : Out := s.issue .slotPut (cellBody bodySlotPut) x
/-- VALU (R106). -/
def execValu (x : CtxRef) (s : State) : Out := s.issue .valu (cellBody bodyValu) x
/-- VFP (R106). -/
def execVfp (x : CtxRef) (s : State) : Out := s.issue .vfp (cellBody bodyVfp) x
/-- VCMP (R107). -/
def execVcmp (x : CtxRef) (s : State) : Out := s.issue .vcmp (cellBody bodyVcmp) x
/-- VSEL (R107). -/
def execVsel (x : CtxRef) (s : State) : Out := s.issue .vsel (cellBody bodyVsel) x
/-- PERM (R108). -/
def execPerm (x : CtxRef) (s : State) : Out := s.issue .perm (cellBody bodyPerm) x
/-- BCAST (R108). -/
def execBcast (x : CtxRef) (s : State) : Out := s.issue .bcast (cellBody bodyBcast) x
/-- EXTRACT (R108). -/
def execExtract (x : CtxRef) (s : State) : Out := s.issue .extract (cellBody bodyExtract) x
/-- SLIDE (R108). -/
def execSlide (x : CtxRef) (s : State) : Out := s.issue .slide (cellBody bodySlide) x
/-- LXSUM (R109). -/
def execLxsum (x : CtxRef) (s : State) : Out := s.issue .lxsum (cellBody bodyLxsum) x
/-- LXADD (R109). -/
def execLxadd (x : CtxRef) (s : State) : Out := s.issue .lxadd (cellBody bodyLxadd) x
/-- LXOUT (R109). -/
def execLxout (x : CtxRef) (s : State) : Out := s.issue .lxout (cellBody bodyLxout) x
/-- LXSHR (R109). -/
def execLxshr (x : CtxRef) (s : State) : Out := s.issue .lxshr (cellBody bodyLxshr) x
/-- VCVT (R110). -/
def execVcvt (x : CtxRef) (s : State) : Out := s.issue .vcvt (cellBody bodyVcvt) x
/-- PRED (R111). -/
def execPred (x : CtxRef) (s : State) : Out := s.issue .pred (cellBody bodyPred) x
/-- RECV (R112). -/
def execRecv (x : CtxRef) (s : State) : Out := s.issue .recv (cellBody bodyRecv) x
/-- SEND_POSTED (R113). -/
def execSendPosted (x : CtxRef) (s : State) : Out := s.issue .sendPosted (cellBody bodySendPosted) x
/-- SEND_REQUEST (R113). -/
def execSendRequest (x : CtxRef) (s : State) : Out := s.issue .sendRequest (cellBody bodySendRequest) x
/-- SEND_RESPONSE (R113). -/
def execSendResponse (x : CtxRef) (s : State) : Out := s.issue .sendResponse (cellBody bodySendResponse) x
/-- SYNC (R116). -/
def execSync (x : CtxRef) (s : State) : Out := s.issue .sync (cellBody bodySync) x
/-- RIF (R117). -/
def execRif (x : CtxRef) (s : State) : Out := s.issue .rif (cellBody bodyRif) x
/-- DMA (R118). -/
def execDma (x : CtxRef) (s : State) : Out := s.issue .dma (cellBody bodyDma) x
/-- MWAIT (R123). -/
def execMwait (x : CtxRef) (s : State) : Out := s.issue .mwait (cellBody bodyMwait) x
/-- PCFG (R124). -/
def execPcfg (x : CtxRef) (s : State) : Out := s.issue .pcfg (cellBody bodyPcfg) x
/-- NOP (R125). -/
def execNop (x : CtxRef) (s : State) : Out := s.issue .nop (cellBody bodyNop) x
/-- HALT (R125). -/
def execHalt (x : CtxRef) (s : State) : Out := s.issue .halt (cellBody bodyHalt) x
/-- YIELD (R125). -/
def execYield (x : CtxRef) (s : State) : Out := s.issue .yield (cellBody bodyYield) x
/-- FENCE (R125). -/
def execFence (x : CtxRef) (s : State) : Out := s.issue .fence (cellBody bodyFence) x
/-- WAITT (R125). -/
def execWaitt (x : CtxRef) (s : State) : Out := s.issue .waitt (cellBody bodyWaitt) x
/-- The effect of a WAITF: OBJECT is the tick of the edge it waits for, once known. -/
def waitfState : Body := fun e k w ext s => cellBody (bodyWaitf (s.edgeObj e.n)) e k w ext s
/-- WAITF (R125). -/
def execWaitf (x : CtxRef) (s : State) : Out := s.issue .waitf waitfState x
/-- RDTICK (R125). -/
def execRdtick (x : CtxRef) (s : State) : Out := s.issue .rdtick (cellBody bodyRdtick) x
/-- RDCTX (R125). -/
def execRdctx (x : CtxRef) (s : State) : Out := s.issue .rdctx (cellBody bodyRdctx) x
/-- BRK (R125). -/
def execBrk (x : CtxRef) (s : State) : Out := s.issue .brk (cellBody bodyBrk) x
/-- The effect of a TMAC on the cells of its slab. -/
def tmacState : Body := fun e k w ext s => { s with cells := tmacBody e s.phys s.cycle k w ext s.cells }
/-- TMAC (R119 to R123). -/
def execTmac (x : CtxRef) (s : State) : Out := s.issue .tmac tmacState x
/-- RSIG (R126). -/
def execRsig (x : CtxRef) (s : State) : Out := s.issue .rsig State.bodyRsig x
/-- RASPEND (R126). -/
def execRaspend (x : CtxRef) (s : State) : Out := s.issue .raspend State.bodyRaspend x

/-- The effect of each row. -/
def rowBody : Row → Body
  | .salu => cellBody bodySalu
  | .salui => cellBody bodySalui
  | .lui => cellBody bodyLui
  | .smul => cellBody bodySmul
  | .br => cellBody bodyBr
  | .j => cellBody bodyJ
  | .jal => cellBody bodyJal
  | .jr => cellBody bodyJr
  | .loop => cellBody bodyLoop
  | .sfp => cellBody bodySfp
  | .dfp => cellBody bodyDfp
  | .cvt => cellBody bodyCvt
  | .cvtx => cellBody bodyCvtx
  | .ld => cellBody bodyLd
  | .st => cellBody bodySt
  | .vmemLoad => cellBody bodyVmemLoad
  | .vmemStore => cellBody bodyVmemStore
  | .tileLoad => cellBody bodyTileLoad
  | .tileStore => cellBody bodyTileStore
  | .aadd => cellBody bodyAadd
  | .aswap => cellBody bodyAswap
  | .slotTake => cellBody bodySlotTake
  | .slotPut => cellBody bodySlotPut
  | .valu => cellBody bodyValu
  | .vfp => cellBody bodyVfp
  | .vcmp => cellBody bodyVcmp
  | .vsel => cellBody bodyVsel
  | .perm => cellBody bodyPerm
  | .bcast => cellBody bodyBcast
  | .extract => cellBody bodyExtract
  | .slide => cellBody bodySlide
  | .lxsum => cellBody bodyLxsum
  | .lxadd => cellBody bodyLxadd
  | .lxout => cellBody bodyLxout
  | .lxshr => cellBody bodyLxshr
  | .vcvt => cellBody bodyVcvt
  | .pred => cellBody bodyPred
  | .recv => cellBody bodyRecv
  | .sendPosted => cellBody bodySendPosted
  | .sendRequest => cellBody bodySendRequest
  | .sendResponse => cellBody bodySendResponse
  | .sync => cellBody bodySync
  | .rif => cellBody bodyRif
  | .dma => cellBody bodyDma
  | .mwait => cellBody bodyMwait
  | .pcfg => cellBody bodyPcfg
  | .nop => cellBody bodyNop
  | .halt => cellBody bodyHalt
  | .yield => cellBody bodyYield
  | .fence => cellBody bodyFence
  | .waitt => cellBody bodyWaitt
  | .waitf => waitfState
  | .rdtick => cellBody bodyRdtick
  | .rdctx => cellBody bodyRdctx
  | .brk => cellBody bodyBrk
  | .tmac => tmacState
  | .rsig => State.bodyRsig
  | .raspend => State.bodyRaspend

end Sys2Proof.Machine
end

