-- ==== Sys2Proof/Machine/CellCmd.lean ====
section
/-! DEFINITION. The meanings of the commands to one cell that are not instructions: context commands, debug windows,
freeze, timeouts, scratchpad and MAC registers (spec/03_cell_core.md R57 to R83, spec/06_scratchpad.md R189 to R198). -/

namespace Sys2Proof.Machine
open Sys2Proof

/-- A write to a cell's window: ignored for a fenced or fused-off cell (03 R77). -/
def State.onWin (s : State) (n : Nat) (f : State → State) : Out := s.onCell n (fun s => if s.cellFenced n then s else f s)

/-- A write to a context's registers. -/
def State.onCtxWin (s : State) (x : CtxRef) (f : State → State) : Out :=
  if x.ctx < 4 then s.onWin x.cell f else .fault .noSuchUnit

/-- An access to a data window: the value read goes to the reader. -/
def State.access (s : State) (n : Nat) (f : Cell → Nat × Cell) : State :=
  let r := f (s.cell n)
  { s.modCell n (fun _ => r.2) with readVal := r.1, readStat := 0 }

/-- A slab that a cell breaks up (05 R141). -/
def State.breakSlab (s : State) (n : Nat) : State := { s with cells := slabBroken (s.env n) s.phys n s.cells }

/-- SLOT_TIMEOUT (04 R104). -/
def execSlotTimeout (x : CtxRef) (s : State) : Out :=
  s.onCtx x (fun s => s.modCell x.cell (Cell.slotTimeout (s.env x.cell) x.ctx))

/-- RECV_TIMEOUT (03 R65). -/
def execRecvTimeout (x : CtxRef) (s : State) : Out :=
  s.onCtx x (fun s => s.modCell x.cell (Cell.recvTimeout (s.env x.cell) x.ctx))

/-- WAITT_WAKE (04 R125). -/
def execWaittWake (x : CtxRef) (s : State) : Out :=
  s.onCtx x (fun s => s.modCell x.cell (Cell.waittWake (s.env x.cell) x.ctx))

/-- CTX_START (03 R69, R72). -/
def execCtxStart (x : CtxRef) (s : State) : Out := s.onCtxWin x (fun s => s.modCell x.cell (Cell.start x.ctx))

/-- CTX_HALT (03 R69). -/
def execCtxHalt (x : CtxRef) (s : State) : Out := s.onCtxWin x (fun s => s.modCell x.cell (Cell.haltCtx x.ctx))

/-- A STEP from HALTED (03 R69): the context is selectable, and its instruction issues at once where it is selected. -/
def State.stepCtx (s : State) (n k : Nat) : State :=
  let c := s.cell n
  if (c.ctx k).state ≠ .halted ∨ (k = 3 ∧ c.rd CELL_CTRL_CTX3_ROLE = 1) then s
  else
    let s := s.modCell n (fun c => c.modCtx k (fun x => { x with state := .ready, stepping := true, stepDone := false }))
    if s.mayIssue n k then
      let c := s.cell n
      match rowOf (c.word0 k) (c.word1 k) with
      | some r => s.issueAt r (rowBody r) n k
      | none => s.issueAt .nop (rowBody .nop) n k
    else s

/-- CTX_STEP (03 R69, R72). -/
def execCtxStep (x : CtxRef) (s : State) : Out := s.onCtxWin x (fun s => s.stepCtx x.cell x.ctx)

/-- PROG_VALID_WRITE (03 R66). -/
def execProgValidWrite (x : CtxRef) (v : Bool) (s : State) : Out :=
  s.onCtxWin x (fun s => s.modCell x.cell (Cell.progValid x.ctx v))

/-- A read or write of a data window of a cell: writes to a fenced or fused-off cell are ignored. -/
def State.onData (s : State) (n : Nat) (w : Option W64) (f : Bool → Nat → Cell → Nat × Cell) : Out :=
  match w with
  | none => s.onAnyCell n (fun s => s.access n (f false 0))
  | some v => s.onWin n (fun s => s.access n (f true v.toNat))

/-- CELL_IS_DATA_ACCESS (03 R59). -/
def execCellIsDataAccess (n : Nat) (w : Option W64) (s : State) : Out := s.onData n w Cell.isData

/-- CELL_REG_DATA_ACCESS (03 R57). -/
def execCellRegDataAccess (n : Nat) (w : Option W64) (s : State) : Out := s.onData n w Cell.regData

/-- FREEZE_WRITE (03 R82, 05 R141). -/
def execFreezeWrite (n : Nat) (v : Bool) (s : State) : Out :=
  s.onAnyCell n (fun s =>
    let s := if v then s.breakSlab n else s
    s.modCell n (Cell.freezeWrite v))

/-- FREEZE_COMPLETE (03 R82): `late` names the contexts whose instruction had not completed by the 16th cycle. -/
def execFreezeComplete (n : Nat) (late : BitVec 4) (s : State) : Out :=
  s.onAnyCell n (fun s => s.modCell n (Cell.freezeComplete late.toNat))

/-- MAC_FLAGS_RESTART (05 R145). -/
def execMacFlagsRestart (n : Nat) (s : State) : Out := s.onWin n (fun s => s.modCell n Cell.macFlagsRestart)

/-- MAC_OP_COMPLETE at the origin cell of an operation (04 R123, 05 R165). -/
def execMacOpComplete (n : Nat) (s : State) : Out :=
  s.onCell n (fun s => { s with cells := macComplete (s.env n) s.phys s.cycle n s.cells })

/-- Banks under test that a write to SPD_OWN takes out of NONE: their test is incomplete (16 R478). -/
def State.raspOwn (s : State) (n : Nat) (before after : Cell) : State :=
  let q := cellCourt n
  let k := s.court q
  if s.raspCell q ≠ n ∨ (k.rd RES_RASP_CTRL_STEP = 0 ∧ !before.rasp) then s
  else
    let gone := (List.range 16).filter (fun b => bit k.raspBanks b && !bit k.raspGone b && before.ownState b == 0 && after.ownState b != 0)
    s.modCourt q (fun k => { k.addSat RES_RASP_STATUS_INCOMPLETE gone.length with
      raspGone := gone.foldl (fun m b => m + 2 ^ b) k.raspGone })

/-- SPD_OWN_WRITE (06 R189). -/
def execSpdOwnWrite (n : Nat) (v : W64) (s : State) : Out :=
  s.onWin n (fun s =>
    let c := s.cell n
    let d := c.ownWrite s.cycle v.toNat (List.range 16)
    (s.modCell n (fun _ => d)).raspOwn n c d)

/-- BANK_CLEAR_END (06 R198). -/
def execBankClearEnd (n : Nat) (s : State) : Out := s.onCell n (fun s => s.modCell n Cell.clearEnd)

/-- SPD_CLEAR_WRITE (06 R198). -/
def execSpdClearWrite (n : Nat) (v : W64) (s : State) : Out :=
  s.onWin n (fun s => s.modCell n (fun c => c.clearWrite s.cycle v.toNat))

/-- SPD_RING_CFG_WRITE (06 R191). -/
def execSpdRingCfgWrite (n r : Nat) (v : W64) (s : State) : Out :=
  if r < 16 then s.onWin n (fun s => s.modCell n (fun c => c.ringCfgWrite r v.toNat)) else .fault .noSuchUnit

/-- SPD_RING_RESET (06 R195). -/
def execSpdRingReset (n r : Nat) (s : State) : Out :=
  if r < 16 then s.onWin n (fun s => s.modCell n (fun c => c.ringReset r)) else .fault .noSuchUnit

/-- Whether the host's scratchpad window of a cell is open: CELLWIN of the niche that holds its court (14 R415). -/
def State.cellWin (s : State) (n : Nat) : Bool :=
  match s.nicheAt (cellCourt n) with
  | some i => s.flag (NCH_CFG_CELLWIN.niche i)
  | none => true

/-- SPD_HOST_DATA_ACCESS (06 R197): with CELLWIN = 0 Unsupported Request, and nothing changes (14 R415). -/
def execSpdHostDataAccess (n : Nat) (w : Option W64) (s : State) : Out :=
  if n < cellCount ∧ s.cellWin n = false then .next { s with readVal := 0, readStat := 2 }
  else s.onData n w (fun b v c => c.hostData b v)

/-- SPD_ECC_WRITEBACK (06 R196). -/
def execSpdEccWriteback (n word : Nat) (s : State) : Out :=
  if word < 49152 then s.onCell n (fun s => s.modCell n (fun c => c.spdWriteback word)) else .fault .noSuchUnit

/-- ARM_RS_DATA_ACCESS (07 R213). -/
def execArmRsDataAccess (n : Nat) (w : Option W64) (s : State) : Out := s.onData n w Cell.rsData

/-- A command to a route schedule: routers of fused-off cells run schedules (07 R209). -/
def State.onSched (s : State) (x : CtxRef) (f : Env → Bool → Cell → Cell) : Out :=
  if x.ctx < 4 ∧ x.cell < cellCount then
    .next (if fget noMark s.dieHalt (cellDie x.cell) then s
      else s.modCell x.cell (f (s.env x.cell) (s.fused x.cell)))
  else .fault .noSuchUnit

/-- ARM_GO (07 R219). -/
def execArmGo (x : CtxRef) (s : State) : Out := s.onSched x (fun e _ c => c.armGoWrite e x.ctx)

/-- ARM_STOP (07 R219). -/
def execArmStop (x : CtxRef) (s : State) : Out := s.onSched x (fun _ _ c => c.armStop x.ctx)

/-- ARM_ENABLE_WRITE (07 R219). -/
def execArmEnableWrite (x : CtxRef) (v : Bool) (s : State) : Out := s.onSched x (fun _ _ c => c.armEnable x.ctx v)

/-- SCHED_START (07 R219): a router whose cell carries no logical cell runs no schedule (07 R206). -/
def execSchedStart (x : CtxRef) (s : State) : Out :=
  let mapped := (s.logical x.cell).isSome
  s.onSched x (fun e fused c => if mapped then c.schedEvent e fused x.ctx else c)

end Sys2Proof.Machine
end

