-- ==== Sys2Proof/Machine/Mesh.lean ====
section
/-! DEFINITION. The mesh around the routers: hops, seam bridges, the cycle that every router takes, shift
mode (spec/07_armature.md R203, R206 to R212, R225). -/

namespace Sys2Proof.Machine
open Sys2Proof

/-- The logical cell next to one in direction 0 N, 1 E, 2 S, 3 W; none across the die's outer edge. -/
def neighbour (id d : Nat) : Option Nat :=
  let x := idX id
  let y := idY id
  match d with
  | 0 => if y = 0 then none else some (mkId x (y - 1))
  | 1 => if 95 ≤ x then none else some (mkId (x + 1) y)
  | 2 => if 95 ≤ y then none else some (mkId x (y + 1))
  | _ => if x = 0 then none else some (mkId (x - 1) y)

/-- Mesh directions that face the outer edge of the package. -/
def outerEdges (id : Nat) : Nat :=
  b2n (idY id == 0) + 2 * b2n (decide (95 ≤ idX id)) + 4 * b2n (decide (95 ≤ idY id)) + 8 * b2n (idX id == 0)

/-- The hop latency between neighbours (R203). -/
def hopLatency (a b : Nat) : Nat :=
  if idX a / 48 ≠ idX b / 48 ∨ idY a / 48 ≠ idY b / 48 then 8
  else if idX a / 16 ≠ idX b / 16 ∨ idY a / 16 ≠ idY b / 16 then 3
  else 1

/-- The die of a logical cell (00 R7). -/
def idDie (id : Nat) : Nat := idX id / 48 + 2 * (idY id / 48)

/-- Whether a hop crosses a seam whose bridge is in ALARM (R212). -/
def State.seamBad (s : State) (a b : Nat) : Bool :=
  (idX a / 48 != idX b / 48 && (s.dieRd (idDie a) ARM_SEAM_STATUS_H_ALARM != 0))
    || (idY a / 48 != idY b / 48 && (s.dieRd (idDie a) ARM_SEAM_STATUS_V_ALARM != 0))

/-- A word put on a mesh output. -/
def State.launch (s : State) (id : Nat) (s' : State) (o : Nat × VR) : State :=
  match neighbour id o.1 with
  | none => s'
  | some b => { s' with flights := s'.flights ++ [⟨s.cycle + hopLatency id b, id, b, (o.1 + 2) % 4, o.2, parityOf o.2.v⟩] }

/-- A word as its hop delivers it: a bridge in ALARM poisons it, and its lanes' parity is checked (R212, R227). The lanes in
error. -/
def State.landed (s : State) (f : Flight) : VR × Nat :=
  let r := checkParity f.word f.par
  (if s.seamBad f.src f.dest then { r.1 with p := BitVec.allOnes 16 } else r.1, r.2)

/-- Whether a router has work: a schedule that runs, a sum on its way, or a word that arrives. -/
def Cell.routerBusy (c : Cell) (arrives : Bool) : Bool := arrives || !c.armComb.isEmpty || !c.running.isEmpty

/-- Whether a router runs: its die has clocks, and its cell carries a logical cell (R206). -/
def State.routerOn (s : State) (n : Nat) : Bool := !fget noMark s.dieHalt (cellDie n) && (s.logical n).isSome

/-- One router's switching in a mesh cycle. -/
def State.routerStep (s : State) (s' : State) (n : Nat) : State :=
  match s.logical n with
  | none => s'
  | some id =>
    let fs := s.flights.filter (fun f => f.due == s.cycle && f.dest == id)
    if !s.routerOn n || !(s'.cell n).routerBusy (!fs.isEmpty) then s'
    else
      let ins := fs.map (fun f => (f.input, (s.landed f).1))
      let c := (s'.cell n).parityErrors ((fs.map (fun f => (s.landed f).2)).sum)
      let r := c.routerCycle (s.env n) (s.fused n) (outerEdges id) ins
      r.outs.foldl (s.launch id) (s'.modCell n (fun _ => r.cell))

/-- What passes in a cell before the accesses of a mesh cycle: hand-overs and clears of its banks. -/
def Cell.cycleBegin (e : Env) (c : Cell) : Cell :=
  if c.clears.isEmpty && c.ownOld.isEmpty then c else (List.range 16).foldl (Cell.ownCycle e.cycle) c

/-- What passes in a cell at the end of a mesh cycle. -/
def Cell.cycleEnd (e : Env) (c : Cell) : Cell := [0, 1, 2, 3].foldl (Cell.ctxCycle e.cycle) c.ringEnds

/-- A change of every listed cell that satisfies a test, in order. -/
def State.eachCell (p : Nat → Bool) (f : Nat → Cell → Cell) (s : State) : State :=
  (s.cells.map (fun x => x.1)).foldl (fun s n => if p n then s.modCell n (f n) else s) s

/-- A step of the MAC blocks of every listed cell. -/
def State.eachMac (f : Nat → Cells → Cells) (s : State) : State :=
  (s.cells.map (fun x => x.1)).foldl (fun s n => { s with cells := f n s.cells }) s

/-- The rows that drains have offered and no entry has taken are lost: DRAIN_MISS with DETAIL 0 on the contexts that started
them (R228, R229). -/
def State.lostOffers (s : State) : State :=
  s.cells.foldl (fun s x =>
    match x.2.offer with
    | none => s
    | some o => (s.modCell x.1 (fun c => { c with offer := none })).modCell o.origin (Cell.raise (s.env o.origin) o.ctx 0x83 0 o.pc)) s

/-- Whether a message addressed to a logical cell remains anywhere. -/
def State.addressed (s : State) (id : Nat) : Bool :=
  s.cells.any (fun p => p.2.inj.any (fun m => m.dest == id) || p.2.stop.any (fun b => b.2.any (fun m => m.dest == id)))
    || s.courts.any (fun p => p.2.out.any (fun m => m.dest == id))

/-- Quarantines that a cell reset has left are cleared once no message for the cell remains (08 R254). -/
def State.quarEnds (s : State) : State :=
  s.cells.foldl (fun s x =>
    if x.2.quarEnd && (match s.logical x.1 with | some id => !s.addressed id | none => true)
    then s.modCell x.1 (fun c => { c with quar := [], quarEnd := false }) else s) s

/-- One mesh cycle: the writes of its fixed-time claims, then the reads, each port's class 4 before class 3 before class 2
(06 R180, R184), then every router switches. -/
def State.meshCycle (s : State) : State :=
  let on := fun n => !fget noMark s.dieHalt (cellDie n)
  let t := s.eachCell on (fun n => Cell.cycleBegin (s.env n))
  let t := t.eachCell s.routerOn (fun n c => (c.armStarts (s.env n) (s.fused n)).armWrites (s.env n))
  let t := t.eachMac (fun n => if on n then drainWrites (s.env n) s.cycle n else id)
  let t := t.eachCell s.routerOn (fun n => Cell.armReads (s.env n))
  let t := t.eachMac (fun n => if on n then drainReads (s.env n) s.cycle n else id)
  let t := t.eachMac (fun n => if on n then macCycle (s.env n) s.phys s.cycle n else id)
  let ns := t.cells.map (fun p => p.1)
  let ds := ((s.flights.filter (fun f => f.due == s.cycle)).map (fun f => s.phys f.dest)).filter (fun n => !ns.contains n)
  let t := (ns ++ ds.dedup).foldl s.routerStep { t with flights := s.flights.filter (fun f => f.due != s.cycle) }
  let t := (t.lostOffers.eachCell on (fun n => Cell.cycleEnd (s.env n))).quarEnds
  { t with cycle := t.cycle + 1 }

/-! ### Shift mode (R210) -/

/-- A cell moves its scratchpad, scan image and Armature state, and the tags and locks of its Sprue stop, to its east
neighbour (07 R210, 16 R464 step 3). -/
def State.shiftEast (s : State) (n : Nat) : State :=
  if cellCol n = 8 then s
  else
    let w := s.cell n
    (s.modCell n Cell.spdScrub).modCell (n + 1) (fun c =>
      let c := (w.shiftFrom c).restore none s.tick 0xFFF (w.image (s.env n) 0xFFF)
      { (w.spdRegsTo c) with tags := w.tags, quar := w.quar, locks := w.locks })

/-- ARM_SHIFT: shift mode begins with the moves, or ends (07 R210). -/
def execArmShift (n : Nat) (v : Bool) (s : State) : Out :=
  s.onCell n (fun s =>
    let s := s.modCell n (fun c => c.wr ARM_CTRL_SHIFT (b2n v))
    if v then s.shiftEast n else s)

/-! ### Seam alarms (R212) -/

/-- The dies of a seam: 0 joins dies 0 and 1, 1 dies 2 and 3, 2 dies 0 and 2, 3 dies 1 and 3. -/
def seamDies : Nat → Nat × Nat
  | 0 => (0, 1) | 1 => (2, 3) | 2 => (0, 2) | _ => (1, 3)

/-- The physical cell of a reset step at context or cell level. -/
def ResetReq.cell (r : ResetReq) : Nat := if r.level = 1 then r.unit / 4 else r.unit

/-- Whether reset step `a` reaches every unit that step `b` reaches (17 R487). -/
def State.covers (s : State) (a b : ResetReq) : Bool :=
  match a.level with
  | 1 => b.level == 1 && a.unit == b.unit
  | 2 => decide (b.level ≤ 2) && a.unit == b.cell
  | 3 => if b.level = 3 then a.unit == b.unit else decide (b.level ≤ 2) && s.nicheHas a.unit (cellCourt b.cell)
  | 4 => if b.level = 4 then a.unit == b.unit
    else if b.level = 3 then (s.nicheCourts b.unit).any (fun q => courtDie q == a.unit)
    else decide (b.level ≤ 2) && cellDie b.cell == a.unit
  | 5 => decide (b.level ≤ 5)
  | _ => true

/-- A die reset of die 0 is a package reset (17 R488). -/
def ResetReq.norm (r : ResetReq) : ResetReq := if r.level = 4 ∧ r.unit = 0 then { r with level := 5 } else r

/-- A reset step becomes due; it is absorbed into a due step of the same or a higher level on its units, and takes the
place of lower ones (17 R491, R499). -/
def State.demand (s : State) (r : ResetReq) : State :=
  let r := { r.norm with since := s.tick }
  if s.resets.any (fun q => s.covers q r) then s
  else { s.wr RST_STATUS_ESCALATING 1 with resets := s.resets.filter (fun q => !s.covers r q) ++ [r] }

/-- A reset step has been taken: what it reaches is no longer due. -/
def State.resetDone (s : State) (r : ResetReq) : State :=
  let rs := s.resets.filter (fun q => !s.covers r q)
  { s.wr RST_STATUS_ESCALATING (b2n (!rs.isEmpty)) with resets := rs }

/-- SEAM_ALARM: ALARM in both dies, and a reset is due for every niche that spans the seam (07 R212, 17 R491). -/
def execSeamAlarm (seam : Nat) (s : State) : Out :=
  if 4 ≤ seam then .fault .noSuchUnit
  else
    let d := seamDies seam
    let set := fun (s : State) x =>
      if seam < 2 then (s.dieWr x ARM_SEAM_STATUS_H_ALARM 1).dieWr x ARM_SEAM_STATUS_H_MARGIN 0
      else (s.dieWr x ARM_SEAM_STATUS_V_ALARM 1).dieWr x ARM_SEAM_STATUS_V_MARGIN 0
    let s := set (set s d.1) d.2
    let span := fun i => (s.nicheCourts i).any (fun q => courtDie q == d.1) && (s.nicheCourts i).any (fun q => courtDie q == d.2)
    .next (((List.range 16).filter span).foldl (fun s i => s.demand { level := 3, unit := i, trigger := 6, die := d.1, niche := some i }) s)

end Sys2Proof.Machine
end

