-- ==== Sys2Proof/Machine/Sprue.lean ====
section
/-! DEFINITION. Sprue stops, route tables and epochs (spec/08_sprue_sync.md R231 to R254). -/

namespace Sys2Proof.Machine
open Sys2Proof

/-- Flits of a message (R231). -/
def Msg.flits (m : Msg) : Nat := 2 + (m.len + 7) / 8

/-- The virtual channel of a message: 0 request, 1 response (R233). -/
def Msg.vc (m : Msg) : Nat := match m.kind with | .posted => 0 | .request => 0 | .response => 1 | .nack => 1

/-- The package court of a logical cell (00 R7). -/
def idCourt (id : Nat) : Nat := 12 * (idY id / 8) + idX id / 8

/-- The epoch table's field of a niche (R249): in die 0's block. -/
def Fld.epoch (f : Fld) (i : Nat) : Fld := f.up (8 * i)

/-- The active route-table version at a court (R248). -/
def State.activeEpoch (s : State) (q : Nat) : Nat :=
  match s.nicheAt q with
  | some i => s.dieRd 0 (SPR_NICHE_EPOCH_ACTIVE.epoch i)
  | none => 0

/-- Whether privileged units of a court hold their injections (R249). -/
def State.privHeld (s : State) (q : Nat) : Bool :=
  match s.nicheAt q with
  | some i => s.dieRd 0 (SPR_NICHE_EPOCH_PRIV_HOLD.epoch i) != 0
  | none => false

/-- Messages that the stops of a niche hold. -/
def State.nicheMsgs (s : State) (i : Nat) : List Msg :=
  (s.nicheCells i).flatMap (fun n => (s.cell n).stop.flatMap (fun p => p.2))

/-- OLD_BUSY (R250). -/
def State.oldBusy (s : State) (i : Nat) : Bool :=
  (s.nicheMsgs i).any (fun m => m.epoch != s.dieRd 0 (SPR_NICHE_EPOCH_ACTIVE.epoch i))

/-- PRIV_BUSY (R250). -/
def State.privBusy (s : State) (i : Nat) : Bool := (s.nicheMsgs i).any (fun m => m.priv)

/-! ### The inputs of a stop (R243) -/

/-- The first message of a channel that a queue of messages from contexts may inject, with the others: a context's messages are
injected in program order, on both channels (04 R89); the stop's own NACKs are of no context. -/
def takeInj (vc : Nat) (seen : List Nat) : List Msg → Option (Msg × List Msg)
  | [] => none
  | m :: t =>
    if m.vc = vc ∧ (m.kind = .nack ∨ !seen.contains m.srcCtx) then some (m, t)
    else (takeInj vc (if m.kind = .nack then seen else m.srcCtx :: seen) t).map (fun r => (r.1, m :: r.2))

/-- The first message of a channel at an input: 0 to 3 mesh inputs N, E, S, W; 4 the injection queue; 5 the court port. -/
def State.headAt (s : State) (n input vc : Nat) : Option Msg :=
  if input < 4 then (fget nil0 (s.cell n).stop (2 * input + vc)).head?
  else if input = 4 then (takeInj vc [] (s.cell n).inj).map (·.1)
  else ((s.court (cellCourt n)).out.find? (fun m => m.vc == vc))

/-- The list without its first message of a channel. -/
def dropVc (vc : Nat) (l : List Msg) : List Msg :=
  match takeFirst (fun (m : Msg) => m.vc == vc) l with
  | some r => r.2
  | none => l

/-- Take that message away. -/
def State.popAt (s : State) (n input vc : Nat) : State :=
  if input < 4 then
    s.modCell n (fun c => { c with stop := fset nil0 c.stop (2 * input + vc) ((fget nil0 c.stop (2 * input + vc)).drop 1) })
  else if input = 4 then s.modCell n (fun c => { c with inj := ((takeInj vc [] c.inj).map (·.2)).getD c.inj })
  else s.modCourt (cellCourt n) (fun q => { q with out := dropVc vc q.out })

/-- A payload flit of the first message at a mesh input has failed its parity (R234). -/
def State.spoilAt (s : State) (n input vc : Nat) : State :=
  s.modCell n (fun c => { c.addSat SPR_STATUS_PAR_CNT 1 with stop := fmod nil0 c.stop (2 * input + vc) (fun l => match l with
    | [] => []
    | m :: t => { m with poison := true } :: t) })

/-- Whether the next stop has room for the whole message (R243). -/
def State.roomAt (s : State) (n input : Nat) (m : Msg) : Bool :=
  decide (((fget nil0 (s.cell n).stop (2 * input + m.vc)).map Msg.flits).sum + m.flits ≤ 10)

/-! ### Refusals (R238) -/

/-- The NACK of a refused request. -/
def nackOf (id reason : Nat) (m : Msg) : Msg :=
  { kind := .nack, priv := true, len := 8, tag := m.tag, unit := 0, port := 0x30, dest := m.src, src := id
    payload := valBytes (reason + id * 2 ^ 16) 8 }

/-- A stop refuses a message it has taken. -/
def State.refuse (s : State) (n id reason : Nat) (m : Msg) : State :=
  let s := s.modCell n (fun c => (c.addSat SPR_STATUS_REFUSED_CNT 1).wr SPR_ERR_REFUSED 1)
  match m.kind with
  | .request => s.modCell n (fun c => { c with inj := c.inj ++ [nackOf id reason m] })
  | .posted => s.event (cellDie n) { code := 0xA0, ctx := m.srcCtx, ctxValid := true, detail := reason, unit := s.phys m.src
                                     index := m.src, niche := s.nicheAt (idCourt m.src) }
  | _ => s.modCell n (fun c => c.addSat SPR_STATUS_STALE_CNT 1)

/-! ### Delivery (R235 to R239) -/

/-- The hub cell of a court (R237). -/
def courtHub (q : Nat) : Nat := hubId (q % 12) (q / 12)

/-- The reason for which the destination stop refuses a message (R238). -/
def destRefusal (id : Nat) (m : Msg) : Option Nat :=
  let rsp := m.kind == .response || m.kind == .nack
  match m.unit with
  | 0 => if rsp then (if m.port = 0x30 then none else some 1)
         else if portListed m.port && !portArm m.port && m.port != 0x30 then none else some 1
  | 1 => if id ≠ courtHub (idCourt id) then some 6
         else if (m.port = 0 ∧ m.len = 8) ∨ (m.port = 1 ∧ m.len = 0) then none else some 1
  | 2 => if id ≠ courtHub (idCourt id) then some 6 else none
  | 3 => if id ≠ courtHub (idCourt id) then some 6 else none
  | _ => some 2

/-- Whether the stop holds a delivery to its cell's ports (R239). -/
def Cell.holdsDelivery (c : Cell) (m : Msg) : Bool :=
  m.unit == 0 && (c.flag CELL_CTRL_ISOLATE || (c.scanning && c.scanIn)
    || (m.vc == 0 && decide (24 ≤ c.recvReq.length)))

/-- An entry that arrives while a scan-out runs is counted (03 R83). -/
def Cell.lateArrival (c : Cell) : Cell :=
  if c.scanning && !c.scanIn then c.addSat CELL_SCAN_STATUS_LATE_ARRIVALS 1 else c

/-- A message that its stop has taken is written at its destination. -/
def State.deliverMsg (s : State) (n : Nat) (m : Msg) : State :=
  let q := cellCourt n
  match m.unit with
  | 0 =>
    match m.kind with
    | .response => s.modCell n (fun c => (c.lateArrival).responseReceive (s.env n) m)
    | .nack => s.modCell n (fun c => c.nackReceive (s.env n) m)
    | _ => s.modCell n (fun c =>
        let en : RecvEntry := ⟨m.payload, m.len, m.port, m.tag, m.src, m.poison⟩
        ({ c.lateArrival with recvReq := c.recvReq ++ [en] }).wakeRecv en)
  | 1 =>
    if m.poison then
      s.event (courtDie q) { code := 0xE7, ctx := m.srcCtx, ctxValid := true, detail := (m.info.getD 1 0) % 128
                             unit := s.phys m.src, index := m.src, niche := s.nicheAt (idCourt m.src) }
    else s.modCourt q (fun c => { c with syncIn := c.syncIn ++ [m] })
  | 2 => s.modCourt q (fun c => { c with rifIn := c.rifIn ++ [m] })
  | _ => s.modCourt q (fun c => { c with dmaIn := c.dmaIn ++ [m] })

/-! ### One stop's move (R240, R241) -/

/-- The source stop's reason to refuse (R238). -/
def State.sourceRefusal (s : State) (m : Msg) : Option Nat :=
  if 4 < m.unit ∨ (m.unit = 4 ∧ m.kind ≠ .posted) then some 2
  else if !validId false m.dest then some 3
  else if !validId s.small m.dest then some 7
  else none

/-- The source stop fills EPOCH and ROUTE from its court's table (R247). An orphan notice keeps its EPOCH while messages
of the old one remain (R261). -/
def State.inject (s : State) (id : Nat) (m : Msg) : Msg :=
  let q := idCourt id
  let act := s.activeEpoch q
  let old : Bool := match s.nicheAt q with
    | some i => s.oldBusy i
    | none => false
  let ep := if m.unit = 1 ∧ m.port = 1 ∧ old then m.epoch else act
  { m with epoch := ep, started := false, entered := false
           route := if idCourt m.dest = q ∨ m.unit = 4 then 0
                    else (fget r0 (s.court q).rt (ep * 144 + idCourt m.dest)).toNat }

/-- What a stop does with a head flit: it is home, it goes a hop in a direction, or it is refused. -/
inductive Hop where
  | home | go (d : Nat) (m : Msg) | bad (reason : Nat)
deriving DecidableEq, Repr

/-- The direction within the destination court: X first, then Y. -/
def courtDir (id dest : Nat) : Nat :=
  if idX id < idX dest then 1 else if idX dest < idX id then 3 else if idY id < idY dest then 2 else 0

/-- The move of R241, from its code. -/
def hopOf (id : Nat) (source : Bool) (m : Msg) : Hop :=
  if !validId false m.dest then .bad 3
  else if id = m.dest then .home
  else if idCourt id = idCourt m.dest then .go (courtDir id m.dest) m
  else if source then .go (m.route % 4) { m with heading := m.route % 4, route := m.route / 4, entered := false }
  else if m.entered then
    match m.route % 4 with
    | 0 => .bad 3
    | c =>
      let h := if c = 1 then m.heading else if c = 2 then (m.heading + 3) % 4 else (m.heading + 1) % 4
      .go h { m with heading := h, route := m.route / 4, entered := false }
  else .go m.heading m

/-- A SYNC request's tag remembers the EPOCH that its message uses, and so do the orphan notices that wait behind it for the same
store (R261). -/
def State.noteEpoch (s : State) (n : Nat) (m : Msg) : State :=
  if m.kind = .request ∧ m.unit = 1 then
    s.modCell n (fun c =>
      { c with tags := c.tags.map (fun r => if r.tag = m.tag then { r with epoch := m.epoch } else r)
               inj := c.inj.map (fun r => if r.unit = 1 ∧ r.port = 1 ∧ r.srcCtx = m.srcCtx ∧ r.dest = m.dest
                 then { r with epoch := m.epoch } else r) })
  else s

/-- What stands before a message at a stop: nothing moves yet; it is refused; it goes to the die's mailbox; it makes a hop into an input
of another stop; it is delivered here. -/
inductive Way where
  | wait | refuse (reason : Nat) (m : Msg) | mail (m : Msg) | hop (d nb : Nat) (m : Msg) | home (m : Msg)
deriving DecidableEq, Repr

/-- Mesh cycles of a Sprue hop (R242). -/
def sprueLatency (a b : Nat) : Nat := if idX a / 48 ≠ idX b / 48 ∨ idY a / 48 ≠ idY b / 48 then 8 else 2

/-- A hop in direction `d`, its refusal, or the wait for room (R241 to R243). -/
def State.hopWay (s : State) (n id d : Nat) (m0 m : Msg) : Way :=
  let c := s.cell n
  match neighbour id d with
  | none => .refuse 3 m0
  | some b =>
    if bit (c.rd SPR_CTRL_EDGE) d then .refuse 4 m0
    else if bit (c.rd SPR_CTRL_DOWN) d then .refuse 5 m0
    else if !s.roomAt (s.phys b) ((d + 2) % 4) m then .wait
    else .hop d (s.phys b) { m with entered := idCourt b != idCourt id, due := s.cycle + sprueLatency id b }

/-- The way of message `m0` at an input (R241): a message reaches a stop with its head flit and is delivered with its last one. -/
def State.wayOf (s : State) (n id input : Nat) (m0 : Msg) : Way :=
  let source := decide (4 ≤ input)
  if s.cycle < m0.due ∨ (input = 5 ∧ (id ≠ courtHub (idCourt id) ∨ (m0.priv && s.privHeld (idCourt id)))) then .wait
  else
    let m := if source then s.inject id m0 else m0
    match if source then s.sourceRefusal m else none with
    | some r => .refuse r m
    | none =>
      if m.unit = 4 then .mail m
      else match hopOf id source m with
        | .bad r => .refuse r m
        | .go d m' => s.hopWay n id d m m'
        | .home =>
          match destRefusal id m with
          | some r => .refuse r m
          | none => if (s.cell n).holdsDelivery m ∨ (source = false ∧ s.cycle < m.due + m.flits - 1) then .wait else .home m

/-- The output that a way needs: 0 to 3 the hops, 4 the delivery. -/
def Way.output : Way → Option Nat
  | .hop d _ _ => some d
  | .home _ => some 4
  | _ => none

/-- The output that the first message of a channel at an input is ready to take. -/
def State.wants (s : State) (n id input vc : Nat) : Option Nat :=
  match s.headAt n input vc with
  | none => none
  | some m => (s.wayOf n id input m).output

/-- The source that the local input offers (R243): where both have a message the court port and the injection queue take turns. -/
def State.localSrc (s : State) (n id vc : Nat) : Nat :=
  if id ≠ courtHub (idCourt id) ∨ (s.headAt n 5 vc).isNone then 4
  else if (s.headAt n 4 vc).isNone then 5
  else if fget z0 (s.cell n).sprTurn (24 + vc) = 1 then 4 else 5

/-- The source behind input `i` of the five: N, E, S, W, local. -/
def State.inputSrc (s : State) (n id vc i : Nat) : Nat := if i = 4 then s.localSrc n id vc else i

/-- Whether an output serves an input now (R243): one message a mesh cycle, a response before a request, and within a channel in
round-robin order after the input served last. -/
def State.granted (s : State) (n id input vc o : Nat) : Bool :=
  let t := (s.cell n).sprTurn
  let asks := fun v i => s.wants n id (s.inputSrc n id v i) v == some o
  let i := min input 4
  s.inputSrc n id vc i == input && decide (fget z0 t (16 + o) ≤ s.cycle)
    && (vc == 1 || !(List.range 5).any (asks 1))
    && ((List.range 5).map (fun j => (fget z0 t (2 * o + vc) + j) % 5)).find? (asks vc) == some i

/-- The arbiters after an output has served an input. -/
def State.serve (s : State) (n input vc o : Nat) : State :=
  s.modCell n (fun c =>
    let t := fset z0 (fset z0 c.sprTurn (2 * o + vc) (min input 4 + 1)) (16 + o) (s.cycle + 1)
    { c with sprTurn := if input < 4 then t
        else fset z0 (fset z0 t (24 + vc) (if input = 5 then 1 else 0)) (26 + vc) (s.cycle + 1) })

/-- A message takes its way. -/
def State.takeWay (s : State) (n id input vc : Nat) (y : Way) : State :=
  match y with
  | .wait => s
  | .refuse r m => (s.popAt n input vc).refuse n id r m
  | .mail m => let s := s.popAt n input vc; { s with mailbox := fmod nil0 s.mailbox (cellDie n) (fun l => l ++ [m]) }
  | .hop d nb m =>
    if s.granted n id input vc d then
      let s := if 4 ≤ input then s.noteEpoch n m else s
      ((s.popAt n input vc).serve n input vc d).modCell nb (fun c =>
        let k := 2 * ((d + 2) % 4) + m.vc
        { c with stop := fset nil0 c.stop k (fget nil0 c.stop k ++ [m]) })
    else s
  | .home m =>
    if s.granted n id input vc 4 then
      let s := if 4 ≤ input then s.noteEpoch n m else s
      ((s.popAt n input vc).serve n input vc 4).deliverMsg n m
    else s

/-- The head message of a channel at an input of a stop is forwarded, delivered, held or refused (R241). `err` is what the
hop found: 1 a payload flit's parity error, which stays with the message while it waits, 2 a header flit's (R234). -/
def State.sprueMove (s : State) (n input vc err : Nat) : State :=
  match s.logical n, s.headAt n input vc with
  | some id, some m0 =>
    if s.cycle < m0.due ∨ (input = 5 ∧ id ≠ courtHub (idCourt id)) then s
    else if m0.badHdr || (err == 2 && decide (input < 4)) then
      (s.popAt n input vc).modCell n (fun c => (c.wr SPR_ERR_HDR_ERR 1).logOnly (s.env n) 0xA2 input)
    else if err = 1 ∧ input < 4 then
      let s := s.spoilAt n input vc
      s.takeWay n id input vc (s.wayOf n id input { m0 with poison := true })
    else s.takeWay n id input vc (s.wayOf n id input m0)
  | _, _ => s

/-- In a mesh cycle in which a hub's local input offers nothing on a channel, the court port gets the next turn (R243). -/
def State.localTurns (s : State) : State :=
  s.cells.foldl (fun s x =>
    [0, 1].foldl (fun s vc =>
      let t := (s.cell x.1).sprTurn
      if fget z0 t (24 + vc) = 1 ∧ fget z0 t (26 + vc) ≤ s.cycle ∧ (s.headAt x.1 4 vc).isNone ∧ (s.headAt x.1 5 vc).isNone
      then s.modCell x.1 (fun c => { c with sprTurn := fset z0 c.sprTurn (24 + vc) 0 }) else s) s) s

/-- The operands of a Sprue event name an input and a channel of a stop. -/
def State.onStop (s : State) (n input vc : Nat) (f : State → State) : Out :=
  if n < cellCount ∧ input < 6 ∧ vc < 2 then .next (if fget noMark s.dieHalt (cellDie n) then s else f s)
  else .fault .noSuchUnit

/-- SPRUE_MESSAGE_ARRIVE (R241). -/
def execSprueMessageArrive (n input vc err : Nat) (s : State) : Out := s.onStop n input vc (fun s => s.sprueMove n input vc err)

/-- Whether the head message is of a kind and ends at this stop. -/
def State.headIs (s : State) (n input vc : Nat) (k : MsgKind) : Bool :=
  match s.logical n, s.headAt n input vc with
  | some id, some m => m.kind == k && m.dest == id && m.unit == 0
  | _, _ => false

/-- NACK_RECEIVE (R238): the NACK at the head of an input that ends at this stop. -/
def execNackReceive (n input vc : Nat) (s : State) : Out :=
  s.onStop n input vc (fun s => if s.headIs n input vc .nack then s.sprueMove n input vc 0 else s)

/-- RESPONSE_RECEIVE (R251): the response at the head of an input that ends at this stop. -/
def execResponseReceive (n input vc : Nat) (s : State) : Out :=
  s.onStop n input vc (fun s => if s.headIs n input vc .response then s.sprueMove n input vc 0 else s)

/-- SPR_RSP_TIMEOUT (R252). -/
def execSprRspTimeout (n tag : Nat) (s : State) : Out :=
  if tag < 4096 then s.onCell n (fun s => s.modCell n (Cell.rspTimeout (s.env n) tag)) else .fault .noSuchUnit

/-! ### Route tables and epochs (R247 to R250) -/

/-- SPR_RT_DATA_WRITE (R248). -/
def execSprRtDataWrite (court : Nat) (v : W64) (s : State) : Out :=
  s.onCourt court (fun s =>
    let c := s.court court
    let ver := c.rd SPR_RT_ADDR_VER
    let busy := match s.nicheAt court with
      | some i => ver == s.dieRd 0 (SPR_NICHE_EPOCH_ACTIVE.epoch i) || s.oldBusy i
      | none => false
    s.modCourt court (fun c =>
      if busy then c.wr SPR_RT_ADDR_BUSY_ERR 1
      else { c with rt := fset r0 c.rt (ver * 144 + c.rd SPR_RT_ADDR_INDEX) v }))

/-- EPOCH_ACTIVE_WRITE (R249). -/
def execEpochActiveWrite (niche : Nat) (v : Bool) (s : State) : Out :=
  if 16 ≤ niche then .fault .noSuchUnit
  else .next (
    if s.dieRd 0 (SPR_NICHE_EPOCH_PRIV_HOLD.epoch niche) = 0 ∨ s.privBusy niche then
      s.dieWr 0 (SPR_NICHE_EPOCH_SWITCH_ERR.epoch niche) 1
    else s.dieWr 0 (SPR_NICHE_EPOCH_ACTIVE.epoch niche) (b2n v))

/-- PRIV_HOLD_WRITE (R249). -/
def execPrivHoldWrite (niche : Nat) (v : Bool) (s : State) : Out :=
  if 16 ≤ niche then .fault .noSuchUnit
  else .next (s.dieWr 0 (SPR_NICHE_EPOCH_PRIV_HOLD.epoch niche) (b2n v))

end Sys2Proof.Machine
end

