-- ==== Sys2Proof/Machine/Sync.lean ====
section
/-! DEFINITION. Sync objects (spec/08_sprue_sync.md R255 to R262). -/

namespace Sys2Proof.Machine
open Sys2Proof

/-- The field of sync object `k`'s register. -/
def Fld.syn (f : Fld) (k : Nat) : Fld := f.up (0x10 * k)

/-- Wrap-safe: (v - x) modulo 2^32, signed, is at least 0 (R256). -/
def wrapGe (v x : Nat) : Bool := decide ((v + 2 ^ 32 - x % 2 ^ 32) % 2 ^ 32 < 2 ^ 31)

/-- A response of a sync store (R260). -/
def syncAnswer (q : Nat) (src tag value result : Nat) : Msg :=
  { kind := .response, priv := true, len := 8, srcCtx := 0, tag := tag, unit := 0, port := 0x30, dest := src
    src := courtHub q, payload := valBytes (value % 2 ^ 32 + 2 ^ 32 * result) 8 }

/-- The store answers a waiter. -/
def Court.answer (q : Nat) (w : Waiter) (value result : Nat) (c : Court) : Court :=
  { c with out := c.out ++ [syncAnswer q w.src w.tag value result] }

/-- Whether a waiter of an object is satisfied (R257); locks are handed over instead. -/
def Court.satisfied (c : Court) (w : Waiter) : Bool :=
  let v := c.rd (SYN_STATE_VALUE.syn w.obj)
  match w.op with
  | 4 => wrapGe v w.op1
  | 5 => wrapGe v (w.phase + 1)
  | 0xA => (v &&& w.op1) == w.op2
  | _ => false

/-- Every satisfied waiter of an object is answered, oldest first. -/
def Court.settle (q k : Nat) (c : Court) : Court :=
  let done := c.waiters.filter (fun w => w.obj == k && c.satisfied w)
  let c' := { c with waiters := c.waiters.filter (fun w => !(w.obj == k && c.satisfied w)) }
  done.foldl (fun c' w => c'.answer q w (if w.op = 5 then w.phase else c.rd (SYN_STATE_VALUE.syn k)) 0) c'

/-- A lock becomes HELD by an owner: one more acquisition. -/
def Court.hold (k src ctx : Nat) (c : Court) : Court :=
  let c := ((c.wr (SYN_STATE_LSTATE.syn k) 1).wr (SYN_STATE_OWNER_CELL.syn k) src).wr (SYN_STATE_OWNER_CTX.syn k) ctx
  c.wr (SYN_STATE_VALUE.syn k) ((c.rd (SYN_STATE_VALUE.syn k) + 1) % 2 ^ 32)

/-- The oldest ACQUIRE that waits on a lock gets it; with none the lock takes the state `none`. -/
def Court.handOver (q k result none' : Nat) (c : Court) : Court :=
  match takeFirst (fun (w : Waiter) => w.obj == k && w.op == 6) c.waiters with
  | none => c.wr (SYN_STATE_LSTATE.syn k) none'
  | some (w, rest) =>
    let c := Court.hold k w.src w.ctx { c with waiters := rest }
    c.answer q w (c.rd (SYN_STATE_VALUE.syn k)) result

/-- One operation's reply: nothing for a posted one. -/
def Court.reply (q : Nat) (m : Msg) (value result : Nat) (c : Court) : Court :=
  if m.kind = .posted then c else { c with out := c.out ++ [syncAnswer q m.src m.tag value result] }

/-- A waiting operation takes an entry, or finds none free (R258, R259). -/
def Court.enqueue (q k op op1 op2 phase value : Nat) (m : Msg) (c : Court) : Court :=
  if m.kind = .posted then c
  else if 64 ≤ c.waiters.length then (c.addSat SYN_STATUS_FULL_CNT 1).reply q m value 5
  else { c with waiters := c.waiters ++ [⟨k, op, m.src, m.srcCtx, m.tag, op1, op2, phase⟩] }

/-- TYPE_MISMATCH (R257). -/
def Court.mismatch (q k op : Nat) (m : Msg) (c : Court) : Court := c.reply q m (Config.mismatchValue (q * 128 + k) op) 4

/-- An operation on a counter or flag that sets VALUE. -/
def Court.setValue (q k v : Nat) (m : Msg) (c : Court) : Court :=
  let old := c.rd (SYN_STATE_VALUE.syn k)
  ((c.wr (SYN_STATE_VALUE.syn k) v).settle q k).reply q m old 0

/-- The operation of a message at the store, but RELEASE's record in the fault log (R257). -/
def Court.syncOp (q : Nat) (m : Msg) (c : Court) : Court :=
  let op := m.info.getD 0 0
  let k := (m.info.getD 1 0) % 128
  let ty := c.rd (SYN_CFG_TYPE.syn k)
  let old := c.rd (SYN_STATE_VALUE.syn k)
  let v := bytesVal m.payload 8
  let op1 := v % 2 ^ 32
  let op2 := v / 2 ^ 32
  let lst := c.rd (SYN_STATE_LSTATE.syn k)
  match op, ty with
  | _, 0 => c.mismatch q k op m
  | 0, 3 => c.reply q m (lst * 65536 + c.rd (SYN_STATE_OWNER_CELL.syn k) * 4 + c.rd (SYN_STATE_OWNER_CTX.syn k)) 0
  | 0, _ => c.reply q m old 0
  | 1, 1 => c.setValue q k ((old + op1) % 2 ^ 32) m
  | 2, 1 => c.setValue q k op1 m
  | 2, 4 => c.setValue q k op1 m
  | 3, 1 => if old = op1 then c.setValue q k op2 m else c.reply q m old 3
  | 3, 4 => if old = op1 then c.setValue q k op2 m else c.reply q m old 3
  | 4, 1 => if wrapGe old op1 then c.reply q m old 0 else c.enqueue q k op op1 op2 0 old m
  | 4, 2 => if wrapGe old op1 then c.reply q m old 0 else c.enqueue q k op op1 op2 0 old m
  | 5, 2 =>
    let arrived := c.rd (SYN_STATE_ARRIVED.syn k) + 1
    if arrived = c.rd (SYN_CFG_TARGET.syn k) then
      (((c.wr (SYN_STATE_ARRIVED.syn k) 0).wr (SYN_STATE_VALUE.syn k) ((old + 1) % 2 ^ 32)).settle q k).reply q m old 0
    else (c.wr (SYN_STATE_ARRIVED.syn k) arrived).enqueue q k op op1 op2 old old m
  | 6, 3 =>
    if lst = 1 then c.enqueue q k op op1 op2 0 old m
    else
      let c := c.hold k m.src m.srcCtx
      c.reply q m (c.rd (SYN_STATE_VALUE.syn k)) (if lst = 2 then 1 else 0)
  | 7, 3 =>
    let mine := lst != 0 && c.rd (SYN_STATE_OWNER_CELL.syn k) == m.src && c.rd (SYN_STATE_OWNER_CTX.syn k) == m.srcCtx
    if mine then (c.handOver q k 0 0).reply q m 0 (if lst = 2 then 1 else 0)
    else (c.addSat SYN_STATUS_NOT_OWNER_CNT 1).reply q m 0 2
  | 8, 4 => c.setValue q k (old ||| op1) m
  | 9, 4 => c.setValue q k (old &&& (op1 ^^^ (2 ^ 32 - 1))) m
  | 0xA, 4 => if (old &&& op1) == op2 then c.reply q m old 0 else c.enqueue q k op op1 op2 0 old m
  | _, _ => c.mismatch q k op m

/-- Whether an operation is a RELEASE that NOT_OWNER refuses. -/
def Court.notOwner (c : Court) (m : Msg) : Bool :=
  let k := (m.info.getD 1 0) % 128
  m.info.getD 0 0 == 7 && c.rd (SYN_CFG_TYPE.syn k) == 3 && !(c.rd (SYN_STATE_LSTATE.syn k) != 0
    && c.rd (SYN_STATE_OWNER_CELL.syn k) == m.src && c.rd (SYN_STATE_OWNER_CTX.syn k) == m.srcCtx)

/-- The store takes the operation at the front of its court port; a NOT_OWNER is logged (R258, R263). -/
def State.syncNext (s : State) (q : Nat) (m : Msg) : State :=
  let bad := (s.court q).notOwner m
  let s := s.modCourt q (fun c => Court.syncOp q m { c with syncIn := c.syncIn.drop 1 })
  if bad then
    s.event (courtDie q) { code := 0xA0, ctx := m.srcCtx, ctxValid := true, detail := 8, unit := s.phys m.src, index := m.src
                           niche := s.nicheAt (idCourt m.src) }
  else s

/-- The operation at the front of a court port, when it is the one named; another operation is left there, but one that R257 does not
list, which a message from the rim can name, is taken by whichever operation is commanded and has no effect. -/
def State.sync (s : State) (q op : Nat) : State :=
  match (s.court q).syncIn with
  | m :: _ => if m.port = 0 ∧ (m.info.getD 0 0 = op ∨ 0xB ≤ m.info.getD 0 0) then s.syncNext q m else s
  | [] => s

/-- SYNC_READ (R257). -/
def execSyncRead (court : Nat) (s : State) : Out := s.onCourt court (fun s => s.sync court 0)

/-- SYNC_ADD (R257). -/
def execSyncAdd (court : Nat) (s : State) : Out := s.onCourt court (fun s => s.sync court 1)

/-- SYNC_SET (R257). -/
def execSyncSet (court : Nat) (s : State) : Out := s.onCourt court (fun s => s.sync court 2)

/-- SYNC_CAS (R257). -/
def execSyncCas (court : Nat) (s : State) : Out := s.onCourt court (fun s => s.sync court 3)

/-- SYNC_WAIT_GE (R257). -/
def execSyncWaitGe (court : Nat) (s : State) : Out := s.onCourt court (fun s => s.sync court 4)

/-- SYNC_ARRIVE (R257). -/
def execSyncArrive (court : Nat) (s : State) : Out := s.onCourt court (fun s => s.sync court 5)

/-- SYNC_ACQUIRE (R257). -/
def execSyncAcquire (court : Nat) (s : State) : Out := s.onCourt court (fun s => s.sync court 6)

/-- SYNC_RELEASE (R257). -/
def execSyncRelease (court : Nat) (s : State) : Out := s.onCourt court (fun s => s.sync court 7)

/-- SYNC_FLAG_SET (R257). -/
def execSyncFlagSet (court : Nat) (s : State) : Out := s.onCourt court (fun s => s.sync court 8)

/-- SYNC_FLAG_CLEAR (R257). -/
def execSyncFlagClear (court : Nat) (s : State) : Out := s.onCourt court (fun s => s.sync court 9)

/-- SYNC_FLAG_WAIT (R257). -/
def execSyncFlagWait (court : Nat) (s : State) : Out := s.onCourt court (fun s => s.sync court 10)

/-- An orphan notice at the store (R261): the context's HELD locks become ORPHANED, its waiters go, and a lock that others
wait for is handed to the oldest. -/
def Court.orphan (q src ctx : Nat) (c : Court) : Court :=
  let c := { c with waiters := c.waiters.filter (fun w => !(w.src == src && w.ctx == ctx)) }
  (List.range 128).foldl (fun c k =>
    if c.rd (SYN_CFG_TYPE.syn k) = 3 ∧ c.rd (SYN_STATE_LSTATE.syn k) = 1 ∧ c.rd (SYN_STATE_OWNER_CELL.syn k) = src
        ∧ c.rd (SYN_STATE_OWNER_CTX.syn k) = ctx then c.handOver q k 1 2
    else c) c

/-- ORPHAN_NOTICE (R261): the notice at the front of the court port. -/
def execOrphanNotice (court : Nat) (s : State) : Out :=
  s.onCourt court (fun s =>
    match (s.court court).syncIn with
    | m :: t => if m.port = 1 then s.modCourt court (fun c => Court.orphan court m.src m.srcCtx { c with syncIn := t }) else s
    | [] => s)

/-- SYNC_WAIT_TIMEOUT (R258): waiter `i`, oldest first, leaves without effect. -/
def execSyncWaitTimeout (court i : Nat) (s : State) : Out :=
  s.onCourt court (fun s =>
    match (s.court court).waiters[i]? with
    | none => s
    | some w => s.modCourt court (fun c =>
        Court.answer court w (if w.op = 5 then w.phase else c.rd (SYN_STATE_VALUE.syn w.obj)) 6
          (({ c with waiters := c.waiters.eraseIdx i }).addSat SYN_STATUS_TIMEOUT_CNT 1)))

/-- SYN_STATE_WRITE (R260): the written value stands; waiters it satisfies are answered. -/
def execSynStateWrite (court k : Nat) (v : W64) (s : State) : Out :=
  if 128 ≤ k then .fault .noSuchUnit
  else s.onCourt court (fun s => s.modCourt court (fun c =>
    let n := v.toNat
    let lst := if bits n 63 62 = 3 then c.rd (SYN_STATE_LSTATE.syn k) else bits n 63 62
    let c := ((((c.wr (SYN_STATE_LSTATE.syn k) lst).wr (SYN_STATE_OWNER_CTX.syn k) (bits n 61 60)).wr
      (SYN_STATE_OWNER_CELL.syn k) (bits n 59 46)).wr (SYN_STATE_ARRIVED.syn k) (bits n 45 32)).wr
      (SYN_STATE_VALUE.syn k) (bits n 31 0)
    c.settle court k))

/-- The sync stores of a niche at its reset (R262). -/
def Court.syncReset (c : Court) : Court :=
  (List.range 128).foldl (fun c k =>
    if c.rd (SYN_CFG_TYPE.syn k) = 3 ∧ c.rd (SYN_STATE_LSTATE.syn k) = 1 then c.wr (SYN_STATE_LSTATE.syn k) 2 else c)
    { c with waiters := [] }

end Sys2Proof.Machine
end

