-- ==== Sys2Proof/Machine/Plinth.lean ====
section
/-! DEFINITION. The plinth: words with poison and check bits, lines, the clear and the host window
(spec/09_courts_riffler.md R265 to R269, R291). -/

namespace Sys2Proof.Machine
open Sys2Proof

/-- Whether a niche in state RUNNING owns a court. -/
def State.courtRuns (s : State) (q : Nat) : Bool :=
  match s.nicheAt q with
  | some i => s.nicheState i == 3
  | none => false

/-- The plinth zeroed: data, poison and check bits (R269). -/
def Court.plnZero (c : Court) : Court := { c with plinth := [], plnPoison := [], plnEcc := [] }

/-- Whether a DMA and scan round is in progress in mesh cycle `now` (R270). -/
def Court.inRound (c : Court) (now : Nat) : Bool := c.round != 0 && decide (now < c.round + 11)

/-- CRT_CLEAR (R269): a clear starts, or CLR_REFUSED. No access is served while it runs, and one that arrives is served after
the last row: the rows are zero from the start, and nothing sees a partly cleared plinth (log 129). -/
def execCrtClear (court : Nat) (s : State) : Out :=
  s.onCourt court (fun s => s.modCourt court (fun c =>
    if c.flag CRT_STATUS_CLEARING then c
    else if !c.rif.isEmpty || c.inRound s.cycle || s.courtRuns court then c.wr CRT_CTRL_CLR_REFUSED 1
    else (c.wr CRT_STATUS_CLEARING 1).plnZero))

/-- PLINTH_CLEAR_END (R269). -/
def execPlinthClearEnd (court : Nat) (s : State) : Out :=
  s.onCourt court (fun s => s.modCourt court (fun c => c.wr CRT_STATUS_CLEARING 0))

/-- PLINTH_ECC_WRITEBACK (R268). -/
def execPlinthEccWriteback (court word : Nat) (s : State) : Out :=
  if word < 1048576 then
    s.onCourt court (fun s => s.modCourt court (fun c =>
      if fget ecc0 c.plnEcc word = .ce then { c with plnEcc := fset ecc0 c.plnEcc word .ok } else c))
  else .fault .noSuchUnit

/-- Whether a function reaches a court (14 R422): the physical functions do, a virtual one where its niche is. -/
def State.fnReaches (s : State) (fn q : Nat) : Bool :=
  fn % 17 == 0 || (match s.nicheAt q with
    | some i => if fn / 17 = 0 then s.flag (NCH_CFG_VFA_VALID.niche i) && s.rd (NCH_CFG_VFA.niche i) + 1 == fn % 17
                else s.flag (NCH_CFG_VFB_VALID.niche i) && s.rd (NCH_CFG_VFB.niche i) + 1 == fn % 17
    | none => false)

/-- A host access to the word at CRT_HOST_ADDR (R291): a write stores poison clear. The result is the data read. -/
def Court.hostData (c : Court) (w : Option Nat) : Nat × Court :=
  let a := 4 * c.rd CRT_HOST_ADDR_ADDR
  let r : Nat × Court :=
    match w with
    | some v => (0, (c.plnWrite a (v % 2 ^ 32) false).wr CRT_HOST_DATA_DATA (v % 2 ^ 32))
    | none =>
      let x := c.plnRead a
      (x.1, (x.2.2.wr CRT_HOST_DATA_POISON (b2n x.2.1)).wr CRT_HOST_DATA_DATA x.1)
  (r.1, if r.2.rd CRT_HOST_ADDR_AUTOINC = 1 then r.2.wr CRT_HOST_ADDR_ADDR ((a / 4 + 1) % 2 ^ 20) else r.2)

/-- CRT_HOST_DATA_ACCESS by function `fn` (port * 17 + number, 0 the physical one): a court not bound to the function refuses
it (R266, R291). -/
def execCrtHostDataAccess (court fn : Nat) (w : Option W64) (s : State) : Out :=
  if 34 ≤ fn then .fault .noSuchUnit
  else s.onCourt court (fun s =>
    let c := s.court court
    if !s.fnReaches fn court then { s.modCourt court (fun c => c.wr CRT_HOST_ADDR_ERR 1) with readVal := 0 }
    else
      let r := c.hostData (w.map BitVec.toNat)
      { s.modCourt court (fun _ => r.2) with readVal := r.1 })

end Sys2Proof.Machine
end

