-- ==== Sys2Proof/Machine/Ring.lean ====
section
/-! DEFINITION. Ingress and egress rings, host egress rings, the egress selector of pendant pairs, and the writes of casts
into plinths, which egress rings lie in (spec/14_host_niches.md R431, spec/10_casts_mapping.md R308,
spec/16_restorer.md R469, R472, R473, spec/15_integrity.md R442). -/

namespace Sys2Proof.Machine
open Sys2Proof

/-! ### Rings -/

/-- A ring beside its registers. -/
def State.ring (s : State) (r : Nat) : Ring := fget ring0 s.rings r
/-- Change a ring. -/
def State.modRing (s : State) (r : Nat) (f : Ring → Ring) : State := { s with rings := fset ring0 s.rings r (f (s.ring r)) }
/-- The court whose plinth holds ring `r`. -/
def State.ringCourt (s : State) (r : Nat) : Nat := 12 * s.rd (NCH_RING_CY.by16 r) + s.rd (NCH_RING_CX.by16 r)
/-- Its slots. -/
def State.ringSlots (s : State) (r : Nat) : Nat := s.rd (NCH_RING_SLOTS.by16 r) + 1
/-- The plinth address of its slot `k`. -/
def State.slotAddr (s : State) (r k : Nat) : Nat := 256 * s.rd (NCH_RING_BASE.by16 r) + 256 * k
/-- The niche that owns it. -/
def State.ringNiche (s : State) (r : Nat) : Nat := s.rd (NCH_RING_NICHE.by16 r)

/-- An event about a ring (15 R586). -/
def State.ringEvent (s : State) (r code addr : Nat) : State :=
  s.event (courtDie (s.ringCourt r)) { code := code, space := 3, kind := 5, index := r, niche := some (s.ringNiche r), addr := addr }

/-! ### Writes of casts into plinths -/

/-- The egress ring and slot that hold a plinth address of a court. -/
def State.egressAt (s : State) (q a : Nat) : Option (Nat × Nat) :=
  match (List.range 128).find? (fun r => s.flag (NCH_RING_ENABLE.by16 r) && s.rd (NCH_RING_DIR.by16 r) == 1
      && s.ringCourt r == q && decide (s.slotAddr r 0 ≤ a ∧ a < s.slotAddr r (s.ringSlots r))) with
  | some r => some (r, (a - s.slotAddr r 0) / 256)
  | none => none

/-- The full egress slot that a write to a plinth address would meet. -/
def State.fullSlot (s : State) (q a : Nat) : Option (Nat × Nat) :=
  match s.egressAt q a with
  | some (r, k) => if (s.ring r).full.contains k then some (r, k) else none
  | none => none

/-- A cast writes a line of a plinth: discarded in a full egress slot, with EGRESS_OVERRUN (R431). -/
def State.plnStore (s : State) (q a : Nat) (v : VR) : State :=
  match s.fullSlot q a with
  | some (r, k) => s.ringEvent r 0x52 (s.slotAddr r k)
  | none => s.modCourt q (fun c => c.plnPutLine a v)

/-- A cast writes words of a plinth. -/
def State.plnStoreWords (s : State) (q a : Nat) : List (Nat × Bool) → State
  | [] => s
  | e :: es =>
    (match s.fullSlot q a with
     | some (r, k) => if a % 64 = 0 then s.ringEvent r 0x52 (s.slotAddr r k) else s
     | none => s.modCourt q (fun c => c.plnWrite a e.1 e.2)).plnStoreWords q (a + 4) es

/-! ### Ingress (R431) -/

/-- Bytes written into a plinth from an address on, whole words with one poison bit. -/
def Court.plnFill (c : Court) (a : Nat) (bs : List (BitVec 8)) (p : Bool) : Court :=
  c.plnPut a ((List.range ((bs.length + 3) / 4)).map (fun i => (bytesVal (bs.drop (4 * i)) 4, p)))

/-- The rim writes an entry into slot WR: 224 bytes, zeros after the entry's own, and the arrival metadata; the slot is
marked full. -/
def State.ingressPut (s : State) (r src seq : Nat) (bs : List (BitVec 8)) (len : Nat) (p : Bool) : State :=
  let k := s.rd (NCH_RST_WR.by16 r)
  let a := s.slotAddr r k
  let t := s.tick
  let s := s.modCourt (s.ringCourt r) (fun c =>
    (c.plnFill a ((List.range 224).map (fun i => bs.getD i 0)) p).plnFill (a + 240)
      (valBytes t 8 ++ valBytes src 2 ++ valBytes len 2 ++ valBytes seq 4) false)
  let s := (s.wr (NCH_RST_WR.by16 r) ((k + 1) % s.ringSlots r)).addSat (NCH_RST_COUNT.by16 r) 1
  s.modRing r (fun g => { g with seq := (seq + 1) % 2 ^ 32, tag := fset z0 g.tag k (seq + 1)
                                 marked := fset z0 g.marked k s.cycle })

/-- Whether a ring has no room for another entry: slots - 64 entries wait. -/
def State.ingressFull (s : State) (r : Nat) : Bool := decide (s.ringSlots r ≤ s.rd (NCH_RST_COUNT.by16 r) + 64)

/-- The pendant pair whose ingress ring A is `r` (16 R472). -/
def State.pairOfIngress (s : State) (r : Nat) : Option Nat :=
  (List.range 8).find? (fun p => s.flag (RES_PENDANT_VALID.by16 p) && s.rd (RES_PENDANT_ING_A.by16 p) == r)

/-- An entry that ring A accepted goes into ring B with the same entry sequence (16 R472). -/
def State.mirror (s : State) (p src seq : Nat) (bs : List (BitVec 8)) (len : Nat) (pz : Bool) : State :=
  let b := s.rd (RES_PENDANT_ING_B.by16 p)
  if s.ingressFull b then s.addSat (RES_PEND_CNT_B_DROP.by16 p) 1 else s.ingressPut b src seq bs len pz

/-- An entry arrives for an enabled ingress ring (R431, 10 R307, R308, 16 R472). -/
def State.ingress (s : State) (r src : Nat) (bs : List (BitVec 8)) (pz : Bool) : State :=
  if !s.flag (NCH_RING_ENABLE.by16 r) || s.rd (NCH_RING_DIR.by16 r) == 1 then s
  else if s.ingressFull r then (s.addSat (NCH_RST_DROP_CNT.by16 r) 1).ringEvent r 0x51 0
  else
    let seq := (s.ring r).seq
    match (s.niche (s.ringNiche r)).shape bs with
    | none =>
      ((s.modRing r (fun g => { g with seq := (seq + 1) % 2 ^ 32 })).addSat (NCH_RST_DROP_CNT.by16 r) 1).ringEvent r 0x50
        (s.slotAddr r (s.rd (NCH_RST_WR.by16 r)))
    | some es =>
      let s := s.ingressPut r src seq es bs.length pz
      match s.pairOfIngress r with
      | some p => s.mirror p src seq es bs.length pz
      | none => s

/-- INGRESS_ENTRY_ARRIVE: an entry from device `src` reaches the rim for ring `ring` (R431). -/
def execIngressEntryArrive (ring src : Nat) (entry : List (BitVec 8)) (poison : Bool) (s : State) : Out :=
  if 128 ≤ ring ∨ 224 < entry.length then .fault .noSuchUnit else .next (s.ingress ring src entry poison)

/-! ### Links and host egress rings -/

/-- A link. -/
def State.link (s : State) (l : Nat) : Link := fget link0 s.links l
/-- Change a link. -/
def State.modLink (s : State) (l : Nat) (f : Link → Link) : State := { s with links := fset link0 s.links l (f (s.link l)) }

/-- A packet joins the packets that wait for a link. -/
def State.send (s : State) (l : Nat) (p : Packet) : State :=
  s.modLink l (fun k => { k with out := fmod nil0 k.out p.vl (fun q => q ++ [p]) })

/-- The number of entries of a queue or ring with a SIZE field. -/
def queueSize (size : Nat) : Nat := 2 ^ (size + 4)

/-- Bytes that the C4 writes to host memory at an address. -/
def State.hostWrite (s : State) (a : Nat) (bs : List (BitVec 8)) : State := { s with hostMem := memPut s.hostMem a bs }

/-- A slot image goes to host ring `h` of function `fn`; none while the ring is full or out of service. -/
def State.hostEgress (s : State) (fn h r : Nat) (image : List (BitVec 8)) : Option State :=
  let id := fn * 16 + h
  let g := fget hostring0 s.hostRings id
  let f := fun (x : Fld) => (x.by8 h).page fn
  let n := queueSize (s.rd (f HST_ERB_SIZE))
  if !s.flag (f HST_ERB_ENABLE) || decide (g.head + n ≤ g.tail) then none
  else
    let word := (s.ring r).seq % 2 ^ 31 + (if g.tail / n % 2 = 0 then 2 ^ 31 else 0)
    let s := s.hostWrite (4096 * s.rd (f HST_ERB_ADDR) + 256 * (g.tail % n)) (image.take 252 ++ valBytes word 4)
    let s := { s with hostRings := fset hostring0 s.hostRings id { g with tail := g.tail + 1 } }
    some ((s.modRing r (fun x => { x with seq := (x.seq + 1) % 2 ^ 32 })).vector (fn / 17) (fn % 17) (s.rd (f HST_ERB_VECTOR)))

/-- The EGRESS_OUT packet of a slot image (12 R361, R364). -/
def State.egressPacket (s : State) (r : Nat) (image : List (BitVec 8)) : Packet :=
  { mclass := 6, vl := 2, route := [s.rd (NCH_EGR_LINK.by8 r)], dest := s.rd (NCH_EGR_DEST.by8 r), src := s.devId
    dst := s.rd (NCH_EGR_DST_DEV.by8 r), payload := image.take (min 224 (bytesVal (image.drop 250) 2)) }

/-- A slot image leaves through the target of egress ring `r`; none where the host ring has no room. -/
def State.egressSend (s : State) (r : Nat) (image : List (BitVec 8)) : Option State :=
  if s.rd (NCH_EGR_TARGET.by8 r) = 1 then
    s.hostEgress (17 * s.rd (NCH_EGR_PORT.by8 r) + s.rd (NCH_EGR_FUNC.by8 r)) (s.rd (NCH_EGR_HRING.by8 r)) r image
  else some (s.send (s.rd (NCH_EGR_LINK.by8 r)) (s.egressPacket r image))

/-! ### Egress (R431, 16 R469, R473) -/

/-- A slot is released; `tag` is the frame sequence + 1 that it sent, 0 for none. -/
def State.release (s : State) (r k tag : Nat) : State :=
  let s := s.wr (NCH_RST_COUNT.by16 r) (s.rd (NCH_RST_COUNT.by16 r) - 1)
  let s := s.wr (NCH_RST_RD.by16 r) ((k + 1) % s.ringSlots r)
  s.modRing r (fun g => { g with full := g.full.filter (fun x => x != k)
                                 sent := if tag = 0 then g.sent else fset z0 g.sent k tag })

/-- A pendant pair beside its registers. -/
def State.pend (s : State) (p : Nat) : Pend := fget pend0 s.pends p
/-- Change it. -/
def State.modPend (s : State) (p : Nat) (f : Pend → Pend) : State := { s with pends := fset pend0 s.pends p (f (s.pend p)) }

/-- The pair and the member (0 A, 1 B) whose egress ring is `r`. -/
def State.pairOfEgress (s : State) (r : Nat) : Option (Nat × Nat) :=
  match (List.range 8).find? (fun p => s.flag (RES_PENDANT_VALID.by16 p)
      && (s.rd (RES_PENDANT_EGR_A.by16 p) == r || s.rd (RES_PENDANT_EGR_B.by16 p) == r)) with
  | some p => some (p, if s.rd (RES_PENDANT_EGR_A.by16 p) = r then 0 else 1)
  | none => none

/-- What of a slot image is an answer: bytes 0 to 223 and the length. -/
def answerOf (image : List (BitVec 8)) : List (BitVec 8) := image.take 224 ++ (image.drop 250).take 2

/-- Every cell of a niche is due for a rasp test from the start of its court's order (16 R473, R476). -/
def State.raspFirst (s : State) (i : Nat) : State :=
  (s.nicheCourts i).foldl (fun s q =>
    s.modCourt q (fun c => (c.wr RES_RASP_CTRL_CELL ((s.raspOrder q).headD 0)).wr RES_RASP_CTRL_STEP 0)) s

/-- A compared answer of pair `p` (16 R473). -/
def State.compared (s : State) (p : Nat) (same : Bool) : State :=
  if same then (s.modPend p (fun x => { x with singles := 0 })).addSat (RES_PEND_CNT_MATCH.by16 p) 1
  else
    let a := s.rd (RES_PENDANT_NICHE_A.by16 p)
    let b := s.rd (RES_PENDANT_NICHE_B.by16 p)
    let s := s.addSat (RES_PEND_CNT_DISAGREE.by16 p) 1
    let die := courtDie (s.ringCourt (s.rd (RES_PENDANT_ING_A.by16 p)))
    let s := ((s.resEvent die 0x0A { kind := 1, index := p, niche := some a }).raspFirst a).raspFirst b
    { s with doubts := s.doubts ++ [s.nicheCourts a ++ s.nicheCourts b] }

/-- The egress selector takes the answer of member `m` of pair `p` in slot `k` of ring `r` (16 R473). -/
def State.select (s : State) (p m r k q : Nat) (image : List (BitVec 8)) : State :=
  let x := s.pend p
  match x.held.find? (fun h => h.2.1 == q) with
  | some h =>
    if h.1 = m then s.release r k (q + 1)
    else
      let s := s.modPend p (fun x => { x with held := x.held.filter (fun h => h.2.1 != q) })
      (s.compared p (h.2.2 == answerOf image)).release r k (q + 1)
  | none =>
    if x.old.contains q then (s.addSat (RES_PEND_CNT_UNCOMPARED.by16 p) 1).release r k (q + 1)
    else match s.egressSend (s.rd (RES_PENDANT_EGR_A.by16 p)) image with
      | some s => (s.modPend p (fun x => { x with held := x.held ++ [(m, q, answerOf image)] })).release r k (q + 1)
      | none => s

/-- Whether a niche runs and is not paused. -/
def State.nicheGoes (s : State) (i : Nat) : Bool := s.nicheState i == 3 && !(s.niche i).held

/-- The rim reads a full egress slot and sends it, keeps it, or drops it (R431, R442, R469, R473). -/
def State.rimRead (s : State) (r k : Nat) : State :=
  let q := s.ringCourt r
  let x := (s.court q).plnWords (s.slotAddr r k) 64
  let s := s.modCourt q (fun _ => x.2)
  let image := x.1.flatMap (fun w => valBytes w.1 4)
  let tag := fget z0 (s.ring r).tag k
  let i := s.ringNiche r
  if x.1.any (fun w => w.2) then
    ((s.release r k 0).addSat (NCH_RST_DROP_CNT.by16 r) 1).event (courtDie q)
      { code := 0xE0, kind := 5, index := r, niche := some i, detail := r, addr := s.slotAddr r k }
  else if tag ≠ 0 ∧ fget z0 (s.ring r).sent k = tag then s.release r k 0
  else match s.pairOfEgress r with
    | some (p, m) => if s.nicheGoes i ∧ tag ≠ 0 then s.select p m r k (tag - 1) image else s.release r k 0
    | none => match s.egressSend r image with
      | some s => s.release r k tag
      | none => s

/-- EGRESS_SLOT_WRITE: the write of line 3 marks slot `slot` of an egress ring full, with the sequence of the frame that
wrote it, and the rim reads it (R431, 16 R469). -/
def execEgressSlotWrite (ring slot : Nat) (s : State) : Out :=
  if 128 ≤ ring then .fault .noSuchUnit
  else .next (
    if !s.flag (NCH_RING_ENABLE.by16 ring) || s.rd (NCH_RING_DIR.by16 ring) == 0 || decide (s.ringSlots ring ≤ slot)
      || (s.ring ring).full.contains slot then s
    else
      let tag := match (s.niche (s.ringNiche ring)).frame with | some f => f.2.2 + 1 | none => 0
      let s := s.modRing ring (fun g => { g with full := g.full ++ [slot], tag := fset z0 g.tag slot tag })
      ((s.addSat (NCH_RST_COUNT.by16 ring) 1).wr (NCH_RST_WR.by16 ring) ((slot + 1) % s.ringSlots ring)).rimRead ring slot)

/-- PEND_WAIT_EXPIRY of pair `p`: PEND_WAIT has passed for its oldest held answer (16 R473). -/
def execPendWaitExpiry (p : Nat) (s : State) : Out :=
  if 8 ≤ p then .fault .noSuchUnit
  else .next (
    match (s.pend p).held with
    | [] => s
    | h :: t =>
      let n := (s.pend p).singles + 1
      let s := (s.modPend p (fun x => { x with held := t, old := x.old ++ [h.2.1], singles := n })).addSat
        (RES_PEND_CNT_SINGLE.by16 p) 1
      if n = 64 then
        s.resEvent (courtDie (s.ringCourt (s.rd (RES_PENDANT_ING_A.by16 p)))) 0x0B
          { kind := 1, index := p, niche := some (s.rd (RES_PENDANT_NICHE_A.by16 p)) }
      else s)

end Sys2Proof.Machine
end

