-- ==== Sys2Proof/Machine/Riffler.lean ====
section
/-! DEFINITION. The Riffler: requests, prologue, operations, completions (spec/09_courts_riffler.md R276 to R290). -/

namespace Sys2Proof.Machine
open Sys2Proof

/-! ### Completions (R280, R290) -/

/-- RIF_FAULT captures the first fault since it was re-armed. -/
def Court.rifCapture (c : Court) (code detail src ctx : Nat) : Court :=
  if c.flag RIF_FAULT_VALID then c
  else ((((c.wr RIF_FAULT_VALID 1).wr RIF_FAULT_CODE code).wr RIF_FAULT_CTX ctx).wr RIF_FAULT_CELL src).wr RIF_FAULT_DETAIL detail

/-- The status word (R280). -/
def rifStatus (op code detail ofs fact flags : Nat) : Nat :=
  bits detail 7 0 * 2 ^ 56 + min ofs (2 ^ 24 - 1) * 2 ^ 32 + min fact 31 * 2 ^ 27 + bits detail 10 8 * 2 ^ 24 + flags % 128 * 2 ^ 17
    + code * 256 + op

/-- A completion on its way from the court port. -/
def rifAnswer (q src tag status : Nat) (inline : List Nat) (p : Bool) (code detail : Nat) : Msg :=
  { kind := .response, len := 8 + 8 * inline.length, tag := tag, unit := 0, port := 0x30, dest := src
    src := courtHub q, poison := p, payload := (status :: inline).flatMap (fun v => valBytes v 8), info := [code, detail] }

/-- FACT where the fan-in was not counted: 0 for SORT and TOPK (R280). -/
def rifNoFact (op now : Nat) : Nat := if op = 2 ∨ op = 3 then 0 else Config.rifOpen 1 now

/-- The completion of an operation: its message is poisoned where it carries poisoned result pairs (R280, R287). -/
def RifOp.answer (q : Nat) (o : RifOp) : Msg :=
  rifAnswer q o.src o.tag (rifStatus o.op o.code o.detail (o.launch - o.edge) o.fact o.flags) (if o.code = 0 then o.inline else [])
    (bit o.flags 4 && o.code == 0 && !o.inline.isEmpty) o.code o.detail

/-- E of a court that has seen no frame edge: the first mesh cycle in which it runs after the last reset of its die (R272). -/
def State.runStart (s : State) (q : Nat) : Nat := fget z0 s.dieStart (courtDie q)

/-- RIF_REQUEST_ARRIVE (R276): accepted, or RIF_QFULL. -/
def execRifRequestArrive (court : Nat) (s : State) : Out :=
  s.onCourt court (fun s =>
    match (s.court court).rifIn with
    | [] => s
    | m :: t => s.modCourt court (fun c =>
      let c := { c with rifIn := t }
      if 4 ≤ c.rif.length then
        let st := rifStatus m.port 0xC5 0 (Config.rifOpen 0 s.cycle) (rifNoFact m.port s.cycle) 0
        { c.rifCapture 0xC5 0 m.src m.srcCtx with out := c.out ++ [rifAnswer court m.src m.tag st [] false 0xC5 0] }
      else
        { c with rif := c.rif ++ [{ src := m.src, ctx := m.srcCtx, tag := m.tag, op := m.port, aD := m.info.getD 0 0
                                    fan := m.info.getD 1 0, arrive := s.cycle, edge := c.edge.getD (s.runStart court) }] }))

/-! ### Descriptors (R282 to R288) -/

/-- Word `i` of a descriptor. -/
def dw (d : List Nat) (i : Nat) : Nat := d.getD i 0

/-- Whether a word holds ones only in the named bit ranges. -/
def onlyIn (v : Nat) (rs : List (Nat × Nat)) : Bool :=
  (List.range 64).all (fun i => !bit v i || rs.any (fun r => decide (r.2 ≤ i ∧ i ≤ r.1)))

/-- The bit ranges that a word of an operation's descriptor defines. The bits above a base address up to bit 31 are the
address check's (R278 row 4). -/
def rifFields (op : Nat) : Nat → List (Nat × Nat)
  | 0 => [(63, 32)]
  | 1 => match op with | 4 => [(58, 48), (46, 0)] | 2 => [(34, 0)] | 3 => [(34, 0)] | _ => [(57, 40), (35, 0)]
  | 2 => if op = 4 then [(37, 0)] else [(43, 0)]
  | 3 => match op with | 2 => [(31, 0)] | 3 => [(44, 0)] | _ => [(63, 0)]
  | 4 => if op = 1 then [(35, 0)] else [(31, 0)]
  | _ => []

/-- TROWS. -/
def rifTrows (d : List Nat) : Nat := bits (dw d 1) 57 40
/-- ROWLINES. -/
def rifRowLines (d : List Nat) : Nat := bits (dw d 1) 35 32 + 1
/-- N of GATHER, SCADD, SORT and TOPK. -/
def rifN (d : List Nat) : Nat := bits (dw d 2) 43 32 + 1
/-- NSEG of SEGRED. -/
def rifNseg (d : List Nat) : Nat := bits (dw d 2) 37 32 + 1
/-- IFMT and OFMT of SEGRED. -/
def rifIfmt (d : List Nat) : Nat := bits (dw d 1) 39 36
/-- OFMT of SEGRED. -/
def rifOfmt (d : List Nat) : Nat := bits (dw d 1) 43 40
/-- ROP of SEGRED. -/
def rifRop (d : List Nat) : Nat := bits (dw d 1) 45 44
/-- Elements of an input row (R286). -/
def rifElems (d : List Nat) : Nat := rifRowLines d * 512 / fmtBits (rifIfmt d)
/-- Lines of an output row (R286). -/
def rifOutLines (d : List Nat) : Nat := (rifElems d * fmtBits (rifOfmt d) + 511) / 512
/-- K of TOPK. -/
def rifK (d : List Nat) : Nat := bits (dw d 3) 43 32 + 1

/-- Formats that SEGRED admits (R286). -/
def segFormats (d : List Nat) : Bool :=
  let i := rifIfmt d
  let o := rifOfmt d
  if rifRop d = 0 then [1, 2, 3, 4, 5, 11, 12, 13, 15].contains i && [4, 5, 11, 12, 13, 15].contains o
  else if rifRop d = 3 then false
  else [1, 2, 3, 4, 5, 11, 12, 13].contains i && i == o

/-- The cells of a mask, ascending (R283). -/
def maskCells (m : Nat) : List Nat := (List.range 64).filter (bit m)

/-- Counts and formats within their limits, by descriptor word (R282 to R288). -/
def rifLimits (op : Nat) (d : List Nat) : Nat → Bool
  | 0 => bits (dw d 0) 63 56 == op && decide (op ≤ 4)
  | 1 => match op with
    | 4 => segFormats d && decide (rifNseg d * rifOutLines d ≤ 64)
    | 2 => bits (dw d 1) 33 32 != 3
    | 3 => bits (dw d 1) 33 32 != 3
    | _ => decide (1 ≤ rifTrows d ∧ rifTrows d ≤ 65536)
  | 2 => op == 2 || op == 3 || op == 4 || decide (rifN d ≤ 1024)
  | 3 => match op with
    | 2 => true
    | 3 => decide (rifK d ≤ 256 ∧ rifK d ≤ rifN d) && (!bit (dw d 3) 44 || decide (rifK d ≤ 7))
    | _ => dw d 3 != 0
  | 4 => op != 1 || [4, 5, 15].contains (bits (dw d 4) 35 32)
  | _ => true

/-- The first descriptor word that RIF_DESC names (R278 row 3). -/
def rifDescBad (op : Nat) (d : List Nat) : Option Nat :=
  (List.range 8).find? (fun i => !(onlyIn (dw d i) (rifFields op i) && rifLimits op d i))

/-- A base address of 22 bits with its alignment, whose area of `n` bytes lies in the plinth. -/
def plnArea (v al n : Nat) : Bool :=
  let a := bits v 31 0
  decide (a < plnBytes) && a % al == 0 && decide (a + n ≤ plnBytes)
/-- A scratchpad base address of 18 bits, whose area of `n` bytes lies in the scratchpad. -/
def spdArea (v n : Nat) : Bool :=
  let a := bits v 31 0
  decide (a < 2 ^ 18) && a % 64 == 0 && decide (a + n ≤ spdBytes)

/-- Bytes that `n` dealt rows take in one cell (R283). -/
def dealtBytes (d : List Nat) (n : Nat) : Nat :=
  let m := (maskCells (dw d 3)).length
  (n + m - 1) / m * rifRowLines d * 64

/-- The first descriptor word that RIF_ADDR names, before the lists are read (R278 row 4). -/
def rifAddrBad (op : Nat) (d : List Nat) : Option Nat :=
  let ok : List (Nat × Bool) := match op with
    | 2 => [(1, plnArea (dw d 1) 64 (4 * rifN d)), (2, plnArea (dw d 2) 64 (4 * rifN d)), (3, plnArea (dw d 3) 64 (4 * rifN d)),
            (4, plnArea (dw d 4) 64 (4 * rifN d))]
    | 3 => [(1, plnArea (dw d 1) 64 (4 * rifN d)), (2, plnArea (dw d 2) 64 (4 * rifN d)), (3, plnArea (dw d 3) 64 (4 * rifK d)),
            (4, plnArea (dw d 4) 64 (4 * rifK d))]
    | 4 => [(1, plnArea (dw d 1) 64 (rifNseg d * rifOutLines d * 64)), (2, plnArea (dw d 2) 2 (2 * rifNseg d)),
            (4, spdArea (dw d 4) 0)]
    | _ => [(1, plnArea (dw d 1) 64 (rifTrows d * rifRowLines d * 64)), (2, plnArea (dw d 2) 4 (4 * rifN d)),
            (4, spdArea (dw d 4) (dealtBytes d (rifN d)))]
  (ok.find? (fun e => !e.2)).map (fun e => e.1)

/-- Read the 16-bit entries of a segment list from a byte address. -/
def Court.plnHalves (c : Court) (a : Nat) : Nat → List (Nat × Bool) × Court
  | 0 => ([], c)
  | n + 1 =>
    let r := c.plnRead a
    let t := r.2.2.plnHalves (a + 2) n
    ((bits r.1 (8 * (a % 4) + 15) (8 * (a % 4)), r.2.1) :: t.1, t.2)

/-- The list that an operation reads. -/
def Court.rifList (c : Court) (op : Nat) (d : List Nat) : List (Nat × Bool) × Court :=
  match op with
  | 2 => ([], c)
  | 3 => ([], c)
  | 4 => c.plnHalves (bits (dw d 2) 21 0) (rifNseg d)
  | _ => c.plnWords (bits (dw d 2) 21 0) (rifN d)

/-- Rows of an operation: row number and index, in order; SCADD skips the rows of index 0xFFFF_FFFF (R284, R285). -/
def rifRows (op : Nat) (list : List Nat) : List (Nat × Nat) :=
  (list.zipIdx.map (fun p => (p.2, p.1))).filter (fun p => op != 1 || p.2 != 0xFFFFFFFF)

/-- Lines that the busiest cell of `m` sends or receives when the rows named are dealt. -/
def cellFan (m rl : Nat) (rows : List Nat) : Nat :=
  ((List.range m).map (fun j => (rows.filter (fun i => i % m == j)).length * rl)).foldl max 0

/-- Lines that the busiest bank carries. -/
def bankFan (lines : List Nat) : Nat := ((List.range 64).map (fun b => (lines.filter (fun l => l % 64 == b)).length)).foldl max 0

/-- The actual fan-in (R284 to R286); 0 for SORT and TOPK. -/
def rifFanin (op : Nat) (d list : List Nat) : Nat :=
  let m := (maskCells (dw d 3)).length
  let rl := rifRowLines d
  let t := bits (dw d 1) 21 0 / 64
  match op with
  | 2 => 0
  | 3 => 0
  | 4 => max (cellFan m rl (List.range list.sum)) ((list.sum * rl + 63) / 64)
  | _ =>
    let rows := rifRows op list
    max (cellFan m rl (rows.map (fun p => p.1)))
      (bankFan ((rows.filter (fun p => p.2 != 0xFFFFFFFF)).flatMap (fun p => (List.range rl).map (fun l => t + p.2 * rl + l))))

/-- The checks 5 to 7 of R278, once the list is read. -/
def rifListBad (op fan : Nat) (d : List Nat) (ls : List (Nat × Bool)) : Option (Nat × Nat) :=
  let list := ls.map (fun e => e.1)
  if ls.any (fun e => e.2) then some (0xC6, 1)
  else if op = 4 ∧ 1024 < list.sum then some (0xC1, 2)
  else if op = 4 ∧ !spdArea (dw d 4) (dealtBytes d list.sum) then some (0xC2, 4)
  else
    match if op ≤ 1 then (rifRows 0 list).find? (fun p => p.2 != 0xFFFFFFFF && decide (rifTrows d ≤ p.2)) else none with
    | some p => some (0xC3, p.1)
    | none =>
      let f := rifFanin op d list
      if fan < f then some (0xC0, min f 31) else none

/-- The first boundary at or after a cycle, on a grid of 12 from `e` (R272). -/
def boundary (e t : Nat) : Nat := e + (t - e + 11) / 12 * 12

/-- The smallest power of two that is at least `n`. -/
def pow2Up (n : Nat) : Nat := 2 ^ Nat.clog 2 n

/-- The running time (R279). -/
def rifTime (op fan : Nat) (d : List Nat) : Nat :=
  match op with
  | 2 => let n := max 64 (pow2Up (rifN d)); 24 + 2 * (n / 64) * (Nat.log2 n - 5)
  | 3 => 28 + (rifN d + 63) / 64 * (Nat.log2 (pow2Up (rifK d)) + 5)
  | 4 => 12 * fan + 12
  | _ => 12 * fan

/-- When the completion of an operation that its prologue ends may leave: L + 1; for a named launch that cannot be met 13 cycles
after the request, or after the prologue that shows it (R278). -/
def RifOp.endDue (o : RifOp) (late : Bool) (now : Nat) : Nat := if late then max (o.arrive + 13) (now + 1) else o.launch + 1

/-- The prologue of an operation in mesh cycle `now`, from the court, the start of its grid and the operation: its code and
DETAIL, or its launch (R277, R278). -/
def Court.prologue (now start : Nat) (c : Court) (o : RifOp) : RifOp × Court :=
  let e := c.edge.getD start
  let free := boundary e (max (o.arrive + 12) c.rifEnd)
  let fail := fun (late : Bool) (o : RifOp) (x : Nat × Nat) =>
    { o with phase := .done, code := x.1, detail := x.2, due := o.endDue late now }
  let nofact := rifNoFact o.op o.arrive
  if o.aD % 64 ≠ 0 ∨ plnBytes ≤ o.aD then (fail false { o with launch := free, edge := e, fact := nofact } (0xC2, 8), c)
  else
    let r := c.plnWords o.aD 16
    let c := r.2
    let d := (List.range 8).map (fun i => (r.1.getD (2 * i) (0, false)).1 + 2 ^ 32 * (r.1.getD (2 * i + 1) (0, false)).1)
    let timed := bit (dw d 0) 55
    let l := if timed then o.edge + 12 * bits (dw d 0) 54 32 else free
    let late := timed && decide (l < o.arrive + 12 ∨ l < c.rifEnd)
    let o := { o with launch := l, edge := if timed then o.edge else e, fact := nofact, desc := d }
    if r.1.any (fun w => w.2) then (fail late o (0xC6, 0), c)
    else match rifDescBad o.op d with
      | some w => (fail late o (0xC1, w), c)
      | none =>
        match rifAddrBad o.op d with
        | some w => (fail late o (0xC2, w), c)
        | none =>
          let ls := c.rifList o.op d
          let c := ls.2
          match rifListBad o.op o.fan d ls.1 with
          | some x => (fail late { o with fact := if x.1 = 0xC0 then x.2 else nofact } x, c)
          | none =>
            let list := ls.1.map (fun e => e.1)
            let o := { o with list := list, fact := rifFanin o.op d list }
            if late then (fail late o (0xC4, 0), c)
            else
              let t := rifTime o.op o.fan d
              ({ o with phase := .running, due := l + t + 1 }, { c with rifEnd := l + t })

/-- Apply a change to the first operation that satisfies a test. -/
def rifChange (p : RifOp → Bool) (f : RifOp → RifOp) : List RifOp → List RifOp
  | [] => []
  | o :: t => if p o then f o :: t else o :: rifChange p f t

/-- RIF_PROLOGUE (R277, R278): of the oldest operation that is held. -/
def execRifPrologue (court : Nat) (s : State) : Out :=
  s.onCourt court (fun s =>
    let c := s.court court
    if c.flag CRT_STATUS_CLEARING then s
    else match c.rif.find? (fun o => o.phase == .held) with
      | none => s
      | some o =>
        let r := c.prologue s.cycle (s.runStart court) o
        s.modCourt court (fun _ =>
          let c := if r.1.code = 0 then r.2 else r.2.rifCapture r.1.code r.1.detail o.src o.ctx
          { c with rif := rifChange (fun o => o.phase == .held) (fun _ => r.1) c.rif }))

/-! ### Line moves at a cell (R274) -/

/-- The physical cell at port `k` of a court (R270). -/
def State.portCell (s : State) (q k : Nat) : Nat := s.phys (mkId (8 * (q % 12) + k % 8) (8 * (q / 12) + k / 8))

/-- A class 4 or 5 claim that ownership or range refuses: the refusing cell captures the address, and the context that
issued the request faults while its tag, or for a posted descriptor the context itself, still stands. -/
def State.claimRefused (s : State) (src ctx n cls code a : Nat) (pc : Option Nat) : State :=
  let det := cls * 256 + (if code = 0x40 then 15 else abank a % 16) * 16 + a / 4 % 16
  let s := s.modCell n (Cell.spdCapture ctx cls code a)
  let r := s.phys src
  match pc with
  | some pc => s.modCell r (Cell.raise (s.env r) ctx code det pc)
  | none => s.modCell r (Cell.logOnly (s.env r) code det)

/-- The PC of the instruction that holds a tag at its cell. -/
def State.tagPc (s : State) (src tag : Nat) : Option Nat := ((s.cell (s.phys src)).tags.find? (fun r => r.tag == tag)).map (fun r => r.pc)

/-- A class 4 claim of a cell's port by the crossbar, which a route schedule's claim in the same cycle loses to (R274, log 130). -/
def State.xbarClaim (s : State) (n cls : Nat) (rd : Bool) : State :=
  if cls = 4 then s.modCell n (Cell.takePort rd s.cycle) else s

/-- A read of a scratchpad line for the crossbar: none where it is refused. -/
def State.lineRead (s : State) (src ctx n cls a : Nat) (pc : Option Nat) : Option VR × State :=
  let s := s.xbarClaim n cls true
  match (s.cell n).spdCheck cls true [a] with
  | some (code, fa) => (none, s.claimRefused src ctx n cls code fa pc)
  | none =>
    let r := (s.cell n).viewLoad (viewMap false 0 a)
    (some r.1, s.modCell n (fun _ => r.2))

/-- A write of a scratchpad line for the crossbar; true where it is refused. An isolated cell discards it. -/
def State.lineWrite (s : State) (src ctx n cls a : Nat) (pc : Option Nat) (v : VR) : Bool × State :=
  if (s.cell n).flag CELL_CTRL_ISOLATE then (false, s.modCell n (fun c => c.wr CELL_FAULT_ISO_DROP 1))
  else
    let s := s.xbarClaim n cls false
    match (s.cell n).spdCheck cls true [a] with
    | some (code, fa) => (true, s.claimRefused src ctx n cls code fa pc)
    | none => (false, s.modCell n (fun c => c.viewStore v (viewMap false 0 a)))

/-- What an operation has gathered: status flags [23:17] as bits 6 to 0. -/
abbrev RifRun := Nat × State

/-- A flag ORed in. -/
def RifRun.flag (r : RifRun) (i : Nat) (b : Bool) : RifRun := (if b then r.1 ||| 2 ^ i else r.1, r.2)

/-- OWN_REFUSED. -/
def rOwn : Nat := 6
/-- EMPTY_SEG. -/
def rEmpty : Nat := 5
/-- POISON. -/
def rPoison : Nat := 4
/-- OVERFLOW. -/
def rOver : Nat := 3
/-- INVALID. -/
def rInvalid : Nat := 2
/-- WINDOW_OVERFLOW. -/
def rWindow : Nat := 1
/-- INEXACT. -/
def rInexact : Nat := 0

/-- Cell and scratchpad address of line `l` of dealt row `i` (R283). -/
def dealt (s : State) (q : Nat) (d : List Nat) (i l : Nat) : Nat × Nat :=
  let cs := maskCells (dw d 3)
  let m := cs.length
  (s.portCell q (cs.getD (i % m) 0), bits (dw d 4) 17 0 + (i / m * rifRowLines d + l) * 64)

/-- Plinth address of line `l` of table row `x` (R284). -/
def tableLine (d : List Nat) (x l : Nat) : Nat := bits (dw d 1) 21 0 + (x * rifRowLines d + l) * 64

/-- GATHER's move of one line (R284). -/
def gatherLine (q : Nat) (o : RifOp) (pc : Option Nat) (i x l : Nat) (r : RifRun) : RifRun :=
  let t := dealt r.2 q o.desc i l
  let v : VR × State :=
    if x = 0xFFFFFFFF then (⟨0, 0⟩, r.2)
    else
      let y := (r.2.court q).plnLine (tableLine o.desc x l)
      (y.1, r.2.modCourt q (fun _ => y.2))
  let w := v.2.lineWrite o.src o.ctx t.1 4 t.2 pc v.1
  (RifRun.flag (r.1, w.2) rOwn w.1).flag rPoison (!w.1 && v.1.p != 0)

/-- The exact sum of two elements and whether it saturated (R285). -/
def scaddElem (fmt x y : Nat) : Nat × Bool :=
  let n := fmtBits fmt
  let z := signed n x + signed n y
  let lo : Int := -((2 ^ (n - 1) : Nat) : Int)
  let hi : Int := ((2 ^ (n - 1) : Nat) : Int) - 1
  if z < lo then (wrap n lo, true) else if hi < z then (wrap n hi, true) else (wrap n z, false)

/-- The sum of a table line and a source line, and whether an element saturated. -/
def scaddLine (fmt : Nat) (a b : VR) : VR × Bool :=
  let n := fmtBits fmt
  let es := (List.range (512 / n)).map (fun j => (scaddElem fmt (a.elem n j) (b.elem n j), a.elemP n j || b.elemP n j))
  (packVR n (es.map (fun e => (e.1.1, e.2))), es.any (fun e => e.1.2))

/-- SCADD's move of one line (R285). -/
def scaddMove (q : Nat) (o : RifOp) (pc : Option Nat) (i x l : Nat) (r : RifRun) : RifRun :=
  let t := dealt r.2 q o.desc i l
  let rd := r.2.lineRead o.src o.ctx t.1 4 t.2 pc
  match rd.1 with
  | none => RifRun.flag (r.1, rd.2) rOwn true
  | some v =>
    let fmt := bits (dw o.desc 4) 35 32
    let y := (rd.2.court q).plnLine (tableLine o.desc x l)
    let z := scaddLine fmt y.1 v
    let s := (rd.2.modCourt q (fun _ => y.2)).plnStore q (tableLine o.desc x l) z.1
    (RifRun.flag (r.1, s) (if fmt = 15 then rWindow else rOver) z.2).flag rPoison (z.1.p != 0)

/-- Every line of every row, in row and line order. -/
def rifLines (op : Nat) (o : RifOp) (f : Nat → Nat → Nat → RifRun → RifRun) (r : RifRun) : RifRun :=
  (rifRows op o.list).foldl (fun r p => (List.range (rifRowLines o.desc)).foldl (fun r l => f p.1 p.2 l r) r) r

/-! ### SEGRED (R286) -/

/-- The element values of one input row, with poison; none for the elements of a line whose claim was refused. -/
def segRow (q : Nat) (o : RifOp) (pc : Option Nat) (i : Nat) : List Nat → RifRun → List (Option (Nat × Bool)) × RifRun
  | [], r => ([], r)
  | l :: ls, r =>
    let n := fmtBits (rifIfmt o.desc)
    let t := dealt r.2 q o.desc i l
    let rd := r.2.lineRead o.src o.ctx t.1 4 t.2 pc
    let es := match rd.1 with
      | none => (List.range (512 / n)).map (fun _ => none)
      | some v => (List.range (512 / n)).map (fun j => some (v.elem n j, v.elemP n j))
    let rest := segRow q o pc i ls (RifRun.flag (r.1, rd.2) rOwn rd.1.isNone)
    (es ++ rest.1, rest.2)

/-- An element of a SUM merged at the window (R48, R50). -/
def segSum (fmt : Nat) (w : Int) (a : Acc) (x : Nat × Bool) : Acc :=
  let a := if x.2 then { a with poison := true } else a
  match unpack fmt x.1 with
  | .nan => a.addNaN
  | .inf g => a.addInf g
  | .fin g s q => if fmt = 15 then a.merge w (sgn g s) w else a.merge w (sgn g s) q

/-- The order of two elements of a format, -0 below +0; a NaN wins (R286). -/
def segLess (fmt x y : Nat) : Bool :=
  match vCmp (unpack fmt x) (unpack fmt y) with
  | some .lt => true
  | some .eq => !fmtIsInt fmt && bit x (fmtBits fmt - 1) && !bit y (fmtBits fmt - 1)
  | _ => false

/-- MAX or MIN of a list of elements. -/
def segPick (fmt : Nat) (isMax : Bool) (acc : Option (Nat × Bool)) (x : Nat × Bool) : Option (Nat × Bool) :=
  let nan := fun v => (unpack fmt v).isNaN
  match acc with
  | none => some (if nan x.1 then canonNaN fmt else x.1, x.2)
  | some a =>
    let p := a.2 || x.2
    if nan a.1 || nan x.1 then some (canonNaN fmt, p)
    else if (if isMax then segLess fmt a.1 x.1 else segLess fmt x.1 a.1) then some (x.1, p) else some (a.1, p)

/-- The result of one output element, with its poison and flags. -/
def segElem (d : List Nat) (xs : List (Nat × Bool)) : (Nat × Bool) × Nat :=
  let i := rifIfmt d
  let ofm := rifOfmt d
  if rifRop d = 0 then
    let w := signed 11 (bits (dw d 1) 58 48)
    let a := xs.foldl (segSum i w) Acc.clear
    let fl := b2n a.inexact * 2 ^ rInexact + b2n a.leave.2 * 2 ^ rWindow + b2n a.invalid * 2 ^ rInvalid
    if ofm = 15 then ((wrap 128 a.leave.1, a.poison), fl)
    else
      let r := convert ofm false (bit (dw d 1) 46) 0 (a.value w)
      ((r.out, a.poison), fl ||| (b2n r.range * 2 ^ rOver + b2n r.invalid * 2 ^ rInvalid))
  else
    match xs.foldl (segPick i (rifRop d == 1)) none with
    | none => ((0, false), 0)
    | some r => (r, 0)

/-- The rows of one segment, read in order. -/
def segRows (q : Nat) (o : RifOp) (pc : Option Nat) : List Nat → RifRun → List (List (Option (Nat × Bool))) × RifRun
  | [], r => ([], r)
  | i :: is, r =>
    let x := segRow q o pc i (List.range (rifRowLines o.desc)) r
    let t := segRows q o pc is x.2
    (x.1 :: t.1, t.2)

/-- One output row: its elements and flags. -/
def segOut (d : List Nat) (rows : List (List (Option (Nat × Bool)))) : List (Nat × Bool) × Nat :=
  let es := (List.range (rifElems d)).map (fun e => segElem d (rows.filterMap (fun r => (r[e]?).join)))
  (es.map (fun e => e.1), es.foldl (fun f e => f ||| e.2) 0)

/-- The segments from the `j`-th on, the next row of which is `i`: output rows with flags, then the rows' reads done. -/
def segGo (q : Nat) (o : RifOp) (pc : Option Nat) (j i : Nat) : List Nat → RifRun → List (Nat × List (Nat × Bool)) × RifRun
  | [], r => ([], r)
  | n :: ns, r =>
    let x := segRows q o pc ((List.range n).map (fun k => i + k)) r
    let out : List (Nat × Bool) × Nat :=
      if n = 0 then ((List.range (rifElems o.desc)).map (fun _ => (0, false)), 2 ^ rEmpty) else segOut o.desc x.1
    let t := segGo q o pc (j + 1) (i + n) ns (x.2.1 ||| out.2, x.2.2)
    ((j, out.1) :: t.1, t.2)

/-- Lines of packed elements. -/
def packLines (n : Nat) (es : List (Nat × Bool)) : List VR :=
  (List.range ((es.length * n + 511) / 512)).map (fun l => packVR n ((es.drop (l * (512 / n))).take (512 / n)))

/-- SEGRED's effect. -/
def segredRun (q : Nat) (o : RifOp) (pc : Option Nat) (r : RifRun) : RifRun :=
  let g := segGo q o pc 0 0 o.list r
  let n := fmtBits (rifOfmt o.desc)
  g.1.foldl (fun r x =>
    let ls := packLines n x.2
    ls.zipIdx.foldl (fun r l =>
      let a := bits (dw o.desc 1) 21 0 + (x.1 * rifOutLines o.desc + l.2) * 64
      RifRun.flag (r.1, r.2.plnStore q a l.1) rPoison (l.1.p != 0)) r) g.2

/-! ### SORT and TOPK (R287, R288) -/

/-- The place of a key in the order of its KFMT: every NaN after +infinity, -0 before +0. -/
def keyRank (kf k : Nat) : Nat :=
  match kf with
  | 0 => k
  | 1 => (k + 2 ^ 31) % 2 ^ 32
  | _ => if 0x7F800000 < k % 2 ^ 31 then 2 ^ 33 else if bit k 31 then 2 ^ 32 - 1 - k else k + 2 ^ 31

/-- Stable insertion of a pair before those it precedes strictly. -/
def sortInsert (before : Nat → Nat → Bool) (x : Nat × Nat) : List (Nat × Nat) → List (Nat × Nat)
  | [] => [x]
  | y :: t => if before y.1 x.1 then y :: sortInsert before x t else x :: y :: t

/-- The pairs in sorted order: inserted from the last on, so that equal keys keep their order. -/
def sortPairs (kf : Nat) (desc : Bool) (ps : List (Nat × Nat)) : List (Nat × Nat) :=
  ps.foldr (sortInsert (fun a b => if desc then decide (keyRank kf b < keyRank kf a) else decide (keyRank kf a < keyRank kf b))) []

/-- The effect of SORT and TOPK: `k` pairs written; the inline pairs. -/
def sortRun (q : Nat) (o : RifOp) (k : Nat) (r : RifRun) : List Nat × RifRun :=
  let d := o.desc
  let n := rifN d
  let ks := (r.2.court q).plnWords (bits (dw d 1) 21 0) n
  let vs := ks.2.plnWords (bits (dw d 2) 21 0) n
  let p := ks.1.any (fun e => e.2) || vs.1.any (fun e => e.2)
  let out := (sortPairs (bits (dw d 1) 33 32) (bit (dw d 1) 34) ((ks.1.map (fun e => e.1)).zip (vs.1.map (fun e => e.1)))).take k
  let s := (r.2.modCourt q (fun _ => vs.2)).plnStoreWords q (bits (dw d 3) 21 0) (out.map (fun e => (e.1, p)))
  let s := s.plnStoreWords q (bits (dw d 4) 21 0) (out.map (fun e => (e.2, p)))
  (out.map (fun e => e.1 + 2 ^ 32 * e.2), RifRun.flag (r.1, s) rPoison p)

/-! ### The operations as commands -/

/-- The running operation from its launch on, when it has the code and no clear runs: its whole effect (R20, R279). -/
def State.rifRun (s : State) (q op : Nat) (f : RifOp → RifRun → List Nat × RifRun) : State :=
  let c := s.court q
  match c.rif.find? (fun o => o.phase == .running || o.phase == .held) with
  | none => s
  | some o =>
    if o.op ≠ op ∨ o.phase ≠ .running ∨ s.cycle < o.launch ∨ c.flag CRT_STATUS_CLEARING then s
    else
      let r := f o (0, s)
      let rounds := if op = 2 ∨ op = 3 then 0 else rifTime op o.fan o.desc / 12
      r.2.2.modCourt q (fun c =>
        { c.addSat CRT_XBAR_CNT_RIF_ROUNDS rounds with
          rif := rifChange (fun o => o.phase == .running) (fun o => { o with phase := .moved, flags := r.2.1, inline := r.1 }) c.rif })

/-- GATHER (R284). -/
def execGather (court : Nat) (s : State) : Out :=
  s.onCourt court (fun s => s.rifRun court 0 (fun o r => ([], rifLines 0 o (gatherLine court o (s.tagPc o.src o.tag)) r)))

/-- SCADD (R285). -/
def execScadd (court : Nat) (s : State) : Out :=
  s.onCourt court (fun s => s.rifRun court 1 (fun o r => ([], rifLines 1 o (scaddMove court o (s.tagPc o.src o.tag)) r)))

/-- SEGRED (R286). -/
def execSegred (court : Nat) (s : State) : Out :=
  s.onCourt court (fun s => s.rifRun court 4 (fun o r => ([], segredRun court o (s.tagPc o.src o.tag) r)))

/-- SORT (R287). -/
def execSort (court : Nat) (s : State) : Out :=
  s.onCourt court (fun s => s.rifRun court 2 (fun o r => ([], (sortRun court o (rifN o.desc) r).2)))

/-- TOPK (R288): the pairs are written, and with INLINE they travel in the completion too. -/
def execTopk (court : Nat) (s : State) : Out :=
  s.onCourt court (fun s => s.rifRun court 3 (fun o r =>
    let x := sortRun court o (rifK o.desc) r
    (if bit (dw o.desc 3) 44 then x.1 else [], x.2)))

/-- RIF_COMPLETE (R278 to R280): the completion of the oldest operation that has ended leaves the court port, in its cycle or
after it. -/
def execRifComplete (court : Nat) (s : State) : Out :=
  s.onCourt court (fun s => s.modCourt court (fun c =>
    match takeFirst (fun (o : RifOp) => (o.phase == .moved || o.phase == .done) && decide (o.due ≤ s.cycle)) c.rif with
    | none => c
    | some (o, rest) => { c with rif := rest, out := c.out ++ [o.answer court] }))

/-- Whether a Riffler operation holds the crossbar in mesh cycle `now`, or launches before a round of 12 cycles is over (R272). -/
def Court.rifHolds (c : Court) (now : Nat) : Bool :=
  c.rif.any (fun o => (o.phase == .running || o.phase == .moved) && decide (o.launch < now + 12 ∧ now + 1 < o.due))

/-- The Riffler at a niche or die reset (R281): it stops, its operations are discarded. -/
def Court.rifReset (c : Court) : Court := { c with rif := [], rifIn := [], rifEnd := 0 }

/-- CRT_STATUS in mesh cycle `now` (R291): PROLOGUE in the 12 cycles before the launch of the oldest operation whose prologue
has run, then ROUNDS or SORTING, with the rounds that are left. -/
def Court.statusWord (now : Nat) (c : Court) : Nat :=
  let st := match c.rif.find? (fun o => o.phase != .held) with
    | none => 0
    | some o =>
      let sorts : Bool := o.op == 2 || o.op == 3
      let left := (o.due - 1 - max now o.launch + 11) / 12
      if now < o.launch then (if o.launch ≤ now + 12 then 4 else 0)
      else if o.phase = .done then 0
      else o.op * 256 + 4 * (if sorts then 3 else 2) + (if sorts then 0 else min 31 left) * 2 ^ 27
  st + c.rif.length * 32 + c.rd CRT_STATUS_CLEARING

end Sys2Proof.Machine
end

