-- ==== Sys2Proof/Machine/Hbm.lean ====
section
/-! DEFINITION. HBM: address map, half-lines with ECC and poison, block checks, niche windows
(spec/11_hbm_dma.md R318 to R332). -/

namespace Sys2Proof.Machine
open Sys2Proof

/-! ### Addresses (R318 to R320) -/

/-- The capacity C in bytes: 24 GiB under the map of 18 R518. -/
def State.hbmC (s : State) : Nat := if s.mgmt.soleStack.isSome then 24 * 2 ^ 30 else if s.lite then 96 * 2 ^ 30 else 192 * 2 ^ 30
/-- T = C - C / 1,024. -/
def State.hbmT (s : State) : Nat := s.hbmC - s.hbmC / 1024
/-- The end of the allocatable range. -/
def State.hbmAlloc (s : State) : Nat := s.hbmT - 320 * 2 ^ 20
/-- First byte of the crash cast region. -/
def State.crashBase (s : State) : Nat := s.hbmT - 256 * 2 ^ 20

/-- Pseudo-channel and byte within it (R320). -/
def hbmMap (lite : Bool) (a : Nat) : Nat × Nat :=
  let g := a / 256
  if lite then
    ((bits g 6 0 ^^^ bits g 13 7 ^^^ bits g 20 14 ^^^ bits g 27 21 ^^^ bits g 29 28) % 128, g / 128 * 256 + a % 256)
  else
    ((bits g 7 0 ^^^ bits g 15 8 ^^^ bits g 23 16 ^^^ bits g 29 24) % 256, g / 256 * 256 + a % 256)

/-- The same under the map of 18 R518, with the pseudo-channel of the one stack. -/
def soleMap (a : Nat) : Nat × Nat :=
  let g := a / 256
  ((bits g 4 0 ^^^ bits g 9 5 ^^^ bits g 14 10 ^^^ bits g 19 15 ^^^ bits g 24 20 ^^^ bits g 29 25) % 32, g / 32 * 256 + a % 256)

/-- Pseudo-channel of the package and row of a device address (R320, 16 R459); the row of a byte is open. -/
def State.hbmRow (s : State) (a : Nat) : Nat × Nat :=
  match s.mgmt.soleStack with
  | some k => (32 * k + (soleMap a).1, Config.hbmRow (soleMap a).2)
  | none => ((hbmMap s.lite a).1, Config.hbmRow (hbmMap s.lite a).2)

/-- The stack of a device address (R318, 18 R518). -/
def State.hbmStack (s : State) (a : Nat) : Nat :=
  match s.mgmt.soleStack with
  | some k => k
  | none =>
    let p := (hbmMap s.lite a).1
    if s.lite then 2 * (p / 32) else p / 32

/-- A field of controller `k` of a die. -/
def Fld.hbm (f : Fld) (k : Nat) : Fld := f.up (0x800 * k)

/-! ### Block checks (R328 to R331) -/

/-- One bit of a reflected CRC-32C. -/
def crcBit (x : Nat) : Nat := if x % 2 = 1 then x / 2 ^^^ 0x82F63B78 else x / 2
/-- One byte. -/
def crcByte (c : Nat) (b : BitVec 8) : Nat :=
  crcBit (crcBit (crcBit (crcBit (crcBit (crcBit (crcBit (crcBit (c ^^^ b.toNat))))))))
/-- CRC-32C. -/
def crc32c (bs : List (BitVec 8)) : Nat := bs.foldl crcByte 0xFFFFFFFF ^^^ 0xFFFFFFFF

/-- The check of a block of zeros: what an unwritten block's stored check reads (R332). -/
def zeroCheck : Nat → Nat := fun _ => 0x98F94189

/-- The check of the data that block `b` holds. -/
def State.dataCheck (s : State) (b : Nat) : Nat := crc32c (memBytes s.hbm (4096 * b) 4096)

/-- The stored check of block `b`. -/
def State.storedCheck (s : State) (b : Nat) : Nat := fget zeroCheck s.hbmCheck b

/-- A change of block `b`'s data by `f`, with the update of R330: the stored check takes the change in the check. -/
def State.partly (s : State) (b : Nat) (f : State → State) : State :=
  let t := f s
  { t with hbmCheck := fset zeroCheck t.hbmCheck b (s.storedCheck b ^^^ s.dataCheck b ^^^ t.dataCheck b) }

/-! ### Lines (R324, R325) -/

/-- The record of an uncorrectable error or a block check mismatch at a device address (R325, R329). -/
def State.hbmEvent (s : State) (a code detail : Nat) : State :=
  let k := s.hbmStack a
  s.event (k / 2) { code := code, detail := detail, kind := 3, index := k % 2, addr := a }

/-- The read of half-line `h`: its 32 bytes, whether it is poisoned, and the machine after its ECC was used. -/
def State.halfRead (s : State) (h : Nat) : Nat × Bool × State :=
  let v := memRead s.hbm (32 * h) 32
  let k := s.hbmStack (32 * h)
  match fget ecc0 s.hbmEcc h with
  | .ok => (v, fget noMark s.hbmPoison h, s)
  | .ce => (v, fget noMark s.hbmPoison h, State.dieAdd { s with hbmErrs := s.hbmErrs ++ [MemErr.mk 5 h false] } (k / 2)
      (HBM_ECC_CE_CNT.hbm (k % 2)) 1)
  | .ue =>
    let s := { s with hbmPoison := fset noMark s.hbmPoison h true, hbmEcc := fset ecc0 s.hbmEcc h .ok
                      hbmErrs := s.hbmErrs ++ [MemErr.mk 5 h true] }
    let s := s.dieAdd (k / 2) (HBM_ECC_UE_CNT.hbm (k % 2)) 1
    let s := if s.dieRd (k / 2) (HBM_UE_ADDR_VALID.hbm (k % 2)) = 1 then s
      else (s.dieWr (k / 2) (HBM_UE_ADDR_VALID.hbm (k % 2)) 1).dieWr (k / 2) (HBM_UE_ADDR_ADDR.hbm (k % 2)) h
    (v, true, s.hbmEvent (32 * h) (Config.eventCode 0) 0)

/-- The read of the line at a device address. -/
def State.hbmLine (s : State) (a : Nat) : VR × State :=
  let x := s.halfRead (2 * (a / 64))
  let y := x.2.2.halfRead (2 * (a / 64) + 1)
  (⟨BitVec.ofNat 512 (x.1 + y.1 * 2 ^ 256), BitVec.ofNat 16 (b2n x.2.1 * 0xFF + b2n y.2.1 * 0xFF00)⟩, y.2.2)

/-- A half-line written: bytes and poison mark, check bits good. -/
def State.halfPut (s : State) (h v : Nat) (p : Bool) : State :=
  { s with hbm := memWrite s.hbm (32 * h) 32 v
           hbmPoison := fset noMark s.hbmPoison h p
           hbmEcc := fset ecc0 s.hbmEcc h .ok }

/-- A line written at a device address, its check left alone. -/
def State.linePut (s : State) (a : Nat) (v : VR) : State :=
  (s.halfPut (2 * (a / 64)) (v.v.toNat % 2 ^ 256) (v.p.toNat % 256 != 0)).halfPut (2 * (a / 64) + 1) (v.v.toNat / 2 ^ 256)
    (v.p.toNat / 256 != 0)

/-- A line written with the partial update of its block's check (R330). -/
def State.hbmPut (s : State) (a : Nat) (v : VR) : State := s.partly (a / 4096) (fun s => s.linePut a v)

/-- Consecutive lines written, each with the partial update. -/
def State.hbmPutAll (s : State) (a : Nat) : List VR → State
  | [] => s
  | v :: vs => (s.hbmPut a v).hbmPutAll (a + 64) vs

/-- Consecutive lines read. -/
def State.hbmLines (s : State) (a : Nat) : Nat → List VR × State
  | 0 => ([], s)
  | n + 1 =>
    let r := s.hbmLine a
    let t := r.2.hbmLines (a + 64) n
    (r.1 :: t.1, t.2)

/-- The bytes of a line. -/
def VR.bytes (v : VR) : List (BitVec 8) := valBytes v.v.toNat 64

/-- The carried check of lines (R329). -/
def carried (ls : List VR) : Nat := crc32c (ls.flatMap VR.bytes)

/-- A whole block written: the data, then the carried check (R329). -/
def State.hbmPutBlock (s : State) (a : Nat) (ls : List VR) : State :=
  let s := (ls.zipIdx).foldl (fun s l => s.linePut (a + 64 * l.2) l.1) s
  { s with hbmCheck := fset zeroCheck s.hbmCheck (a / 4096) (carried ls) }

/-- A poisoned line. -/
def VR.poisoned (v : VR) : VR := { v with p := BitVec.allOnes 16 }

/-- A whole block read: compared with its stored check, every word poisoned on a mismatch, which is counted and logged
(R329). The flag says that it matched. -/
def State.hbmBlock (s : State) (a detail : Nat) : (List VR × Bool) × State :=
  let r := s.hbmLines a 64
  if carried r.1 = r.2.storedCheck (a / 4096) then ((r.1, true), r.2)
  else
    let k := s.hbmStack a
    ((r.1.map VR.poisoned, false), (r.2.dieAdd (k / 2) (HBM_ECC_BCHK_CNT.hbm (k % 2)) 1).hbmEvent a 0xD5 detail)

/-- Zero consecutive segments of 64 KiB, poison clear, with the checks of zero blocks (R332). -/
def State.zeroSegs (s : State) (seg n : Nat) : State :=
  let lo := seg * 65536
  let len := n * 65536
  { s with hbm := memZero s.hbm lo len
           hbmPoison := fdrop (fun h => decide (lo / 32 ≤ h ∧ h < (lo + len) / 32)) s.hbmPoison
           hbmEcc := fdrop (fun h => decide (lo / 32 ≤ h ∧ h < (lo + len) / 32)) s.hbmEcc
           hbmCheck := fdrop (fun b => decide (lo / 4096 ≤ b ∧ b < (lo + len) / 4096)) s.hbmCheck }

/-! ### Niche windows (R323) -/

/-- Whether window `w` of niche `i` admits the bytes from `lo` to `hi - 1`. -/
def State.windowHas (s : State) (i w : Nat) (write : Bool) (lo hi : Nat) : Bool :=
  let f := fun (a b : Fld) => (if w = 0 then a else b).niche i
  let base := 65536 * s.rd (f HBM_NWIN0_BASE_SEG HBM_NWIN1_BASE_SEG)
  s.flag (f HBM_NWIN0_VALID HBM_NWIN1_VALID) && !(write && s.flag (f HBM_NWIN0_READONLY HBM_NWIN1_READONLY))
    && decide (base ≤ lo ∧ hi ≤ base + 65536 * s.rd (f HBM_NWIN0_SIZE_SEG HBM_NWIN1_SIZE_SEG) ∧ hi ≤ s.hbmAlloc)

/-- Whether an access of a niche is admitted. -/
def State.hbmAdmits (s : State) (i : Nat) (write : Bool) (lo hi : Nat) : Bool :=
  s.windowHas i 0 write lo hi || s.windowHas i 1 write lo hi

/-- HBM_PATROL_SCRUB: the scrub reads the line that holds a device address; a correctable error is corrected and written
back, an uncorrectable one is handled under R325; SCRUB_H = 0 disables it (R326). -/
def execHbmPatrolScrub (line : Nat) (s : State) : Out :=
  let a := 64 * line
  if 3221225472 ≤ line then .fault .noSuchUnit
  else
    let k := s.hbmStack a
    .next (if decide (s.hbmC ≤ a) || fget noMark s.dieHalt (k / 2) || s.dieRd (k / 2) (HBM_CTRL_SCRUB_H.hbm (k % 2)) == 0 then s
      else
        let t := (s.hbmLine a).2
        { t with hbmEcc := fset ecc0 (fset ecc0 t.hbmEcc (2 * line) .ok) (2 * line + 1) .ok })

end Sys2Proof.Machine
end

