-- ==== Sys2Proof/Machine/Defect.lean ====
section
/-! DEFINITION. Errors of memory rows, instruction words and registers as the Restorer counts them, and the repair of rows
(spec/16_restorer.md R459, R461). -/

namespace Sys2Proof.Machine
open Sys2Proof

/-! ### Errors of memory rows and of words of a core (R461) -/

/-- KIND and LOC of the row that an error lies in (R459): a scratchpad row, a plinth row, a word of an instruction store, an HBM
row. -/
def State.errRow (s : State) (e : ErrAt) : Nat × Nat :=
  let w := e.err.word
  (e.err.kind, match e.err.kind with
    | 2 => e.unit + physBank (4 * w) * 2 ^ 14 + physRow (4 * w) * 2 ^ 18
    | 3 => e.unit + w / 16 % 64 * 2 ^ 8 + w / 1024 * 2 ^ 14
    | 4 => e.unit + w / 1024 * 2 ^ 14 + w % 1024 * 2 ^ 16
    | _ => (s.hbmRow (32 * w)).1 + (s.hbmRow (32 * w)).2 % 2 ^ 18 * 2 ^ 8)

/-- The die of the unit that a row's entry names. -/
def State.flawDie (s : State) (kind loc : Nat) : Nat :=
  match kind with
  | 3 => courtDie (loc % 2 ^ 8)
  | 5 => (if s.lite && s.mgmt.soleStack.isNone then 2 * (loc % 2 ^ 8 / 32) else loc % 2 ^ 8 / 32) / 2
  | _ => cellDie (loc % 2 ^ 14)

/-- A row is to be repaired at the next reset (R461): its entry, not yet in force, and REPAIR_PENDING. -/
def State.pendRow (s : State) (e : ErrAt) (cause : Nat) : State :=
  let x := s.errRow e
  if s.flaws.any (fun f => f.kind == x.1 && f.loc == x.2) then s
  else (s.addFlaw { kind := x.1, cause := cause, die := s.flawDie x.1 x.2, applied := false, confirmed := false, loc := x.2
                    tick := s.tick, stored := false }).resEvent (s.flawDie x.1 x.2) 0x0C
    (match x.1 with
      | 3 => { kind := 1, index := e.unit, niche := s.nicheAt e.unit }
      | 5 => { kind := 3, index := s.hbmStack (32 * e.err.word) % 2, addr := 32 * e.err.word }
      | _ => s.cellRec e.unit)

/-- An error is counted (R461). An uncorrectable one that an earlier one of the same word precedes has recurred after the word was
written. One of an instruction word or a register fences the cell within 24 hours, and marks an instruction word for repair after
that; 16 correctable ones of a row within 24 hours mark it. -/
def State.countErr (s : State) (e : ErrAt) : State :=
  let recent := fun (x : ErrAt) => decide (s.tick < x.tick + dayTicks)
  let log := s.errLog.filter (fun x => x.err.ue || recent x)
  let same := log.filter (fun x => x.unit == e.unit && x.err == e.err)
  let s := { s with errLog := log ++ [e] }
  if e.err.ue then
    (if same.isEmpty then s
     else if e.err.kind = 4 ∨ e.err.kind = 8 then
       (if same.any recent then s.decideCell e.unit 3 else if e.err.kind = 4 then s.pendRow e 3 else s)
     else s.pendRow e 3)
  else if 15 ≤ (log.filter (fun x => !x.err.ue && x.unit == e.unit && s.errRow x == s.errRow e)).length then s.pendRow e 4
  else s

/-- The errors that cells, courts and HBM have found since the last mesh cycle are counted. -/
def State.gatherErrs (s : State) : State :=
  let at' := fun (u : Nat) (l : List MemErr) => l.map (fun x => ErrAt.mk u x s.tick)
  let cs := s.cells.filter (fun e => !e.2.errs.isEmpty)
  let qs := s.courts.filter (fun e => !e.2.errs.isEmpty)
  let es := cs.flatMap (fun e => at' e.1 e.2.errs) ++ qs.flatMap (fun e => at' e.1 e.2.errs) ++ at' 0 s.hbmErrs
  if es.isEmpty then s
  else
    let s := (s.modCells (cs.map (fun e => e.1)) (fun c => { c with errs := [] })).modCourts (qs.map (fun e => e.1))
      (fun c => { c with errs := [] })
    es.foldl State.countErr { s with hbmErrs := [] }

/-! ### Repair of memory rows (R461) -/

/-- Rows of its unit that share the spare rows with a row: a scratchpad bank, a plinth bank, an instruction store. -/
def rowGroup (f : Flaw) : Nat := match f.kind with | 2 => f.loc % 2 ^ 18 | 3 => f.loc % 2 ^ 14 | _ => f.loc % 2 ^ 16

/-- Spare rows (R461). -/
def spareRows (kind : Nat) : Nat := if kind = 3 then 8 else 4

/-- A die or package reset repairs a row of the die: an HBM row by post-package repair, another one from its spares; one that finds
no spare left fences its cell, or marks its court DEGRADED. -/
def State.repairRow (s : State) (f : Flaw) : State :=
  let used := ((s.fuses ++ s.flaws).filter (fun g => g.kind == f.kind && g.applied && rowGroup g == rowGroup f)).length
  if f.kind = 5 ∨ used < spareRows f.kind then
    { s with flaws := s.flaws.map (fun g => if g == f then { g with applied := true } else g) }
  else if f.kind = 3 then
    (if s.flaws.any (fun g => g.kind == 7 && g.loc == f.loc % 2 ^ 8) then s
     else ((s.addFlaw { kind := 7, cause := f.cause, die := f.die, applied := true, confirmed := false, loc := f.loc % 2 ^ 8
                        tick := s.tick, stored := false }).addSat RES_PKG_STATUS_DEGRADED 1).resEvent f.die 0x05
            { kind := 1, index := f.loc % 2 ^ 8 })
  else s.decideCell (f.loc % 2 ^ 14) f.cause

/-- The rows of a die that wait for repair. -/
def State.repairRows (s : State) (d : Nat) : State :=
  (s.flaws.filter (fun f => decide (2 ≤ f.kind ∧ f.kind ≤ 5) && !f.applied && f.die == d)).foldl State.repairRow s

end Sys2Proof.Machine
end

