-- ==== Sys2Proof/Machine/Dma.lean ====
section
/-! DEFINITION. Court DMA: queues, descriptors, moves, completions, and the crossbar rounds that carry them and the scans
to the plinth (spec/11_hbm_dma.md R333 to R343, spec/09_courts_riffler.md R270 to R275, R289). -/

namespace Sys2Proof.Machine
open Sys2Proof

/-- A field of queue `n`. -/
def Fld.queue (f : Fld) (n : Nat) : Fld := f.up (0x10 * n)

/-- A queue of a court. -/
def Court.queue (c : Court) (n : Nat) : List DmaOp := fget nil0 c.dma n
/-- Replace a queue; QST shows whether its head is carried and how many descriptors wait. -/
def Court.setQueue (c : Court) (n : Nat) (l : List DmaOp) : Court :=
  let act := match l with | o :: _ => o.active || o.ended | [] => false
  let c := (c.wr (DMA_QST_ACTIVE.queue n) (b2n act)).wr (DMA_QST_QUEUED.queue n) (l.length - b2n act)
  { c with dma := fset nil0 c.dma n l }

/-! ### Descriptor fields (R334) -/

/-- KIND. -/
def DmaOp.kind (o : DmaOp) : Nat := bits (dw o.words 0) 63 56
/-- NOTIFY. -/
def DmaOp.notify (o : DmaOp) : Bool := bit (dw o.words 0) 55
/-- ROWLINES. -/
def DmaOp.rowLines (o : DmaOp) : Nat := bits (dw o.words 0) 47 32 + 1
/-- NROWS. -/
def DmaOp.rows (o : DmaOp) : Nat := bits (dw o.words 0) 27 16 + 1
/-- Lines of the whole move. -/
def DmaOp.total (o : DmaOp) : Nat := o.rowLines * o.rows
/-- CELL. -/
def DmaOp.cell (o : DmaOp) : Nat := bits (dw o.words 0) 5 0
/-- NOBJ. -/
def DmaOp.nobj (o : DmaOp) : Nat := bits (dw o.words 4) 31 0

/-- What a side of a move addresses. -/
inductive Side where
  | spd | pln | hbm | zero
deriving DecidableEq, Repr

/-- Source of a kind (R335). -/
def srcSide : Nat → Side
  | 1 => .spd | 2 => .pln | 3 => .pln | 4 => .hbm | 5 => .spd | 6 => .hbm | _ => .zero
/-- Destination of a kind (R335). -/
def dstSide : Nat → Side
  | 1 => .pln | 2 => .spd | 3 => .hbm | 4 => .pln | 5 => .hbm | 6 => .spd | _ => .hbm

/-- The bits of an address word that its side defines. -/
def sideBits : Side → List (Nat × Nat)
  | .spd => [(17, 0)] | .pln => [(21, 0)] | .hbm => [(53, 32), (15, 0)] | .zero => []
/-- The address of an address word (R322). -/
def sideAddr (k : Side) (v : Nat) : Nat :=
  match k with
  | .spd => bits v 17 0 | .pln => bits v 21 0 | .hbm => bits v 53 32 * 65536 + bits v 15 0 | .zero => 0

/-- SSTRIDE or DSTRIDE. -/
def DmaOp.stride (o : DmaOp) (dst : Bool) : Int := signed 32 (if dst then bits (dw o.words 3) 63 32 else bits (dw o.words 3) 31 0)
/-- The address of a side's line `i` in the order of R335. -/
def DmaOp.lineAddr (o : DmaOp) (dst : Bool) (i : Nat) : Int :=
  let k := if dst then dstSide o.kind else srcSide o.kind
  (sideAddr k (dw o.words (if dst then 2 else 1)) : Int) + (i / o.rowLines : Nat) * o.stride dst * 64 + (i % o.rowLines : Nat) * 64

/-- First byte and end of the area that a side's lines take. -/
def DmaOp.span (o : DmaOp) (dst : Bool) : Int × Int :=
  let a := o.lineAddr dst 0
  let b := o.lineAddr dst ((o.rows - 1) * o.rowLines)
  (min a b, max a b + o.rowLines * 64)

/-! ### The checks at the start (R337) -/

/-- Row 2 of R337: the descriptor word that DMA_DESC names. `fixed` is DMA_QCFG.FIXED. -/
def State.dmaDescBad (s : State) (q : Nat) (fixed : Bool) (o : DmaOp) : Option Nat :=
  let k := o.kind
  let zero := k == 7
  let w0 := onlyIn (dw o.words 0) [(63, 55), (47, 32), (27, 16), (5, 0)] && decide (1 ≤ k ∧ k ≤ 7) && decide (o.total ≤ 65536)
    && !(fixed && (decide (2 < k) || decide (1 < o.total))) && !(zero && o.cell != 0)
  let w1 := onlyIn (dw o.words 1) (sideBits (srcSide k))
  let w2 := onlyIn (dw o.words 2) (sideBits (dstSide k))
  let w3 := !(zero && bits (dw o.words 3) 31 0 != 0)
  let here : Bool := match s.nicheAt q with
    | some i => s.nicheHas i (12 * bits o.nobj 14 11 + bits o.nobj 10 7)
    | none => false
  let w4 := !o.notify || (syncObjOk s.small o.nobj && here)
  let rest := fun i => (i, dw o.words i == 0)
  (([(0, w0), (1, w1), (2, w2), (3, w3), (4, w4), rest 5, rest 6, rest 7].find? (fun e => !e.2))).map (fun e => e.1)

/-- Row 3 of R337: whether a side is misaligned or outside its store. -/
def DmaOp.addrBad (o : DmaOp) (dst : Bool) : Bool :=
  let k := if dst then dstSide o.kind else srcSide o.kind
  let sp := o.span dst
  let top : Nat := match k with | .spd => spdBytes | .pln => plnBytes | _ => 0
  match k with
  | .zero => false
  | .hbm => decide (sp.1 % 64 ≠ 0)
  | _ => decide (sp.1 % 64 ≠ 0 ∨ sp.1 < 0 ∨ (top : Int) < sp.2)

/-- Row 4 of R337: whether an HBM side is not admitted under R323. -/
def State.boundsBad (s : State) (q : Nat) (o : DmaOp) (dst : Bool) : Bool :=
  let k := if dst then dstSide o.kind else srcSide o.kind
  let sp := o.span dst
  k == .hbm && !(decide (0 ≤ sp.1) && (match s.nicheAt q with
    | some i => s.hbmAdmits i dst sp.1.toNat sp.2.toNat
    | none => false))

/-- The code and DETAIL with which a descriptor ends at its start (R337). -/
def State.dmaBad (s : State) (q : Nat) (fixed : Bool) (o : DmaOp) : Option (Nat × Nat) :=
  if o.poisoned then some (0xD6, 0)
  else match s.dmaDescBad q fixed o with
    | some w => some (0xD0, w)
    | none =>
      if o.addrBad false then some (0xD1, 1)
      else if o.addrBad true then some (0xD1, 2)
      else if s.boundsBad q o false then some (0xD2, 1)
      else if s.boundsBad q o true then some (0xD2, 2)
      else none

/-! ### Completion (R339, R340) -/

/-- The status word. -/
def DmaOp.status (o : DmaOp) (queue : Nat) : Nat :=
  bits o.detail 7 0 * 2 ^ 56 + o.written % 2 ^ 24 * 2 ^ 32 + bits o.detail 10 8 * 2 ^ 28 + b2n o.own * 2 ^ 26 + b2n o.pz * 2 ^ 25
    + b2n o.bchk * 2 ^ 24 + queue * 2 ^ 16 + o.code * 256 + o.kind

/-- DMA_FAULT captures the first fault since it was re-armed. -/
def Court.dmaCapture (c : Court) (queue : Nat) (o : DmaOp) : Court :=
  if o.code = 0 ∨ c.flag DMA_FAULT_VALID then c
  else (((((c.wr DMA_FAULT_VALID 1).wr DMA_FAULT_CODE o.code).wr DMA_FAULT_CTX o.ctx).wr DMA_FAULT_CELL o.src).wr
    DMA_FAULT_QUEUE queue).wr DMA_FAULT_DETAIL o.detail

/-- The end of a descriptor, a refused one included: the status goes to its requester or the fault log, and with NOTIFY
and no error the ADD is posted (R340). -/
def State.dmaFinish (s : State) (q queue : Nat) (o : DmaOp) : State :=
  let s := s.modCourt q (fun c => c.dmaCapture queue o)
  let s :=
    if o.resp then
      s.modCourt q (fun c => { c with out := c.out ++
        [{ kind := .response, priv := true, len := 8, tag := o.tag, unit := 0, port := 0x30, dest := o.src, src := courtHub q
           payload := valBytes (o.status queue) 8, info := [o.code, o.detail] }] })
    else if o.code = 0 then s
    else s.event (courtDie q) { code := o.code, ctx := o.ctx, ctxValid := true, detail := o.detail, unit := s.phys o.src
                                index := o.src, niche := s.nicheAt q }
  if o.notify && o.code == 0 then
    s.modCourt q (fun c => { c with out := c.out ++
      [{ kind := .posted, priv := true, len := 8, unit := 1, port := 0, dest := hubId (bits o.nobj 10 7) (bits o.nobj 14 11)
         src := courtHub q, payload := valBytes (bits (dw o.words 4) 63 32) 8, info := [1, o.nobj] }] })
  else s

/-- The descriptor that a message carries. -/
def dmaOfMsg (now : Nat) (m : Msg) : DmaOp :=
  { words := (List.range 8).map (fun i => bytesVal (m.payload.drop (8 * i)) 8), poisoned := m.poison, src := m.src
    ctx := m.srcCtx, tag := m.tag, resp := m.kind == .request, pc := m.info.getD 0 0, accept := now }

/-- DMA_DESC_ARRIVE (R333): admission. A refused descriptor completes at once, and notifies nothing. -/
def execDmaDescArrive (court : Nat) (s : State) : Out :=
  s.onCourt court (fun s =>
    let c := s.court court
    match c.dmaIn with
    | [] => s
    | m :: t =>
      let n := m.port % 16
      let o := dmaOfMsg s.cycle m
      let s := s.modCourt court (fun c => { c with dmaIn := t })
      if c.flag (DMA_QCFG_ENABLE.queue n) && decide (c.rd (DMA_QST_QUEUED.queue n) < 32) then
        s.modCourt court (fun c =>
          (c.setQueue n (c.queue n ++ [o])).wr (DMA_QST_POSTED.queue n) ((c.rd (DMA_QST_POSTED.queue n) + 1) % 65536))
      else s.dmaFinish court n { o with code := if c.flag (DMA_QCFG_ENABLE.queue n) then 0xD3 else 0xD4, detail := n })

/-- DMA_COMPLETE of the head descriptor of a queue, once nothing more of it moves (R338 to R340). -/
def execDmaComplete (court queue : Nat) (s : State) : Out :=
  if 16 ≤ queue then .fault .noSuchUnit
  else s.onCourt court (fun s =>
    match (s.court court).queue queue with
    | [] => s
    | o :: t =>
      if o.ended then
        (s.modCourt court (fun c => (c.setQueue queue t).wr (DMA_QST_COMPLETED.queue queue)
          ((c.rd (DMA_QST_COMPLETED.queue queue) + 1) % 65536))).dmaFinish court queue o
      else s)

/-! ### Lines at the scratchpad and the plinth -/

/-- The first error of a descriptor sets its code (R339). -/
def DmaOp.error (o : DmaOp) (code detail : Nat) : DmaOp := if o.code = 0 then { o with code := code, detail := detail } else o

/-- A refused scratchpad line (R274, R339). A fixed descriptor's claim is class 4 and faults the context too. -/
def State.dmaRefused (s : State) (fixed : Bool) (n code a : Nat) (o : DmaOp) : DmaOp × State :=
  let o := { o with own := true }.error 0xD7 (if code = 0x40 then 15 else abank a % 16)
  (o, if fixed then s.claimRefused o.src o.ctx n 4 code a (if o.resp then s.tagPc o.src o.tag else some o.pc) else s)

/-- Read a scratchpad line: class 4 for a fixed descriptor, 5 otherwise. -/
def State.dmaSpdRead (s : State) (fixed : Bool) (n a : Nat) (o : DmaOp) : Option VR × DmaOp × State :=
  let s := s.xbarClaim n (if fixed then 4 else 5) true
  match (s.cell n).spdCheck (if fixed then 4 else 5) true [a] with
  | some (code, fa) => let r := s.dmaRefused fixed n code fa o; (none, r.1, r.2)
  | none =>
    let r := (s.cell n).viewLoad (viewMap false 0 a)
    (some r.1, o, s.modCell n (fun _ => r.2))

/-- A written line counts, and its poison shows. -/
def DmaOp.wrote (o : DmaOp) (v : VR) : DmaOp := { o with written := o.written + 1, pz := o.pz || v.p != 0 }

/-- Write a scratchpad line; an isolated cell discards it (R274, R341). -/
def State.dmaSpdWrite (s : State) (fixed : Bool) (n a : Nat) (v : VR) (o : DmaOp) : DmaOp × State :=
  if (s.cell n).flag CELL_CTRL_ISOLATE then (o, s.modCell n (fun c => c.wr CELL_FAULT_ISO_DROP 1))
  else
    let s := s.xbarClaim n (if fixed then 4 else 5) false
    match (s.cell n).spdCheck (if fixed then 4 else 5) true [a] with
    | some (code, fa) => s.dmaRefused fixed n code fa o
    | none => (o.wrote v, s.modCell n (fun c => c.viewStore v (viewMap false 0 a)))

/-! ### Kinds 0x03 to 0x07 (R329, R335, R336) -/

/-- The lines of one transfer block read at the source, none where refused; the carried check is theirs. -/
def State.dmaRead (s : State) (q : Nat) (o : DmaOp) : List Nat → List (Option VR) × DmaOp × State
  | [] => ([], o, s)
  | i :: is =>
    let a := (o.lineAddr false i).toNat
    let r : Option VR × DmaOp × State := match srcSide o.kind with
      | .spd => s.dmaSpdRead false (s.portCell q o.cell) a o
      | .pln => let x := (s.court q).plnLine a; (some x.1, o, s.modCourt q (fun _ => x.2))
      | .hbm => let x := s.hbmLine a; (some x.1, o, x.2)
      | .zero => (some ⟨0, 0⟩, o, s)
    let t := r.2.2.dmaRead q r.2.1 is
    (r.1 :: t.1, t.2)

/-- Whether a transfer block is whole on an HBM side: its 64 lines form one aligned block (R329). -/
def DmaOp.whole (o : DmaOp) (dst : Bool) (is : List Nat) : Bool :=
  let a := o.lineAddr dst (is.headD 0)
  is.length == 64 && decide (a % 4096 = 0) && is.zipIdx.all (fun p => decide (o.lineAddr dst p.1 = a + 64 * p.2))

/-- Lines of one transfer block written at the destination. -/
def State.dmaWrite (s : State) (q : Nat) (o : DmaOp) : List (Nat × Option VR) → DmaOp × State
  | [] => (o, s)
  | (_, none) :: t => s.dmaWrite q o t
  | (i, some v) :: t =>
    let a := (o.lineAddr true i).toNat
    match dstSide o.kind with
    | .spd => let r := s.dmaSpdWrite false (s.portCell q o.cell) a v o; r.2.dmaWrite q r.1 t
    | .pln => (s.plnStore q a v).dmaWrite q (o.wrote v) t
    | _ => (s.hbmPut a v).dmaWrite q (o.wrote v) t

/-- The staging area after block `b` has passed through its buffer (R336); each of its lines took a crossbar round. -/
def State.stage (s : State) (q b : Nat) (ls : List (Option VR)) : State :=
  s.modCourt q (fun c =>
    (ls.zipIdx.foldl (fun (c : Court) x => match x.1 with
      | some v => c.plnPutLine (0x3FE000 + b % 2 * 4096 + 64 * x.2) v
      | none => c) c).addSat CRT_XBAR_CNT_OTHER_ROUNDS ls.length)

/-- One transfer block of a move, block number `b`. -/
def State.dmaBlock (s : State) (q b : Nat) (o : DmaOp) : DmaOp × State :=
  let is := (List.range (min 64 (o.total - 64 * b))).map (fun j => 64 * b + j)
  let rd : List (Option VR) × DmaOp × State :=
    if srcSide o.kind == .hbm && o.whole false is then
      let r := s.hbmBlock (o.lineAddr false (64 * b)).toNat (b % 2048)
      (r.1.1.map some, if r.1.2 then o else { o with bchk := true }.error 0xD5 (b % 2048), r.2)
    else s.dmaRead q o is
  let s := if o.kind = 5 ∨ o.kind = 6 then rd.2.2.stage q b rd.1 else rd.2.2
  let o := rd.2.1
  if dstSide o.kind == .hbm && o.whole true is && rd.1.all Option.isSome then
    let ls := rd.1.filterMap id
    (ls.foldl DmaOp.wrote o, s.hbmPutBlock (o.lineAddr true (64 * b)).toNat ls)
  else s.dmaWrite q o (is.zip rd.1)

/-- Every transfer block of a move, from block `b` on. -/
def State.dmaBlocks (s : State) (q b : Nat) (o : DmaOp) : Nat → DmaOp × State
  | 0 => (o, s)
  | n + 1 => let r := s.dmaBlock q b o; r.2.dmaBlocks q (b + 1) r.1 n

/-! ### The commands that start a descriptor -/

/-- The engine takes up the head descriptor of a queue when it has the kind named, or no valid kind: the checks of R337;
kinds 0x01 and 0x02 wait for crossbar rounds, every other kind moves all its lines (R335, R338); 0x05 and 0x06, which pass the
crossbar, not while a Riffler operation holds it (R272, R275), nor to the port of a cell that a heal moves (16 R464). -/
def State.dmaStart (s : State) (q n kind : Nat) : State :=
  let c := s.court q
  match c.queue n with
  | [] => s
  | o :: t =>
    if o.active || o.ended || (o.kind != kind && decide (1 ≤ o.kind ∧ o.kind ≤ 7)) then s
    else match s.dmaBad q (c.flag (DMA_QCFG_FIXED.queue n)) o with
      | some x => s.modCourt q (fun c => c.setQueue n ({ o with code := x.1, detail := x.2, ended := true } :: t))
      | none =>
        if kind ≤ 2 then s.modCourt q (fun c => c.setQueue n ({ o with active := true } :: t))
        else if (c.flag CRT_STATUS_CLEARING ∧ kind ≠ 7)
          ∨ ((kind = 5 ∨ kind = 6) ∧ (c.rifHolds s.cycle ∨ s.moving (s.portCell q o.cell))) then s
        else
          let r := s.dmaBlocks q 0 o ((o.total + 63) / 64)
          r.2.modCourt q (fun c => c.setQueue n ({ r.1 with ended := true, line := o.total } :: t))

/-- The operands of a DMA command name a court and a queue. -/
def State.onQueue (s : State) (q n kind : Nat) : Out :=
  if 16 ≤ n then .fault .noSuchUnit else s.onCourt q (fun s => s.dmaStart q n kind)

/-- DMA_SPD_TO_PLN (R335). -/
def execDmaSpdToPln (court queue : Nat) (s : State) : Out := s.onQueue court queue 1
/-- DMA_PLN_TO_SPD (R335). -/
def execDmaPlnToSpd (court queue : Nat) (s : State) : Out := s.onQueue court queue 2
/-- DMA_PLN_TO_HBM (R335). -/
def execDmaPlnToHbm (court queue : Nat) (s : State) : Out := s.onQueue court queue 3
/-- DMA_HBM_TO_PLN (R335). -/
def execDmaHbmToPln (court queue : Nat) (s : State) : Out := s.onQueue court queue 4
/-- DMA_SPD_TO_HBM (R335). -/
def execDmaSpdToHbm (court queue : Nat) (s : State) : Out := s.onQueue court queue 5
/-- DMA_HBM_TO_SPD (R335). -/
def execDmaHbmToSpd (court queue : Nat) (s : State) : Out := s.onQueue court queue 6
/-- ZERO_H (R335). -/
def execZeroH (court queue : Nat) (s : State) : Out := s.onQueue court queue 7

/-! ### Scans to and from the plinth and HBM (03 R78 to R83, 09 R275, 11 R336) -/

/-- A line of an image as a word of the crossbar. -/
def lineVR (l : Line) : VR := ⟨l.1, if l.2 then BitVec.allOnes 16 else 0⟩
/-- A word of the crossbar as a line of an image. -/
def vrLine (v : VR) : Line := (v.v, v.p != 0)

/-- The next line number of a scan. -/
def Cell.scanAt (c : Cell) : Nat := if c.scanIn then c.scanImg.length else c.rd CELL_SCAN_STATUS_LINES_DONE

/-- Whether a scan has lines to move, and by which destination. -/
def Cell.scanLeft (c : Cell) (dest : Nat) : Bool :=
  c.scanning && c.rd CELL_SCAN_CTRL_DEST == dest && decide (c.scanAt < imageLines (c.rd CELL_SCAN_CTRL_SECTIONS))

/-- The address of the next line of a scan. -/
def Cell.scanAddr (c : Cell) : Nat := 64 * (c.rd CELL_SCAN_BASE_ADDR + c.scanAt)

/-- The cell after one line of its scan: `v` is the line read by a scan-in. -/
def Cell.scanStep (c : Cell) (v : VR) : Cell :=
  let n := c.scanAt + 1
  let c := c.wr CELL_SCAN_STATUS_LINES_DONE n
  if c.scanIn then { c with scanImg := c.scanImg ++ [vrLine v] } else c

/-- One line of a scan to or from the plinth of its court; an address past the plinth is taken modulo its size. -/
def State.scanPln (s : State) (n : Nat) : State :=
  let c := s.cell n
  let q := cellCourt n
  let a := c.scanAddr % plnBytes
  if c.scanIn then
    let r := (s.court q).plnLine a
    (s.modCourt q (fun _ => r.2)).modCell n (fun c => c.scanStep r.1)
  else
    let v := lineVR (c.scanImg.getD c.scanAt (0, false))
    (s.plnStore q a v).modCell n (fun c => c.scanStep v)

/-- One line of a scan to or from HBM, through the staging area (R336). -/
def State.scanHbm (s : State) (n : Nat) : State :=
  let c := s.cell n
  let a := c.scanAddr
  let v : VR × State := if c.scanIn then s.hbmLine a else (lineVR (c.scanImg.getD c.scanAt (0, false)), s)
  let s := v.2.modCourt (cellCourt n) (fun k => k.plnPutLine (0x3FE000 + c.scanAt % 128 * 64) v.1)
  let s := if c.scanIn then s else s.hbmPut a v.1
  s.modCell n (fun c => c.scanStep v.1)

/-! ### Crossbar rounds (R270 to R275) -/

/-- A line move that may take part in a round: fixed first, then by age; its cell port and its bank. -/
structure Move where
  fixed : Bool
  age : Nat
  port : Nat
  bank : Nat
  queue : Option Nat      -- the queue of a descriptor, none for a scan
deriving DecidableEq, Repr

/-- Whether a move goes before another (R275). -/
def Move.before (a b : Move) : Bool := (a.fixed && !b.fixed) || (a.fixed == b.fixed && decide (a.age ≤ b.age))

/-- Insertion in the order of R275. -/
def moveInsert (x : Move) : List Move → List Move
  | [] => [x]
  | y :: t => if x.before y then x :: y :: t else y :: moveInsert x t

/-- The move that the head of a queue offers. -/
def State.dmaMove (s : State) (q n : Nat) : Option Move :=
  let c := s.court q
  match c.queue n with
  | o :: _ =>
    let fixed := c.flag (DMA_QCFG_FIXED.queue n)
    if o.active && !o.ended && !(fixed && decide (s.cycle < o.accept + 12)) && !s.moving (s.portCell q o.cell) then
      some ⟨fixed, o.accept, o.cell, (o.lineAddr (o.kind == 1) o.line).toNat / 64 % 64, some n⟩
    else none
  | [] => none

/-- The move that the scan of the cell at port `k` offers. -/
def State.scanMove (s : State) (q k : Nat) : Option Move :=
  let c := s.cell (s.portCell q k)
  if c.scanLeft 0 then some ⟨false, c.scanStart, k, c.scanAddr / 64 % 64, none⟩ else none

/-- The moves of one round: each cell port and each bank at most once (R270). -/
def pickMoves : List Move → List Move → List Move
  | [], done => done
  | m :: t, done =>
    if done.any (fun d => d.port == m.port || d.bank == m.bank) then pickMoves t done else pickMoves t (done ++ [m])

/-- One line of a descriptor of kind 0x01 or 0x02 (R273, R275). -/
def State.dmaLine (s : State) (q n : Nat) : State :=
  let c := s.court q
  match c.queue n with
  | [] => s
  | o :: t =>
    let fixed := c.flag (DMA_QCFG_FIXED.queue n)
    let cell := s.portCell q o.cell
    let sa := (o.lineAddr false o.line).toNat
    let da := (o.lineAddr true o.line).toNat
    let r : DmaOp × State :=
      if o.kind = 1 then
        let x := s.dmaSpdRead fixed cell sa o
        match x.1 with
        | none => x.2
        | some v => (x.2.1.wrote v, x.2.2.plnStore q da v)
      else
        let x := (s.court q).plnLine sa
        (s.modCourt q (fun _ => x.2)).dmaSpdWrite fixed cell da x.1 o
    let o := { r.1 with line := r.1.line + 1 }
    r.2.modCourt q (fun c => c.setQueue n ({ o with ended := decide (o.total ≤ o.line) } :: t))

/-- The moves that one round carries (R270, R275). -/
def State.roundMoves (s : State) (q : Nat) : List Move :=
  pickMoves (((List.range 16).filterMap (s.dmaMove q) ++ (List.range 64).filterMap (s.scanMove q)).foldr moveInsert []) []

/-- One move of a round. -/
def State.roundMove (s : State) (q : Nat) (m : Move) : State :=
  match m.queue with
  | some n => s.dmaLine q n
  | none => s.scanPln (s.portCell q m.port)

/-- Whether a frame edge of the court's niche is fewer than 12 mesh cycles away (R272). -/
def State.edgeSoon (s : State) (q : Nat) : Bool :=
  match s.nicheAt q with
  | some i => (fget niche0 s.niches i).edges.any (fun e => decide (e.due < s.cycle + 12))
  | none => false

/-- Whether a round other than a Riffler round may start in a court: at a boundary, with no round in progress, no operation that
holds the crossbar, no frame edge in the next 12 cycles, and no clear (R269, R270, R272). -/
def State.roundOk (s : State) (q : Nat) : Bool :=
  let c := s.court q
  let e := c.edge.getD (s.runStart q)
  decide (e ≤ s.cycle) && (s.cycle - e) % 12 == 0 && !c.inRound s.cycle && !c.rifHolds s.cycle && !s.edgeSoon q
    && !c.flag CRT_STATUS_CLEARING

/-- XBAR_ROUND (R270 to R275): the moves of one round. -/
def execXbarRound (court : Nat) (s : State) : Out :=
  s.onCourt court (fun s =>
    let ms := s.roundMoves court
    if !s.roundOk court || ms.isEmpty then s
    else
      (ms.foldl (fun s m => s.roundMove court m) s).modCourt court (fun c =>
        { c.addSat CRT_XBAR_CNT_OTHER_ROUNDS 1 with round := s.cycle + 1 }))

/-! ### Resets (R341) -/

/-- A niche or die reset of a court's DMA: every outstanding descriptor completes with ABORT, which COMPLETED counts and
the fault log records; no response or notification. -/
def State.dmaReset (s : State) (q : Nat) : State :=
  (List.range 16).foldl (fun s n =>
    let l := (s.court q).queue n
    let s := s.modCourt q (fun c => (c.setQueue n []).wr (DMA_QST_COMPLETED.queue n)
      ((c.rd (DMA_QST_COMPLETED.queue n) + l.length) % 65536))
    l.foldl (fun s o => s.event (courtDie q) { code := 0xD8, ctx := o.ctx, ctxValid := true, detail := n, unit := s.phys o.src
                                               index := o.src, niche := s.nicheAt q }) s)
    (s.modCourt q (fun c => { c with dmaIn := [] }))

/-! ### SCAN_GO and SCAN_DONE -/

/-- SCAN_GO: a write of CELL_SCAN_CTRL with GO (03 R81). Only the Atelier writes it, a fenced or fused-off cell's included (03
R77). -/
def execScanGo (n : Nat) (v : W64) (s : State) : Out :=
  s.onAnyCell n (fun s =>
    let east : Cell := if cellCol n < 8 then s.cell (n + 1) else {}
    let now := s.cycle
    let e := s.env n
    s.modCell n (fun c =>
      let w := v.toNat
      let c := if c.scanning then c else
        ((c.wr CELL_SCAN_CTRL_SECTIONS (bits w 27 16)).wr CELL_SCAN_CTRL_DEST (bits w 3 2)).wr CELL_SCAN_CTRL_DIR (bits w 1 1)
      if bit w 0 then { c.scanGo e east with scanStart := if c.scanning then c.scanStart else now } else c))

/-- The lines that a scan still has to move, one after the other, each in a round of its own (R275). -/
def State.scanRest (s : State) (n : Nat) : Nat → State
  | 0 => s
  | k + 1 =>
    let c := s.cell n
    let round := fun (s : State) => s.modCourt (cellCourt n) (fun q => q.addSat CRT_XBAR_CNT_OTHER_ROUNDS 1)
    if c.scanLeft 0 then (round (s.scanPln n)).scanRest n k
    else if c.scanLeft 1 then (round (s.scanHbm n)).scanRest n k
    else s

/-- Whether lines of a scan wait for rounds that a Riffler operation or a plinth clear holds back (R269, R275). -/
def State.scanHeld (s : State) (n : Nat) : Bool :=
  let c := s.cell n
  let q := s.court (cellCourt n)
  (c.scanLeft 0 || c.scanLeft 1) && (q.flag CRT_STATUS_CLEARING || q.rifHolds s.cycle)

/-- SCAN_DONE: the last line has been accepted (03 R80): a scan-in restores the sections; a scan to the east neighbour is
restored there (03 R79, 16 R464). -/
def execScanDone (n : Nat) (s : State) : Out :=
  s.onAnyCell n (fun s =>
    if !(s.cell n).scanning || s.scanHeld n then s
    else
      let s := s.scanRest n 512
      let c := s.cell n
      let sel := c.rd CELL_SCAN_CTRL_SECTIONS
      let img := c.scanImg
      let s := if !c.scanIn ∧ c.rd CELL_SCAN_CTRL_DEST = 2 ∧ cellCol n < 8
        then s.modCell (n + 1) (fun d => d.restore none s.tick sel img) else s
      s.modCell n (fun c => (if c.scanIn then c.restore (some c) s.tick sel img else c).scanEnd (imageLines sel)))

end Sys2Proof.Machine
end

