-- ==== Sys2Proof/Machine/Frame.lean ====
section
/-! DEFINITION. Frame generators, frame edges, bucket tables and the maquette's take-over
(spec/13_pod_time_collectives.md R390 to R392, spec/10_casts_mapping.md R309, spec/03_cell_core.md R73,
spec/16_restorer.md R468, R471). -/

namespace Sys2Proof.Machine
open Sys2Proof

/-! ### Events of the timebase (13 R407) -/

/-- A pod-time event: in die 0's log, in TMB_EVENT, and at ALERT# where marked. -/
def State.tmbEvent (s : State) (code : Nat) (r : FaultRec) : State :=
  let s := s.event 0 { r with code := code, space := 2, kind := 4 }
  let s := s.wr TMB_EVENT_EV (s.rd TMB_EVENT_EV ||| 2 ^ (code - 1))
  if code = 4 ∨ code = 6 then s.alert MGT_ALERT_TIME else s

/-! ### Generators -/

/-- POD_ACTIVE follows the generators' modes. -/
def State.notePod (s : State) : State :=
  s.wr TMB_STATUS_POD_ACTIVE (b2n ((List.range 16).any (fun i => s.frameMode i == 3)))

/-- The contexts that wait for an edge know its tick: OBJECT (04 R125 WAITF). -/
def Cell.edgeKnown (tick : Nat) (c : Cell) : Cell :=
  [0, 1, 2, 3].foldl (fun c k =>
    if (c.ctx k).state = .blocked ∧ (c.ctx k).wait = .time ∧ (c.ctx k).waitEdge then
      c.modCtx k (fun x => { x with waitObj := BitVec.ofNat 32 tick })
    else c) c

/-- The edge of a trigger is raised: every cell sees it 16 mesh cycles later (R390). -/
def State.trigger (s : State) (i bucket tick : Nat) (entry : Option (Nat × Nat × Nat)) : State :=
  let s := s.wr (TMB_NFRAME_FRAME_CNT.by16 i) (s.rd (TMB_NFRAME_FRAME_CNT.by16 i) + 1)
  let s := s.modNiche i (fun n => { n with trig := some s.cycle, count := n.count + 1
                                           edges := n.edges ++ [⟨s.cycle + 16, bucket, tick, entry⟩] })
  s.modCells (s.nicheCells i) (Cell.edgeKnown (s.tickAhead 16))

/-- Whether FRAME_LEN mesh cycles have passed since the latest trigger, or there was none. -/
def State.frameDue (s : State) (i : Nat) : Bool :=
  match (s.niche i).trig with | some t => decide (t + s.frameLen i ≤ s.cycle) | none => true

/-- DEFBUCKET. -/
def State.defBucket (s : State) (i : Nat) : Nat := s.rd (NCH_CFG_DEFBUCKET.niche i)

/-- Whether a niche may start frames: its generator has clocks and is held by no heal, no profile change (19 R542) and no
THERM_LIMIT (19 R539). -/
def State.genOn (s : State) (i : Nat) : Bool :=
  !(s.niche i).held && !fget noMark s.dieHalt (3 * s.rd MGT_BOOT_STATUS_PRIMARY) && !s.flag PWR_STATUS_CHANGING && !s.mgmt.thermLimit

/-- FRAME_TRIGGER_FREE (R390). -/
def execFrameTriggerFree (niche : Nat) (s : State) : Out :=
  if 16 ≤ niche then .fault .noSuchUnit
  else .next (if s.frameMode niche = 1 ∧ s.genOn niche ∧ s.frameDue niche
    then s.trigger niche (s.defBucket niche) s.tick none else s)

/-- The ingress ring of a niche in which an entry waits. -/
def State.waitingRing (s : State) (i : Nat) : Option Nat :=
  (List.range 128).find? (fun r => s.flag (NCH_RING_ENABLE.by16 r) && s.rd (NCH_RING_DIR.by16 r) == 0
    && s.ringNiche r == i && decide (0 < s.rd (NCH_RST_COUNT.by16 r)))

/-- The bucket of the entry in slot `k` of ring `r` (10 R307). -/
def State.entryBucket (s : State) (i r k : Nat) : Nat :=
  if (s.niche i).shaped then memRead (s.court (s.ringCourt r)).plinth (s.slotAddr r k + 7) 1 % 8 else s.defBucket i

/-- The next waiting entry of a ring starts a frame. -/
def State.startEntry (s : State) (i r : Nat) : State :=
  let k := s.rd (NCH_RST_RD.by16 r)
  let seq := fget z0 (s.ring r).tag k - 1
  let b := s.entryBucket i r k
  let s := (s.wr (NCH_RST_RD.by16 r) ((k + 1) % s.ringSlots r)).wr (NCH_RST_COUNT.by16 r) (s.rd (NCH_RST_COUNT.by16 r) - 1)
  s.trigger i b s.tick (some (r, k, seq))


/-- FRAME_TRIGGER_POD (R390, R391). -/
def execFrameTriggerPod (niche : Nat) (s : State) : Out :=
  if 16 ≤ niche then .fault .noSuchUnit
  else .next (if s.frameMode niche = 3 ∧ s.genOn niche ∧ s.podTick niche ≤ s.tick
    then s.trigger niche (s.defBucket niche) (s.podTick niche) none else s)

/-- A refused write of a generator (R391, R407). -/
def State.frameRefused (s : State) (i : Nat) (f : Fld) : State :=
  (s.wr (f.by16 i) 1).tmbEvent 0x0A { niche := some i }

/-- A write of MODE (R390, R391). -/
def State.writeMode (s : State) (i mode : Nat) : State :=
  let set := fun (s : State) =>
    ((s.wr (TMB_NFRAME_MODE.by16 i) mode).modNiche i (fun n => { n with trig := none, count := 0 })).notePod
  if mode = 3 ∧ (s.frameTicks4 i % 4 ≠ 0 ∨ s.rd TMB_STATUS_STATE ≠ 2) then s.frameRefused i TMB_NFRAME_FRAME_ERR
  else if mode = 3 ∧ s.rd (TMB_NSTART_START_TICK.by16 i) < s.tick + 1024 then s.frameRefused i TMB_NFRAME_START_LATE
  else if mode = 1 then (set s).trigger i (s.defBucket i) s.tick none
  else if mode = 0 then (s.wr (TMB_NFRAME_MODE.by16 i) 0).notePod
  else set s

/-- FRAME_LEN and START_TICK can be written only while MODE is OFF (R390). -/
def State.writeFrame (s : State) (i : Nat) (f : Fld) (v : Nat) : State :=
  if s.frameMode i ≠ 0 then s.frameRefused i TMB_NFRAME_FRAME_ERR else s.wr (f.by16 i) v

/-- TMB_NFRAME_MODE_WRITE: the Atelier writes the high half of TMB_NFRAMEn: MODE, and 1s that clear START_LATE and
FRAME_ERR (R390, R391). -/
def execTmbNframeModeWrite (niche : Nat) (v : BitVec 32) (s : State) : Out :=
  if 16 ≤ niche then .fault .noSuchUnit
  else
    let s := if v.getLsbD 29 then s.wr (TMB_NFRAME_START_LATE.by16 niche) 0 else s
    let s := if v.getLsbD 28 then s.wr (TMB_NFRAME_FRAME_ERR.by16 niche) 0 else s
    .next (s.writeMode niche (v.toNat / 2 ^ 30))

/-! ### Bucket tables (10 R309) -/

/-- The router of a cell reads the line of context `k` for bucket `b`: a class 4 claim that wins its port (R309). -/
def Cell.bucketRead (e : Env) (b k : Nat) (c : Cell) : Cell :=
  let a := 0x2F800 + 0x200 * k + 0x40 * b
  let c := c.takePort true e.cycle
  match c.spdCheck 4 true ((viewMap false 0 a).map (·.1)) with
  | some (code, fa) => c.spdFault e k 0 4 code 0 fa
  | none =>
    let r := c.viewLoad (viewMap false 0 a)
    { r.2 with bkt := r.2.bkt ++ [(k, r.1)] }

/-- The registers of context `k` take the values of the line read: not with APPLY = 0, while the schedule runs, or where a word is
poisoned (R309). -/
def Cell.bucketTake (k : Nat) (c : Cell) : Cell :=
  match takeFirst (fun p => p.1 == k) c.bkt with
  | none => c
  | some (l, rest) =>
    let c := { c with bkt := rest }
    let v := l.2.v.toNat
    if l.2.p ≠ 0 then { c with bktBad := c.bktBad ++ [k] }
    else if bits v 448 448 = 0 ∨ c.sched k = 2 then c
    else
      let c := (c.restoreRegs (0xC50 + 0x50 * k) 2 (bits v 127 0)).restoreRegs (0xC68 + 0x50 * k) 4 (bits v 383 128)
      c.wr (ARM_SCHED_CTRL_OFFSET.arm k) (bits v 407 384)

/-- What the routers of a niche do for an edge at `due` in this mesh cycle: the line of context c is read in cycle due - 8 + c and
taken in cycle due - 5 + c (R309). -/
def State.bucketStep (i : Nat) (s : State) (e : Edge) : State :=
  let ns := (s.nicheCells i).filter (fun n => !s.fused n)
  let s := if e.due ≤ s.cycle + 8 ∧ s.cycle + 4 < e.due
    then ns.foldl (fun s n => s.modCell n (Cell.bucketRead (s.env n) e.bucket (s.cycle + 8 - e.due))) s else s
  if e.due ≤ s.cycle + 5 ∧ s.cycle + 1 < e.due then ns.foldl (fun s n => s.modCell n (Cell.bucketTake (s.cycle + 5 - e.due))) s
  else s

/-- Whether the cast of a niche has bucket tables. -/
def State.hasBuckets (s : State) (i : Nat) : Bool :=
  match (s.niche i).cast with | some c => decide (1 < c.bucketCount) | none => false

/-- The bucket work of one mesh cycle. -/
def State.bucketCycle (s : State) : State :=
  (List.range 16).foldl (fun s i => if s.hasBuckets i then (s.niche i).edges.foldl (State.bucketStep i) s else s) s

/-- Whether the bucket tables' 8 mesh cycles have passed since the next entry of ring `r` was marked full (R309, 13 R390). -/
def State.entryDue (s : State) (i r : Nat) : Bool :=
  !s.hasBuckets i || decide (fget z0 (s.ring r).marked (s.rd (NCH_RST_RD.by16 r)) + 8 ≤ s.cycle)

/-- FRAME_TRIGGER_EVENT (R390, 10 R309, R310). -/
def execFrameTriggerEvent (niche : Nat) (s : State) : Out :=
  if 16 ≤ niche then .fault .noSuchUnit
  else .next (
    if s.frameMode niche = 2 ∧ s.genOn niche ∧ s.frameDue niche then
      match s.waitingRing niche with
      | some r => if s.entryDue niche r then s.startEntry niche r else s
      | none => s
    else s)

/-- Whether the niche watchdog counts for a niche. -/
def State.nicheWatched (s : State) (i : Nat) : Bool :=
  s.nicheState i == 3 && (s.frameMode i == 1 || s.frameMode i == 3 || (s.waitingRing i).isSome)

/-- The niche watchdogs count a mesh cycle (17 R486). -/
def State.hangCycle (s : State) : State :=
  (List.range 16).foldl (fun s i => if s.nicheWatched i then s.modNiche i (fun n => { n with hang := n.hang + 1 }) else s) s

/-! ### The edge (R390, 07 R219, R221, 03 R73) -/

/-- The maquette takes over one cell: contexts 0 to 2 HALTED, their schedules stopped and disabled, so that no later edge arms them
(07 R221, log 141); context 3 READY with PRIO 0 and its schedule armed. -/
def Cell.mqTake (c : Cell) : Cell :=
  let c := [0, 1, 2].foldl (fun c k =>
    let c := ((c.haltCtx k).armCut k).wr (ARM_SCHED_CTRL_ENABLE.arm k) 0
    c.modCtx k (fun x => if x.state = .faulted then { x with state := .halted } else x)) c
  let c := (c.wr (CTX_CONFIG_PRIO.ctx 3) 0).armEnable 3 true
  c.modCtx 3 (fun x => { x with state := .ready, wait := .none, stepping := false })

/-- The context watchdogs restart at a frame edge (17 R486). -/
def Cell.watchRestart (c : Cell) : Cell := [0, 1, 2, 3].foldl (fun c k => c.modCtx k (fun x => { x with watch := 0 })) c

/-- One cell sees the edge; a context whose bucket line was poisoned starts no schedule. -/
def Cell.frameEdge (e : Env) (fused mq : Bool) (c : Cell) : Cell :=
  let c := (if mq && !fused then c.mqTake else c).schedEdge e
  ({ c with armDue := c.bktBad.foldl (fun m k => fset z0 m k 0) c.armDue, bktBad := [] }).edgeWake.watchRestart

/-- The record of BUCKET_POISON (15 R586). -/
def State.bucketPoison (s : State) (i n b : Nat) (k : Nat) : State :=
  s.event (cellDie n) { s.cellRec n with code := 0x54, space := 3, ctx := k, ctxValid := true, detail := b, niche := some i
                                         addr := 0x2F800 + 0x200 * k + 0x40 * b }

/-- One cell of a niche sees the edge. -/
def State.cellEdge (i b : Nat) (mq : Bool) (s : State) (n : Nat) : State :=
  let bad := (s.cell n).bktBad
  let s := s.modCell n (Cell.frameEdge (s.env n) (s.fused n) mq)
  bad.foldl (fun s k => s.bucketPoison i n b k) s

/-- The logical cell of a place of a niche. -/
def State.relId (s : State) (i : Nat) (r : Rel) : Nat :=
  mkId (8 * s.rd (NCH_CFG_AX.niche i) + r.x) (8 * s.rd (NCH_CFG_AY.niche i) + r.y)
/-- The package court of a place of a niche. -/
def State.relCourt (s : State) (i : Nat) (r : Rel) : Nat :=
  12 * (s.rd (NCH_CFG_AY.niche i) + r.y) + (s.rd (NCH_CFG_AX.niche i) + r.x)

/-- Contexts of a mask go from HALTED to READY. -/
def Cell.release (c : Cell) (mask : Nat) : Cell :=
  [0, 1, 2, 3].foldl (fun c k => if bit mask k ∧ (c.ctx k).state = .halted
    then c.modCtx k (fun x => { x with state := .ready, stepping := false }) else c) c

/-- The contexts in use of a niche become READY at the first edge after its start or restart (10 R317); of a niche whose
maquette is active, context 3 alone. -/
def State.releaseContexts (s : State) (i : Nat) : State :=
  match (s.niche i).cast with
  | none => s
  | some f =>
    if (s.niche i).mqOn then s.modCells (s.nicheCells i) (fun c => c.release 8)
    else f.cells.foldl (fun s r => s.modCell (s.phys (s.relId i r.at')) (fun c => c.release r.used)) s

/-- Every cell and court of a niche sees edge `e`. -/
def State.seeEdge (s : State) (i : Nat) (e : Edge) : State :=
  let n := s.niche i
  let mq := n.mq || (match n.mqTick with | some t => !n.mqOn && decide (t ≤ e.tick) | none => false)
  let s := (s.nicheCells i).foldl (State.cellEdge i e.bucket mq) s
  let s := if n.fresh && !mq then s.releaseContexts i else s
  let s := s.modCourts (s.nicheCourts i) (fun c => { c with edge := some s.cycle })
  let s := s.modNiche i (fun x => { x with frame := e.entry, edgeTick := e.tick, slots := [], fresh := false
                                           mq := false, mqOn := x.mqOn || mq, hang := 0 })
  if mq then s.nicheEvent i 0x06 else s

/-- The first edge that is due. -/
def State.edgeNow (s : State) (i : Nat) : State :=
  match (s.niche i).edges with
  | e :: t => if e.due ≤ s.cycle then (s.modNiche i (fun n => { n with edges := t })).seeEdge i e else s
  | [] => s

/-- FRAME_EDGE: every cell of the niche sees the edge, 16 mesh cycles after its trigger (R390). -/
def execFrameEdge (niche : Nat) (s : State) : Out :=
  if 16 ≤ niche then .fault .noSuchUnit else .next (s.edgeNow niche)

/-- MAQUETTE_ACTIVATE: the edge at which a decided maquette takes over (03 R73, 16 R471). -/
def execMaquetteActivate (niche : Nat) (s : State) : Out :=
  if 16 ≤ niche then .fault .noSuchUnit else .next (if (s.niche niche).mq then s.edgeNow niche else s)

/-! ### Replay (16 R468) -/

/-- Whether a frame of a niche is in progress. -/
def State.frameRuns (s : State) (i : Nat) : Bool :=
  !(s.niche i).edges.isEmpty || (match (s.niche i).trig with | some t => decide (s.cycle < t + 16 + s.frameLen i) | none => false)

/-- RD returns to the entry that started the frame in progress, and the edges not yet seen go (R468). -/
def State.rewind (s : State) (i : Nat) : State :=
  let n := s.niche i
  let back : Option (Nat × Nat × Nat) := if s.frameRuns i then
      (match n.frame with | some f => some f | none => (n.edges.head?).bind (fun e => e.entry)) else none
  let s := match back with
    | some (r, k, _) =>
      let rd := s.rd (NCH_RST_RD.by16 r)
      let m := s.ringSlots r
      (s.wr (NCH_RST_RD.by16 r) k).wr (NCH_RST_COUNT.by16 r) (s.rd (NCH_RST_COUNT.by16 r) + (rd + m - k) % m)
    | none => s
  s.modNiche i (fun n => { n with edges := [], frame := none, trig := none })

/-- The maquette of a niche is to take over at its next edge: the frame in progress is abandoned and replayed (R471). -/
def State.decideMaquette (s : State) (i : Nat) : State :=
  if (s.niche i).mq || (s.niche i).mqOn then s else (s.rewind i).modNiche i (fun n => { n with mq := true })

end Sys2Proof.Machine
end

