-- ==== Sys2Proof/Machine/Reset.lean ====
section
/-! DEFINITION. What resets clear in cells, courts and niches, and the row remap (spec/17_reset_recovery.md R487,
spec/14_host_niches.md R424, R425, R432, spec/08_sprue_sync.md R247, R254, spec/16_restorer.md R462). -/

namespace Sys2Proof.Machine
open Sys2Proof

/-! ### Cells -/

/-- The receive buffer, ports and MAC block of a cell cleared (R487, level 2). -/
def Cell.unitsClear (c : Cell) : Cell :=
  { c with ports := [], recvReq := [], recvRsp := [], acc := [], openCfg := none, macOp := none, feeds := [], reads := []
           opBuf := [], drain := [], offer := none, bkt := [], bktBad := []
           verdict := 0, ckFails := [], nbc := 0, ckQ := none, hist := [], arbWait := false
           rasp := false, raspSr := false, raspSteps := 0, raspOpen := none }

/-- A reset that begins during a scan leaves ERROR, LINES_DONE and SCAN_ERR to show how far it came (03 R83). -/
def Cell.keepScan (old c : Cell) : Cell :=
  if old.scanning then
    ((c.wr CELL_SCAN_STATUS_ERROR 1).wr CELL_SCAN_STATUS_LINES_DONE (old.rd CELL_SCAN_STATUS_LINES_DONE)).wr CELL_FAULT_SCAN_ERR 1
  else c

/-- A cell reset (R487, level 2). `quiet` says that no message addressed to the cell remains (08 R254). -/
def Cell.cellReset (e : Env) (quiet : Bool) (old : Cell) : Cell :=
  let c := old
  let c := [0, 1, 2, 3].foldl (fun c k => c.resetCtx e k) c
  let c := c.unitsClear.armReset
  Cell.keepScan old
    { c with regs := regsReset cellRegs Dom.cell.rank c.regs, quar := if quiet then [] else c.quar, quarEnd := !quiet }

/-- A niche reset in one cell (R487, level 3): scratchpad data and instruction stores stay. -/
def Cell.nicheReset (e : Env) (old : Cell) : Cell :=
  let c := { old with regs := regsReset cellRegs Dom.niche.rank old.regs }
  let c := Cell.keepScan old (c.cellReset e true)
  { c with tags := [], quar := [], locks := [], inj := [], stop := [], sprTurn := [], ownOld := [], ownDue := [], clears := [], ringPos := []
           samples := [], sampSeq := 0, sampLatch := [], snap := [] }

/-- A rasp pass on a cell ends without restore. -/
def State.raspEndNow (s : State) (n : Nat) : State := s.raspCut n false

/-- A cell reset of a physical cell: it breaks up a slab that is busy (05 R141). -/
def State.resetCell (s : State) (n : Nat) : State :=
  let s := (s.breakSlab n).raspEndNow n
  let quiet := match s.logical n with | some id => !s.addressed id | none => true
  s.modCell n (fun c => c.cellReset (s.env n) quiet)

/-! ### The row remap (16 R462) -/

/-- A fenced physical cell leaves the row map of its row: FENCE0, or FENCE1 where the row has one already. -/
def State.remapRow (s : State) (n : Nat) : State :=
  let q := cellCourt n
  let r := cellRow n
  let rows := (s.court q).rd RES_ROWMAP_ROWS
  let f0 := bits rows (8 * r + 3) (8 * r)
  let put := fun (lsb : Nat) => rows - bits rows (lsb + 3) lsb * 2 ^ lsb + cellCol n * 2 ^ lsb
  if f0 = cellCol n then s
  else if f0 = 15 then s.modCourt q (fun c => c.wr RES_ROWMAP_ROWS (put (8 * r)))
  else s.modCourt q (fun c => c.wr RES_ROWMAP_ROWS (put (8 * r + 4)))

/-- A row with two fenced positions, which makes its court DEGRADED (16 R462, R474). -/
def State.rowDegraded (s : State) (q r : Nat) : Bool := bits ((s.court q).rd RES_ROWMAP_ROWS) (8 * r + 7) (8 * r + 4) != 15

/-- A DEGRADED court: a row with two fenced positions, or an entry of the flaw map (16 R459, R474). -/
def State.courtDegraded (s : State) (q : Nat) : Bool :=
  (List.range 8).any (s.rowDegraded q) || s.flaws.any (fun f => f.kind == 7 && f.loc == q)

/-! ### Route tables (08 R247) -/

/-- `n` STRAIGHT codes. -/
def straights (n : Nat) : List Nat := List.replicate n 1

/-- The codes of the route from court (sx, sy) to court (dx, dy). -/
def routeCodes (sx sy dx dy : Nat) : List Nat :=
  let vert := if dy < sy then 0 else 2
  let rows := if dy < sy then sy - dy else dy - sy
  if sx < dx then 1 :: straights (dx - sx - 1) ++ (if dy = sy then [] else (if sy < dy then 3 else 2) :: straights (rows - 1))
  else if dx = sx then vert :: straights (rows - 1)
  else if dy = sy then 3 :: straights (sx - dx - 1)
  else vert :: straights (rows - 1) ++ (if dy < sy then 2 else 3) :: straights (sx - dx - 1)

/-- A list of 2-bit codes, the first in bits [1:0]. -/
def packCodes : List Nat → Nat
  | [] => 0
  | c :: cs => c + 4 * packCodes cs

/-- The ROUTE from one package court to another. -/
def routeOf (a b : Nat) : Nat := packCodes (routeCodes (a % 12) (a / 12) (b % 12) (b / 12))

/-- Both versions of the tables of a niche's courts. -/
def State.writeRoutes (s : State) (i : Nat) : State :=
  let qs := s.nicheCourts i
  qs.foldl (fun s a => s.modCourt a (fun c => { c with rt := qs.foldl (fun m b =>
    if a = b then m
    else fset r0 (fset r0 m b (BitVec.ofNat 64 (routeOf a b))) (144 + b) (BitVec.ofNat 64 (routeOf a b))) c.rt })) s

/-! ### Niches -/

/-- Directions in which a logical cell's neighbour lies outside a niche's rectangle. -/
def State.rimDirs (s : State) (i id : Nat) : Nat :=
  let x0 := 8 * s.rd (NCH_CFG_AX.niche i)
  let y0 := 8 * s.rd (NCH_CFG_AY.niche i)
  b2n (idY id == y0) + 2 * b2n (idX id == x0 + 8 * s.rd (NCH_CFG_WIDTH.niche i) + 7)
    + 4 * b2n (idY id == y0 + 8 * s.rd (NCH_CFG_HEIGHT.niche i) + 7) + 8 * b2n (idX id == x0)

/-- CTX_CONFIG.NICHE and BOUND of a cell. -/
def Cell.bindTo (i : Nat) (on : Bool) (c : Cell) : Cell :=
  [0, 1, 2, 3].foldl (fun c k => (c.wr (CTX_CONFIG_NICHE.ctx k) i).wr (CTX_CONFIG_BOUND.ctx k) (b2n on)) c

/-- Both EDGE masks of a cell. -/
def Cell.setEdge (c : Cell) (m : Nat) : Cell := (c.wr ARM_CTRL_EDGE m).wr SPR_CTRL_EDGE m

/-- The Atelier writes CTX_CONFIG.NICHE and BOUND and the EDGE masks of a niche's cells (14 R424). -/
def State.bindNiche (s : State) (i : Nat) : State :=
  (s.nicheIds i).foldl (fun s' id => s'.modCell (s.phys id) (fun c => (c.bindTo i true).setEdge (s.rimDirs i id))) s

/-- Registers of the package block with offsets in [lo, hi) back at their reset values. -/
def State.dropRegs (s : State) (lo hi : Nat) : State :=
  { s with pkgRegs := fdrop (fun k => decide (lo ≤ k / 64 ∧ k / 64 < hi)) s.pkgRegs }

/-- The rings of a niche. -/
def State.nicheRings (s : State) (i : Nat) : List Nat :=
  (List.range 128).filter (fun r => s.flag (NCH_RING_ENABLE.by16 r) && s.ringNiche r == i)

/-- A ring starts afresh. -/
def State.freshRing (s : State) (r : Nat) : State :=
  { s.dropRegs (0x5008 + 16 * r) (0x5010 + 16 * r) with rings := ferase s.rings r }

/-- Pendant pairs of a niche end (14 R430). -/
def State.unpair (s : State) (i : Nat) : State :=
  (List.range 8).foldl (fun s p =>
    if s.flag (RES_PENDANT_VALID.by16 p) ∧ (s.rd (RES_PENDANT_NICHE_A.by16 p) = i ∨ s.rd (RES_PENDANT_NICHE_B.by16 p) = i)
    then { s.wr (RES_PENDANT_VALID.by16 p) 0 with pends := ferase s.pends p } else s) s

/-- A niche reset in one court (R487, level 3): plinth data and sync values stay. -/
def State.courtNicheReset (s : State) (q : Nat) : State :=
  (s.dmaReset q).modCourt q (fun c =>
    let c := (c.rifReset).syncReset
    { c with regs := regsReset courtRegs Dom.niche.rank c.regs, syncIn := [], out := [], snap := [] })

/-- The cells that a heal freezes (16 R464): those of the niche, and the spare position of each row that shifts. -/
def State.healUnits (s : State) (i : Nat) : List Nat :=
  s.nicheCells i ++ ((s.niche i).heal.map (fun n => rowBase (cellCourt n) (cellRow n) + 8)).dedup.filter (fun n => (s.logical n).isNone)

/-- SHIFT, ISOLATE and FREEZE are cleared in them. -/
def State.healRelease (s : State) (i : Nat) : State :=
  s.modCells (s.healUnits i) (fun c => ((c.wr ARM_CTRL_SHIFT 0).wr CELL_CTRL_ISOLATE 0).freezeWrite false)

/-- A heal in progress is abandoned: its remap is completed without a shift (16 R466). -/
def State.abandonHeal (s : State) (i : Nat) : State :=
  if s.rd (RES_HEAL_STATUS_STEP.by8 i) = 0 then s
  else
    let s := (s.niche i).heal.foldl State.remapRow ((s.healRelease i).wr (RES_HEAL_STATUS_STEP.by8 i) 0)
    s.nicheEvent i 0x03

/-- What a niche reset clears (R432, R487); the niche's state is the caller's. -/
def State.nicheClear (s : State) (i : Nat) : State :=
  let cells := s.nicheCells i
  let s := s.abandonHeal i
  let s := cells.foldl State.raspEndNow s
  let s := cells.foldl (fun s n => s.modCell n (fun c => c.nicheReset (s.env n))) s
  let s := (s.nicheCourts i).foldl State.courtNicheReset s
  let s := (s.dropRegs (0x3100 + 16 * i) (0x3110 + 16 * i)).notePod
  let s := ((s.nicheRings i).foldl State.freshRing s).unpair i
  { s.bindNiche i with niches := ferase s.niches i }

/-- A niche reset from RESETTING to CREATED, with its count (14 R423, R432). -/
def State.nicheReset (s : State) (i : Nat) : State :=
  let s := ((s.setNiche i 4).nicheClear i).addSat (NCH_STATE_RESETS.niche i) 1
  s.setNiche i 1

/-! ### The cleared state of R425 -/

/-- A cell's stores cleared: instruction stores, route schedule stores, patina store; EDGE in every direction. -/
def Cell.wipe (c : Cell) : Cell :=
  ({ c with istore := [], istoreEcc := [], istoreTold := [], routes := [] }.bindTo 0 false).setEdge 0xF

/-- A court cleared: plinth, sync objects, DMA queues. -/
def Court.wipe (c : Court) : Court :=
  let c := c.plnZero
  (List.range 16).foldl (fun c n => c.wr (DMA_QCFG_ENABLE.queue n) 0)
    ((List.range 128).foldl (fun c k =>
      (((((c.wr (SYN_CFG_TYPE.syn k) 0).wr (SYN_STATE_LSTATE.syn k) 0).wr (SYN_STATE_OWNER_CTX.syn k) 0).wr
        (SYN_STATE_OWNER_CELL.syn k) 0).wr (SYN_STATE_ARRIVED.syn k) 0).wr (SYN_STATE_VALUE.syn k) 0) c)

/-- Zero every HBM segment that satisfies a test (11 R332). -/
def State.zeroWhere (s : State) (p : Nat → Bool) : State :=
  { s with hbm := fdrop (fun a => p (a / 65536)) s.hbm
           hbmPoison := fdrop (fun h => p (h / 2048)) s.hbmPoison
           hbmEcc := fdrop (fun h => p (h / 2048)) s.hbmEcc
           hbmCheck := fdrop (fun b => p (b / 16)) s.hbmCheck }

/-- First segment and size of window `w` of a niche, none where it is not valid. -/
def State.window (s : State) (i w : Nat) : Option (Nat × Nat) :=
  if w = 0 then
    (if s.flag (HBM_NWIN0_VALID.niche i) then some (s.rd (HBM_NWIN0_BASE_SEG.niche i), s.rd (HBM_NWIN0_SIZE_SEG.niche i)) else none)
  else
    (if s.flag (HBM_NWIN1_VALID.niche i) then some (s.rd (HBM_NWIN1_BASE_SEG.niche i), s.rd (HBM_NWIN1_SIZE_SEG.niche i)) else none)

/-- Whether a segment lies in a window of a niche. -/
def State.inWindows (s : State) (i seg : Nat) : Bool :=
  [0, 1].any (fun w => match s.window i w with | some (b, n) => decide (b ≤ seg ∧ seg < b + n) | none => false)

end Sys2Proof.Machine
end

