-- ==== Sys2Proof/Machine/Link.lean ====
section
/-! DEFINITION. Zovar links: registers, frames and packets, the link layer and the transmitter
(spec/12_zovar_links.md R345 to R363). -/

namespace Sys2Proof.Machine
open Sys2Proof

/-! ### Registers (R378) -/

/-- The field of link `k` of a die. -/
def Fld.lnk (f : Fld) (k : Nat) : Fld := f.up (0x200 * k)
/-- A field of package link `l`. -/
def State.lrd (s : State) (l : Nat) (f : Fld) : Nat := s.dieRd (l / 24) (f.lnk (l % 24))
/-- Write it. -/
def State.lwr (s : State) (l : Nat) (f : Fld) (v : Nat) : State := s.dieWr (l / 24) (f.lnk (l % 24)) v
/-- A counter field up by `n`, holding at its limit. -/
def State.ladd (s : State) (l : Nat) (f : Fld) (n : Nat) : State := s.dieAdd (l / 24) (f.lnk (l % 24)) n
/-- A one-bit field. -/
def State.lflag (s : State) (l : Nat) (f : Fld) : Bool := s.lrd l f != 0
/-- The state code of R366. -/
def State.lstate (s : State) (l : Nat) : Nat := s.lrd l LNK_STATUS_STATE

/-- Whether a link is fused off (00 R2, R4). -/
def State.linkFused (s : State) (l : Nat) : Bool :=
  (s.small && decide (16 ≤ l % 24)) || (s.lite && decide (12 ≤ l % 24))

/-- Whether a lane of a link is fenced in the flaw map (16 R459, R461). -/
def State.laneFenced (s : State) (l lane : Nat) : Bool :=
  (s.fuses ++ s.flaws).any (fun f => f.kind == 6 && bits f.loc 6 0 == l && bits f.loc 7 7 == lane)

/-- A link event: in the die's log, in LNK_EVENT, and at ALERT# where marked (R377). -/
def State.linkEvent (s : State) (l code : Nat) : State :=
  let s := s.event (l / 24) { code := code, space := 1, kind := 2, index := l }
  let s := s.lwr l LNK_EVENT_EV (s.lrd l LNK_EVENT_EV ||| 2 ^ (code - 1))
  if [2, 5, 6].contains code then s.alert MGT_ALERT_LINK else s

/-- A command that names a link: it has an effect where the link is present and its die runs. -/
def State.onLink (s : State) (l : Nat) (f : State → State) : Out :=
  if l < 96 then .next (if fget noMark s.dieHalt (l / 24) || s.linkFused l then s else f s) else .fault .noSuchUnit

/-- A bit of the agreed feature set (R368). -/
def State.feature (s : State) (l i : Nat) : Bool := bit (s.lrd l LNK_PARTNER_FEATURES) i
/-- A link in UP. -/
def State.linkUp (s : State) (l : Nat) : Bool := s.lstate l == 6
/-- A link that carries TIME messages (13 R382). -/
def State.timeLink (s : State) (l : Nat) : Bool := s.linkUp l && s.feature l 7 && !(s.link l).edge

/-! ### Packets and frames (R354, R361) -/

/-- ROUTE as a number. -/
def packetRoute (p : Packet) : Nat := packNat 7 (p.route.map (fun r => r % 128)) % 2 ^ 56

/-- The 16-byte header. -/
def packetHeader (p : Packet) : Nat :=
  p.mclass % 16 * 2 ^ 124 + p.vl % 4 * 2 ^ 122 + b2n p.retryOk * 2 ^ 121 + b2n p.poison * 2 ^ 120
    + p.payload.length % 2 ^ 13 * 2 ^ 107 + p.nhops % 16 * 2 ^ 103 + p.hidx % 16 * 2 ^ 99 + packetRoute p * 2 ^ 40
    + p.dest % 2 ^ 16 * 2 ^ 24 + p.src % 2 ^ 12 * 2 ^ 12 + p.dst % 2 ^ 12

/-- Entries of a ROUTE field. -/
def routeEntries (w : Nat) : List Nat := (List.range 8).map (fun i => bits w (7 * i + 6) (7 * i))

/-- The packet that bytes spell. -/
def packetOf (bs : List (BitVec 8)) (info : List Nat) : Packet :=
  let h := bytesVal bs 16
  { mclass := bits h 127 124, vl := bits h 123 122, retryOk := bit h 121, poison := bit h 120, nhops := bits h 106 103
    hidx := bits h 102 99, route := routeEntries (bits h 95 40), dest := bits h 39 24, src := bits h 23 12, dst := bits h 11 0
    payload := (bs.drop 16).take (bits h 119 107), info := info }

/-- Pieces of 240 bytes. -/
def pieces : Nat → List (BitVec 8) → List (List (BitVec 8))
  | 0, _ => []
  | n + 1, bs => if bs.length ≤ 240 then [bs] else bs.take 240 :: pieces n (bs.drop 240)

/-- Frames that a packet of a payload length occupies. -/
def frameCount (plen : Nat) : Nat := (16 + plen + 239) / 240
/-- Frames of a packet. -/
def packetCount (p : Packet) : Nat := frameCount p.payload.length

/-- The DATA frames of a packet, without sequence numbers. -/
def packetFrames (p : Packet) : List Frame :=
  let ps := pieces 19 (valBytes (packetHeader p) 16 ++ p.payload)
  (ps.zipIdx).map (fun x => { ftype := 1, vl := p.vl, sop := x.2 == 0, eop := x.2 + 1 == ps.length, payload := x.1
                              info := if x.2 + 1 = ps.length then p.info else [] })

/-- The 96-bit header of a frame (R354). -/
def frameHeader (f : Frame) : Nat :=
  f.ftype % 16 * 2 ^ 92 + f.vl % 4 * 2 ^ 90 + b2n f.sop * 2 ^ 89 + b2n f.eop * 2 ^ 88 + f.seq % 2 ^ 24 * 2 ^ 64
    + f.ack % 2 ^ 24 * 2 ^ 40 + packNat 6 (f.crd.map (fun c => c % 64)) % 2 ^ 24 * 2 ^ 16 + b2n f.ackv * 2 ^ 15
    + b2n f.nak * 2 ^ 14 + f.payload.length % 256

/-! ### Sequence numbers (R358) -/

/-- `a` - `b` modulo 2^24. -/
def seqDiff (a b : Nat) : Nat := (a + 2 ^ 24 - b % 2 ^ 24) % 2 ^ 24
/-- `a` is ahead of `b`. -/
def ackAhead (a b : Nat) : Bool := decide (0 < seqDiff a b ∧ seqDiff a b < 2 ^ 23)

/-! ### Leaving UP: the parent and the plans that a link carried (13 R384, R398, 12 R363) -/

/-- The link on which a leader's ID arrives with the fewest hops, and its hops (13 R383). -/
def State.bestParent (s : State) (leader : Nat) : Option (Nat × Nat) :=
  (List.range 96).foldl (fun best l => match fget heard0 s.pod.heard l with
    | none => best
    | some h =>
      if !s.timeLink l || h.leader != leader || (s.link l).refill != 0 then best
      else match best with
        | none => some (l, h.hops)
        | some b => if h.hops < b.2 then some (l, h.hops) else best) none

/-- The parent is lost: another link with the same leader, or HOLDOVER (13 R384, R386). -/
def State.parentLost (s : State) : State :=
  let s := { s with pod := { s.pod with good := 0, bad := 0 } }
  match s.bestParent (s.rd TMB_STATUS_LEADER_ID) with
  | some (l, h) => (((s.wr TMB_STATUS_PARENT_LINK l).wr TMB_STATUS_HOPS (h + 1)).wr TMB_STATUS_STATE 1).tmbEvent 2 {}
  | none => ((s.wr TMB_STATUS_PARENT_VALID 0).wr TMB_STATUS_STATE 3).tmbEvent 3 {}

/-- Link `l` no longer serves as a parent. -/
def State.parentGone (s : State) (l : Nat) : State :=
  let s := { s with pod := { s.pod with heard := fset heard0 s.pod.heard l none } }
  if s.flag TMB_STATUS_PARENT_VALID ∧ s.rd TMB_STATUS_PARENT_LINK = l then s.parentLost else s

/-- Set a link's state; the parent is lost where it leaves UP. -/
def State.setLink (s : State) (l st : Nat) : State :=
  let was := s.linkUp l
  let s := s.lwr l LNK_STATUS_STATE st
  if was ∧ st ≠ 6 then s.parentGone l else s

/-- A link enters RECOVER (R366, R371). -/
def State.toRecover (s : State) (l : Nat) : State :=
  let s := if (s.link l).rs then s.lwr l LNK_STATUS_FEC 1 else s
  (s.setLink l 7).modLink l (fun k => { k with locked := false, hstate := 0, hello := none, sent2 := false })

/-- A link enters DOWN, with an event unless `code` is 0. -/
def State.toDown (s : State) (l code : Nat) : State :=
  let s := s.setLink l 8
  if code = 0 then s else s.linkEvent l code

/-- The packet on another main route (13 R394). -/
def reroute (p : Packet) (w : W64) : Packet :=
  { p with nhops := bits w.toNat 59 56, hidx := 1, route := routeEntries (bits w.toNat 55 0) }

/-- A packet leaves on its first link. -/
def State.sendOut (s : State) (p : Packet) : State := s.send (p.route.getD 0 0) p

/-- The XDEV section of a niche's cast. -/
def State.xdev (s : State) (i : Nat) : Option Xdev := (s.niche i).cast.bind (fun c => c.xdev)

/-- A handed-back collective segment is resent whole on ROUTE_B (13 R404). -/
def State.handBack (s : State) (p : Packet) : State :=
  (List.range 16).foldl (fun s i => match s.xdev i with
    | none => s
    | some x => (s.niche i).insts.foldl (fun s t =>
        if t.unacked.any (fun u => u.pkt == { p with via := 0 }) then
          match x.plans[t.plan]? with
          | some r => (s.sendOut (reroute p r.routeB)).tmbEvent 9 { niche := some i }
          | none => s
        else s) s) s

/-- The edge tick of a niche at or after a tick (13 R390, R398). -/
def State.edgeTickFrom (s : State) (i t : Nat) : Nat :=
  let t0 := s.rd (TMB_NSTART_START_TICK.by16 i)
  let f := s.frameTicks4 i
  if t ≤ t0 then t0 else t0 + ((t - t0) * 4 + f - 1) / f * f / 4

/-- A FALLBACK message (13 R389). -/
def fallbackBytes (castId tick dev port : Nat) : List (BitVec 8) :=
  valBytes 3 8 ++ valBytes castId 16 ++ valBytes tick 8 ++ valBytes dev 2 ++ valBytes port 1

/-- A TIME packet (13 R389). -/
def State.timePacket (s : State) (l : Nat) (bs : List (BitVec 8)) : Packet :=
  { mclass := 4, vl := 3, nhops := 1, hidx := 1, route := [l], dest := 0, src := s.devId
    dst := s.lrd l LNK_PARTNER_ID_DEV_ID, payload := bs }

/-- A FALLBACK message leaves on every UP TIME link whose partner is a participant. -/
def State.sendFallback (s : State) (x : Xdev) (bs : List (BitVec 8)) : State :=
  ((List.range 96).filter (fun l => s.timeLink l && x.parts.contains (s.lrd l LNK_PARTNER_ID_DEV_ID))).foldl
    (fun s l => s.send l (s.timePacket l bs)) { s with pod := { s.pod with seen := s.pod.seen ++ [bs] } }

/-- A slot plan of niche `i` falls back where its ROUTE_A starts on link `l` (13 R398). -/
def State.fallBack (s : State) (i l : Nat) : State :=
  match (s.niche i).cast with
  | none => s
  | some c => match c.xdev with
    | none => s
    | some x =>
      let uses := x.slots.any (fun r => r.fromP == x.me && bits r.routeA.toNat 6 0 == l)
      if c.mqKind ≠ 1 ∨ !uses ∨ (s.niche i).mqOn ∨ (s.niche i).mqTick.isSome then s
      else
        let t := s.edgeTickFrom i (s.tick + s.podT 6)
        ((s.modNiche i (fun n => { n with mqTick := some t })).sendFallback x (fallbackBytes c.castId t s.devId l)).tmbEvent 7
          { niche := some i }

/-- Receive buffers of a virtual lane are freed (R357). -/
def State.freeBuffers (s : State) (l v n : Nat) : State :=
  s.modLink l (fun k => { k with freed := fset z0 k.freed v ((fget z0 k.freed v + n) % 64)
                                 held := fset z0 k.held v (fget z0 k.held v - n) })

/-- A packet of which no frame has been sent goes back to the front of its queue. -/
def Link.unstage (k : Link) (v : Nat) : Link :=
  match fget nil0 k.cur v with
  | (f, p) :: _ =>
    if !f.sop then k
    else if v = 0 then { k with cur := fset nil0 k.cur v [], vl0 := { tick := 0, pkt := p } :: k.vl0 }
    else { k with cur := fset nil0 k.cur v [], out := fset nil0 k.out v (p :: fget nil0 k.out v) }
  | [] => k

/-- What a link in DOWN gives up (R363, 13 R398): packets in the retry buffer are handed back or lost, with the receive buffers
that their unsent frames hold upstream (R362); packets received in part are discarded, and slot plans fall back. -/
def State.linkRelease (s : State) (l : Nat) : State :=
  let s := s.modLink l (fun k => [0, 1, 2, 3].foldl Link.unstage k)
  let k := s.link l
  let rest := [0, 1, 2, 3].flatMap (fun v => (fget nil0 k.cur v).map (fun x => x.2))
  let ps := (k.retry.map (fun x => x.2) ++ rest).eraseDups
  let s := s.modLink l (fun k => { k with retry := [], replay := [], cur := [], part := [], partFrames := [] })
  let s := rest.foldl (fun s p => if p.via = 0 then s else s.freeBuffers (p.via - 1) p.vl 1) s
  let s := ps.foldl (fun s p => if p.retryOk ∧ p.src = s.devId then s.handBack p else s.linkEvent l 0x0F) s
  (List.range 16).foldl (fun s i => s.fallBack i l) s

/-- A link's settings at the start of its training. -/
def State.toDetect (s : State) (l : Nat) : State :=
  (s.setLink l 1).modLink l (fun k => { k with lockFails := 0, recFails := 0, hello := none, hstate := 0, sent2 := false, block := [] })

/-- A link leaves DOWN or another state for DISABLED: what DOWN gives up is given up here too. -/
def State.toDisabled (s : State) (l : Nat) : State := (s.linkRelease l).setLink l 0

/-! ### Acknowledgement, credit and replay (R357 to R360) -/

/-- A replay of the unacknowledged frames (R360); RETRY_MAX replays without an ACK advance lead to RECOVER. -/
def State.startReplay (s : State) (l : Nat) : State :=
  let k := s.link l
  if k.retry.isEmpty then s
  else if s.linkT l 9 ≤ k.replays then s.toRecover l
  else (s.modLink l (fun k => { k with replay := k.retry.map (fun x => x.1), replays := k.replays + 1 })).ladd l LNK_CNT_REPLAYS 1

/-- The ACK and CRD of a good frame (R355, R357, R360). -/
def Link.ackCrd (k : Link) (f : Frame) : Link :=
  let k := { k with back := (f.crd.zipIdx).foldl (fun m x => fset z0 m x.2 (x.1 % 64)) k.back }
  if !f.ackv then k
  else
    let left := k.retry.filter (fun x => ackAhead x.1.seq f.ack)
    { k with retry := left, replay := k.replay.filter (fun x => ackAhead x.seq f.ack)
             replays := if left.length < k.retry.length then 0 else k.replays }

/-- Every good frame (R355): ACK, CRD, and a replay where it carries NAK (R360). -/
def State.goodFrame (s : State) (l : Nat) (f : Frame) : State :=
  if !s.linkUp l then s
  else
    let s := s.modLink l (fun k => k.ackCrd f)
    if f.nak then s.startReplay l else s

/-- The own buffers of a virtual lane. -/
def State.ownBuffers (s : State) (l v : Nat) : Nat :=
  s.lrd l (match v with | 0 => LNK_CREDIT_B0 | 1 => LNK_CREDIT_B1 | 2 => LNK_CREDIT_B2 | _ => LNK_CREDIT_B3)
/-- The partner's buffers of a virtual lane. -/
def State.partnerBuffers (s : State) (l v : Nat) : Nat :=
  s.lrd l (match v with | 0 => LNK_CREDIT_PB0 | 1 => LNK_CREDIT_PB1 | 2 => LNK_CREDIT_PB2 | _ => LNK_CREDIT_PB3)

/-- A NAK is due, once an episode (R359). -/
def Link.askReplay (k : Link) : Link := if k.episode then k else { k with nak := true, episode := true }

/-- A DATA frame accepted in order: its bytes join its packet, which is whole at EOP (R359, R361). -/
def Link.accept (k : Link) (f : Frame) : Link :=
  let bs := (if f.sop then [] else fget nil0 k.part f.vl) ++ f.payload
  let k := { k with expect := (k.expect + 1) % 2 ^ 24, episode := false, nak := false
                    held := fset z0 k.held f.vl (fget z0 k.held f.vl + 1) }
  if f.eop then { k with part := fset nil0 k.part f.vl [], rx := k.rx ++ [packetOf bs f.info] }
  else { k with part := fset nil0 k.part f.vl bs }

/-- A good DATA frame (R357, R359). -/
def State.dataFrame (s : State) (l : Nat) (f : Frame) : State :=
  let k := s.link l
  if f.seq ≠ k.expect then (if ackAhead f.seq k.expect then s.modLink l Link.askReplay else s)
  else if s.ownBuffers l f.vl ≤ fget z0 k.held f.vl then (s.linkEvent l 0x0A).toRecover l
  else s.modLink l (fun k => k.accept f)

/-- ZOVAR_DATA_FRAME (R359). -/
def execZovarDataFrame (link : Nat) (f : Frame) (s : State) : Out :=
  s.onLink link (fun s => if s.linkUp link then
      (let s := s.goodFrame link f
       if s.linkUp link then s.dataFrame link f else s) else s)

/-- ZOVAR_IDLE_FRAME (R355). -/
def execZovarIdleFrame (link : Nat) (f : Frame) (s : State) : Out := s.onLink link (fun s => s.goodFrame link f)

/-- ZOVAR_BAD_FRAME: a frame with a bad CRC, or, with `crc` false, of a reserved type, is discarded whole and counted; a bad
CRC asks for a replay once an episode (R355, R359). -/
def execZovarBadFrame (link : Nat) (crc : Bool) (s : State) : Out :=
  s.onLink link (fun s =>
    let s := s.ladd link LNK_CNT_CRC_ERR 1
    if crc ∧ s.linkUp link then s.modLink link Link.askReplay else s)

/-- REPLAY_TIMEOUT (R360). -/
def execReplayTimeout (link : Nat) (s : State) : Out :=
  s.onLink link (fun s => if s.linkUp link then s.startReplay link else s)

/-! ### The transmitter (R356) -/

/-- Whether a packet's class may be sent on a link (R364, R368, R376). -/
def State.maySend (s : State) (l : Nat) (p : Packet) : Bool :=
  let edge := (s.link l).edge
  (match p.mclass with
   | 1 => !edge | 2 => !edge && s.feature l 5 | 3 => !edge && s.feature l 4 | 4 => !edge && s.feature l 7
   | 6 => edge && s.feature l 9 | 7 => s.feature l 8 | _ => false)
    && (p.vl != 0 || s.feature l 3)

/-- The packet that goes out next on a virtual lane enters transmission. -/
def State.txStage (s : State) (l v : Nat) : State :=
  let k := s.link l
  if !(fget nil0 k.cur v).isEmpty then s
  else if v = 0 then
    match k.vl0.filter (fun x => s.maySend l x.pkt) with
    | x :: t => if x.tick ≤ s.tick then
        s.modLink l (fun k => { k with vl0 := t, cur := fset nil0 k.cur 0 ((packetFrames x.pkt).map (fun f => (f, x.pkt))) })
      else s
    | [] => s.modLink l (fun k => { k with vl0 := [] })
  else
    match (fget nil0 k.out v).filter (fun p => s.maySend l p) with
    | p :: t => s.modLink l (fun k => { k with out := fset nil0 k.out v t
                                               cur := fset nil0 k.cur v ((packetFrames p).map (fun f => (f, p))) })
    | [] => s.modLink l (fun k => { k with out := fset nil0 k.out v [] })

/-- Whether a frame of a virtual lane is ready: it is there, its lane has a credit, and the retry buffer has room. -/
def State.laneReady (s : State) (l v : Nat) : Bool :=
  let k := s.link l
  !(fget nil0 k.cur v).isEmpty && decide (k.retry.length < 128)
    && decide ((fget z0 k.used v + 64 - fget z0 k.back v) % 64 < s.partnerBuffers l v)

/-- The fields that every frame carries (R355). -/
def Link.stamp (k : Link) (f : Frame) : Frame :=
  { f with ack := (k.expect + 2 ^ 24 - 1) % 2 ^ 24, ackv := true, nak := k.nak
           crd := [0, 1, 2, 3].map (fun v => fget z0 k.freed v) }

/-- A frame goes on the wire, into the FEC block that forms: five frames make one (R349). -/
def Link.put (k : Link) (f : Frame) : Link :=
  let b := k.block ++ [k.stamp f]
  { k with lastTx := some (k.stamp f), nak := false, block := if b.length < 5 then b else []
           blockSent := if b.length < 5 then k.blockSent else b }

/-- The next frame of a virtual lane is sent and kept for replay (R358, R360). A forwarded packet's receive buffer is freed
(R362). -/
def State.sendLane (s : State) (l v : Nat) : State :=
  match fget nil0 (s.link l).cur v with
  | [] => s
  | (f, p) :: t =>
    let s := s.modLink l (fun k =>
      let g := { f with seq := k.txSeq }
      { k.put g with cur := fset nil0 k.cur v t, retry := k.retry ++ [(g, p)], txSeq := (k.txSeq + 1) % 2 ^ 24
                     used := fset z0 k.used v ((fget z0 k.used v + 1) % 64), passed := if v = 1 then 0 else k.passed })
    if p.via = 0 then s else s.freeBuffers (p.via - 1) p.vl 1

/-- The virtual lane that the order of R356 serves, among those that are ready. -/
def txChoice (passed : Nat) (r : Nat → Bool) : Option Nat :=
  if r 0 then some 0
  else if r 1 ∧ 3 ≤ passed then some 1
  else if r 2 then some 2
  else if r 3 then some 3
  else if r 1 then some 1
  else none

/-- A ready VL1 frame was passed over. -/
def Link.passOver (k : Link) (ready : Bool) : Link := { k with passed := if ready then k.passed + 1 else 0 }

/-- TX_FRAME_SLOT: one frame slot of a link in UP (R356). -/
def execTxFrameSlot (link : Nat) (s : State) : Out :=
  s.onLink link (fun s =>
    if !s.linkUp link then s
    else
      let s := [0, 1, 2, 3].foldl (fun s v => s.txStage link v) s
      let one := s.laneReady link 1
      match (s.link link).replay with
      | f :: t => s.modLink link (fun k => { (k.put f).passOver one with replay := t })
      | [] => match txChoice (s.link link).passed (s.laneReady link) with
        | some v => (if v = 1 then s else s.modLink link (fun k => k.passOver one)).sendLane link v
        | none => s.modLink link (fun k => (k.put { ftype := 0 }).passOver one))

end Sys2Proof.Machine
end

