-- ==== Sys2Proof/Machine/Fec.lean ====
section
/-! DEFINITION. From frames to the symbols on a link's lanes: the bit stream, GF(2^10), the two codes, the FEC blocks
(spec/12_zovar_links.md R348, R349, R354). -/

namespace Sys2Proof.Machine
open Sys2Proof

/-! ### GF(2^10) with x^10 + x^3 + 1 (R349) -/

/-- A field element times α. -/
def gfDouble (a : Nat) : Nat := if a < 512 then 2 * a else (2 * a) ^^^ 0x409

/-- The product of `a` and the low `n` bits of `b`. -/
def gfMul (a : Nat) : Nat → Nat → Nat
  | 0, _ => 0
  | n + 1, b => (if b % 2 = 1 then a else 0) ^^^ gfDouble (gfMul a n (b / 2))

/-- α to a power. -/
def gfPow : Nat → Nat
  | 0 => 1
  | i + 1 => gfDouble (gfPow i)

/-- The generator polynomial, the product of (x - α^i) for i below `n`: coefficients, lowest first. -/
def genPoly : Nat → List Nat
  | 0 => [1]
  | i + 1 =>
    let p := genPoly i
    List.zipWith (· ^^^ ·) (0 :: p) (p.map (fun a => gfMul a 10 (gfPow i)) ++ [0])

/-- The remainder of a message times x^n by the generator of degree `n`, highest coefficient first: `g` holds the generator's
coefficients below x^n, highest first. -/
def fecRemainder (g r : List Nat) : List Nat → List Nat
  | [] => r
  | m :: ms =>
    let q := m ^^^ r.headD 0
    fecRemainder g (List.zipWith (· ^^^ ·) (r.drop 1 ++ [0]) (g.map (fun a => gfMul a 10 q))) ms

/-- A codeword with `n` parity symbols: they follow the message symbols. -/
def codeword (n : Nat) (msg : List Nat) : List Nat :=
  msg ++ fecRemainder ((genPoly n).reverse.drop 1) (List.replicate n 0) msg

/-- The value of a word of symbols, highest coefficient first, at x. -/
def gfEval (x : Nat) (w : List Nat) : Nat := w.foldl (fun a c => gfMul a 10 x ^^^ c) 0

/-- Whether a word is a codeword: the generator's roots are its roots. -/
def isCodeword (n : Nat) (w : List Nat) : Bool := (List.range n).all (fun i => gfEval (gfPow i) w == 0)

/-! ### Frames, symbols, blocks, lanes (R348, R349, R354) -/

/-- The 256 bytes of a frame: header, payload, CRC-32C. -/
def frameBytes (f : Frame) : List (BitVec 8) :=
  let b := valBytes (frameHeader f) 12 ++ (f.payload ++ List.replicate 240 0).take 240
  b ++ valBytes (crc32c b) 4

/-- The first `n` 10-bit symbols of a bit stream: byte 0 first, each byte least significant bit first, the first bit as symbol bit 0. -/
def symbolsOf (n : Nat) (bs : List (BitVec 8)) : List Nat :=
  let v := bytesVal bs bs.length
  (List.range n).map (fun j => v / 2 ^ (10 * j) % 1024)

/-- Pieces of `n` symbols. -/
def symbolPieces (n : Nat) : Nat → List Nat → List (List Nat)
  | 0, _ => []
  | k + 1, ss => ss.take n :: symbolPieces n k (ss.drop n)

/-- The marker of an RS(544,514) block. -/
def fecMarker : List (BitVec 8) := [0x96, 0x3C, 0x5A, 0xE1, 0x0F]

/-- The codewords of the FEC block that carries five frames: 8 of the short code, or 2 of RS(544,514) behind the marker. -/
def fecBlock (rs : Bool) (fs : List Frame) : List (List Nat) :=
  let bs := fs.flatMap frameBytes
  if rs then (symbolPieces 514 2 (symbolsOf 1028 (fecMarker ++ bs))).map (codeword 30)
  else (symbolPieces 128 8 (symbolsOf 1024 bs)).map (codeword 8)

/-- The symbols that a lane carries: at width ×2 every other one of each codeword, lane 0 first; at width ×1 all on the one lane. -/
def laneSymbols (one : Bool) (lane : Nat) (block : List (List Nat)) : List Nat :=
  block.flatMap (fun w => (w.zipIdx).filterMap (fun x => if one || x.2 % 2 == lane then some x.1 else none))

/-- What a link's lane has sent for its latest complete FEC block. -/
def State.laneSent (s : State) (l lane : Nat) : List Nat :=
  let one := s.lflag l LNK_STATUS_WIDTH
  if one && s.laneFenced l lane then []
  else laneSymbols one lane (fecBlock (s.lflag l LNK_STATUS_FEC) (s.link l).blockSent)

end Sys2Proof.Machine
end

