-- ==== Sys2Proof/Machine/LinkTrain.lean ====
section
/-! DEFINITION. Training, negotiation, identity, recovery and delay measurement of Zovar links, and the budget of slots
(spec/12_zovar_links.md R351, R352, R366 to R373, spec/13_pod_time_collectives.md R388, R397, spec/16_restorer.md R461). -/

namespace Sys2Proof.Machine
open Sys2Proof

/-! ### Slot budgets (13 R397) -/

/-- Frame time in picoseconds. -/
def State.frameTime (s : State) (l : Nat) : Nat := if s.lflag l LNK_STATUS_RATE then 20480 else 10240

/-- Transmit and receive path times of a link in picoseconds (12 R353). -/
def State.pathTimes (s : State) (l : Nat) : Nat × Nat :=
  let t : Nat × Nat := match s.lrd l LNK_STATUS_RATE, s.lrd l LNK_STATUS_FEC with
    | 0, 0 => (20500, 30000) | 0, _ => (41000, 91500) | _, 0 => (31000, 50500) | _, _ => (72000, 173000)
  (t.1, t.2 + if s.lflag l LNK_STATUS_WIDTH then s.frameTime l else 0)

/-- The bound of R387 in ticks for a number of parent hops. -/
def podBound (h : Nat) : Nat := if h ≤ 1 then 1 else (h + 1) / 2

/-- B of R397 in picoseconds: frames of the packet, the own link, further hops, the devices at its ends. -/
def State.slotTime (s : State) (l plen route nhops fromDev toDev : Nat) : Nat :=
  let p := s.pathTimes l
  let h := if s.flag TMB_STATUS_PARENT_VALID && s.rd TMB_STATUS_PARENT_LINK == l && nhops == 1 then 1 else Config.podHops fromDev toDev
  frameCount plen * s.frameTime l + (p.1 + s.lrd l LNK_DELAY_DELAY_PS + p.2 + 10000)
    + ((List.range nhops).drop 1).foldl (fun t i => t + Config.remoteHop fromDev route i) 0 + 1111 * podBound h

/-- The own link of a slot that this device sends or receives: the first of its route, or the one that the sender's link
joins. -/
def State.slotLink (s : State) (x : Xdev) (r : SlotRec) : Option Nat :=
  let first := bits r.routeA.toNat 6 0
  if r.fromP = x.me then some first
  else if r.toP = x.me then
    (List.range 96).find? (fun l => s.lrd l LNK_PARTNER_ID_DEV_ID == x.parts.getD r.fromP 0
      && (s.lrd l LNK_PARTNER_ID_PORT == first || decide (1 < bits r.routeA.toNat 59 56)))
  else none

/-- A slot meets its budget. -/
def State.slotOk (s : State) (x : Xdev) (r : SlotRec) : Bool :=
  match s.slotLink x r with
  | none => true
  | some l =>
    let b := s.slotTime l r.plen (bits r.routeA.toNat 55 0) (bits r.routeA.toNat 59 56) (x.parts.getD r.fromP 0) (x.parts.getD r.toP 0)
    decide (r.sendOfs + (9 * b + 9999) / 10000 ≤ r.delivOfs)

/-- Every running slot plan that uses link `l` is checked again. -/
def State.slotRecheck (s : State) (l : Nat) : State :=
  (List.range 16).foldl (fun s i => match s.xdev i with
    | some x =>
      if s.nicheState i = 3 ∧ x.slots.any (fun r => s.slotLink x r == some l && !s.slotOk x r) then
        s.tmbEvent 6 { niche := some i }
      else s
    | none => s) s

/-! ### Training (R346, R347, R351, R352, R366, R370) -/

/-- A link enters EQ with its saved settings, or for full training at the highest rate it may use. -/
def State.toEq (s : State) (l : Nat) : State :=
  let k := s.link l
  let rate := match k.saved with
    | some r => if k.full then s.lrd l LNK_CTRL_RATE_CAP else r.rate
    | none => s.lrd l LNK_CTRL_RATE_CAP
  ((s.setLink l 2).lwr l LNK_STATUS_RATE rate).modLink l (fun k => { k with full := k.full || k.saved.isNone })

/-- A link enters NEGOTIATE: NICHE, NBOUND, TRANSIT and EDGE take effect (R378). -/
def State.toNegotiate (s : State) (l : Nat) : State :=
  let niche := if s.lflag l LNK_CTRL_NBOUND then some (s.lrd l LNK_CTRL_NICHE) else none
  let tr := s.lflag l LNK_CTRL_TRANSIT
  let ed := s.lflag l LNK_CTRL_EDGE
  ((s.setLink l 4).lwr l LNK_PARTNER_ID_VALID 0).modLink l (fun k =>
    { k with niche := niche, transit := tr, edge := ed, hello := none, hstate := 0, sent2 := false, meas := [], pings := []
             refill := 0, lockFails := 0 })

/-- A DISABLED link with ENABLE set enters DETECT, while the device has an ID (R366, 18 R513). -/
def State.enableLink (s : State) (l : Nat) : State :=
  if s.lstate l = 0 ∧ s.lflag l LNK_CTRL_ENABLE ∧ s.obj 0x3800 0 < 0xFFF then s.toDetect l else s

/-- Voinfort sets ENABLE from the link's object, and the link enters DETECT (18 R513, 19 R533). -/
def State.startLink (s : State) (l : Nat) : State :=
  if !s.linkFused l && s.obj (0x3000 + 16 * l) 0 == 1 then (s.lwr l LNK_CTRL_ENABLE 1).enableLink l else s

/-- A write of ENABLE (R366). -/
def State.writeEnable (s : State) (l : Nat) (v : Bool) : State :=
  let s := (s.lwr l LNK_CTRL_ENABLE (b2n v)).setObj (0x3000 + 16 * l) 0 (b2n v)
  if v then s.enableLink l else s.toDisabled l

/-- LINK_ENABLE_WRITE (R366). -/
def execLinkEnableWrite (link : Nat) (v : Bool) (s : State) : Out := s.onLink link (fun s => s.writeEnable link v)

/-- RETRAIN (R366, R371, R378). -/
def State.retrain (s : State) (l : Nat) : State :=
  match s.lstate l with
  | 6 => s.toRecover l
  | 8 => (s.linkRelease l).toDetect l
  | 9 => s.toDetect l
  | _ => s

/-- LINK_RETRAIN (R366, R371, R378). -/
def execLinkRetrain (link : Nat) (s : State) : Out := s.onLink link (fun s => s.retrain link)

/-- LINK_DETECT: the lanes that show termination (R366, R347). -/
def execLinkDetect (link : Nat) (lane0 lane1 : Bool) (s : State) : Out :=
  s.onLink link (fun s =>
    let a := lane0 && !s.laneFenced link 0
    let b := lane1 && !s.laneFenced link 1
    if s.lstate link ≠ 1 then s
    else if a && b then (s.lwr link LNK_STATUS_WIDTH 0).toEq link
    else if (a || b) && s.lflag link LNK_CTRL_X1_ALLOW then (s.lwr link LNK_STATUS_WIDTH 1).toEq link
    else s)

/-- BER_WINDOW_END: the measured error rate of each lane in use, binary32, 0 for a lane not in use (R352). -/
def execBerWindowEnd (link : Nat) (ber0 ber1 : W32) (s : State) : Out :=
  s.onLink link (fun s =>
    let w := max ber0.toNat ber1.toNat
    if s.lstate link ≠ 2 then s
    else if 0x38D1B717 < w then
      (if s.lflag link LNK_STATUS_RATE then s.toDown link 1
       else (s.lwr link LNK_STATUS_RATE 1).modLink link (fun k => { k with full := true }))
    else
      let rs := s.flag MGT_STRAPS_LINKFEC || s.lflag link LNK_CTRL_FORCE_RS || decide (s.linkT link 3 < w)
      s.modLink link (fun k => { k with fecReq := rs || k.rs }))

/-- A failed equalisation on a lane: the third in a row fences it (16 R461). -/
def State.laneFail (s : State) (l lane : Nat) : State :=
  let n := fget z0 (s.link l).eqFails lane + 1
  let s := s.modLink l (fun k => { k with eqFails := fset z0 k.eqFails lane n })
  if n = 3 ∧ !s.laneFenced l lane then
    s.addFlaw { kind := 6, cause := 5, die := l / 24, applied := false, confirmed := false, loc := l + 128 * lane, tick := s.tick
                stored := false }
  else s

/-- LINK_EQ_DONE: `res` 0 success, 1 failure on a lane, 2 crossed lanes (R346, R366, R370). -/
def execLinkEqDone (link res lane : Nat) (s : State) : Out :=
  s.onLink link (fun s =>
    if s.lstate link ≠ 2 then s
    else match res with
      | 0 => (s.setLink link 3).modLink link (fun k => { k with rs := k.rs && !k.full, eqFails := if k.full then [] else k.eqFails })
      | 1 =>
        if (s.link link).full then (s.laneFail link (lane % 2)).toDown link 1
        else s.modLink link (fun k => { k with full := true })
      | _ => s.toDown link 2)

/-- LINK_LOCK (R351, R371). -/
def execLinkLock (link : Nat) (s : State) : Out :=
  s.onLink link (fun s => match s.lstate link with
    | 3 => s.toNegotiate link
    | 7 => s.modLink link (fun k => { k with locked := true })
    | _ => s)

/-- LINK_LOCK_LOST (R351, R371). -/
def execLinkLockLost (link : Nat) (s : State) : Out :=
  s.onLink link (fun s => if s.linkUp link then s.toRecover link else s)

/-- LOCK_T_EXPIRY (R366). -/
def execLockTExpiry (link : Nat) (s : State) : Out :=
  s.onLink link (fun s =>
    if s.lstate link ≠ 3 then s
    else
      let n := (s.link link).lockFails + 1
      let s := s.modLink link (fun k => { k with lockFails := n })
      if 3 ≤ n then s.toDown link 3 else s.toEq link)

/-- NEG_T_EXPIRY (R366). -/
def execNegTExpiry (link : Nat) (s : State) : Out :=
  s.onLink link (fun s => if s.lstate link = 4 then s.toDown link 0 else s)

/-! ### UP (R358, R366, R370) -/

/-- Receive buffers that whole packets occupy. -/
def Link.occupied (k : Link) (v : Nat) : Nat :=
  (k.rx ++ k.inbox ++ k.late).foldl (fun n p => if p.vl = v then n + packetCount p else n) 0

/-- A link enters UP from NEGOTIATE or HOLD: sequence numbers and credit counters start at 0, and after full training the
saved-settings record is rewritten. -/
def State.toUp (s : State) (l : Nat) : State :=
  let r : Saved := ⟨s.lrd l LNK_PARTNER_ID_DEV_ID, s.lrd l LNK_PARTNER_ID_PORT, s.lrd l LNK_STATUS_RATE, s.lrd l LNK_STATUS_FEC,
    s.lrd l LNK_DELAY_DELAY_PS⟩
  ((s.setLink l 6).modLink l (fun k =>
    { k with txSeq := 0, expect := 0, retry := [], replay := [], replays := 0, nak := false, episode := false, used := [], back := []
             freed := [], held := [0, 1, 2, 3].foldl (fun m v => fset z0 m v (k.occupied v)) [], cur := [], passed := 0, part := []
             recFails := 0, saved := if k.full then some r else k.saved, full := false })).slotRecheck l

/-- Whether the saved record no longer fits: another partner, or a delay that differs by more than 2 ns (R370). -/
def State.recordStale (s : State) (l : Nat) : Bool :=
  let k := s.link l
  match k.saved with
  | none => false
  | some r =>
    let d := s.lrd l LNK_DELAY_DELAY_PS
    !k.full && (r.dev != s.lrd l LNK_PARTNER_ID_DEV_ID || r.port != s.lrd l LNK_PARTNER_ID_PORT
      || decide (r.delay + 2000 < d ∨ d + 2000 < r.delay))

/-- A link that finished NEGOTIATE enters UP, or trains again in full where its record is stale. -/
def State.enterUp (s : State) (l : Nat) : State :=
  if s.recordStale l then (s.modLink l (fun k => { k with full := true })).toEq l else s.toUp l

/-! ### Identity (R369) -/

/-- Links other than `l` in one of some states whose partner has the DEV_ID of `l`'s. -/
def State.sameDev (s : State) (l : Nat) (sts : List Nat) : List Nat :=
  (List.range 96).filter (fun o => o != l && sts.contains (s.lstate o) && s.lflag o LNK_PARTNER_ID_VALID
    && s.lrd o LNK_PARTNER_ID_DEV_ID == s.lrd l LNK_PARTNER_ID_DEV_ID)

/-- Held links whose decision no other link's NEGOTIATE is left for enter UP. -/
def State.releaseHeld (s : State) (l : Nat) : State :=
  (s.sameDev l [5]).foldl (fun s o => if (s.sameDev o [4]).isEmpty then s.enterUp o else s) s

/-- The decision of R369 for a link that finished NEGOTIATE. -/
def State.decideLink (s : State) (l : Nat) : State :=
  let dev := s.lrd l LNK_PARTNER_ID_DEV_ID
  let clash := (s.sameDev l [5, 6, 7]).filter (fun o => s.lrd o LNK_PARTNER_ID_PORT == s.lrd l LNK_PARTNER_ID_PORT)
  if dev = s.devId then (s.setLink l 9).linkEvent l 6
  else if dev = 0xFFF ∧ s.lrd l LNK_PARTNER_ID_ROLE ≠ 1 then s.toDown l 8
  else if !clash.isEmpty then (l :: clash).foldl (fun s o => (s.setLink o 9).linkEvent o 5) s
  else if !(s.sameDev l [4]).isEmpty then s.setLink l 5
  else (s.enterUp l).releaseHeld l

/-- HOLD_T_EXPIRY (R366, R369). -/
def execHoldTExpiry (link : Nat) (s : State) : Out :=
  s.onLink link (fun s => if s.lstate link = 5 then s.enterUp link else s)

/-! ### HELLO (R367, R368) -/

/-- The HELLO that a frame carries. -/
def helloOf (bs : List (BitVec 8)) : Hello :=
  { verMax := bytesVal bs 1, verMin := bytesVal (bs.drop 1) 1, dev := bits (bytesVal (bs.drop 2) 2) 11 0
    port := bytesVal (bs.drop 4) 1, role := bytesVal (bs.drop 5) 1, hstate := bytesVal (bs.drop 6) 1
    fecReq := bytesVal (bs.drop 7) 1, features := bytesVal (bs.drop 8) 8
    b := [16, 17, 18, 19].map (fun i => bytesVal (bs.drop i) 1)
    seenDev := bits (bytesVal (bs.drop 20) 4) 11 0, seenPort := bits (bytesVal (bs.drop 20) 4) 23 16 }

/-- The features that this end advertises. -/
def State.ownFeatures (s : State) (l : Nat) : Nat := 0xDFF + b2n (s.link l).edge * 2 ^ 9

/-- The HELLO that this end sends. -/
def State.helloBytes (s : State) (l : Nat) : List (BitVec 8) :=
  let k := s.link l
  let st := if s.lstate l = 9 then 3 else k.hstate
  let seen := match k.hello with | some h => h.dev + h.port * 2 ^ 16 | none => 0
  valBytes 3 1 ++ valBytes 1 1 ++ valBytes s.devId 2 ++ valBytes l 1 ++ valBytes 0 1 ++ valBytes st 1 ++ valBytes (b2n k.fecReq) 1
    ++ valBytes (s.ownFeatures l) 8 ++ [0, 1, 2, 3].flatMap (fun v => valBytes (s.ownBuffers l v) 1) ++ valBytes seen 4

/-- Both ends are agreed: each has sent HSTATE = 2 and has seen the other's identity. -/
def State.agreed (s : State) (l : Nat) : Bool :=
  let k := s.link l
  match k.hello with
  | some h => k.hstate == 2 && k.sent2 && h.hstate == 2 && h.seenDev == s.devId && h.seenPort == l
  | none => false

/-- A recovered link is back in UP and replays from the partner's ACK (R371). -/
def State.recovered (s : State) (l : Nat) : State :=
  let s := (s.setLink l 6).modLink l (fun k => { k with recFails := 0, replays := 0, nak := false, episode := false })
  (if (s.link l).rs then s.slotRecheck l else s).startReplay l

/-- The end of a negotiation or recovery, where both ends are agreed. -/
def State.tryFinish (s : State) (l : Nat) : State :=
  if !s.agreed l then s
  else match s.lstate l with
    | 4 => s.decideLink l
    | 7 => s.recovered l
    | _ => s

/-- What a HELLO in NEGOTIATE teaches: version, features, FEC, credits and identity (R368, R352, R357). -/
def State.learn (s : State) (l : Nat) (h : Hello) : State :=
  let ver := min 3 h.verMax
  let feats := s.ownFeatures l &&& h.features
  let k := s.link l
  let short := !k.fecReq && h.fecReq == 0 && bit feats 1
  let s := ((s.lwr l LNK_STATUS_VER ver).lwr l LNK_PARTNER_FEATURES feats).lwr l LNK_STATUS_FEC (b2n (!short))
  let s := (((s.lwr l LNK_PARTNER_ID_VALID 1).lwr l LNK_PARTNER_ID_ROLE h.role).lwr l LNK_PARTNER_ID_PORT h.port).lwr l
    LNK_PARTNER_ID_DEV_ID h.dev
  let s := (((s.lwr l LNK_CREDIT_PB0 (h.b.getD 0 0)).lwr l LNK_CREDIT_PB1 (h.b.getD 1 0)).lwr l LNK_CREDIT_PB2 (h.b.getD 2 0)).lwr l
    LNK_CREDIT_PB3 (h.b.getD 3 0)
  let s := s.modLink l (fun k => { k with hello := some h, hstate := if 64 ≤ k.meas.length then 2 else 1 })
  if ver < max 1 h.verMin then s.toDown l 4
  else if s.lflag l LNK_STATUS_WIDTH ∧ !bit feats 10 then s.toDown l 0
  else s.tryFinish l

/-- A HELLO in RECOVER (R369, R371). -/
def State.relearn (s : State) (l : Nat) (h : Hello) : State :=
  if !(s.link l).locked then s
  else if h.dev ≠ s.lrd l LNK_PARTNER_ID_DEV_ID ∨ h.port ≠ s.lrd l LNK_PARTNER_ID_PORT then s.toDown l 7
  else (s.modLink l (fun k => { k with hello := some h, hstate := 2 })).tryFinish l

/-- ZOVAR_HELLO (R367, R368, R371). -/
def execZovarHello (link : Nat) (f : Frame) (s : State) : Out :=
  s.onLink link (fun s =>
    let h := helloOf f.payload
    match s.lstate link with
    | 4 => s.learn link h
    | 5 => s.modLink link (fun k => { k with hello := some h })
    | 6 => s.toRecover link
    | 7 => (s.modLink link (fun k => k.ackCrd f)).relearn link h
    | _ => s)

/-- HELLO_T_SEND (R366, R367). -/
def execHelloTSend (link : Nat) (s : State) : Out :=
  s.onLink link (fun s =>
    if [4, 5, 7, 9].contains (s.lstate link) then
      let bs := s.helloBytes link
      (s.modLink link (fun k => { k.put { ftype := 2, payload := bs } with sent2 := k.sent2 || k.hstate == 2 })).tryFinish link
    else s)

/-! ### Recovery and DOWN (R352, R366, R371) -/

/-- DEAD_T_EXPIRY (R371). -/
def execDeadTExpiry (link : Nat) (s : State) : Out :=
  s.onLink link (fun s => if s.linkUp link then s.toRecover link else s)

/-- RECOVER_T_EXPIRY (R371). -/
def execRecoverTExpiry (link : Nat) (s : State) : Out :=
  s.onLink link (fun s =>
    if s.lstate link ≠ 7 then s
    else
      let n := (s.link link).recFails + 1
      let s := s.modLink link (fun k => { k with recFails := n, locked := false, hstate := 0, hello := none, sent2 := false })
      if s.linkT link 12 ≤ n then s.toDown link 9 else s)

/-- DOWN_HOLD_EXPIRY (R366). -/
def execDownHoldExpiry (link : Nat) (s : State) : Out :=
  s.onLink link (fun s =>
    if s.lstate link ≠ 8 then s
    else if s.lflag link LNK_CTRL_AUTO_RESTART then (s.linkRelease link).toDetect link
    else s.toDisabled link)

/-- LINK_DOWN: a link that has entered DOWN gives up what it holds (R363). -/
def execLinkDown (link : Nat) (s : State) : Out :=
  s.onLink link (fun s => if s.lstate link = 8 then s.linkRelease link else s)

/-- FEC_DEGRADE: more than CW_ALARM heavy corrections in 1 s; `lane` names a lane that alone caused them (R352, 16 R461). -/
def execFecDegrade (link : Nat) (lane : Option Nat) (s : State) : Out :=
  s.onLink link (fun s =>
    if !s.linkUp link || s.lflag link LNK_STATUS_FEC then s
    else
      let s := match lane with
        | none => s
        | some n =>
          let last := fget z0 (s.link link).degrade (n % 2)
          let s := s.modLink link (fun k => { k with degrade := fset z0 k.degrade (n % 2) (s.tick + 1) })
          if last ≠ 0 ∧ s.tick < last + dayTicks ∧ !s.laneFenced link (n % 2) then
            s.addFlaw { kind := 6, cause := 4, die := link / 24, applied := false, confirmed := false, loc := link + 128 * (n % 2)
                        tick := s.tick, stored := false }
          else s
      ((s.linkEvent link 0x0B).modLink link (fun k => { k with rs := true, fecReq := true })).toRecover link)

/-! ### Delay (R373, 13 R388) -/

/-- MEAS_T_PING: a PING leaves at `t1` sixteenths of a tick (R373). -/
def execMeasTPing (link t1 : Nat) (s : State) : Out :=
  s.onLink link (fun s =>
    if s.lstate link = 4 ∨ s.linkUp link then
      s.modLink link (fun k =>
        { k.put { ftype := 3, payload := valBytes k.pingId 2 } with
            pings := k.pings.filter (fun p => decide (t1 ≤ p.2 + 144000)) ++ [(k.pingId, t1)], pingId := (k.pingId + 1) % 2 ^ 16 })
    else s)

/-- ZOVAR_PING: the PONG carries `turn`, its TURN_PS (R373). -/
def execZovarPing (link : Nat) (f : Frame) (turn : Nat) (s : State) : Out :=
  s.onLink link (fun s =>
    if s.lstate link = 4 ∨ s.linkUp link then
      (s.goodFrame link f).modLink link (fun k =>
        k.put { ftype := 4, payload := valBytes (bytesVal f.payload 2) 4 ++ valBytes turn 4 })
    else s)

/-- The one-way delay in picoseconds of an exchange of `rt` sixteenths of a tick. -/
def delayPs (rt turn : Nat) : Nat := (rt * 625 - 9 * turn) / 18

/-- The cable length in centimetres of a delay, at a velocity figure in ns/m, binary32. -/
def lengthCm (ps vel : Nat) : Nat :=
  match unpack 13 vel with
  | .fin false m q =>
    if m = 0 then 0 else if 0 ≤ q then ps / (10 * m * 2 ^ q.toNat) else ps * 2 ^ (-q).toNat / (10 * m)
  | _ => 0

/-- The average of the measurements held becomes the delay in use. -/
def State.useDelay (s : State) (l : Nat) : State :=
  let ms := (s.link l).meas
  let d := ms.foldl (fun a b => a + b) 0 / ms.length
  ((s.lwr l LNK_DELAY_VALID 1).lwr l LNK_DELAY_DELAY_PS (min d (2 ^ 32 - 1))).lwr l LNK_DELAY_LENGTH_CM
    (min (lengthCm d (s.obj (0x3000 + 16 * l + 7) 0)) 65535)

/-- A measurement joins the last 64. -/
def State.addDelay (s : State) (l d : Nat) : State :=
  let last := (s.link l).refill == 1
  let s := s.modLink l (fun k => { k with meas := (k.meas ++ [d]).drop (k.meas.length - 63), refill := k.refill - 1 })
  if (s.link l).meas.length < 64 then s
  else if last then (s.useDelay l).slotRecheck l
  else s.useDelay l

/-- DELAY_STEP (R373, 13 R388). -/
def State.delayStep (s : State) (l d : Nat) : State :=
  (((s.linkEvent l 0x10).modLink l (fun k => { k with meas := [d], refill := 63 })).parentGone l).slotRecheck l

/-- ZOVAR_PONG arriving at `t4` sixteenths of a tick (R373). -/
def execZovarPong (link : Nat) (f : Frame) (t4 : Nat) (s : State) : Out :=
  s.onLink link (fun s =>
    let s := s.goodFrame link f
    match (s.link link).pings.find? (fun p => p.1 == bytesVal f.payload 2) with
    | none => s
    | some p =>
      let s := s.modLink link (fun k => { k with pings := k.pings.filter (fun x => x.1 != p.1) })
      if p.2 + 144000 < t4 then s
      else
        let d := delayPs (t4 - p.2) (bytesVal (f.payload.drop 4) 4)
        let use := s.lrd link LNK_DELAY_DELAY_PS
        if s.linkUp link then
          (if (s.link link).refill = 0 ∧ (use + 2000 < d ∨ d + 2000 < use) then s.delayStep link d else s.addDelay link d)
        else if s.lstate link = 4 then
          let s := s.addDelay link d
          (s.modLink link (fun k => { k with hstate := if k.hello.isSome ∧ 64 ≤ k.meas.length then 2 else k.hstate })).tryFinish link
        else s)

end Sys2Proof.Machine
end

