-- ==== Sys2Proof/Machine/HostMem.lean ====
section
/-! DEFINITION. Byte accesses to HBM by hosts and links, window spaces, and BAR2 (spec/11_hbm_dma.md R323, R327 to R330,
spec/14_host_niches.md R412, R413, R420). -/

namespace Sys2Proof.Machine
open Sys2Proof

/-! ### Bytes of HBM -/

/-- The bytes that an access writes in a line: `a` is the device address of the access's first byte. -/
def lineBytes (l a : Nat) (bs : List (BitVec 8)) (i : Nat) : Option (BitVec 8) :=
  if 64 * l + i < a then none else bs[64 * l + i - a]?

/-- A line with bytes written: a word written whole takes the access's poison, a word written in part keeps its own too. -/
def lineMerge (old : VR) (get : Nat → Option (BitVec 8)) (ep : Bool) : VR :=
  let ob := old.bytes
  { v := BitVec.ofNat 512 (bytesVal ((List.range 64).map (fun i => (get i).getD (ob.getD i 0))) 64)
    p := BitVec.ofNat 16 (((List.range 16).map (fun w =>
      let n := ((List.range 4).filter (fun j => (get (4 * w + j)).isSome)).length
      b2n (if n = 0 then old.p.getLsbD w else ep || (decide (n < 4) && old.p.getLsbD w)) * 2 ^ w)).foldl (fun a b => a + b) 0) }

/-- One line of an access is written, with the partial update of its block's check (R330). -/
def State.hbmMerge (s : State) (l a : Nat) (bs : List (BitVec 8)) (ep : Bool) : State :=
  let whole := decide (a ≤ 64 * l ∧ 64 * l + 64 ≤ a + bs.length)
  let old : VR × State := if whole then (⟨0, 0⟩, s) else s.hbmLine (64 * l)
  old.2.hbmPut (64 * l) (lineMerge old.1 (lineBytes l a bs) ep)

/-- A whole block of an access is written with its carried check (R329). -/
def State.hbmWhole (s : State) (b a : Nat) (bs : List (BitVec 8)) (ep : Bool) : State :=
  s.hbmPutBlock (4096 * b) ((List.range 64).map (fun i => lineMerge ⟨0, 0⟩ (lineBytes (64 * b + i) a bs) ep))

/-- One block of an access: whole, or line by line. -/
def State.hbmBlockWrite (s : State) (b a : Nat) (bs : List (BitVec 8)) (ep : Bool) : State :=
  if a ≤ 4096 * b ∧ 4096 * b + 4096 ≤ a + bs.length then s.hbmWhole b a bs ep
  else ((List.range 64).filter (fun i => decide (a < 4096 * b + 64 * i + 64 ∧ 4096 * b + 64 * i < a + bs.length))).foldl
    (fun s i => s.hbmMerge (64 * b + i) a bs ep) s

/-- Bytes written at a device address with their poison, and block checks kept. -/
def State.hbmWrite (s : State) (a : Nat) (bs : List (BitVec 8)) (ep : Bool) : State :=
  if bs.isEmpty then s
  else (List.range ((a + bs.length - 1) / 4096 + 1 - a / 4096)).foldl (fun s i => s.hbmBlockWrite (a / 4096 + i) a bs ep) s

/-- Bytes read from a device address, with the numbers of the lines that hold a poisoned word. -/
def State.hbmRead (s : State) (a n : Nat) : (List (BitVec 8) × List Nat) × State :=
  if n = 0 then (([], []), s)
  else
    let l := a / 64
    let r := s.hbmLines (64 * l) ((a + n - 1) / 64 + 1 - l)
    (((r.1.flatMap VR.bytes).drop (a % 64) |>.take n, ((r.1.zipIdx).filter (fun x => x.1.p != 0)).map (fun x => l + x.2)), r.2)

/-! ### Window spaces (R323, R420) -/

/-- The device address of byte `o` of a niche's window space, with the window. -/
def State.spaceAddr (s : State) (i o : Nat) : Option (Nat × Nat) :=
  let n0 := match s.window i 0 with | some (_, n) => 65536 * n | none => 0
  if o < n0 then (s.window i 0).map (fun w => (65536 * w.1 + o, 0))
  else match s.window i 1 with
    | some (b, n) => if o - n0 < 65536 * n then some (65536 * b + (o - n0), 1) else none
    | none => none

/-- The device address of `n` bytes of a niche's window space, where R323 admits the access. -/
def State.spaceArea (s : State) (i o n : Nat) (write : Bool) : Option Nat :=
  match s.spaceAddr i o with
  | some (a, _) => if s.hbmAdmits i write a (a + n) then some a else none
  | none => none

/-- Bytes of a niche's window space. -/
def State.spaceSize (s : State) (i : Nat) : Nat :=
  (match s.window i 0 with | some (_, n) => 65536 * n | none => 0) + (match s.window i 1 with | some (_, n) => 65536 * n | none => 0)

/-! ### Functions and BAR2 (R413, R420, R426) -/

/-- The niche that a virtual function is bound to (R426). -/
def State.boundNiche (s : State) (fn : Nat) : Option Nat :=
  (List.range 16).find? (fun i => s.flag (NCH_CFG_VALID.niche i)
    && (if fn / 17 = 0 then s.flag (NCH_CFG_VFA_VALID.niche i) && s.rd (NCH_CFG_VFA.niche i) + 1 == fn % 17
        else s.flag (NCH_CFG_VFB_VALID.niche i) && s.rd (NCH_CFG_VFB.niche i) + 1 == fn % 17))

/-- Whether a port is enabled (R411); a package whose primary is die 3 serves through port B only (18 R507). -/
def State.portOn (s : State) (port : Nat) : Bool :=
  !fget noMark s.dieHalt (3 * port) && (if port = 0 then !s.flag MGT_BOOT_STATUS_PRIMARY else !s.flag MGT_STRAPS_HOSTPORT)

/-- The package is in SERVICE (18 R501). -/
def State.inService (s : State) : Bool := s.rd MGT_BOOT_STATUS_STATE == 7

/-- The device address that a function reaches through BAR2 at an offset, for `n` bytes: none before SERVICE
(18 R501). -/
def State.bar2 (s : State) (fn off n : Nat) (write : Bool) : Option Nat :=
  if !s.portOn (fn / 17) || !s.inService then none
  else if fn % 17 = 0 then (if off + n ≤ s.hbmAlloc then some off else none)
  else if 2 ^ 34 < off + n then none
  else (s.boundNiche fn).bind (fun i => s.spaceArea i off n write)

/-- HOST_BAR2_READ of `len` bytes by a function: EP where a line holds a poisoned word, Unsupported Request outside the
view (R327, R412, R420). -/
def execHostBar2Read (fn off len : Nat) (s : State) : Out :=
  if 34 ≤ fn ∨ 4096 < off % 4096 + len then .fault .noSuchUnit
  else .next (match s.bar2 fn off len false with
    | none => { s with readVal := 0, readStat := 2 }
    | some a =>
      let r := s.hbmRead a len
      { r.2 with readVal := bytesVal r.1.1 len, readStat := b2n (!r.1.2.isEmpty) })

/-- HOST_BAR2_WRITE: poison clear, or every word poisoned where the write carries EP; a refused write is dropped (R330, R412,
R420). -/
def execHostBar2Write (fn off : Nat) (data : List (BitVec 8)) (ep : Bool) (s : State) : Out :=
  if 34 ≤ fn ∨ 4096 < off % 4096 + data.length then .fault .noSuchUnit
  else .next (match s.bar2 fn off data.length true with
    | none => s
    | some a => s.hbmWrite a data ep)

end Sys2Proof.Machine
end

