-- ==== Sys2Proof/Machine/Packets.lean ====
section
/-! DEFINITION. Packets that a link has received: transit, refusal, and delivery into bindings (spec/12_zovar_links.md R361 to
R365, spec/14_host_niches.md R428, R429, spec/13_pod_time_collectives.md R396). -/

namespace Sys2Proof.Machine
open Sys2Proof

/-- `n` payload bytes from an offset as a number. -/
def pay (p : Packet) (off n : Nat) : Nat := bytesVal (p.payload.drop off) n
/-- STYPE of a COLL packet (13 R403): 0 DATA, 1 ACK, 2 LOST, 3 SLOT. -/
def stype (p : Packet) : Nat := pay p 10 1

/-- The receive buffers of a packet are freed. -/
def State.freePacket (s : State) (l : Nat) (p : Packet) : State := s.freeBuffers l p.vl (packetCount p)

/-- A packet is discarded and counted; a code other than 0 is its event. -/
def State.discard (s : State) (l : Nat) (p : Packet) (code : Nat) : State :=
  let s := (s.freePacket l p).ladd l LNK_CNT_REFUSED 1
  if code = 0 then s else s.linkEvent l code

/-- Whether a class is in the table, on its virtual lane, agreed, and allowed by the link's role (R364, R368, R376). -/
def State.classOk (s : State) (l : Nat) (p : Packet) : Bool :=
  let edge := (s.link l).edge
  (match p.mclass with
   | 1 => p.vl == 1 && !edge
   | 2 => p.vl == 2 && !edge && s.feature l 5
   | 3 => (p.vl == 1 || p.vl == 0) && !edge && s.feature l 4
   | 4 => (p.vl == 3 || p.vl == 0) && !edge && s.feature l 7
   | 5 => p.vl == 2 && edge && s.feature l 9
   | 7 => p.vl == 3 && s.feature l 8
   | _ => false) && (p.vl != 0 || s.feature l 3)

/-- Whether a binding's type admits a packet (14 R429). -/
def State.bindAdmits (s : State) (i : Nat) (p : Packet) : Bool :=
  match s.rd (NCH_BIND_TYPE.by8 p.dest), p.mclass with
  | 1, 5 => true
  | 1, 3 => stype p == 3
  | 2, 1 => true
  | 2, 3 => stype p == 3
  | 3, 2 => p.payload.length == 16 && syncObjOk s.small (pay p 4 4) && s.nicheHas i (12 * bits (pay p 4 4) 14 11 + bits (pay p 4 4) 10 7)
  | 4, 3 => decide (stype p < 3)
  | _, _ => false

/-- Whether a packet passes the ingress checks of R365; the binding's niche is neither RESETTING nor DESTROYING (14 R432). -/
def State.bindOk (s : State) (l : Nat) (p : Packet) : Bool :=
  match (s.link l).niche with
  | none => false
  | some i => decide (p.dest < 512) && s.flag (NCH_BIND_VALID.by8 p.dest) && s.rd (NCH_BIND_NICHE.by8 p.dest) == i
      && s.bindAdmits i p && s.nicheState i != 4 && s.nicheState i != 6

/-- Bytes written into the window of a binding from an offset; false where they do not lie in it or R323 does not admit
them. -/
def State.bindWrite (s : State) (b off : Nat) (bs : List (BitVec 8)) (pz : Bool) : Bool × State :=
  if 65536 * s.rd (NCH_BIND_SIZE_SEG.by8 b) < off + bs.length then (false, s)
  else match s.spaceArea (s.rd (NCH_BIND_NICHE.by8 b)) (65536 * s.rd (NCH_BIND_FIELD.by8 b) + off) bs.length true with
    | some a => (true, s.hbmWrite a bs pz)
    | none => (false, s)

/-- The ring of a binding. -/
def State.bindRing (s : State) (b : Nat) : Nat := s.rd (NCH_BIND_FIELD.by8 b) % 128

/-- A slot of a slot plan is delivered: one entry of a ring, or the start of a window (13 R396). -/
def State.slotDeliver (s : State) (l : Nat) (p : Packet) : State :=
  let bs := p.payload.drop 64
  if s.rd (NCH_BIND_TYPE.by8 p.dest) = 1 then
    (if bs.length ≤ 224 then (s.ingress (s.bindRing p.dest) p.src bs p.poison).freePacket l p else s.discard l p 0x0E)
  else
    let w := s.bindWrite p.dest 0 bs p.poison
    if w.1 then w.2.freePacket l p else s.discard l p 0x0E

/-- A packet that has passed the checks, and whose tick has come where it travels on VL0, is delivered: a slot into its ring or
window, any other to the unit that takes its class. -/
def State.deliver (s : State) (l : Nat) (p : Packet) : State :=
  if p.mclass = 3 ∧ stype p = 3 then s.slotDeliver l p
  else s.modLink l (fun k => { k with inbox := k.inbox ++ [p] })

/-- A packet for the device itself (R364, R365). -/
def State.toSelf (s : State) (l : Nat) (p : Packet) : State :=
  if !s.classOk l p then s.discard l p 0x0D
  else if p.mclass = 4 ∧ (p.vl ≠ 0 ∨ (([1, 2, 3].contains (pay p 0 1)) = false)) then
    (if [1, 2, 3].contains (pay p 0 1) then s.deliver l p else s.discard l p 0)
  else if p.mclass = 7 then s.deliver l p
  else if p.mclass ≠ 4 ∧ !s.bindOk l p then s.discard l p 0x0E
  else if p.vl = 0 then
    (if s.tick < pay p 0 8 then s.modLink l (fun k => { k with late := k.late ++ [p] })
     else (if pay p 0 8 < s.tick then s.ladd l LNK_CNT_TT_LATE 1 else s).deliver l p)
  else s.deliver l p

/-- A packet is forwarded; it holds its receive buffers until it is sent (R362). -/
def State.forward (s : State) (l out : Nat) (p : Packet) : State :=
  let q := { p with hidx := p.hidx + 1, via := l + 1 }
  if q.vl = 0 then s.modLink out (fun k => { k with vl0 := k.vl0 ++ [⟨q, 0⟩] }) else s.send out q

/-- A received packet (R362). -/
def State.receive (s : State) (l : Nat) (p : Packet) : State :=
  let out := p.route.getD p.hidx 0
  if p.hidx = 0 ∨ 8 < p.hidx then s.discard l p 0x0C
  else if p.hidx = p.nhops then (if p.dst = s.devId then s.toSelf l p else s.discard l p 0x0C)
  else if p.hidx < p.nhops ∧ (s.link l).transit ∧ out < 96 ∧ s.linkUp out ∧ (s.link out).transit then s.forward l out p
  else s.discard l p 0x0C

/-- PACKET_RECEIVE: the oldest whole packet that a link has received (R362). -/
def execPacketReceive (link : Nat) (s : State) : Out :=
  s.onLink link (fun s => match (s.link link).rx with
    | [] => s
    | p :: t => (s.modLink link (fun k => { k with rx := t })).receive link p)

/-- The oldest packet in a link's inbox that satisfies a test leaves it. -/
def State.takeIn (s : State) (l : Nat) (t : Packet → Bool) (f : Packet → State → State) : State :=
  match takeFirst t (s.link l).inbox with
  | none => s
  | some (p, rest) => f p ((s.modLink l (fun k => { k with inbox := rest })).freePacket l p)

/-- A request at the sync store of an object's court, as the rim brings it: it has no requester to answer. -/
def State.syncPost (s : State) (obj op op12 : Nat) : State :=
  let q := 12 * bits obj 14 11 + bits obj 10 7
  s.modCourt q (fun c => { c with syncIn := c.syncIn ++
    [{ kind := .posted, priv := true, len := 8, unit := 1, port := 0, dest := courtHub q, src := courtHub q
       payload := valBytes op12 8, info := [op, obj] }] })

/-- A DESC packet's write and its ADD; what does not fit its binding is refused (R364, R365). -/
def State.pktDesc (l : Nat) (p : Packet) (s : State) : State :=
  let off := pay p 0 8
  let obj := pay p 8 4
  let bs := p.payload.drop 16
  let i := s.rd (NCH_BIND_NICHE.by8 p.dest)
  let w := s.bindWrite p.dest off bs p.poison
  if off % 64 ≠ 0 ∨ bs.length % 64 ≠ 0 ∨ 4032 < bs.length ∨ w.1 = false then (s.ladd l LNK_CNT_REFUSED 1).linkEvent l 0x0E
  else if obj ≠ 0xFFFFFFFF ∧ syncObjOk s.small obj ∧ s.nicheHas i (12 * bits obj 14 11 + bits obj 10 7) then
    w.2.syncPost obj 1 (pay p 12 4)
  else w.2

/-- PKT_DESC (R364). -/
def execPktDesc (link : Nat) (s : State) : Out :=
  s.onLink link (fun s => s.takeIn link (fun p => p.mclass == 1) (fun p s => s.pktDesc link p))

/-- PKT_SYNC: a request goes to the sync store of its object (R364). -/
def execPktSync (link : Nat) (s : State) : Out :=
  s.onLink link (fun s => s.takeIn link (fun p => p.mclass == 2) (fun p s => s.syncPost (pay p 4 4) (pay p 0 1) (pay p 8 8)))

/-- PKT_EDGE_IN: an entry goes into its ingress ring (R365). -/
def execPktEdgeIn (link : Nat) (s : State) : Out :=
  s.onLink link (fun s => s.takeIn link (fun p => p.mclass == 5)
    (fun p s => s.ingress (s.bindRing p.dest) p.src (p.payload.take 224) p.poison))

/-- PKT_MGMT: the message goes to the die's Atelier (R364). -/
def execPktMgmt (link : Nat) (s : State) : Out :=
  s.onLink link (fun s => s.takeIn link (fun p => p.mclass == 7)
    (fun p s => { s with mailbox := fmod nil0 s.mailbox (link / 24) (fun l => l ++ [{ payload := p.payload, src := p.src, info := [link] }]) }))

/-- VL0_DELIVER: the oldest VL0 packet whose tick TICK has reached (R364). -/
def execVl0Deliver (link : Nat) (s : State) : Out :=
  s.onLink link (fun s => match takeFirst (fun p => decide (pay p 0 8 ≤ s.tick)) (s.link link).late with
    | none => s
    | some (p, t) => (s.modLink link (fun k => { k with late := t })).deliver link p)

end Sys2Proof.Machine
end

