-- ==== Sys2Proof/Machine/PodTime.lean ====
section
/-! DEFINITION. Leader, parent, synchronisation, FALLBACK and time-triggered slots
(spec/13_pod_time_collectives.md R379 to R398). -/

namespace Sys2Proof.Machine
open Sys2Proof

/-! ### Leader and parent (R382 to R384) -/

/-- The lowest leader ID heard on a link that may serve as a parent. -/
def State.lowestHeard (s : State) : Option Nat :=
  (List.range 96).foldl (fun best l => match fget heard0 s.pod.heard l with
    | none => best
    | some h =>
      if !s.timeLink l || (s.link l).refill != 0 then best
      else match best with | none => some h.leader | some b => some (min b h.leader)) none

/-- This device leads: it reports LOCKED. -/
def State.lead (s : State) : State :=
  let was := s.rd TMB_STATUS_LEADER_ID
  let s := (((s.wr TMB_STATUS_PARENT_VALID 0).wr TMB_STATUS_LEADER_ID s.devId).wr TMB_STATUS_HOPS 0).wr TMB_STATUS_STATE 2
  if was = s.devId then s else s.tmbEvent 1 {}

/-- This device follows a leader over a parent link. -/
def State.follow (s : State) (leader l hops : Nat) : State :=
  let oldL := s.rd TMB_STATUS_LEADER_ID
  let same := s.flag TMB_STATUS_PARENT_VALID && s.rd TMB_STATUS_PARENT_LINK == l
  let s := (((s.wr TMB_STATUS_PARENT_VALID 1).wr TMB_STATUS_PARENT_LINK l).wr TMB_STATUS_LEADER_ID leader).wr TMB_STATUS_HOPS
    (min (hops + 1) 63)
  let s := if oldL = leader then s else s.tmbEvent 1 {}
  let s := if same then s else s.tmbEvent 2 {}
  if same ∧ oldL = leader then s
  else { s.wr TMB_STATUS_STATE 1 with pod := { s.pod with good := 0, bad := 0 } }

/-- The election after an accepted announce (R383). -/
def State.elect (s : State) : State :=
  match s.lowestHeard with
  | none => s
  | some i =>
    if s.devId ≤ i then (if s.flag TMB_STATUS_PARENT_VALID then s.lead else s)
    else match s.bestParent i with
      | some (l, h) => s.follow i l h
      | none => s

/-- A 16-bit sequence is ahead of another (R383). -/
def seq16Ahead (a b : Nat) : Bool := let d := (a + 65536 - b % 65536) % 65536; decide (0 < d ∧ d < 32768)

/-- Whether a received announce is accepted (R383). -/
def State.announceOk (s : State) (leader hops seq : Nat) : Bool :=
  let last := fget z0 s.pod.last leader
  decide (hops < 63) && (last == 0 || seq16Ahead seq (last - 1))

/-- An ANNOUNCE received on a link (R383): one that names this device tells it that it leads. -/
def State.announced (l : Nat) (p : Packet) (s : State) : State :=
  let leader := pay p 2 2 % 4096
  let hops := pay p 4 1
  let seq := pay p 6 2
  if !s.flag TMB_CTRL_ENABLE then s
  else if leader = s.devId then (if s.rd TMB_STATUS_STATE = 3 then s.lead else s)
  else if !s.announceOk leader hops seq then s
  else
    let s := { s with pod := { s.pod with last := fset z0 s.pod.last leader (seq + 1)
                                          heard := fset heard0 s.pod.heard l (some ⟨leader, hops, seq⟩) } }
    s.elect

/-- TIME packets of a type. -/
def isTime (ty : Nat) (p : Packet) : Bool := p.mclass == 4 && pay p 0 1 == ty

/-- ANNOUNCE (R383). -/
def execAnnounce (link : Nat) (s : State) : Out := s.onLink link (fun s => s.takeIn link (isTime 1) (State.announced link))

/-- A command to the timebase, which stands in die 0. -/
def State.onTimebase (s : State) (f : State → State) : Out := .next (if fget noMark s.dieHalt (3 * s.rd MGT_BOOT_STATUS_PRIMARY) then s else f s)

/-- The fields of the announce that this device sends: leader, hops, sequence. -/
def State.announceFields (s : State) : Nat × Nat × Nat :=
  if s.flag TMB_STATUS_PARENT_VALID then
    let leader := s.rd TMB_STATUS_LEADER_ID
    (leader, s.rd TMB_STATUS_HOPS, fget z0 s.pod.last leader - 1)
  else (s.devId, 0, s.pod.seq)

/-- ANNOUNCE_SEND (R383): a device in FREE that hears no lower ID leads; the leader's sequence advances with each announce. -/
def execAnnounceSend (s : State) : Out :=
  s.onTimebase (fun s =>
    if !s.flag TMB_CTRL_ENABLE then s
    else
      let s := if !s.flag TMB_STATUS_PARENT_VALID ∧ s.rd TMB_STATUS_STATE ≠ 3 then s.lead else s
      let own := !s.flag TMB_STATUS_PARENT_VALID
      let s := if own then { s with pod := { s.pod with seq := (s.pod.seq + 1) % 65536 } } else s
      let a := s.announceFields
      let bs := valBytes 1 2 ++ valBytes a.1 2 ++ valBytes a.2.1 1 ++ valBytes 0 1 ++ valBytes a.2.2 2
      ((List.range 96).filter s.timeLink).foldl (fun s l => s.send l (s.timePacket l bs)) s)

/-- PARENT_LOSS: no accepted announce on the parent for 3 times ANNOUNCE_T (R384). -/
def execParentLoss (s : State) : Out :=
  s.onTimebase (fun s => if s.flag TMB_STATUS_PARENT_VALID then s.parentGone (s.rd TMB_STATUS_PARENT_LINK) else s)

/-- HOLDOVER_EXPIRY (R384, R386). -/
def execHoldoverExpiry (s : State) : Out :=
  s.onTimebase (fun s => if s.rd TMB_STATUS_STATE = 3 then (s.wr TMB_STATUS_STATE 0).tmbEvent 4 {} else s)

/-! ### Synchronisation (R385, R386) -/

/-- TIME_SYNC_SEND on a link, whose first symbol leaves at `ttx` sixteenths of a tick; never towards the parent. -/
def execTimeSyncSend (link ttx : Nat) (s : State) : Out :=
  s.onLink link (fun s =>
    if !s.timeLink link || !s.flag TMB_CTRL_ENABLE || (s.flag TMB_STATUS_PARENT_VALID && s.rd TMB_STATUS_PARENT_LINK == link) then s
    else
      let leader := s.rd TMB_STATUS_LEADER_ID
      let seq := if s.flag TMB_STATUS_PARENT_VALID then fget z0 s.pod.last leader - 1 else s.pod.seq
      s.send link (s.timePacket link (valBytes 2 8 ++ valBytes ttx 8 ++ valBytes leader 2 ++ valBytes seq 2)))

/-- A niche with a generator in POD mode. -/
def State.anyPod (s : State) : Bool := (List.range 16).any (fun i => s.frameMode i == 3)

/-- The limit of RATE_ADJ (R379). -/
def rateLimit : Int := 219902325

/-- An integer within a limit. -/
def clampTo (m z : Int) : Int := max (-m) (min m z)

/-- The offset acts: a step forward where R381 allows one, else the servo (R385). -/
def State.correct (s : State) (theta : Int) : State :=
  let st := s.rd TMB_STATUS_STATE
  if (s.podT 4 * 16 : Nat) < theta ∧ st ≤ 1 ∧ !s.anyPod ∧ s.flag TMB_CTRL_STEP_ALLOW then
    (s.wr TMB_TICK_TICK (s.tick + (theta + 8).toNat / 16)).tmbEvent 5 {}
  else s.wr TMB_SERVO_RATE_ADJ (wrap 32 (clampTo rateLimit (Config.servo theta s.rateAdj)))

/-- ACQUIRING and LOCKED follow the offsets (R386). -/
def State.lockState (s : State) (theta : Int) : State :=
  match s.rd TMB_STATUS_STATE with
  | 1 =>
    let n := if theta.natAbs ≤ 16 then s.pod.good + 1 else 0
    let s := { s with pod := { s.pod with good := n } }
    if s.podT 3 ≤ n then { s.wr TMB_STATUS_STATE 2 with pod := { s.pod with good := 0, bad := 0 } } else s
  | 2 =>
    let n := if 32 < theta.natAbs then s.pod.bad + 1 else 0
    let s := { s with pod := { s.pod with bad := n } }
    if 4 ≤ n then { s.wr TMB_STATUS_STATE 1 with pod := { s.pod with good := 0, bad := 0 } } else s
  | _ => s

/-- Picoseconds in sixteenths of a tick. -/
def psTo16 (ps : Nat) : Nat := (ps * 9 + 312) / 625

/-- A SYNC from the parent, whose first symbol arrived at `trx` sixteenths of a tick. -/
def State.synced (l trx : Nat) (p : Packet) (s : State) : State :=
  if !s.flag TMB_CTRL_ENABLE || !s.flag TMB_STATUS_PARENT_VALID || s.rd TMB_STATUS_PARENT_LINK != l || (s.link l).refill != 0 then s
  else
    let theta : Int := (pay p 8 8 + psTo16 (s.lrd l LNK_DELAY_DELAY_PS) : Nat) - (trx : Nat)
    let s := s.wr TMB_SERVO_THETA (wrap 32 (max (-(2 ^ 31 : Int)) (min ((2 ^ 31 : Int) - 1) theta)))
    (s.correct theta).lockState theta

/-- TIME_SYNC (R385). -/
def execTimeSync (link trx : Nat) (s : State) : Out := s.onLink link (fun s => s.takeIn link (isTime 2) (State.synced link trx))

/-! ### FALLBACK (R398) -/

/-- The first copy of a FALLBACK schedules the maquette of the plan's niche and is forwarded; an activation edge that has
passed gives the next one. -/
def State.fellBack (_l : Nat) (p : Packet) (s : State) : State :=
  let bs := p.payload.take 35
  let t := pay p 24 8
  if s.pod.seen.contains bs then s
  else
    match (List.range 16).find? (fun i => match (s.niche i).cast with
        | some c => c.xdev.isSome && c.mqKind == 1 && c.castId == pay p 8 16 | none => false) with
    | none => s
    | some i => match s.xdev i with
      | none => s
      | some x => ((s.modNiche i (fun n => { n with mqTick := some t })).sendFallback x bs).tmbEvent 7
          { niche := some i, detail := min (s.tick - t) 65535 }

/-- FALLBACK (R398). -/
def execFallback (link : Nat) (s : State) : Out := s.onLink link (fun s => s.takeIn link (isTime 3) (State.fellBack link))

/-! ### Slots (R395) -/

/-- The COLL packet of a slot with the data that stands in the plinth. -/
def slotPacket (me dst edge : Nat) (r : SlotRec) (route : W64) (src : Nat) (ws : List (Nat × Bool)) : Packet :=
  reroute { mclass := 3, vl := 0, poison := ws.any (fun w => w.2), dest := r.dest, src := src, dst := dst
            payload := valBytes (edge + r.delivOfs) 8 ++ valBytes (3 * 2 ^ 16 + me * 2 ^ 96) 56 ++ ws.flatMap (fun w => valBytes w.1 4) } route

/-- SLOT_SEND: the link engine reads the data of slot `slot` over port B for the current frame, 24 mesh cycles before TICK reaches
edge + SEND_OFS, and sends it at that tick, on ROUTE_B where the maquette runs (R395, R398). -/
def execSlotSend (niche slot : Nat) (s : State) : Out :=
  if 16 ≤ niche then .fault .noSuchUnit
  else .next (
    match s.xdev niche with
    | none => s
    | some x => match x.slots[slot]? with
      | none => s
      | some r =>
        let n := s.niche niche
        if r.fromP ≠ x.me ∨ n.slots.contains slot ∨ s.nicheState niche ≠ 3 ∨ n.fresh ∨ 24 < s.cyclesTo (n.edgeTick + r.sendOfs) then s
        else
          let q := s.relCourt niche r.court
          let w := (s.court q).plnWords r.addr ((r.plen - 64) / 4)
          let s := s.modCourt q (fun _ => w.2)
          let route := if n.mqOn then r.routeB else r.routeA
          let p := slotPacket x.me (x.parts.getD r.toP 0) n.edgeTick r route s.devId w.1
          (s.modLink (bits route.toNat 6 0) (fun k => { k with vl0 := k.vl0 ++ [⟨p, n.edgeTick + r.sendOfs⟩] })).modNiche niche
            (fun n => { n with slots := n.slots ++ [slot] }))

end Sys2Proof.Machine
end

