-- ==== Sys2Proof/Machine/Coll.lean ====
section
/-! DEFINITION. Collective plans: instances, segments, acknowledgement, replay, loss and straggler statistics
(spec/13_pod_time_collectives.md R399 to R406). -/

namespace Sys2Proof.Machine
open Sys2Proof

/-- A plan of a niche's cast in its place: the participants in MASK in ascending order, and this device's position. -/
structure Coll where
  niche : Nat
  plan : Nat
  x : Xdev
  r : PlanRec
  ring : List Nat
  pos : Nat
deriving DecidableEq, Repr

/-- Plan `plan` of niche `i`, where this device takes part in it. -/
def State.coll (s : State) (i plan : Nat) : Option Coll :=
  match s.xdev i with
  | none => none
  | some x => match x.plans[plan]? with
    | none => none
    | some r =>
      let ring := (List.range x.parts.length).filter (fun k => bit r.mask.toNat k)
      if ring.contains x.me then some ⟨i, plan, x, r, ring, ring.idxOf x.me⟩ else none

/-- m of R401. -/
def Coll.m (c : Coll) : Nat := c.ring.length
/-- Whether OP reduces. -/
def Coll.reduces (c : Coll) : Bool := c.r.op == 1 || c.r.op == 2 || c.r.op == 3
/-- Whether OP runs along a chain. -/
def Coll.chain (c : Coll) : Bool := c.r.op == 2 || c.r.op == 5
/-- ROP. -/
def Coll.rop (c : Coll) : Nat := bits c.r.flags 3 2
/-- Whether step `t` carries LX128 partials. -/
def Coll.partials (c : Coll) (t : Nat) : Bool := c.reduces && c.rop == 0 && decide (t < c.m - 1)
/-- The position of ROOT in the ring. -/
def Coll.rootPos (c : Coll) : Nat := c.ring.idxOf c.r.root
/-- A chain's distance of this device from its start: ROOT's successor for REDUCE, ROOT for BROADCAST. -/
def Coll.dist (c : Coll) : Nat :=
  if c.r.op = 2 then (c.pos + 2 * c.m - c.rootPos - 1) % c.m else (c.pos + c.m - c.rootPos) % c.m
/-- Steps of R401. -/
def Coll.steps (c : Coll) : Nat := if c.r.op = 1 ∨ c.r.op = 6 then 2 * (c.m - 1) else c.m - 1
/-- The steps whose segments this device receives. -/
def Coll.recvSteps (c : Coll) : List Nat :=
  if c.chain then (if c.dist = 0 then [] else [c.dist - 1]) else List.range c.steps
/-- The steps whose segments it sends. -/
def Coll.sendSteps (c : Coll) : List Nat :=
  if c.chain then (if c.dist + 1 < c.m then [c.dist] else []) else List.range c.steps

/-- c of R401. -/
def Coll.chunk (c : Coll) : Nat := (c.r.elems + c.m - 1) / c.m
/-- First element and count of chunk `j`. -/
def Coll.chunkOf (c : Coll) (j : Nat) : Nat × Nat := (j * c.chunk, min c.chunk (c.r.elems - j * c.chunk))
/-- The elements that the device at position `p` receives in step `t`: the schedule that leaves chunk r at position r. -/
def Coll.range (c : Coll) (p t : Nat) : Nat × Nat :=
  if c.r.op = 6 then (0, 0)
  else if c.chain then (0, c.r.elems)
  else if c.r.op = 4 then ((p + 2 * c.m - t - 1) % c.m * c.r.elems, c.r.elems)
  else if t < c.m - 1 then c.chunkOf ((p + 2 * c.m - t - 2) % c.m)
  else c.chunkOf ((p + 2 * c.m - (t - (c.m - 1)) - 1) % c.m)

/-- The format of elements that travel in step `t` other than as partials. -/
def Coll.moveFmt (c : Coll) (t : Nat) : Nat := if c.r.op = 1 ∧ c.m - 1 ≤ t then c.r.ofmt else c.r.fmt
/-- The format of the elements at DST. -/
def Coll.dstFmt (c : Coll) : Nat := if c.reduces then c.r.ofmt else c.r.fmt
/-- Elements of a full segment of step `t` (R403). -/
def Coll.perSeg (c : Coll) (t : Nat) : Nat := if c.partials t then 252 else 4032 * 8 / fmtBits (c.moveFmt t)
/-- Segments of a run of `n` elements in step `t`: at least one. -/
def Coll.segs (c : Coll) (t n : Nat) : Nat := max 1 ((n + c.perSeg t - 1) / c.perSeg t)
/-- Every segment that this device receives in step `t`. -/
def Coll.expected (c : Coll) (t : Nat) : List (Nat × Nat) :=
  (List.range (c.segs t (c.range c.pos t).2)).map (fun i => (t, i))
/-- Elements of the result at DST: first and count. -/
def Coll.result (c : Coll) : Nat × Nat :=
  match c.r.op with
  | 3 => c.chunkOf c.pos
  | 4 => (0, c.m * c.r.elems)
  | 6 => (0, 0)
  | _ => (0, c.r.elems)

/-! ### Instances (R400, R404) -/

/-- Default of instances' elements that are absent. -/
def rawOf (t : Inst) (e : Nat) : Option Nat := match fget z0 t.raw e with | 0 => none | v + 1 => some v

/-- The instances of a plan. -/
def State.instsOf (s : State) (c : Coll) : List Inst := (s.niche c.niche).insts.filter (fun t => t.plan == c.plan)
/-- An instance of a plan. -/
def State.inst (s : State) (c : Coll) (seq : Nat) : Option Inst := (s.instsOf c).find? (fun t => t.seq == seq)
/-- The next instance number to start. -/
def State.nextInst (s : State) (c : Coll) : Nat := fget z0 (s.niche c.niche).next c.plan
/-- The number of the oldest open instance, else the next one. -/
def State.oldest (s : State) (c : Coll) : Nat :=
  let now := s.nextInst c
  ((s.instsOf c).filter (fun t => !t.ended)).foldl
    (fun o t => if (t.seq + 2 ^ 32 - o) % 2 ^ 32 < 2 ^ 31 then o else t.seq) now

/-- An instance put back; one that has ended with nothing left to acknowledge goes. -/
def State.putInst (s : State) (c : Coll) (t : Inst) : State :=
  s.modNiche c.niche (fun n =>
    let rest := n.insts.filter (fun u => !(u.plan == t.plan && u.seq == t.seq))
    { n with insts := if t.ended ∧ t.unacked.isEmpty then rest else rest ++ [t] })

/-! ### Elements -/

/-- Element `e` of bytes packed at `n` bits. -/
def bitsAt (bs : List (BitVec 8)) (n e : Nat) : Nat :=
  (bytesVal (bs.drop (e * n / 8)) ((n + 14) / 8)) / 2 ^ (e * n % 8) % 2 ^ n
/-- Bytes of `k` packed elements of `n` bits: whole bytes, of 6-bit elements whole groups of four (02 R24). -/
def packedLen (n k : Nat) : Nat := if n = 6 then (k + 3) / 4 * 3 else (k * n + 7) / 8
/-- Elements of `n` bits as bytes; the final byte or group is padded with zeros. -/
def bitBytes (n : Nat) (es : List Nat) : List (BitVec 8) := valBytes (packNat n es) (packedLen n es.length)

/-- Flags of byte 21 of R403. -/
def accFlags (a : Acc) : Nat := b2n a.inexact + 2 * b2n a.leave.2 + 4 * b2n a.invalid
/-- The code of a special state. -/
def Special.code : Special → Nat
  | .finite => 0 | .posInf => 1 | .negInf => 2 | .nan => 3
/-- The code of a partial in a segment's `info`: its special state, and whether it leaves saturated. -/
def accCode (a : Acc) : Nat := Special.code a.special + 4 * b2n a.leave.2
/-- The special state of a code. -/
def specialOf : Nat → Special
  | 1 => .posInf | 2 => .negInf | 3 => .nan | _ => .finite
/-- Partial `i` of a segment's data, with the codes that came beside it. -/
def partialAt (bs : List (BitVec 8)) (info : List Nat) (i : Nat) : Acc :=
  { Acc.clear with n := BitVec.ofInt 152 (signed 128 (bytesVal (bs.drop (16 * i)) 16)), special := specialOf (info.getD i 0 % 4)
                   wovf := decide (4 ≤ info.getD i 0) }

/-- Merge an element of this device into an instance (R402). -/
def Coll.mergeOwn (c : Coll) (t : Inst) (e : Nat) (v : Nat × Bool) : Inst :=
  let t := if v.2 then { t with flags := t.flags ||| 8 } else t
  if c.reduces then
    (if c.rop = 0 then { t with acc := fmod acc0 t.acc e (fun a => segSum c.r.fmt c.r.w a (v.1, false)) }
     else match segPick c.r.fmt (c.rop == 1) ((rawOf t e).map (fun x => (x, false))) (v.1, false) with
       | some x => { t with raw := fset z0 t.raw e (x.1 + 1) }
       | none => t)
  else { t with raw := fset z0 t.raw e (v.1 + 1) }

/-- The elements of a received segment merge into an instance. -/
def Coll.mergeSeg (c : Coll) (t : Inst) (step first nelem : Nat) (bs : List (BitVec 8)) (info : List Nat) : Inst :=
  if c.partials step then
    (List.range nelem).foldl (fun t i =>
      { t with acc := fmod acc0 t.acc (first + i) (fun a => a.join (partialAt bs info i)) }) t
  else
    let n := fmtBits (c.moveFmt step)
    (List.range nelem).foldl (fun t i =>
      let v := bitsAt bs n i
      if c.reduces ∧ step < c.m - 1 then
        (match segPick c.r.fmt (c.rop == 1) ((rawOf t (first + i)).map (fun x => (x, false))) (v, false) with
         | some x => { t with raw := fset z0 t.raw (first + i) (x.1 + 1) }
         | none => t)
      else { t with raw := fset z0 t.raw (first + i) (v + 1) }) t

/-- A reduced element rounded once (02 R53), with its flags. -/
def Coll.final (c : Coll) (a : Acc) : Nat × Nat :=
  if c.r.ofmt = 15 then (wrap 128 a.leave.1, accFlags a)
  else
    let r := convert c.r.ofmt false (bit c.r.flags 1) 0 (a.value c.r.w)
    (r.out, accFlags a ||| 4 * b2n r.invalid)

/-- The reduced elements of a run become final. -/
def Coll.finish (c : Coll) (run : Nat × Nat) (t : Inst) : Inst :=
  if !c.reduces ∨ c.rop ≠ 0 then t
  else (List.range run.2).foldl (fun t i =>
    let e := run.1 + i
    let f := c.final (fget acc0 t.acc e)
    { t with raw := fset z0 t.raw e (f.1 + 1), flags := t.flags ||| f.2 }) t

/-! ### Segments (R403, R404) -/

/-- The header of a segment, bytes 8 to 63. -/
def collHeader (plan sty step seq idx nelem from' flags first minT maxT maxFrom : Nat) : List (BitVec 8) :=
  valBytes plan 2 ++ valBytes sty 1 ++ valBytes step 1 ++ valBytes seq 4 ++ valBytes idx 2 ++ valBytes nelem 2
    ++ valBytes from' 1 ++ valBytes flags 1 ++ valBytes 0 2 ++ valBytes first 8 ++ valBytes minT 8 ++ valBytes maxT 8
    ++ valBytes maxFrom 1 ++ valBytes 0 15

/-- A COLL packet to the successor. -/
def State.collPacket (s : State) (c : Coll) (payload : List (BitVec 8)) (info : List Nat) : Packet :=
  { mclass := 3, vl := 1, retryOk := true, dest := c.r.bind, src := s.devId
    dst := c.x.parts.getD (c.ring.getD ((c.pos + 1) % c.m) 0) 0, payload := payload, info := info }

/-- Segment `idx` of step `step` (R403). The special states of the partials and their overflow marks (02 R54), for which R403 has no
bytes, travel beside the payload, one code an element (log 137). -/
def State.segment (s : State) (c : Coll) (t : Inst) (step idx : Nat) : Packet :=
  let run := c.range (c.pos + 1) step
  let k := c.perSeg step
  let first := run.1 + idx * k
  let n := min k (run.2 - idx * k)
  let es := (List.range n).map (fun i => first + i)
  let as := es.map (fun e => fget acc0 t.acc e)
  let part := c.partials step
  let flags := if part then as.foldl (fun f a => f ||| accFlags a) t.flags else t.flags
  let data := if part then as.flatMap (fun a => valBytes (wrap 128 a.leave.1) 16)
    else bitBytes (fmtBits (c.moveFmt step)) (es.map (fun e => (rawOf t e).getD 0))
  s.collPacket c (valBytes 0 8 ++ collHeader c.plan 0 step t.seq idx n c.x.me flags first (t.minT.getD 0) t.maxT t.maxFrom ++ data)
    (if part then as.map accCode else [])

/-- A segment leaves on ROUTE_A, or on ROUTE_B while ROUTE_A's first link is DOWN, and is kept until its ACK. -/
def State.sendSeg (s : State) (c : Coll) (p : Packet) : State × Packet :=
  let down := s.lstate (bits c.r.routeA.toNat 6 0) == 8
  let p := reroute p (if down then c.r.routeB else c.r.routeA)
  let s := s.sendOut p
  (if down then s.tmbEvent 9 { niche := some c.niche } else s, p)

/-- Whether every segment that this device receives in a step has been merged. -/
def Coll.gotStep (c : Coll) (t : Inst) (step : Nat) : Bool := (c.expected step).all (fun x => t.have'.contains x)

/-- Whether step `step` may be sent. -/
def Coll.sendReady (c : Coll) (t : Inst) (step : Nat) : Bool :=
  t.started && !t.sent.contains step
    && (if c.chain then c.recvSteps.all (c.gotStep t) else step == 0 || c.gotStep t (step - 1))

/-- The segments of a step leave. -/
def State.sendStep (c : Coll) (x : State × Inst) (step : Nat) : State × Inst :=
  if !c.sendReady x.2 step then x
  else
    let t := if c.r.op = 1 ∧ step = c.m - 1 then c.finish (c.chunkOf c.pos) x.2 else x.2
    (List.range (c.segs step (c.range (c.pos + 1) step).2)).foldl (fun x i =>
      let r := x.1.sendSeg c (x.1.segment c x.2 step i)
      (r.1, { x.2 with unacked := x.2.unacked ++ [⟨step, i, r.2⟩] })) (x.1, { t with sent := t.sent ++ [step] })

/-! ### The end of an instance (R400, R405, R406) -/

/-- A device address in the form of 11 R322. -/
def hbmAddr (v : W64) : Nat := v.toNat % 2 ^ 38

/-- Bytes are written to HBM where the niche's windows admit them. -/
def State.collWrite (s : State) (i a : Nat) (bs : List (BitVec 8)) : Bool × State :=
  if bs.isEmpty then (true, s)
  else if s.hbmAdmits i true a (a + bs.length) then (true, s.hbmWrite a bs false) else (false, s)

/-- Whether this device stores a result. -/
def Coll.stores (c : Coll) : Bool := c.r.op != 6 && (c.r.op != 2 || c.x.me == c.r.root)

/-- The result at DST: the elements, or, after a code other than 0, free values (R405). -/
def State.writeDst (s : State) (c : Coll) (t : Inst) (code : Nat) : Bool × State :=
  if !c.stores then (true, s)
  else
    let n := fmtBits c.dstFmt
    let run := c.result
    if code = 0 then
      s.collWrite c.niche (hbmAddr c.r.dst) (bitBytes n ((List.range run.2).map (fun e => (rawOf t (run.1 + e)).getD 0)))
    else
      let len := packedLen n run.2
      let k := s.free
      { s with free := k + len }.collWrite c.niche (hbmAddr c.r.dst)
        ((List.range len).map (fun j => BitVec.ofNat 8 (Config.freeValue (k + j))))

/-- The straggler statistics of an instance that ended as DONE (R406). -/
def State.straggler (s : State) (c : Coll) (t : Inst) : State :=
  if c.r.op ≠ 1 ∧ c.r.op ≠ 4 ∧ c.r.op ≠ 6 then s
  else
    let late := t.start - t.minT.getD t.start
    let s := s.addSat TMB_STRAG_CUR0_INSTANCES 1
    let s := if t.maxFrom = c.x.me then s.addSat TMB_STRAG_CUR0_LAST_CNT 1 else s
    let s := s.wr TMB_STRAG_CUR0_LATE_MAX (max (s.rd TMB_STRAG_CUR0_LATE_MAX) (min late 65535))
    let s := s.wr TMB_STRAG_CUR0_SPREAD_MAX (max (s.rd TMB_STRAG_CUR0_SPREAD_MAX) (min (t.maxT - t.minT.getD t.maxT) 65535))
    s.addSat TMB_STRAG_CUR1_LATE_SUM late

/-- ADD CPL_ADD to CPL, posted by the HOME court's DMA control (R400). -/
def State.collPost (s : State) (c : Coll) : State :=
  let q := s.relCourt c.niche c.r.home
  s.modCourt q (fun k => { k with out := k.out ++
    [{ kind := .posted, priv := true, len := 8, unit := 1, port := 0, dest := hubId (bits c.r.cpl 10 7) (bits c.r.cpl 14 11)
       src := courtHub q, payload := valBytes c.r.cplAdd 8, info := [1, c.r.cpl] }] })

/-- An instance ends with a code: DST, STATUS, the ADD (R400, R405). POISON is a poison consumption (15 R437, R438). -/
def State.endInst (s : State) (c : Coll) (t : Inst) (code : Nat) : State :=
  let t := if code = 0 ∧ c.r.op ≠ 1 then c.finish c.result t else t
  let code := if code = 0 ∧ bit t.flags 3 then 3 else code
  let w := s.writeDst c t code
  let w : Nat × State := if w.1 ∨ code ≠ 0 then (code, w.2) else (2, (w.2.writeDst c t 2).2)
  let s := (w.2.collWrite c.niche (hbmAddr c.r.status) (valBytes (t.flags % 16 * 2 ^ 20 + w.1 * 2 ^ 24 + t.seq * 2 ^ 32) 8)).2
  let s := s.collPost c
  let s := if w.1 = 0 then s.straggler c t else s
  let s := if w.1 = 3 then s.demand { level := 3, unit := c.niche, trigger := 0, niche := some c.niche } else s
  let s := if s.nextInst c = t.seq then s.modNiche c.niche (fun n => { n with next := fset z0 n.next c.plan ((t.seq + 1) % 2 ^ 32) }) else s
  s.putInst c { t with ended := true }

/-- Whether an instance is complete: everything received and sent. -/
def Coll.complete (c : Coll) (t : Inst) : Bool :=
  t.started && c.recvSteps.all (c.gotStep t) && c.sendSteps.all (fun k => t.sent.contains k)

/-- What an instance can send is sent, and a complete one ends. -/
def State.advance (s : State) (c : Coll) (t : Inst) : State :=
  let x := c.sendSteps.foldl (State.sendStep c) (s, t)
  if c.complete x.2 then x.1.endInst c x.2 0 else x.1.putInst c x.2

/-! ### Start (R400) -/

/-- The value of a sync object. -/
def State.objValue (s : State) (obj : Nat) : Nat :=
  (s.court (12 * bits obj 14 11 + bits obj 10 7)).rd (SYN_STATE_VALUE.syn (obj % 128))

/-- Whether the trigger of instance `n` has come; with START = 1, once for each frame's edge. -/
def State.triggered (s : State) (c : Coll) (n : Nat) : Bool :=
  let k := s.niche c.niche
  if bit c.r.flags 0 then !k.fresh && fget z0 k.planEdge c.plan != k.edgeTick + 1 && decide (k.edgeTick + c.r.startOfs ≤ s.tick)
  else wrapGe (s.objValue c.r.trig) ((n + 1) * c.r.trigStep % 2 ^ 32)

/-- Whether this device reads SRC. -/
def Coll.reads (c : Coll) : Bool := c.r.op != 6 && (c.r.op != 5 || c.x.me == c.r.root)
/-- The index of its first element in the collective. -/
def Coll.ownFirst (c : Coll) : Nat := if c.r.op = 4 then c.pos * c.r.elems else 0

/-- The contribution of this device is read and merged; none where R323 does not admit the read. -/
def State.contribute (s : State) (c : Coll) (t : Inst) : Option (Inst × State) :=
  let n := fmtBits c.r.fmt
  let len := (c.r.elems * n + 7) / 8
  if !c.reads ∨ c.r.elems = 0 then some (t, s)
  else
    let a := hbmAddr c.r.src
    if !s.hbmAdmits c.niche false a (a + len) then none
    else
      let r := s.hbmRead a len
      some ((List.range c.r.elems).foldl (fun t e =>
        c.mergeOwn t (c.ownFirst + e) (bitsAt r.1.1 n e, r.1.2.contains ((a + e * n / 8) / 64))) t, r.2)

/-- COLL_INSTANCE_START: the next instance of a plan starts on its trigger or tick (R400). -/
def execCollInstanceStart (niche plan : Nat) (s : State) : Out :=
  if 16 ≤ niche then .fault .noSuchUnit
  else .next (
    match s.coll niche plan with
    | none => s
    | some c =>
      let n := s.nextInst c
      if s.nicheState niche ≠ 3 ∨ !s.triggered c n ∨ 2 ≤ (n + 2 ^ 32 - s.oldest c) % 2 ^ 32
        ∨ fget noMark s.dieHalt (courtDie (s.relCourt niche c.r.home)) then s
      else
        let t := (s.inst c n).getD { plan := plan, seq := n }
        let now := s.tick
        let t := { t with started := true, start := now, minT := some (min now (t.minT.getD now))
                          maxFrom := if t.maxT ≤ now then c.x.me else t.maxFrom, maxT := max t.maxT now }
        let s := s.modNiche niche (fun k => { k with next := fset z0 k.next plan ((n + 1) % 2 ^ 32)
                                                     planEdge := fset z0 k.planEdge plan (k.edgeTick + 1) })
        match s.contribute c t with
        | none => s.endInst c t 2
        | some r => r.2.advance c r.1)

/-! ### Segments received (R404, R405) -/

/-- The plan of a COLL packet: that of its binding's niche. -/
def State.collOf (s : State) (p : Packet) : Option Coll := s.coll (s.rd (NCH_BIND_NICHE.by8 p.dest)) (pay p 8 2)

/-- The ACK of a segment goes back on the link that it came on. -/
def State.sendAck (s : State) (l : Nat) (c : Coll) (p : Packet) : State :=
  s.send l { mclass := 3, vl := 1, retryOk := true, nhops := 1, hidx := 1, route := [l], dest := c.r.bind, src := s.devId
             dst := p.src, payload := valBytes 0 8 ++ collHeader c.plan 1 (pay p 11 1) (pay p 12 4) (pay p 16 2) 0 c.x.me 0 1 0 0 0 }

/-- The ticks that a segment's data has met (R403). -/
def Inst.meet (t : Inst) (p : Packet) : Inst :=
  { t with minT := some (min (pay p 32 8) (t.minT.getD (pay p 32 8)))
           maxFrom := if t.maxT < pay p 40 8 then pay p 48 1 else t.maxFrom, maxT := max t.maxT (pay p 40 8)
           flags := t.flags ||| pay p 21 1 % 16 ||| 8 * b2n p.poison }

/-- A DATA segment (R404): merged once and acknowledged; one that is two or more instances ahead is dropped. -/
def State.segmentIn (l : Nat) (p : Packet) (s : State) : State :=
  match s.collOf p with
  | none => s
  | some c =>
    let seq := pay p 12 4
    let ahead := (seq + 2 ^ 32 - s.oldest c) % 2 ^ 32
    let key := (pay p 11 1, pay p 16 2)
    if 2 ^ 31 ≤ ahead then s.sendAck l c p
    else if 2 ≤ ahead then s
    else
      let t := (s.inst c seq).getD { plan := c.plan, seq := seq }
      let s := s.sendAck l c p
      if t.have'.contains key ∨ t.ended then s
      else
        let t := c.mergeSeg { t.meet p with have' := t.have' ++ [key] } key.1 (pay p 24 8) (pay p 18 2) (p.payload.drop 64) p.info
        s.advance c t

/-- COLL packets of an STYPE. -/
def isColl (st : Nat) (p : Packet) : Bool := p.mclass == 3 && stype p == st

/-- COLL_SEGMENT (R404). -/
def execCollSegment (link : Nat) (s : State) : Out := s.onLink link (fun s => s.takeIn link (isColl 0) (State.segmentIn link))

/-- An ACK releases the segments that it names. -/
def State.ackIn (p : Packet) (s : State) : State :=
  match s.collOf p with
  | none => s
  | some c => match s.inst c (pay p 12 4) with
    | none => s
    | some t =>
      let base := pay p 16 2
      let map := pay p 24 8
      s.putInst c { t with unacked := t.unacked.filter (fun u =>
        !(u.step == pay p 11 1 && decide (base ≤ u.idx ∧ u.idx < base + 64) && bit map (u.idx - base))) }

/-- COLL_ACK (R404). -/
def execCollAck (link : Nat) (s : State) : Out := s.onLink link (fun s => s.takeIn link (isColl 1) State.ackIn)

/-- A LOST segment leaves on both routes, and the instance ends as lost. -/
def State.loseInst (s : State) (c : Coll) (t : Inst) : State :=
  let p := s.collPacket c (valBytes 0 8 ++ collHeader c.plan 2 0 t.seq 0 0 c.x.me 0 0 0 0 0) []
  let s := ((s.sendOut (reroute p c.r.routeA)).sendOut (reroute p c.r.routeB)).tmbEvent 8 { niche := some c.niche }
  s.endInst c { t with unacked := [] } 1

/-- A LOST segment received: forwarded once, and the own instance ends. -/
def State.lostIn (p : Packet) (s : State) : State :=
  match s.collOf p with
  | none => s
  | some c =>
    let seq := pay p 12 4
    let t := (s.inst c seq).getD { plan := c.plan, seq := seq }
    if 2 ≤ (seq + 2 ^ 32 - s.oldest c) % 2 ^ 32 ∨ t.ended then s else s.loseInst c t

/-- COLL_LOST (R405). -/
def execCollLost (link : Nat) (s : State) : Out := s.onLink link (fun s => s.takeIn link (isColl 2) State.lostIn)

/-- A command about an instance of a plan of a niche. -/
def State.onInst (s : State) (niche plan seq : Nat) (f : Coll → Inst → State) : Out :=
  if 16 ≤ niche then .fault .noSuchUnit
  else .next (match s.coll niche plan with
    | none => s
    | some c => match s.inst c seq with
      | none => s
      | some t => f c t)

/-- COLL_RETX_EXPIRY: a segment that is still unacknowledged is replayed whole on ROUTE_B (R404). -/
def execCollRetxExpiry (niche plan seq step idx : Nat) (s : State) : Out :=
  s.onInst niche plan seq (fun c t => match t.unacked.find? (fun u => u.step == step && u.idx == idx) with
    | none => s
    | some u => (s.sendOut (reroute u.pkt c.r.routeB)).tmbEvent 9 { niche := some niche })

/-- COLL_T_EXPIRY: a segment is still unacknowledged COLL_T after its first link entered DOWN (R405). -/
def execCollTExpiry (niche plan seq : Nat) (s : State) : Out :=
  s.onInst niche plan seq (fun c t =>
    if t.unacked.isEmpty then s
    else if t.ended then s.putInst c { t with unacked := [] }
    else s.loseInst c t)

/-- INST_T_EXPIRY: a started instance has not ended (R405). -/
def execInstTExpiry (niche plan seq : Nat) (s : State) : Out :=
  s.onInst niche plan seq (fun c t => if t.started ∧ !t.ended then s.loseInst c t else s)

/-- STRAGGLER_WINDOW_END: the current window moves to PREV and restarts at zero (R406). -/
def execStragglerWindowEnd (s : State) : Out :=
  s.onTimebase (fun s =>
    let s := (((s.wr TMB_STRAG_PREV0_INSTANCES (s.rd TMB_STRAG_CUR0_INSTANCES)).wr TMB_STRAG_PREV0_LAST_CNT
      (s.rd TMB_STRAG_CUR0_LAST_CNT)).wr TMB_STRAG_PREV0_LATE_MAX (s.rd TMB_STRAG_CUR0_LATE_MAX)).wr TMB_STRAG_PREV0_SPREAD_MAX
      (s.rd TMB_STRAG_CUR0_SPREAD_MAX)
    let s := s.wr TMB_STRAG_PREV1_LATE_SUM (s.rd TMB_STRAG_CUR1_LATE_SUM)
    ((((s.wr TMB_STRAG_CUR0_INSTANCES 0).wr TMB_STRAG_CUR0_LAST_CNT 0).wr TMB_STRAG_CUR0_LATE_MAX 0).wr TMB_STRAG_CUR0_SPREAD_MAX 0).wr
      TMB_STRAG_CUR1_LATE_SUM 0)

end Sys2Proof.Machine
end

