-- ==== Sys2Proof/Machine/NicheCmd.lean ====
section
/-! DEFINITION. What the commands on niches do: creation, destruction, windows, bindings, start and stop
(spec/14_host_niches.md R417 to R430, spec/17_reset_recovery.md R498, R500). -/

namespace Sys2Proof.Machine
open Sys2Proof

/-- How a command ends: STATUS of R419, DETAIL where the spec gives it, and the machine. -/
structure CmdRes where
  st : Nat
  detail : Option Nat
  s : State

/-- A command ends with a status. -/
def State.ends (s : State) (st : Nat) : CmdRes := ⟨st, none, s⟩

/-- The operand bytes 32 to 63 of a command. -/
def sqArg (e : SqEntry) (byte n : Nat) : Nat := bytesVal (e.ops.drop (byte - 32)) n

/-! ### Reset bookkeeping (17 R491, R500) -/

/-- A reset step begins: RST_STATUS, and from cell level on RST_CAUSE. -/
def State.resetBegun (s : State) (r : ResetReq) : State :=
  let s := s.wr RST_STATUS_LAST_LEVEL r.level
  let s := match r.level with
    | 3 => s.addSat RST_STATUS_NICHE_CNT 1
    | 4 => s.addSat RST_STATUS_DIE_CNT 1
    | 5 => s.addSat RST_STATUS_PKG_CNT 1
    | _ => s
  if r.level < 2 then s
  else
    let s := { s.modCells s.crashFrozen (Cell.freezeWrite false) with crashFrozen := [] }
    let s := (((s.wr RST_CAUSE_SEQ r.seq).wr RST_CAUSE_DIE r.die).wr RST_CAUSE_CODE r.code).wr RST_CAUSE_LEVEL r.level
    ((s.wr RST_CAUSE_TRIGGER r.trigger).wr RST_CAUSE_NICHE (r.niche.getD 0)).wr RST_CAUSE_NICHE_VALID (b2n r.niche.isSome)

/-- A reset step asked for by a command. -/
def askedReset (level unit : Nat) (niche : Option Nat) : ResetReq := { level := level, unit := unit, trigger := 3, niche := niche }

/-- A niche reset, from a request that is due or asked for. -/
def State.resetNiche (s : State) (r : ResetReq) : State :=
  ((s.resetDone { r with level := 3 }).resetBegun r).nicheReset r.unit

/-! ### NICHE_CREATE (R424) -/

/-- Whether a seam bridge that did not align lies between two courts of a rectangle (18 R516). -/
def State.seamOut (s : State) (qs : List Nat) : Bool :=
  s.mgmt.seamsOut.any (fun m => qs.any (fun q => courtDie q == (seamDies m).1) && qs.any (fun q => courtDie q == (seamDies m).2))

/-- Whether the courts of a rectangle can become a niche (R424, 18 R516, R517). -/
def State.createOk (s : State) (ax ay w h : Nat) (pendant : Bool) : Bool :=
  let qs := (List.range 144).filter (fun q => decide (ax ≤ q % 12 ∧ q % 12 < ax + w ∧ ay ≤ q / 12 ∧ q / 12 < ay + h))
  decide (0 < w ∧ 0 < h ∧ ax + w ≤ 12 ∧ ay + h ≤ 12)
    && qs.all (fun q => (s.nicheAt q).isNone && !s.courtDegraded q && bit (s.rd MGT_BOOT_STATUS_DIE_OK) (courtDie q)
      && !(s.small && decide (4 ≤ q % 12 ∧ q % 12 ≤ 7 ∧ 4 ≤ q / 12 ∧ q / 12 ≤ 7)))
    && (!pendant || qs.all (fun q => courtDie q == courtDie (12 * ay + ax)))
    && !s.seamOut qs

/-- Cells and courts in the cleared state that R425 leaves. -/
def State.wipeNiche (s : State) (i : Nat) : State := (s.modCells (s.nicheCells i) Cell.wipe).modCourts (s.nicheCourts i) Court.wipe

/-- What the Atelier writes into the units of a niche: NICHE and BOUND, EDGE masks, route tables (R424). -/
def State.writeNiche (s : State) (i : Nat) : State := (s.bindNiche i).writeRoutes i

/-- The region of a court (01 R17). -/
def courtRegion (q : Nat) : Nat := 6 * (q / 24) + q % 12 / 2

/-- A region wakes: its scratchpads and plinths are cleared before any access is granted (06 R198, 09 R269). -/
def State.wake (s : State) (r : Nat) : State :=
  let cells := (s.cells.map (fun x => x.1)).filter (fun n => courtRegion (cellCourt n) == r)
  let courts := (s.courts.map (fun x => x.1)).filter (fun q => courtRegion q == r)
  { (s.modCells cells Cell.spdWake).modCourts courts Court.plnWake with regions := fset noMark s.regions r true }

/-- Every region that holds a court of a niche-to-be is powered; one that was not wakes (R424 step 1, 07 R211). -/
def State.powerRegions (s : State) (qs : List Nat) : State :=
  (qs.map courtRegion).foldl (fun s r => if fget noMark s.regions r then s else s.wake r) s

/-- NICHE_CREATE of niche `i`. -/
def State.createNiche (s : State) (i ax ay w h : Nat) (pendant : Bool) : State :=
  let s := (((s.wr (NCH_CFG_AX.niche i) ax).wr (NCH_CFG_AY.niche i) ay).wr (NCH_CFG_WIDTH.niche i) (w - 1)).wr
    (NCH_CFG_HEIGHT.niche i) (h - 1)
  let s := (((s.wr (NCH_CFG_VALID.niche i) 1).wr (NCH_CFG_PENDANT.niche i) (b2n pendant)).wr (NCH_CFG_DEFBUCKET.niche i) 0).wr
    (NCH_CFG_CELLWIN.niche i) (s.obj 0x5011 (i + 1))
  let s := ((s.powerRegions (s.nicheCourts i)).wipeNiche i).writeNiche i
  (s.dieWr 0 (SPR_NICHE_EPOCH_ACTIVE.epoch i) 0).setNiche i 1

/-- The command. -/
def cmdCreate (e : SqEntry) (i : Nat) (s : State) : CmdRes :=
  let p := bit (sqArg e 36 1) 0
  if s.createOk (sqArg e 32 1) (sqArg e 33 1) (sqArg e 34 1) (sqArg e 35 1) p then
    (s.createNiche i (sqArg e 32 1) (sqArg e 33 1) (sqArg e 34 1) (sqArg e 35 1) p).ends 0
  else s.ends 6

/-! ### Segments (R427, 11 R332, 17 R498) -/

/-- What of the segments from `b` on, `n` of them, lies outside `x`. -/
def segsMinus (r x : Nat × Nat) : List (Nat × Nat) :=
  [(r.1, min (r.1 + r.2) x.1 - r.1), (max r.1 (x.1 + x.2), r.1 + r.2 - max r.1 (x.1 + x.2))].filter (fun p => p.2 != 0)

/-- The same for several. -/
def segsWithout (rs xs : List (Nat × Nat)) : List (Nat × Nat) := xs.foldl (fun rs x => rs.flatMap (fun r => segsMinus r x)) rs

/-- What of `r` lies in `x`. -/
def segsIn (r x : Nat × Nat) : Nat × Nat := (max r.1 x.1, min (r.1 + r.2) (x.1 + x.2) - max r.1 x.1)

/-- Windows of a niche. -/
def State.windows (s : State) (i : Nat) : List (Nat × Nat) := [0, 1].filterMap (s.window i)

/-- Windows of the niches other than `i`. -/
def State.otherWindows (s : State) (i : Nat) : List (Nat × Nat) := ((List.range 16).filter (fun j => j != i)).flatMap s.windows

/-- Zero ranges of segments. -/
def State.zeroRanges (s : State) (rs : List (Nat × Nat)) : State := rs.foldl (fun s r => s.zeroSegs r.1 r.2) s

/-! ### NICHE_DESTROY (R425) -/

/-- Every binding and ring of a niche, with its egress targets, is invalid. -/
def State.dropBindings (s : State) (i : Nat) : State :=
  let s := (List.range 512).foldl (fun s b => if s.rd (NCH_BIND_NICHE.by8 b) = i then s.dropRegs (0x4000 + 8 * b) (0x4008 + 8 * b) else s) s
  (List.range 128).foldl (fun s r => if s.ringNiche r = i
    then (s.freshRing r).dropRegs (0x5000 + 16 * r) (0x5008 + 16 * r) |>.dropRegs (0x5800 + 8 * r) (0x5808 + 8 * r) else s) s

/-- Links bound to a niche are unbound. -/
def State.unbindLinks (s : State) (i : Nat) : State :=
  (List.range 96).foldl (fun s l =>
    let s := if s.lflag l LNK_CTRL_NBOUND ∧ s.lrd l LNK_CTRL_NICHE = i then (s.lwr l LNK_CTRL_NBOUND 0).lwr l LNK_CTRL_NICHE 0 else s
    if (s.link l).niche = some i then s.modLink l (fun k => { k with niche := none }) else s) s

/-- NICHE_DESTROY of niche `i`. -/
def State.destroyNiche (s : State) (i : Nat) : State :=
  let s := (((s.setNiche i 6).resetDone (askedReset 3 i (some i))).resetBegun (askedReset 3 i (some i))).nicheClear i
  let s := s.addSat (NCH_STATE_RESETS.niche i) 1
  let s := ((s.wipeNiche i).dropBindings i).unbindLinks i
  let s := s.zeroRanges (segsWithout (s.windows i) (s.otherWindows i))
  let s := s.setNiche i 0
  s.dropRegs (0x2000 + 16 * i) (0x2010 + 16 * i) |>.dropRegs (0x1000 + 16 * i) (0x1008 + 16 * i)

/-! ### BIND_VF (R418, R426) -/

/-- The command: VF number in byte 32, port in byte 33; 0 unbinds the niche's VF of that port. -/
def cmdBindVf (e : SqEntry) (i : Nat) (s : State) : CmdRes :=
  let vf := sqArg e 32 1
  let port := sqArg e 33 1
  let f := fun (a b : Fld) => (if port = 0 then a else b).niche i
  if 16 < vf ∨ 1 < port ∨ !s.portOn port then s.ends 3
  else if vf = 0 then ((s.wr (f NCH_CFG_VFA_VALID NCH_CFG_VFB_VALID) 0).wr (f NCH_CFG_VFA NCH_CFG_VFB) 0).ends 0
  else match s.boundNiche (17 * port + vf) with
    | some j => if j = i then s.ends 0 else s.ends 6
    | none => ((s.wr (f NCH_CFG_VFA_VALID NCH_CFG_VFB_VALID) 1).wr (f NCH_CFG_VFA NCH_CFG_VFB) (vf - 1)).ends 0

/-! ### SET_WINDOW (R427, 17 R498) -/

/-- Whether a window overlaps a window of another niche that is not READONLY, or is itself not READONLY and overlaps one. -/
def State.windowClash (s : State) (i b n : Nat) (ro : Bool) : Bool :=
  ((List.range 16).filter (fun j => j != i)).any (fun j => [0, 1].any (fun w => match s.window j w with
    | some x => decide (0 < (segsIn (b, n) x).2)
        && !(ro && s.flag ((if w = 0 then HBM_NWIN0_READONLY else HBM_NWIN1_READONLY).niche j))
    | none => false))

/-- A window register takes a value. -/
def State.putWindow (s : State) (i w v : Nat) : State :=
  let f := fun (a b : Fld) => (if w = 0 then a else b).niche i
  (((s.wr (f HBM_NWIN0_VALID HBM_NWIN1_VALID) (bits v 63 63)).wr (f HBM_NWIN0_READONLY HBM_NWIN1_READONLY) (bits v 62 62)).wr
    (f HBM_NWIN0_SIZE_SEG HBM_NWIN1_SIZE_SEG) (bits v 53 32)).wr (f HBM_NWIN0_BASE_SEG HBM_NWIN1_BASE_SEG) (bits v 21 0)

/-- A window moves: dirty segments of the new one are zeroed, segments that leave every window become dirty. -/
def State.moveWindow (s : State) (i w v : Nat) : State :=
  let old := (s.window i w).toList
  let s := s.putWindow i w v
  let now := (s.window i w).toList
  let zero := now.flatMap (fun x => (s.dirty.map (fun d => segsIn d x)).filter (fun d => d.2 != 0))
  let s := s.zeroRanges zero
  { s with dirty := segsWithout s.dirty now ++ segsWithout old (s.windows i ++ s.otherWindows i) }

/-- The command. -/
def cmdSetWindow (e : SqEntry) (i : Nat) (s : State) : CmdRes :=
  let w := sqArg e 32 1
  let v := sqArg e 40 8
  if 1 < w then s.ends 3
  else if bit v 63 ∧ (s.hbmAlloc < 65536 * (bits v 21 0 + bits v 53 32)
      ∨ s.mgmt.badSegs.any (fun g => decide (bits v 21 0 ≤ g ∧ g < bits v 21 0 + bits v 53 32)) ∨ s.windowClash i (bits v 21 0) (bits v 53 32) (bit v 62)) then s.ends 6
  else (s.moveWindow i w v).ends 0

/-! ### BIND (R428) -/

/-- The fields of a register of the package block take a word's bits. -/
def State.putReg (s : State) (off v : Nat) : State :=
  (Machine.pkgRegs.filter (fun r => r.at off)).foldl (fun s r => r.fields.foldl (fun s f =>
    s.wr ⟨off, f.lsb, f.width⟩ (v >>> f.lsb)) s) s

/-- A ring entry as BIND gives it: court, first and one past the last plinth byte, slots. -/
structure RingWord where
  on : Bool
  egress : Bool
  court : Nat
  lo : Nat
  hi : Nat
  slots : Nat

/-- The fields of a ring's register. -/
def ringWord (v : Nat) : RingWord :=
  let n := bits v 47 40 + 1
  let lo := 256 * bits v 21 8
  ⟨bit v 63, bit v 62, 12 * bits v 55 52 + bits v 51 48, lo, lo + 256 * n, n⟩

/-- Whether a ring overlaps another ring or the staging area. -/
def State.ringClash (s : State) (r : Nat) (x : RingWord) : Bool :=
  decide (0x3FE000 < x.hi) || (List.range 128).any (fun j => j != r && s.flag (NCH_RING_ENABLE.by16 j) && s.ringCourt j == x.court
    && decide (x.lo < s.slotAddr j (s.ringSlots j) ∧ s.slotAddr j 0 < x.hi))

/-- Whether an entry of the niche tables belongs to another niche. -/
def State.foreign (s : State) (i : Nat) (used niche : Fld) : Bool := s.flag used && s.rd niche != i

/-- The checks of R428 on a ring. -/
def State.ringRefused (s : State) (i r v : Nat) : Bool :=
  let x := ringWord v
  s.foreign i (NCH_RING_ENABLE.by16 r) (NCH_RING_NICHE.by16 r)
    || (x.on && (!s.nicheHas i x.court || (!x.egress && decide (x.slots < 65)) || s.ringClash r x))

/-- The checks of R428 on a binding. -/
def State.bindRefused (s : State) (i b v : Nat) : Bool :=
  let r := bits v 6 0
  s.foreign i (NCH_BIND_VALID.by8 b) (NCH_BIND_NICHE.by8 b)
    || (bit v 63 && (decide (bits v 62 60 = 0 ∨ 4 < bits v 62 60)
      || (bits v 62 60 == 1 && (!s.flag (NCH_RING_ENABLE.by16 r) || s.rd (NCH_RING_DIR.by16 r) == 1 || s.ringNiche r != i))))

/-- The command on entry `kind` (0 NCH_BIND, 1 NCH_RING, 2 NCH_EGR), at `index`, with the value of its register: STATUS. -/
def State.bindStatus (s : State) (i kind index v : Nat) : Nat :=
  match kind with
  | 0 => if 512 ≤ index then 3 else if s.bindRefused i index v then 6 else 0
  | 1 => if 128 ≤ index then 3 else if s.ringRefused i index v then 6 else 0
  | 2 =>
    if 128 ≤ index ∨ 96 ≤ bits v 54 48 ∨ 16 < bits v 8 4 then 3
    else if s.foreign i (NCH_RING_ENABLE.by16 index) (NCH_RING_NICHE.by16 index) then 6 else 0
  | _ => 3

/-- The entry is written, with NICHE. -/
def State.bindPut (s : State) (i kind index v : Nat) : State :=
  let named := v - bits v 59 56 * 2 ^ 56 + i * 2 ^ 56
  match kind with
  | 0 => s.putReg (0x4000 + 8 * index) named
  | 1 => (s.freshRing index).putReg (0x5000 + 16 * index) named
  | _ => s.putReg (0x5800 + 8 * index) v

/-- BIND of a link: LNK_CTRL, only while the link is DISABLED, DOWN or QUARANTINED. -/
def State.bindLink (s : State) (i l v : Nat) : CmdRes :=
  if 96 ≤ l ∨ s.linkFused l then s.ends 3
  else if !([0, 8, 9].contains (s.lstate l)) then s.ends 5
  else if s.lflag l LNK_CTRL_NBOUND ∧ s.lrd l LNK_CTRL_NICHE ≠ i then s.ends 6
  else
    let put := fun (s : State) (f : Fld) => s.lwr l f (v >>> f.lsb)
    let s := [LNK_CTRL_NBOUND, LNK_CTRL_TRANSIT, LNK_CTRL_EDGE, LNK_CTRL_X1_ALLOW, LNK_CTRL_RATE_CAP, LNK_CTRL_FORCE_RS
              , LNK_CTRL_AUTO_RESTART].foldl put (s.lwr l LNK_CTRL_NICHE i)
    let s := s.writeEnable l (bit v 0)
    (if bit v 1 then s.retrain l else s).ends 0

/-- The command: byte 32 the kind (3 a link's LNK_CTRL), bytes 34 and 35 the index, bytes 40 to 47 the register. -/
def cmdBind (e : SqEntry) (i : Nat) (s : State) : CmdRes :=
  let k := sqArg e 32 1
  let x := sqArg e 34 2
  let v := sqArg e 40 8
  if k = 3 then s.bindLink i x v
  else
    let st := s.bindStatus i k x v
    if st = 0 then (s.bindPut i k x v).ends 0 else s.ends st

/-! ### START and STOP (R418) -/

/-- START: MODE and START_TICK; a mode that the generator refuses is out of range; no niche starts frames under THERM_LIMIT
(19 R539) or REPLACE (16 R483). -/
def cmdStart (e : SqEntry) (i : Nat) (s : State) : CmdRes :=
  let m := sqArg e 32 1
  if m = 0 ∨ 3 < m then s.ends 3
  else if s.mgmt.thermLimit ∨ s.flag RES_PKG_STATUS_REPLACE then s.ends 5
  else
    let s := (s.writeFrame i TMB_NSTART_START_TICK (sqArg e 40 8)).writeMode i m
    if s.frameMode i = m then ((s.modNiche i (fun n => { n with fresh := true })).setNiche i 3).ends 0 else s.ends 3

/-- STOP: MODE becomes OFF and no further frame starts. -/
def cmdStop (i : Nat) (s : State) : CmdRes := ((s.writeMode i 0).setNiche i 2).ends 0

/-! ### INGRESS_POST (R418, R431) -/

/-- INGRESS_POST: the host's bytes as one entry for the ring of the binding in bytes 32 and 33. -/
def cmdIngress (e : SqEntry) (i : Nat) (bs : Option (List (BitVec 8))) (s : State) : CmdRes :=
  let b := sqArg e 32 2
  if 224 < e.length ∨ 512 ≤ b then s.ends 3
  else if !s.flag (NCH_BIND_VALID.by8 b) || s.rd (NCH_BIND_NICHE.by8 b) != i || s.rd (NCH_BIND_TYPE.by8 b) != 1 then s.ends 6
  else match bs with
    | some bs => (s.ingress (s.bindRing b) 0 bs false).ends 0
    | none => s.ends 7

end Sys2Proof.Machine
end

