-- ==== Sys2Proof/Machine/Loader.lean ====
section
/-! DEFINITION. The load of a cast: its checks in the order of the spec, the relocation of its images, and its writes
(spec/10_casts_mapping.md R292 to R317, spec/13_pod_time_collectives.md R393, R397, R401, R402,
spec/14_host_niches.md R419, R430). -/

namespace Sys2Proof.Machine
open Sys2Proof

/-! ### Steps 1 to 4 -/

/-- The first failing check of a list: its DETAIL. -/
def firstBad : List (Bool × Nat) → Option Nat
  | [] => none
  | (bad, code) :: t => if bad then some code else firstBad t

/-- NICHE_W. -/
def castW (c : CastFile) : Nat := c.h 0x1A 1
/-- NICHE_H. -/
def castH (c : CastFile) : Nat := c.h 0x1B 1
/-- TEST_PCT. -/
def castPct (c : CastFile) : Nat := c.h 0x25 1
/-- TEST_PERIOD. -/
def castPeriod (c : CastFile) : Nat := c.h 0x26 2

/-- A section that does not follow the section table, does not start at a multiple of 64 bytes, or does not end in the cast (R292). -/
def placeBad (c : CastFile) : Bool :=
  c.sections.any (fun x => x.offset % 64 != 0 || decide (x.offset < 128 + 32 * c.sections.length ∨ c.raw.length < x.offset + x.length))

/-- A header that breaks R292: magic, check, lengths, or a field outside its range (R317, step 1). A section in a wrong place is refused
with it (log 140). -/
def headerBad (c : CastFile) : Bool :=
  c.h 0 4 != 0x54534143 || c.header.length != 128 || crc32c (c.header.take 124) != c.h 0x7C 4 || c.h 8 4 != 128
    || c.h 0x10 8 != c.raw.length || decide (c.raw.length < 128 + 32 * c.h 0xC 4) || placeBad c
    || !decide (1 ≤ c.h 0xC 4 ∧ c.h 0xC 4 ≤ 256 ∧ 1 ≤ castW c ∧ castW c ≤ 12 ∧ 1 ≤ castH c ∧ castH c ≤ 12
        ∧ c.h 0x1D 1 ≤ 11 ∧ c.h 0x1E 1 ≤ 11 ∧ 256 ≤ c.frameLen ∧ c.frameLen ≤ 2 ^ 24
        ∧ 1 ≤ c.bucketCount ∧ c.bucketCount ≤ 8 ∧ castPct c ≤ 25 ∧ 1 ≤ castPeriod c)

/-- The section types that a cast must hold (R294). -/
def neededTypes (c : CastFile) : List Nat :=
  [1, 2, 3, 4, 5, 0xD] ++ (if 1 < c.bucketCount then [0xB] else []) ++ (if 0 < castPct c then [0xC] else [])
    ++ (if c.flagBit 3 then [0xE] else []) ++ (if c.eventFrames then [0xF] else []) ++ (if c.maquette then [0x10] else [])

/-- The section table breaks R294 or R295. -/
def sectionsBad (c : CastFile) : Bool :=
  c.sections.any (fun x => bit x.sflags 0 && !decide (1 ≤ x.type ∧ x.type ≤ 0x11))
    || (neededTypes c).any (fun t => !c.sections.any (fun x => x.type == t))
    || !decide ((c.sections.map (fun x => x.type)).Nodup)

/-- A section whose bytes do not give its CRC (R293). -/
def crcBad (c : CastFile) : Bool := c.sections.any (fun x => crc32c ((c.raw.drop x.offset).take x.length) != x.crc)

/-- A record of a route schedule uses its cell's own sources or sinks (R209). -/
def localRoute (v : Nat) : Bool := reLsrc v != 0 || reDsrc v != 0 || reWsrc v != 0

/-- Places of cells that the cast gives code, a scratchpad image, a slab role, or a local source or sink (R297). -/
def usedPlaces (c : CastFile) : List Rel :=
  c.istore.map (·.at') ++ c.scratch.map (·.at') ++ c.mqWords.map (·.at')
    ++ (c.cellreg.filter (fun r => r.off == 0x840 && r.v.getLsbD 63)).map (·.at')
    ++ ((c.rsched ++ c.mqSched).filter (fun r => localRoute r.v.toNat)).map (·.at')

/-- Whether a place of a niche lies in the fused area of the part. -/
def State.relFused (s : State) (i : Nat) (r : Rel) : Bool :=
  s.small && inFused (8 * s.rd (NCH_CFG_AX.niche i) + r.x) (8 * s.rd (NCH_CFG_AY.niche i) + r.y)

/-- The condition of R296 on one axis: anchor, size, the parity bit, SEAM. -/
def seamOk (a n par seam : Nat) : Bool :=
  a % 2 == par && (if seam = 0 then !decide (a < 6 ∧ 6 < a + n) else a + seam == 6)

/-- Whether an anchor suits a cast (R296). -/
def anchorOk (c : CastFile) (ax ay w h : Nat) : Bool :=
  seamOk ax w (c.h 0x1C 1 % 2) (c.h 0x1D 1) && seamOk ay h (c.h 0x1C 1 / 2 % 2) (c.h 0x1E 1)

/-- Steps 1 to 4 of R317. -/
def State.castFirst (s : State) (i : Nat) (c : CastFile) : Option Nat :=
  let w := s.rd (NCH_CFG_WIDTH.niche i) + 1
  let h := s.rd (NCH_CFG_HEIGHT.niche i) + 1
  firstBad [(headerBad c, 1), (c.h 4 2 != 1 && c.h 4 2 != 2, 2), (sectionsBad c, 3), (crcBad c, 4)
            , (!bit (c.h 0x18 1) (if s.small then 1 else if s.lite then 2 else 0), 5), (decide (s.stepping < c.h 0x19 1), 6)
            , (!bit c.profiles (s.rd PWR_STATUS_PROFILE), 7), ((usedPlaces c).any (s.relFused i), 8)
            , (castW c != w || castH c != h, 9)
            , (!anchorOk c (s.rd (NCH_CFG_AX.niche i)) (s.rd (NCH_CFG_AY.niche i)) w h, 10)]

/-! ### Step 5: geometry and windows (R299, R219, R311) -/

/-- A record of CELL_SLAB_CFG as its word gives it. -/
structure SlabWord where
  role : Nat
  px : Nat
  py : Nat
  w : Nat
  h : Nat
  kseg : Nat
  ckcol : Bool
  ckrow : Bool
  id : Nat

/-- The fields of CELL_SLAB_CFG. -/
def slabWord (v : Nat) : SlabWord :=
  ⟨bits v 62 61, bits v 59 54, bits v 53 48, bits v 47 42 + 1, bits v 41 36 + 1, bits v 35 30 + 1, bit v 29, bit v 28, bits v 27 16⟩

/-- The role of a position of a slab (R135). -/
def roleAt (s : SlabWord) (x y : Nat) : Nat := slabRole ⟨s.w, s.h, s.kseg, s.ckcol, s.ckrow, []⟩ x y

/-- A slab record against R135 and R137: its rectangle in the niche and in one die, its position and role, and a record
that agrees in every cell of it. -/
def State.slabRecBad (s : State) (i : Nat) (c : CastFile) (r : RegRec) : Bool :=
  let a := slabWord r.v.toNat
  let tw := a.w + b2n a.ckcol
  let th := a.h + b2n a.ckrow
  let x0 := r.at'.x - a.px
  let y0 := r.at'.y - a.py
  let die := fun (x y : Nat) => courtDie (s.relCourt i ⟨x / 8, y / 8⟩)
  decide (r.at'.x < a.px ∨ r.at'.y < a.py ∨ tw ≤ a.px ∨ th ≤ a.py ∨ 48 < tw ∨ 48 < th ∨ 8 * castW c < x0 + tw ∨ 8 * castH c < y0 + th
      ∨ a.h % a.kseg ≠ 0 ∨ (1 < a.kseg ∧ (a.ckcol ∨ a.ckrow)))
    || die x0 y0 != die (x0 + tw - 1) (y0 + th - 1) || a.role != roleAt a a.px a.py
    || (slabPos a.w a.h a.ckcol a.ckrow).any (fun p => !c.cellreg.any (fun q =>
        q.off == 0x840 && q.v.getLsbD 63 && q.at' == ⟨x0 + p.1, y0 + p.2⟩
        && (let b := slabWord q.v.toNat
            b.id == a.id && b.px == p.1 && b.py == p.2 && b.w == a.w && b.h == a.h && b.kseg == a.kseg && b.ckcol == a.ckcol && b.ckrow == a.ckrow)))

/-- An OFFSET of FRAME_LEN or more in ARMREG, MAQUETTE or a bucket table line (R219, R309). -/
def offsetBad (c : CastFile) : Bool :=
  (c.armreg ++ c.mqReg).any (fun r => decide (0xC40 ≤ r.off) && (r.off - 0xC40) % 0x50 == 0 && decide (r.off < 0xD80)
      && decide (c.frameLen ≤ bits r.v.toNat 55 32))
    || (decide (1 < c.bucketCount) && c.scratch.any (fun r => decide (0x2F800 ≤ r.addr) && decide (c.frameLen ≤ bits r.line.v.toNat 407 384)))

/-- Records that name a cell or court outside the niche. -/
def outside (c : CastFile) : Bool :=
  let cell := fun (r : Rel) => !decide (r.x < 8 * castW c ∧ r.y < 8 * castH c)
  let court := fun (r : Rel) => !decide (r.x < castW c ∧ r.y < castH c)
  (c.cells.map (·.at') ++ c.istore.map (·.at') ++ c.rsched.map (·.at') ++ c.armreg.map (·.at') ++ c.cellreg.map (·.at')
      ++ c.scratch.map (·.at') ++ c.windows.map (·.at') ++ c.mqWords.map (·.at') ++ c.mqSched.map (·.at') ++ c.mqReg.map (·.at')).any cell
    || (c.plinth.map (·.at') ++ c.sync.map (·.at') ++ c.dmaq.map (·.at')).any court

/-- A plan outside R401 and R402. -/
def planBad (r : PlanRec) (parts : Nat) : Bool :=
  let red := r.op == 1 || r.op == 2 || r.op == 3
  let rop := bits r.flags 3 2
  !decide (1 ≤ r.op ∧ r.op ≤ 6) || decide (((List.range parts).filter (fun k => bit r.mask.toNat k)).length < 2)
    || (r.op == 6 && r.elems != 0)
    || (red && (match rop with
        | 0 => !([4, 5, 0xB, 0xC, 0xD, 0xF].contains r.fmt && [4, 5, 0xB, 0xC, 0xD, 0xF].contains r.ofmt)
        | 1 => !([4, 5, 0xB, 0xC, 0xD].contains r.fmt && r.fmt == r.ofmt)
        | 2 => !([4, 5, 0xB, 0xC, 0xD].contains r.fmt && r.fmt == r.ofmt)
        | _ => true))

/-- Whether ARMREG may hold a register: ARM_SCHED_CTRL, ARM_LOOP01, ARM_LOOP23 or an ARM_AG of a context (R294). -/
def armRegOk (off : Nat) : Bool := decide (0xC40 ≤ off ∧ off < 0xD80) && [0, 0x10, 0x18, 0x28, 0x30, 0x38, 0x40].contains ((off - 0xC40) % 0x50)

/-- Whether CELLREG may hold a register: CELL_SLAB_CFG, INT_PLUMB_CFG, INT_PLUMB_RANGE, the patina store, SPD_OWN, SPD_RING_CFG
(R294). -/
def cellRegOk (off : Nat) : Bool :=
  [0x840, 0x848, 0x850, 0xB00].contains off || (decide (0x900 ≤ off ∧ off < 0xA00) && off % 8 == 0)
    || (decide (0xA00 ≤ off ∧ off < 0xB00) && off % 16 == 0)

/-- A cell of the niche without its one record in CELL_TABLE, or a record of a register, context, store word or object that R294
does not give its section (log 140). -/
def State.recordsBad (s : State) (i : Nat) (c : CastFile) : Bool :=
  (List.range (64 * castW c * castH c)).any (fun j =>
      let r : Rel := ⟨j % (8 * castW c), j / (8 * castW c)⟩
      let n := (c.cells.filter (fun x => x.at' == r)).length
      decide (1 < n) || (n == 0 && !s.relFused i r))
    || c.armreg.any (fun r => !armRegOk r.off) || c.cellreg.any (fun r => !cellRegOk r.off)
    || c.mqReg.any (fun r => !armRegOk r.off || decide (r.off < 0xD30))
    || c.istore.any (fun r => decide (4 ≤ r.ctx ∨ 1024 ≤ r.index)) || c.rsched.any (fun r => decide (4 ≤ r.ctx ∨ 256 ≤ r.index))
    || c.mqWords.any (fun r => decide (1024 ≤ r.index)) || c.mqSched.any (fun r => decide (256 ≤ r.index))
    || c.sync.any (fun r => decide (128 ≤ r.k)) || c.dmaq.any (fun r => decide (16 ≤ r.k))

/-- GEOMETRY. -/
def State.castGeometry (s : State) (i : Nat) (c : CastFile) : Bool :=
  outside c || s.recordsBad i c || offsetBad c || (c.cellreg.filter (fun r => r.off == 0x840 && r.v.getLsbD 63)).any (s.slabRecBad i c)
    || (match c.xdev with | some x => x.plans.any (fun r => planBad r x.parts.length) | none => false)

/-- A test window that R311 allows. -/
def windowGood (c : CastFile) (w : TestWindow) : Bool :=
  decide (256 ≤ w.len ∧ 1 ≤ w.start ∧ w.start + w.len ≤ c.frameLen - 1 ∧ w.frame < castPeriod c)

/-- WINDOWS: TEST_PCT below the niche's floor, or a cell whose windows do not meet the total. -/
def State.castWindows (s : State) (i : Nat) (c : CastFile) : Bool :=
  let need := (castPct c * castPeriod c * c.frameLen + 99) / 100
  decide (castPct c < s.obj 0x4042 0)
    || (List.range (64 * castW c * castH c)).any (fun j =>
      let r : Rel := ⟨j % (8 * castW c), j / (8 * castW c)⟩
      !s.relFused i r && decide ((((c.windows.filter (fun w => w.at' == r && windowGood c w)).map (·.len)).foldl (fun a b => a + b) 0) < need))

/-! ### Step 5: relocation (R298, 11 R322) -/

/-- Word `k` of 32 bits of a value changed. -/
def modWord (v k : Nat) (f : Nat → Nat) : Nat :=
  let w := bits v (32 * k + 31) (32 * k)
  v - w * 2 ^ (32 * k) + f w % 2 ^ 32 * 2 ^ (32 * k)

/-- A field of a 32-bit word adjusted (R298): anchor court and first segment of WIN0. -/
def adjust (ax ay base pos kind w : Nat) : Nat :=
  let n := if kind = 1 then 14 else if kind = 2 then 15 else 22
  let f := bits w (pos + n - 1) pos
  let g := match kind with
    | 1 => mkId ((idX f + 8 * ax) % 128) ((idY f + 8 * ay) % 128)
    | 2 => f % 128 + (bits f 10 7 + ax) % 16 * 2 ^ 7 + (bits f 14 11 + ay) % 16 * 2 ^ 11
    | _ => (f + base) % 2 ^ 22
  w - f * 2 ^ pos + g * 2 ^ pos

/-- The bytes of a cast with the word that a relocation entry names changed; none where the cast has no such word. -/
def relocBytes (c : CastFile) (r : Reloc) (f : Nat → Nat) (raw : List (BitVec 8)) : Option (List (BitVec 8)) :=
  match c.sections.find? (fun x => x.type == r.type) with
  | none => none
  | some x =>
    let a := x.offset + r.off
    if r.off % 4 ≠ 0 ∨ x.length < r.off + 4 then none
    else some (raw.take a ++ valBytes (f (le raw a 4) % 2 ^ 32) 4 ++ raw.drop (a + 4))

/-- The cast with every relocation applied for an anchor and a first segment; none where R298 refuses one. -/
def relocate (ax ay base : Nat) (c : CastFile) : Option CastFile :=
  (c.reloc.foldl (fun o r => o.bind (fun raw =>
    match r.kind with
    | 1 | 2 | 4 => relocBytes c r (adjust ax ay base r.pos r.kind) raw
    | 3 => if ax = 0 ∧ ay = 0 then some raw else none
    | _ => none)) (some c.raw)).map parseCast

/-- The cast relocated for a niche. -/
def State.relocated (s : State) (i : Nat) (c : CastFile) : Option CastFile :=
  relocate (s.rd (NCH_CFG_AX.niche i)) (s.rd (NCH_CFG_AY.niche i)) (s.rd (HBM_NWIN0_BASE_SEG.niche i)) c

/-! ### Step 5: cross-device plans and pendants (13 R393, R397, R430) -/

/-- A route that this device sends on breaks R393: the first link is not UP, leads elsewhere, is not bound to the niche, or
lacks TRANSIT where the route goes on. -/
def State.routeBad (s : State) (i : Nat) (route : W64) (dev : Nat) : Bool :=
  let l := bits route.toNat 6 0
  let hops := bits route.toNat 59 56
  decide (96 ≤ l) || !s.linkUp l || (hops == 1 && s.lrd l LNK_PARTNER_ID_DEV_ID != dev) || (s.link l).niche != some i
    || (decide (1 < hops) && !(s.link l).transit)

/-- The participant after this device in a plan's ring. -/
def planNext (x : Xdev) (r : PlanRec) : Nat :=
  let ring := (List.range x.parts.length).filter (fun k => bit r.mask.toNat k)
  x.parts.getD (ring.getD ((ring.idxOf x.me + 1) % ring.length) 0) 0

/-- XDEV_TOPOLOGY: the main routes, and with a maquette of kind 0x1 the routes it uses. -/
def State.castTopology (s : State) (i : Nat) (c : CastFile) : Bool :=
  match c.xdev with
  | none => false
  | some x =>
    let both := fun (a b : W64) (d : Nat) => s.routeBad i a d || (c.maquette && c.mqKind == 1 && s.routeBad i b d)
    !decide (2 ≤ x.parts.length ∧ x.parts.length ≤ 64 ∧ x.slots.length ≤ 1024 ∧ x.plans.length ≤ 32)
      || x.slots.any (fun r => r.fromP == x.me && both r.routeA r.routeB (x.parts.getD r.toP 0))
      || x.plans.any (fun r => bit r.mask.toNat x.me && both r.routeA r.routeB (planNext x r))

/-- SLOT_BUDGET. -/
def State.castSlots (s : State) (c : CastFile) : Bool :=
  match c.xdev with | some x => x.slots.any (fun r => !s.slotOk x r) | none => false

/-- The rings of a niche in one direction (0 ingress, 1 egress). -/
def State.ringsOf (s : State) (i dir : Nat) : List Nat := (s.nicheRings i).filter (fun r => s.rd (NCH_RING_DIR.by16 r) == dir)

/-- The ring records of a cast in one direction. -/
def castRings (c : CastFile) (dir : Nat) : List BindRec :=
  c.rings.filter (fun r => r.kind == 1 && r.v.getLsbD 63 && b2n (r.v.getLsbD 62) == dir)

/-- PENDANT: the checks of R430 on member B in niche `i` with member A in niche `a`. -/
def State.castPendant (s : State) (i a : Nat) (c : CastFile) : Bool :=
  let die := fun (n : Nat) => courtDie (12 * s.rd (NCH_CFG_AY.niche n) + s.rd (NCH_CFG_AX.niche n))
  let paired := fun (n : Nat) => (List.range 8).any (fun p => s.flag (RES_PENDANT_VALID.by16 p)
    && (s.rd (RES_PENDANT_NICHE_A.by16 p) == n || s.rd (RES_PENDANT_NICHE_B.by16 p) == n))
  let slots := fun (n dir : Nat) => (s.ringsOf n dir).map (fun r => s.rd (NCH_RING_SLOTS.by16 r))
  decide (16 ≤ a) || a == i || !c.pendant || !s.flag (NCH_CFG_PENDANT.niche i) || !s.flag (NCH_CFG_PENDANT.niche a)
    || !(s.nicheState a == 2 || s.nicheState a == 3) || ((s.niche a).cast.map (fun x => x.castId)) != some c.castId
    || die i == die a || paired i || paired a
    || (castRings c 0).length != 1 || (castRings c 1).length != 1
    || (slots a 0).length != 1 || (slots a 1).length != 1
    || (castRings c 0).map (fun r => bits r.v.toNat 47 40) != slots a 0 || (castRings c 1).map (fun r => bits r.v.toNat 47 40) != slots a 1
    || (List.range 8).all (fun p => s.flag (RES_PENDANT_VALID.by16 p))

/-! ### RINGS (R294, R428) -/

/-- The ring of a niche that a ring number of its cast stands for: the niche's own ring of the same direction where the
number belongs to another niche. -/
def State.castRing (s : State) (i : Nat) (c : CastFile) (r : Nat) : Nat :=
  if s.foreign i (NCH_RING_ENABLE.by16 r) (NCH_RING_NICHE.by16 r) then
    match (c.rings.find? (fun x => x.kind == 1 && x.index == r)) with
    | some x =>
      let dir := b2n (x.v.getLsbD 62)
      ((s.ringsOf i dir)[((castRings c dir).map (·.index)).idxOf r]?).getD r
    | none => r
  else r

/-- A record of RINGS in its place: the court of a ring counts from the anchor. -/
def State.ringRec (s : State) (i : Nat) (c : CastFile) (x : BindRec) : BindRec :=
  let v := x.v.toNat
  match x.kind with
  | 1 => { x with index := s.castRing i c x.index
                  v := BitVec.ofNat 64 (v - bits v 55 48 * 2 ^ 48 + ((bits v 55 52 + s.rd (NCH_CFG_AY.niche i)) % 16 * 2 ^ 52
                    + (bits v 51 48 + s.rd (NCH_CFG_AX.niche i)) % 16 * 2 ^ 48)) }
  | 2 => { x with index := s.castRing i c x.index }
  | _ => if bits v 62 60 = 1 then { x with v := BitVec.ofNat 64 (v - v % 128 + s.castRing i c (v % 128)) } else x

/-- RINGS is applied through the checks of R428; none where one fails. A pendant's second member leaves out a binding that
belongs to the first. -/
def State.applyRings (s : State) (i : Nat) (c : CastFile) (second : Bool) : Option State :=
  c.rings.foldl (fun o x => o.bind (fun t =>
    if second && x.kind == 0 && t.foreign i (NCH_BIND_VALID.by8 x.index) (NCH_BIND_NICHE.by8 x.index) then some t
    else
      let y := s.ringRec i c x
      if t.bindStatus i y.kind y.index y.v.toNat = 0 then some (t.bindPut i y.kind y.index y.v.toNat) else none)) (some s)

/-! ### Steps 5 and 6 -/

/-- Step 5 of R317 after its statuses, with DEFBUCKET and PARTNER of the command. -/
def State.castFifth (s : State) (i : Nat) (c : CastFile) (bucket partner : Nat) : Option Nat :=
  firstBad [(s.castGeometry i c, 11), (s.castWindows i c, 12), (c.maquette && c.cells.any (fun r => bit r.used 3), 13)
            , (c.combining && (c.maquette || c.pendant), 14)
            , (c.maquette && !(c.mqKind == 2 || (c.mqKind == 1 && c.xdev.isSome)), 15)
            , (c.hbm.any (fun r => (s.spaceArea i r.addr 64 true).isNone), 16), ((s.relocated i c).isNone, 21)
            , (s.castTopology i c, 19), (s.castSlots c, 20), (decide (c.bucketCount ≤ bucket), 23)
            , (partner != 0xFF && s.castPendant i partner c, 22)]

/-- Step 6: the niche is quiescent. -/
def State.quiescent (s : State) (i : Nat) : Bool :=
  (s.nicheCells i).all (fun n => [0, 1, 2, 3].all (fun k =>
      (((s.cell n).ctx k).state == .off || ((s.cell n).ctx k).state == .halted) && (s.cell n).sched k == 0))
    && (s.nicheCourts i).all (fun q => (s.court q).rif.isEmpty && (s.court q).dma.all (fun p => p.2.isEmpty))

/-! ### Step 7 -/

/-- A register of CELLREG: SPD_OWN with its hand-overs, which the loader waits for (R189), a ring's configuration, any other register. -/
def Cell.loadReg (off v : Nat) (c : Cell) : Cell :=
  if off = 0xB00 then ((c.ownWrite 0 v (List.range 16)).clearEnd).handAll
  else if 0xA00 ≤ off ∧ off < 0xB00 ∧ off % 16 = 0 then
    let r := (off - 0xA00) / 16
    (c.ringCfgWrite r 0).ringCfgWrite r v
  else c.restoreReg off v

/-- A register of ARMREG; ENABLE is set in step 8. -/
def Cell.loadArm (off v : Nat) (c : Cell) : Cell :=
  if 0xC40 ≤ off ∧ (off - 0xC40) % 0x50 = 0 then c.restoreReg off (v - v % 2) else c.restoreReg off v

/-- An instruction word. -/
def Cell.loadWord (k i : Nat) (v : BitVec 32) (c : Cell) : Cell :=
  c.putWord (1024 * k + i) v .ok

/-- A route entry. -/
def Cell.loadRoute (k i : Nat) (v : BitVec 64) (c : Cell) : Cell := { c with routes := fset r0 c.routes (256 * k + i) v }

/-- A scratchpad line. -/
def Cell.loadLine (a : Nat) (l : LineRec) (c : Cell) : Cell :=
  (List.range 16).foldl (fun c j => c.spdWrite (a / 64 * 64 + 4 * j) (bits l.v.toNat (32 * j + 31) (32 * j)) (l.p.getLsbD j)) c

/-- The registers that CELL_TABLE gives a cell; PC starts at ENTRY. -/
def Cell.loadTable (r : CellRec) (mq : Bool) (c : Cell) : Cell :=
  let c := c.wr CELL_CTRL_CTX3_ROLE (b2n (r.role3 || mq))
  [0, 1, 2, 3].foldl (fun c k =>
    let c := (c.wr (CTX_PC_ENTRY.ctx k) (r.entry.getD k 0)).wr (CTX_CONFIG_PRIO.ctx k) (r.prio.getD k 0)
    let c := c.restoreReg (0x420 + 0x100 * k) ((r.timeout.getD k 0).toNat)
    c.modCtx k (fun x => { x with pc := BitVec.ofNat 10 (r.entry.getD k 0) })) c

/-- The fields of a court register take a word's bits. -/
def Court.putReg (off v : Nat) (c : Court) : Court :=
  (courtRegs.filter (fun r => r.at off)).foldl (fun c r => r.fields.foldl (fun c f => c.wr ⟨off, f.lsb, f.width⟩ (v >>> f.lsb)) c) c

/-- The II area of a niche's courts: the registers at 0x800 to 0x9FF of each cell (R477, 11 R336). -/
def State.stageII (s : State) (i : Nat) : State :=
  (s.nicheIds i).foldl (fun s id =>
    let ls := ((s.cell (s.phys id)).section (s.env (s.phys id)) 11).drop 80
    let k := 8 * (idY id % 8) + idX id % 8
    s.modCourt (idCourt id) (fun c => ls.zipIdx.foldl (fun c l => c.plnPutLine (0x3F6000 + 512 * k + 64 * l.2) (lineVR l.1)) c)) s

/-- A record for context 3. -/
def inCtx3 {w : Nat} (r : WordRec w) : WordRec w := { r with ctx := 3 }

/-- The writes of step 7 for a relocated cast. -/
def State.castWrite (s : State) (i : Nat) (c : CastFile) : State :=
  let at' := fun (s : State) (r : Rel) (f : Cell → Cell) => s.modCell (s.phys (s.relId i r)) f
  let court := fun (s : State) (r : Rel) (f : Court → Court) => s.modCourt (s.relCourt i r) f
  let s := c.cells.foldl (fun s r => at' s r.at' (Cell.loadTable r c.maquette)) s
  let s := (c.istore ++ c.mqWords.map inCtx3).foldl (fun s r => at' s r.at' (Cell.loadWord r.ctx r.index r.v)) s
  let s := (c.rsched ++ c.mqSched.map inCtx3).foldl (fun s r => at' s r.at' (Cell.loadRoute r.ctx r.index r.v)) s
  let s := (c.armreg ++ c.mqReg).foldl (fun s r => at' s r.at' (Cell.loadArm r.off r.v.toNat)) s
  let s := c.cellreg.foldl (fun s r => at' s r.at' (Cell.loadReg r.off r.v.toNat)) s
  let s := c.scratch.foldl (fun s r => at' s r.at' (Cell.loadLine r.addr r.line)) s
  let s := c.plinth.foldl (fun s r => court s r.at' (fun c => c.plnPutLine r.addr ⟨r.line.v, r.line.p⟩)) s
  let s := c.sync.foldl (fun s r => court s r.at' (fun c => (c.putReg (0x1000 + 16 * r.k) r.cfg.toNat).putReg (0x1008 + 16 * r.k) r.st.toNat)) s
  let s := c.dmaq.foldl (fun s r => court s r.at' (Court.putReg (0x3000 + 16 * r.k) r.cfg.toNat)) s
  let s := c.hbm.foldl (fun s r => match s.spaceArea i r.addr 64 true with
    | some a => s.hbmPut a ⟨r.line.v, r.line.p⟩ | none => s) s
  if c.iiArea then s.stageII i else s

/-- What a failure in step 7 leaves in a cell: contexts OFF, schedules IDLE, banks NONE. -/
def Cell.loadFailed (c : Cell) : Cell :=
  let c := [0, 1, 2, 3].foldl (fun c k => ((c.wr (CTX_CONFIG_PROG_VALID.ctx k) 0).modCtx k (fun x => { x with state := .off })).armCut k) c
  { ((c.wr SPD_OWN_STATE 0).wr SPD_STATUS_PENDING 0).wr SPD_STATUS_CLEARING 0 with
    ownOld := [], ownDue := [], clears := [] }

/-! ### Step 8 and the command -/

/-- ENABLE for every schedule in ARMREG. -/
def State.enableArms (s : State) (i : Nat) (c : CastFile) : State :=
  c.armreg.foldl (fun s r => if 0xC40 ≤ r.off ∧ (r.off - 0xC40) % 0x50 = 0
    then s.modCell (s.phys (s.relId i r.at')) (fun x =>
      if (x.rd (ARM_SCHED_CTRL_MODE.arm ((r.off - 0xC40) / 0x50)) < 3) then x.armEnable ((r.off - 0xC40) / 0x50) true else x)
    else s) s

/-- Step 8: PROG_VALID for every context in use, ENABLE for every schedule in ARMREG. -/
def State.castStart (s : State) (i : Nat) (c : CastFile) : State :=
  let at' := fun (s : State) (r : Rel) (f : Cell → Cell) => s.modCell (s.phys (s.relId i r)) f
  let s := c.cells.foldl (fun s r => at' s r.at' (fun x =>
    [0, 1, 2, 3].foldl (fun x k => if bit r.used k || (k == 3 && c.maquette) then x.progValid k true else x) x)) s
  s.enableArms i c

/-- The pendant pair of a second member (R430). -/
def State.pairUp (s : State) (i a : Nat) : State :=
  match (List.range 8).find? (fun p => !s.flag (RES_PENDANT_VALID.by16 p)) with
  | none => s
  | some p =>
    let ring := fun (n dir : Nat) => (s.ringsOf n dir).headD 0
    let s := ((s.wr (RES_PENDANT_NICHE_A.by16 p) a).wr (RES_PENDANT_ING_A.by16 p) (ring a 0)).wr (RES_PENDANT_EGR_A.by16 p) (ring a 1)
    let s := ((s.wr (RES_PENDANT_NICHE_B.by16 p) i).wr (RES_PENDANT_ING_B.by16 p) (ring i 0)).wr (RES_PENDANT_EGR_B.by16 p) (ring i 1)
    { s.wr (RES_PENDANT_VALID.by16 p) 1 with pends := ferase s.pends p }

/-- A successful load of a cast whose relocated form is `d`. -/
def State.castLoaded (s : State) (i : Nat) (c d : CastFile) (bucket partner : Nat) : State :=
  let s := (s.castWrite i d).castStart i d
  let s := (s.wr (NCH_CFG_DEFBUCKET.niche i) bucket).writeFrame i TMB_NFRAME_FRAME_LEN (c.frameLen - 1)
  let s := (s.setObj 0x4040 (i + 1) (b2n c.eventFrames)).modNiche i (fun _ => { cast := some d })
  let s := if partner = 0xFF then s else s.pairUp i partner
  s.setNiche i 2

/-- LOAD_CAST of R418: `fault` says that a write of step 7 fails. -/
def cmdLoad (e : SqEntry) (i : Nat) (raw : List (BitVec 8)) (fault : Bool) (s : State) : CmdRes :=
  let c := parseCast raw
  let bucket := sqArg e 32 1
  let partner := sqArg e 33 1
  let bad := fun (code : Nat) => CmdRes.mk 8 (some code) s
  if !e.hostOk then s.ends 7
  else if partner ≠ 0xFF ∧ e.fn % 17 ≠ 0 then s.ends 2
  else match s.castFirst i c with
    | some k => bad k
    | none => match s.castFifth i c bucket partner with
      | some k => bad k
      | none => match s.relocated i c, s.applyRings i c (partner != 0xFF) with
        | none, _ => bad 21
        | _, none => s.ends 6
        | some d, some t =>
          if !s.quiescent i then bad 17
          else if fault then
            let s := ((s.unpair i).modCells (s.nicheCells i) Cell.loadFailed).modNiche i (fun _ => {})
            ⟨8, some 18, s.setNiche i 5⟩
          else ((t.unpair i).castLoaded i c d bucket partner).ends 0

end Sys2Proof.Machine
end

