-- ==== Sys2Proof/Machine/HostQueue.lean ====
section
/-! DEFINITION. Host queues: doorbells, submission entries and their completion, the commands of a queue, and the resets of
functions (spec/14_host_niches.md R411, R416 to R422, R431, R433). -/

namespace Sys2Proof.Machine
open Sys2Proof

/-! ### Queues -/

/-- A queue pair beside its registers. -/
def State.hostQ (s : State) (fn q : Nat) : HostQ := fget hostq0 s.hostQs (8 * fn + q)
/-- Change it. -/
def State.modHostQ (s : State) (fn q : Nat) (f : HostQ → HostQ) : State := { s with hostQs := fset hostq0 s.hostQs (8 * fn + q) (f (s.hostQ fn q)) }
/-- A field of a queue's register in a function's page. -/
def qf (f : Fld) (fn q : Nat) : Fld := (f.by8 q).page fn
/-- Entries of a queue. -/
def State.qSize (s : State) (f : Fld) (fn q : Nat) : Nat := queueSize (s.rd (qf f fn q))
/-- Vector 0 of a function. -/
def State.fnVector (s : State) (fn v : Nat) : State := s.vector (fn / 17) (fn % 17) v
/-- ERR in a queue's register, with vector 0. -/
def State.qErr (s : State) (f : Fld) (fn q : Nat) : State := (s.wr (qf f fn q) 1).fnVector fn 0

/-- SQ_TAIL_DOORBELL (R422). -/
def execSqTailDoorbell (fn q v : Nat) (s : State) : Out :=
  if 34 ≤ fn ∨ 8 ≤ q then .fault .noSuchUnit
  else
    let n := s.qSize HST_SQB_SIZE fn q
    let h := s.hostQ fn q
    .next (if s.rd (qf HST_SQB_ENABLE fn q) = 0 ∨ n ≤ v then s.qErr HST_SQB_ERR fn q
      else if h.sqStop then s
      else
        let d := (v + n - h.sqTail % n) % n
        if n < h.sqTail - h.sqHead + d then (s.qErr HST_SQB_ERR fn q).modHostQ fn q (fun h => { h with sqStop := true })
        else s.modHostQ fn q (fun h => { h with sqTail := h.sqTail + d }))

/-- CQ_HEAD_DOORBELL (R422). -/
def execCqHeadDoorbell (fn q v : Nat) (s : State) : Out :=
  if 34 ≤ fn ∨ 8 ≤ q then .fault .noSuchUnit
  else
    let n := s.qSize HST_CQB_SIZE fn q
    let h := s.hostQ fn q
    .next (if s.rd (qf HST_CQB_ENABLE fn q) = 0 ∨ n ≤ v then s.qErr HST_CQB_ERR fn q
      else if h.cqStop then s
      else
        let d := (v + n - h.cqHead % n) % n
        if h.cqTail < h.cqHead + d then (s.qErr HST_CQB_ERR fn q).modHostQ fn q (fun h => { h with cqStop := true })
        else s.modHostQ fn q (fun h => { h with cqHead := h.cqHead + d }))

/-- Full egress slots whose host ring has room again leave (R431). -/
def State.retryRings (s : State) (fn r : Nat) : State :=
  (List.range 128).foldl (fun s g =>
    if s.flag (NCH_RING_ENABLE.by16 g) ∧ s.rd (NCH_RING_DIR.by16 g) = 1 ∧ s.rd (NCH_EGR_TARGET.by8 g) = 1
      ∧ 17 * s.rd (NCH_EGR_PORT.by8 g) + s.rd (NCH_EGR_FUNC.by8 g) = fn ∧ s.rd (NCH_EGR_HRING.by8 g) = r
    then (s.ring g).full.foldl (fun s k => s.rimRead g k) s else s) s

/-- EGR_HEAD_DOORBELL (R422). -/
def execEgrHeadDoorbell (fn r v : Nat) (s : State) : Out :=
  if 34 ≤ fn ∨ 16 ≤ r then .fault .noSuchUnit
  else
    let n := s.qSize HST_ERB_SIZE fn r
    let g := fget hostring0 s.hostRings (fn * 16 + r)
    .next (if s.rd (qf HST_ERB_ENABLE fn r) = 0 ∨ n ≤ v then s.qErr HST_ERB_ERR fn r
      else
        let h := min g.tail (g.head + (v + n - g.head % n) % n)
        State.retryRings { s with hostRings := fset hostring0 s.hostRings (fn * 16 + r) { g with head := h } } fn r)

/-! ### Copies between host memory and HBM (R418) -/

/-- The host data of a command, none where a host read timed out or returned an error. -/
def hostData (e : SqEntry) : Option (List (BitVec 8)) :=
  if e.hostOk ∧ e.length ≤ e.data.length then some (e.data.take e.length) else none

/-- The device area of a copy: the niche's window space for a virtual function, the allocatable range for a physical one. -/
def State.copyArea (s : State) (e : SqEntry) (i : Nat) (write : Bool) : Option Nat :=
  if e.host % 64 ≠ 0 ∨ e.offset % 64 ≠ 0 then none
  else if e.fn % 17 = 0 then (if e.offset + e.length ≤ s.hbmAlloc then some e.offset else none)
  else s.spaceArea i e.offset e.length write

/-- WRITE_HBM: where the host's reads fail, the lines written before are any number of them. -/
def cmdWriteHbm (e : SqEntry) (i : Nat) (s : State) : CmdRes :=
  match s.copyArea e i true with
  | none => s.ends 3
  | some a => match hostData e with
    | some bs => (s.hbmWrite a bs false).ends 0
    | none =>
      let n := 64 * (Config.freeValue s.free % (min e.length e.data.length / 64 + 1))
      (State.hbmWrite { s with free := s.free + 1 } a (e.data.take n) false).ends 7

/-- READ_HBM: poisoned lines travel with EP. -/
def cmdReadHbm (e : SqEntry) (i : Nat) (s : State) : CmdRes :=
  match s.copyArea e i false with
  | none => s.ends 3
  | some a =>
    let r := s.hbmRead a e.length
    let t := r.2.hostWrite e.host r.1.1
    let marks := (List.range ((e.length + 63) / 64)).foldl (fun m l => fset noMark m (e.host / 64 + l) (r.1.2.contains (a / 64 + l))) t.hostEp
    State.ends { t with hostEp := marks } (if r.1.2.isEmpty then 0 else 4)

/-! ### The commands (R418, R419) -/

/-- The states of R423 that a command admits. -/
def admitted : Nat → List Nat
  | 0x01 | 0x02 | 0x06 => [1, 2, 3, 5]
  | 0x03 | 0x11 | 0x13 => [1, 2, 5]
  | 0x04 => [2]
  | 0x05 | 0x07 => [3]
  | 0x10 => [0]
  | _ => [1, 2, 3, 5]

/-- The niche that a command acts on. -/
def State.cmdNiche (s : State) (e : SqEntry) : Option Nat := if e.fn % 17 = 0 then some e.niche else s.boundNiche e.fn

/-- The effect of an admitted command on niche `i`. -/
def cmdBody (op : Nat) (e : SqEntry) (i : Nat) (cast : Option (List (BitVec 8))) (fault : Bool) (s : State) : CmdRes :=
  match op with
  | 0x01 => cmdWriteHbm e i s
  | 0x02 => cmdReadHbm e i s
  | 0x03 => (match cast with | some c => cmdLoad e i c fault s | none => s.ends 7)
  | 0x04 => cmdStart e i s
  | 0x05 => cmdStop i s
  | 0x06 => (s.resetNiche (askedReset 3 i (some i))).ends 0
  | 0x07 => cmdIngress e i (hostData e) s
  | 0x10 => cmdCreate e i s
  | 0x11 => (s.destroyNiche i).ends 0
  | 0x12 => cmdBindVf e i s
  | 0x13 => cmdSetWindow e i s
  | _ => cmdBind e i s

/-- A command of R418 with the checks before its own: unused bytes, permission, niche number, the niche's state. `cat` says
that the Catalogue issues it (R418, 19 R535). -/
def State.command (s : State) (cat : Bool) (op : Nat) (e : SqEntry) (cast : Option (List (BitVec 8))) (fault : Bool) : CmdRes :=
  if !e.clean then s.ends 1
  else if op = 0 then s.ends 0
  else match s.cmdNiche e with
    | none => s.ends (if 0x10 ≤ op then 2 else 5)
    | some i =>
      if 0x10 ≤ op ∧ e.fn % 17 ≠ 0 then s.ends 2
      else if 16 ≤ i then s.ends 3
      else if 0x10 ≤ op ∧ cat = false ∧ s.obj 0x5010 (i + 1) = 0 then s.ends 2
      else if !(admitted op).contains (s.nicheState i) then s.ends 5
      else cmdBody op e i cast fault s

/-! ### Completion (R417, R421) -/

/-- A completion entry of 16 bytes. -/
def cqEntry (cid q st detail sqHead : Nat) (phase : Bool) (result : Nat) : List (BitVec 8) :=
  valBytes cid 2 ++ valBytes q 1 ++ valBytes st 1 ++ valBytes detail 2 ++ valBytes (sqHead % 2 ^ 13 + 2 ^ 15 * b2n phase) 2 ++ valBytes result 8

/-- DETAIL, where the spec gives none a free value, and RESULT, a free value. -/
def CmdRes.words (r : CmdRes) : Nat × Nat :=
  (r.detail.getD (Config.freeValue r.s.free % 2 ^ 16), Config.freeValue (r.s.free + 1) % 2 ^ 64)

/-- The completion of an entry of SQ `q` goes into CQ `q`, with its vector. -/
def State.complete (fn q cid : Nat) (r : CmdRes) : State :=
  let h := r.s.hostQ fn q
  let n := r.s.qSize HST_CQB_SIZE fn q
  let w := r.words
  let bs := cqEntry cid q r.st w.1 (h.sqHead % r.s.qSize HST_SQB_SIZE fn q) (h.cqTail / n % 2 == 0) w.2
  let s := State.hostWrite { r.s with free := r.s.free + 2 } (4096 * r.s.rd (qf HST_CQB_ADDR fn q) + 16 * (h.cqTail % n)) bs
  (s.modHostQ fn q (fun h => { h with cqTail := h.cqTail + 1 })).fnVector fn (s.rd (qf HST_CQB_VECTOR fn q))

/-- An entry can be fetched and completed: the queues are in service, an entry waits and the completion has room. -/
def State.canFetch (s : State) (fn q : Nat) : Bool :=
  let h := s.hostQ fn q
  s.portOn (fn / 17) && s.flag (qf HST_SQB_ENABLE fn q) && !h.sqStop && decide (h.sqHead < h.sqTail)
    && s.flag (qf HST_CQB_ENABLE fn q) && !h.cqStop && decide (h.cqTail - h.cqHead < s.qSize HST_CQB_SIZE fn q)

/-- A command for a niche that heals waits (16 R466); NICHE_RESET ends the heal. -/
def State.cmdWaits (s : State) (op : Nat) (e : SqEntry) : Bool :=
  match s.cmdNiche e with
  | some i => op != 0x06 && decide (i < 16) && s.rd (RES_HEAL_STATUS_STEP.by8 i) != 0
  | none => false

/-- The C4 fetches a submission entry, carries it out and completes it. -/
def State.submit (op : Nat) (e : SqEntry) (cast : Option (List (BitVec 8))) (fault : Bool) (s : State) : Out :=
  if 34 ≤ e.fn ∨ 8 ≤ e.q then .fault .noSuchUnit
  else .next (if s.canFetch e.fn e.q && !s.cmdWaits op e then
      let s := s.modHostQ e.fn e.q (fun h => { h with sqHead := h.sqHead + 1 })
      State.complete e.fn e.q e.cid (s.command false op e cast fault)
    else s)

/-- CMD_NOP (R418). -/
def execCmdNop (e : SqEntry) (s : State) : Out := s.submit 0x00 e none false
/-- WRITE_HBM (R418). -/
def execWriteHbm (e : SqEntry) (s : State) : Out := s.submit 0x01 e none false
/-- READ_HBM (R418). -/
def execReadHbm (e : SqEntry) (s : State) : Out := s.submit 0x02 e none false
/-- LOAD_CAST (10 R317): `fault` says that a write of step 7 fails. -/
def execLoadCast (cast : List (BitVec 8)) (e : SqEntry) (fault : Bool) (s : State) : Out := s.submit 0x03 e (some cast) fault
/-- CMD_START (R418). -/
def execCmdStart (e : SqEntry) (s : State) : Out := s.submit 0x04 e none false
/-- CMD_STOP (R418). -/
def execCmdStop (e : SqEntry) (s : State) : Out := s.submit 0x05 e none false
/-- INGRESS_POST (R418). -/
def execIngressPost (e : SqEntry) (s : State) : Out := s.submit 0x07 e none false
/-- NICHE_CREATE (R424). -/
def execNicheCreate (e : SqEntry) (s : State) : Out := s.submit 0x10 e none false
/-- NICHE_DESTROY (R425). -/
def execNicheDestroy (e : SqEntry) (s : State) : Out := s.submit 0x11 e none false
/-- BIND_VF (R418). -/
def execBindVf (e : SqEntry) (s : State) : Out := s.submit 0x12 e none false
/-- SET_WINDOW (R427). -/
def execSetWindow (e : SqEntry) (s : State) : Out := s.submit 0x13 e none false
/-- BIND (R428). -/
def execBind (e : SqEntry) (s : State) : Out := s.submit 0x14 e none false

/-- NICHE_RESET: the host's command, or with no entry the reset that an escalation has made due (R432, 17 R491). -/
def execNicheReset (niche : Nat) (e : Option SqEntry) (s : State) : Out :=
  if 16 ≤ niche then .fault .noSuchUnit
  else match e with
    | some e => s.submit 0x06 e none false
    | none => .next (match s.resets.find? (fun r => r.level == 3 && r.unit == niche) with
      | some r => if [1, 2, 3, 5].contains (s.nicheState niche) then s.resetNiche r
        else s.resetDone r
      | none => s)

/-! ### Resets of functions (R411, R422, R433) -/

/-- A function's queues stop and its registers return to their reset values. -/
def State.fnReset (s : State) (fn : Nat) : State :=
  let lo := 0x10000 + 0x20000 * (fn / 17) + 0x1000 * (fn % 17)
  { s.dropRegs lo (lo + 0x1000) with
    hostQs := fdrop (fun k => k / 8 == fn) s.hostQs
    hostRings := fdrop (fun k => k / 16 == fn) s.hostRings
    irq := fdrop (fun k => k / 64 == fn) s.irq }

/-- FUNCTION_LEVEL_RESET of function `fn` (R433). -/
def execFunctionLevelReset (fn : Nat) (s : State) : Out := if 34 ≤ fn then .fault .noSuchUnit else .next (s.fnReset fn)

/-- PERST_ASSERT: PERST#, a hot reset or a link-down event on a port; port B's is ignored while it is off (R411). -/
def execPerstAssert (port : Nat) (s : State) : Out :=
  if 2 ≤ port then .fault .noSuchUnit
  else .next (if port = 1 ∧ s.flag MGT_STRAPS_HOSTPORT then s else (List.range 17).foldl (fun s f => s.fnReset (17 * port + f)) s)

end Sys2Proof.Machine
end

