-- ==== Sys2Proof/Machine/FaultLog.lean ====
section
/-! DEFINITION. The dies' fault logs, and where a logged fault leads (spec/15_integrity.md R438, R440, R454 to R456,
spec/17_reset_recovery.md R486, R489, R491, spec/14_host_niches.md R422). -/

namespace Sys2Proof.Machine
open Sys2Proof

/-! ### Entries (15 R455) -/

/-- The 32 bytes of an entry. -/
def flogEntry (r : FaultRec) (seq : Nat) : BitVec 256 :=
  BitVec.ofNat 256 (r.tick % 2 ^ 64 + r.code % 256 * 2 ^ 64 + r.space % 256 * 2 ^ 72
    + (r.ctx % 4 * b2n r.ctxValid + 4 * b2n r.ctxValid + 8 * b2n r.niche.isSome + 16 * (r.niche.getD 0 % 16)) * 2 ^ 80
    + r.kind % 256 * 2 ^ 88 + r.index % 2 ^ 16 * 2 ^ 96 + (if r.kind = 0 then r.unit % 2 ^ 16 else 0xFFFF) * 2 ^ 112
    + r.detail % 2 ^ 16 * 2 ^ 128 + r.addr % 2 ^ 64 * 2 ^ 160 + seq % 2 ^ 32 * 2 ^ 224)

/-- Default of log entries. -/
def flog0 : Nat → BitVec 256 := fun _ => 0

/-- A record is written into a die's log at HEAD; a full log loses its oldest entry (R456). -/
def State.logWrite (s : State) (d : Nat) (r : FaultRec) : State :=
  let h := s.dieRd d INT_FLOG_STATUS_HEAD
  let seq := fget z0 s.flogSeq d
  let s := { s with flog := fset flog0 s.flog (1024 * d + h) (flogEntry r seq), flogSeq := fset z0 s.flogSeq d ((seq + 1) % 2 ^ 32) }
  let s := if s.dieRd d INT_FLOG_STATUS_COUNT = 1024 then s.dieAdd d INT_FLOG_STATUS_OVERWRITTEN 1
    else s.dieWr d INT_FLOG_STATUS_COUNT (s.dieRd d INT_FLOG_STATUS_COUNT + 1)
  let s := s.dieWr d INT_FLOG_STATUS_HEAD ((h + 1) % 1024)
  match r.niche with | some i => s.nicheVector i | none => s

/-! ### Escalation (17 R489, R491) -/

/-- The step after a reset step, with the same cause. -/
def State.nextStep (s : State) (r : ResetReq) (trigger : Nat) : ResetReq :=
  match r.level with
  | 1 => { r with level := 2, unit := r.unit / 4, trigger := trigger }
  | 2 => (match s.nicheAt (cellCourt r.unit) with
    | some i => { r with level := 3, unit := i, trigger := trigger, niche := some i }
    | none => { r with level := 4, unit := cellDie r.unit, trigger := trigger })
  | 3 => { r with level := 4, unit := courtDie (s.nicheRec r.unit).index, trigger := trigger }
  | 4 => { r with level := 5, unit := 0, trigger := trigger }
  | _ => { r with level := 6, unit := 0, trigger := trigger }

/-- Codes of SPACE 0 that are poison consumptions: POISON_CONSUMED, RIF_POISON, DMA_POISON, EGRESS_POISON, SYNC_POISON
(15 R437, R438). -/
def poisonCodes : List Nat := [0x09, 0xC6, 0xD6, 0xE0, 0xE7]

/-- Whether a record is a poison consumption. -/
def FaultRec.poisonUse (r : FaultRec) : Bool :=
  (r.space == 0 && poisonCodes.contains r.code) || (r.space == 3 && r.code == 0x54)

/-- Codes that name a context and stop none: CHECKSUM_MISMATCH, whose context waits for the arbitration, and the codes
marked log only (15 R447, R454). -/
def logOnlyCodes : List Nat := [0x69, 0xE3, 0xE4, 0xE5, 0xE7, 0xE8]

/-- A context or cell reset step taken within ESC_WIN that a fault of context `k` of cell `n` follows (R491): the step with
the higher level. -/
def State.repeated (s : State) (n k : Nat) : Option ResetReq :=
  let win := s.obj 0x4041 0 * 9 / 10
  let hit := fun (l u : Nat) => (s.lastReset.filter (fun p => p.2.level == l && p.2.unit == u && decide (s.tick < p.1 + win))).getLast?
  match hit 2 n with
  | some p => some p.2
  | none => (hit 1 (4 * n + k)).map (fun p => p.2)

/-- The reset step that a logged record makes due (R491): `own` says that a cell sent the record. -/
def State.firstStep (s : State) (d seq : Nat) (own : Bool) (r : FaultRec) : Option ResetReq :=
  let base := fun (level unit trigger : Nat) => ResetReq.mk level unit trigger seq d r.code r.niche s.tick
  if r.poisonUse || (r.space == 0 && (r.code == 0xE1 || r.code == 0xE2)) then r.niche.map (fun i => base 3 i 0)
  else if r.space = 3 ∧ r.code = 0x53 then r.niche.map (fun i => base 3 i 1)
  else if r.space = 0 ∧ r.code = 0xE5 then some (if r.detail % 16 = 4 then base 5 0 4 else base 4 d 4)
  else if own ∧ r.ctxValid ∧ !logOnlyCodes.contains r.code then
    match s.repeated r.unit r.ctx with
    | some q => some (s.nextStep q 7)
    | none =>
      if r.code = 0x0B then some (base 1 (4 * r.unit + r.ctx) 1)
      else match r.niche with
        | some i => if s.obj 0x4040 (i + 1) = 1 then some (base 1 (4 * r.unit + r.ctx) 0) else none
        | none => none
  else none

/-- A record enters a die's log, and the step that it makes due is due. -/
def State.logRecord (s : State) (d : Nat) (own : Bool) (r : FaultRec) : State :=
  let seq := fget z0 s.flogSeq d
  let s := s.logWrite d r
  match s.firstStep d seq own r with | some q => s.demand q | none => s

/-- FAULT_LOG_ENTRY: the Atelier of a die receives the oldest record of a source: a physical cell (0), a court (1), or its
other units (2). -/
def execFaultLogEntry (source index : Nat) (s : State) : Out :=
  if source = 0 then
    if cellCount ≤ index then .fault .noSuchUnit
    else .next (match (s.cell index).faults with
      | [] => s
      | r :: rs => (s.modCell index (fun c => { c with faults := rs })).logRecord (cellDie index) true r)
  else if source = 1 then
    if 144 ≤ index then .fault .noSuchUnit
    else .next (match (s.court index).faults with
      | [] => s
      | r :: rs => (s.modCourt index (fun c => { c with faults := rs })).logRecord (courtDie index) false r)
  else if 4 ≤ index then .fault .noSuchUnit
  else .next (match fget nil0 s.events index with
    | [] => s
    | r :: rs => State.logRecord { s with events := fset nil0 s.events index rs } index false r)

/-! ### Watchdogs (17 R486) -/

/-- CONTEXT_WATCHDOG: the watchdog of a context expires once it has counted 2^CWD_EXP mesh cycles, and counts afresh. -/
def execContextWatchdog (x : CtxRef) (s : State) : Out :=
  s.onCtx x (fun s =>
    let lim := s.dieRd (cellDie x.cell) RST_WD_CFG_CWD_EXP
    let w := (s.cell x.cell).ctx x.ctx
    if lim ≠ 0 ∧ w.watched ∧ 2 ^ lim ≤ w.watch
    then s.modCell x.cell (fun c => (c.modCtx x.ctx (fun x => { x with watch := 0 })).raise (s.env x.cell) x.ctx 0x0B 0 0) else s)

/-- NICHE_WATCHDOG: the watchdog of a niche expires once it has counted 2^NWD_EXP mesh cycles; die 0's setting governs it. -/
def execNicheWatchdog (niche : Nat) (s : State) : Out :=
  if 16 ≤ niche then .fault .noSuchUnit
  else .next (if s.dieRd 0 RST_WD_CFG_NWD_EXP ≠ 0 ∧ s.nicheWatched niche ∧ 2 ^ s.dieRd 0 RST_WD_CFG_NWD_EXP ≤ (s.niche niche).hang
    then (s.modNiche niche (fun n => { n with hang := 0 })).logRecord 0 false { code := 0x53, space := 3, kind := 6, index := 0, niche := some niche, tick := s.tick }
    else s)

/-- The primary die (18 R507). -/
def State.primary (s : State) : Nat := if s.flag MGT_BOOT_STATUS_PRIMARY then 3 else 0

/-- Every SPDM session ends (19 R523). -/
def State.endSessions (s : State) : State := { s.wr SEC_STATUS_SESSIONS 0 with mgmt := { s.mgmt with sessions := [] } }

/-- A trial of a new image has failed: the die's Atelier restarts into its previous image (19 R549). -/
def State.trialFails (s : State) (d : Nat) : State :=
  let m := s.mgmt
  let s := State.alert { s with mgmt := { m with fwRuns := fset z0 m.fwRuns d (fget z0 m.fwSlot d), fwState := fset z0 m.fwState d 6 } }
    MGT_ALERT_FW_FAILED
  if d = s.primary then s.endSessions else s

/-- ATELIER_WATCHDOG: the Atelier of a die has not been kicked in time: a reset of the die is due, or in TRIAL the previous
image returns. -/
def execAtelierWatchdog (die : Nat) (s : State) : Out :=
  if 4 ≤ die then .fault .noSuchUnit
  else .next (if fget z0 s.mgmt.fwState die = 4 then s.trialFails die
    else s.demand { level := 4, unit := die, trigger := 1, die := die })

/-- The bound of a reset step of a level, in ticks from its decision (R489); a power cycle has none of the C4's own. -/
def State.stepBound (s : State) (level : Nat) : Option Nat :=
  match level with
  | 1 => some (16 * 15 / meshRate (s.rd PWR_STATUS_PROFILE))
  | 2 => some 4500 | 3 => some 180000 | 4 => some 9000000000 | 5 => some 27000000000
  | _ => none

/-- ESCALATION_TIMEOUT: a due step has passed its bound, and the next step takes its place (R489, R491). -/
def execEscalationTimeout (level unit : Nat) (s : State) : Out :=
  .next (match s.resets.find? (fun r => r.level == level && r.unit == unit) with
    | some r => (match s.stepBound level with
      | some b => if r.since + b < s.tick then (s.resetDone r).demand (s.nextStep r 2) else s
      | none => s)
    | none => s)

end Sys2Proof.Machine
end

