-- ==== Sys2Proof/Machine/Heal.lean ====
section
/-! DEFINITION. The Restorer at work: healing, relocation, rasp passes, confirmation tests, and the context and cell resets
that run inside a pause (spec/16_restorer.md R464 to R482, spec/17_reset_recovery.md R487 to R492). -/

namespace Sys2Proof.Machine
open Sys2Proof

/-! ### The pause (16 R464 steps 2, 5, 6) -/

/-- Step 2: the generator is held, every schedule gets STOP, every cell FREEZE and ISOLATE; rasp passes end (R480). -/
def State.pause (s : State) (i : Nat) : State :=
  let us := s.healUnits i
  let s := us.foldl (fun s n => (s.raspCut n true).breakSlab n) s
  let s := s.modCells us (fun c =>
    ([0, 1, 2, 3].foldl (fun c k => c.armStop k) c).wr CELL_CTRL_ISOLATE 1 |>.freezeWrite true)
  s.modNiche i (fun n => { n with held := true, healAt := s.cycle })

/-- Whether the pause has been reached: every cell FROZEN, every Riffler idle with no held operation. -/
def State.paused (s : State) (i : Nat) : Bool :=
  (s.healUnits i).all (fun n => (s.cell n).frozen || !s.powered n) && (s.nicheCourts i).all (fun q => (s.court q).rif.isEmpty)

/-- A MAC block whose operation is cut off (05 R173). -/
def Cell.macCut (c : Cell) : Cell :=
  if c.flag CELL_MAC_STATUS_BUSY ∨ c.flag CELL_MAC_STATUS_DRAINING then c.macEmpty.wr CELL_MAC_STATUS_INTERRUPTED 1 else c

/-- Edges of a POD generator that passed while it was held are not raised. -/
def State.skipPod (s : State) (i : Nat) : State :=
  let st := s.rd (TMB_NSTART_START_TICK.by16 i)
  if s.frameMode i = 3 ∧ s.podTick i ≤ s.tick
  then s.modNiche i (fun n => { n with count := max n.count ((s.tick - st) * 4 / s.frameTicks4 i + 1) }) else s

/-- Schedules return to their ARMREG values; those of an active maquette to its own. -/
def State.rearm (s : State) (i : Nat) : State :=
  match (s.niche i).cast with
  | none => s
  | some d =>
    let load := fun (s : State) (rs : List RegRec) =>
      rs.foldl (fun s r => s.modCell (s.phys (s.relId i r.at')) (Cell.loadArm r.off r.v.toNat)) s
    if (s.niche i).mqOn then (load s d.mqReg).modCells (s.nicheCells i) (fun c => c.armEnable 3 true)
    else (load s d.armreg).enableArms i d

/-- Steps 5 and 6: the flags are cleared, every context is reset, MAC operations end, schedules return, the ingress ring is
rewound, the generator is released. A niche without EVENT_FRAMES goes on at its next edge (R470). -/
def State.restartNiche (s : State) (i : Nat) : State :=
  let s := s.healRelease i
  let s := (s.nicheCells i).foldl (fun s n => s.modCell n (fun c =>
    ([0, 1, 2, 3].foldl (fun c k => c.resetCtx (s.env n) k) c).macCut)) s
  let ev := match (s.niche i).cast with | some d => d.eventFrames | none => false
  let trig := (s.niche i).trig
  let s := ((s.rearm i).rewind i).modNiche i (fun n =>
    { n with held := false, fresh := n.fresh || s.nicheState i == 3, trig := if ev then none else trig })
  if !ev then (if s.nicheState i = 3 then (s.skipPod i).nicheEvent i 0x04 |>.nicheVector i else s)
  else if s.frameMode i = 2 then
    match s.waitingRing i with | some r => s.startEntry i r | none => s
  else s

/-! ### Reserves (16 R474, R475) -/

/-- A RESERVE object's rectangle: AX, AY, width, height. -/
def reserveOf (v : Nat) : Option (Nat × Nat × Nat × Nat) :=
  if bit v 31 then some (bits v 3 0, bits v 7 4, bits v 11 8 + 1, bits v 15 12 + 1) else none

/-- A reserve rectangle of a niche's shape that is free and that its cast admits. -/
def State.reserve (s : State) (i : Nat) : Option (Nat × Nat) :=
  let w := s.rd (NCH_CFG_WIDTH.niche i) + 1
  let h := s.rd (NCH_CFG_HEIGHT.niche i) + 1
  ((List.range 8).findSome? (fun k => match reserveOf (s.obj 0x4044 (k + 1)) with
    | some (ax, ay, rw, rh) =>
      let casts : Bool := match (s.niche i).cast with
        | some c => anchorOk c ax ay w h && !(c.reloc.any (fun r => r.kind == 3) && !(ax == 0 && ay == 0))
        | none => true
      if rw = w ∧ rh = h ∧ s.createOk ax ay w h (s.flag (NCH_CFG_PENDANT.niche i)) ∧ casts then some (ax, ay) else none
    | none => none))

/-- Whether any reserve is usable where a court without a niche is degraded. -/
def State.anyReserve (s : State) : Bool :=
  (List.range 8).any (fun k => match reserveOf (s.obj 0x4044 (k + 1)) with
    | some (ax, ay, w, h) => s.createOk ax ay w h false
    | none => false)

/-! ### Degraded rows (16 R474) -/

/-- What the niche of a degraded court does. -/
def State.degradedNiche (s : State) (q i : Nat) : State :=
  let paired := (List.range 8).any (fun p => s.flag (RES_PENDANT_VALID.by16 p)
    && (s.rd (RES_PENDANT_NICHE_A.by16 p) == i || s.rd (RES_PENDANT_NICHE_B.by16 p) == i))
  let mq := match (s.niche i).cast with
    | some c => c.maquette && c.mqKind == 2 && s.relCourt i ⟨c.h 0x2D 1 % 16, c.h 0x2D 1 / 16⟩ == q
    | none => false
  let s := if (s.reserve i).isNone then s.replaceSoon else s
  if mq && !paired then s.decideMaquette i
  else if (s.reserve i).isSome then (s.pause i).wr (RES_HEAL_STATUS_STEP.by8 i) 7
  else s.demand { level := 3, unit := i, trigger := 0, die := courtDie q, niche := some i }

/-- A row loses a second position: its court is DEGRADED. -/
def State.degrade (s : State) (n : Nat) : State :=
  let q := cellCourt n
  let was := s.courtDegraded q
  let s := (s.remapRow n).resEvent (cellDie n) 0x05 (s.cellRec n)
  let s := if was then s
    else (s.addFlaw { kind := 7, cause := 0, die := cellDie n, applied := true, confirmed := false, loc := q, tick := s.tick
                      stored := false }).addSat RES_PKG_STATUS_DEGRADED 1
  match s.nicheAt q with
  | some i => s.degradedNiche q i
  | none => if s.anyReserve then s else s.replaceSoon

/-! ### HEAL and HEAL_SHIFT (16 R464, R466) -/

/-- A decided cell has been dealt with; its entry is applied. -/
def State.healed (s : State) (n : Nat) : State :=
  { s with decided := s.decided.filter (fun m => m != n)
           flaws := s.flaws.map (fun f => if f.kind == 1 && f.loc == n then { f with applied := true } else f) }

/-- Step 3 for one row: the failed cell and every cell east of it, from the east. -/
def State.shiftRow (s : State) (n : Nat) : State :=
  ((List.range (8 - cellCol n)).map (fun j => n - cellCol n + (7 - j))).foldl
    (fun s m => (s.modCell m (fun c => c.wr ARM_CTRL_SHIFT 1)).shiftEast m) s

/-- Steps 3 and 4 for a row. -/
def State.healRow (s : State) (n : Nat) : State := ((s.shiftRow n).remapRow n).healed n

/-- HEAL: the sequence for a decided cell begins. A spare position needs the remap alone; a row that has lost its spare is
DEGRADED; a row of no niche shifts at once; a niche pauses, or the cell joins the heal of the niche that has not shifted. -/
def State.heal (s : State) (n : Nat) : State :=
  let q := cellCourt n
  if !s.decided.contains n then s
  else if (s.logical n).isNone then (s.remapRow n).healed n
  else if s.fence q (cellRow n) ≠ 15 then (s.degrade n).healed n
  else match s.nicheAt q with
    | none => s.healRow n
    | some i =>
      let st := s.rd (RES_HEAL_STATUS_STEP.by8 i)
      if st = 7 ∨ (s.niche i).heal.any (fun m => cellCourt m == q && cellRow m == cellRow n) then s
      else
        let s := s.modNiche i (fun x => { x with heal := x.heal ++ [n] })
        (s.pause i).wr (RES_HEAL_STATUS_STEP.by8 i) 2

/-- HEAL (R464). -/
def execHeal (n : Nat) (s : State) : Out := s.onCell n (fun s => s.heal n)

/-- HEAL_SHIFT: steps 3 to 6 for a paused niche (R464). -/
def State.healShift (s : State) (i : Nat) : State :=
  if s.rd (RES_HEAL_STATUS_STEP.by8 i) ≠ 2 ∨ !s.paused i then s
  else
    let us := s.healUnits i
    let at' := (s.niche i).healAt
    let s := (s.niche i).heal.foldl (fun s n => s.healRow n) s
    let s := s.modCells us (fun c => ((c.wr ARM_CTRL_SHIFT 0).wr CELL_CTRL_ISOLATE 0).freezeWrite false)
    let s := (s.bindNiche i).modNiche i (fun n => { n with heal := [] })
    let s := (s.restartNiche i).wr (RES_HEAL_STATUS_STEP.by8 i) 0
    ((s.addSat (RES_HEAL_STATUS_HEALS.by8 i) 1).wr (RES_HEAL_STATUS_LAST_PAUSE.by8 i) (min (s.cycle - at') (2 ^ 32 - 1))).nicheEvent i 0x02

/-- HEAL_SHIFT (R464). -/
def execHealShift (niche : Nat) (s : State) : Out :=
  if 16 ≤ niche then .fault .noSuchUnit else .next (s.healShift niche)

/-! ### RELOCATE (16 R475) -/

/-- One cell's image, scratchpad and stop state in another cell. -/
def State.copyCell (s : State) (a b : Nat) : State :=
  let w := s.cell a
  s.modCell b (fun c =>
    { (w.spdRegsTo ((w.shiftFrom c).restore none s.tick 0xFFF (w.image (s.env a) 0xFFF))) with tags := w.tags, quar := w.quar, locks := w.locks })

/-- One court's plinth, sync objects and DMA queues in another court. -/
def State.copyCourt (s : State) (a b : Nat) : State :=
  let w := s.court a
  let keys := fun key => decide ((0x1000 ≤ key / 64 ∧ key / 64 < 0x1800) ∨ (0x3000 ≤ key / 64 ∧ key / 64 < 0x3100))
  s.modCourt b (fun c => { c with
    plinth := w.plinth, plnPoison := w.plnPoison, plnEcc := w.plnEcc
    regs := (w.regs.filter (fun e => keys e.1)).foldl (fun m e => fset courtRst m e.1 e.2) (fdrop keys c.regs) })

/-- A line with one 32-bit word changed. -/
def lineWord (l : VR) (k : Nat) (f : Nat → Nat) : VR := { l with v := BitVec.ofNat 512 (modWord l.v.toNat k f) }

/-- A 32-bit word of a plinth changed. -/
def Court.modPlnWord (a : Nat) (f : Nat → Nat) (c : Court) : Court :=
  { c with plinth := memWrite c.plinth a 4 (f (memRead c.plinth a 4) % 2 ^ 32) }

/-- The record of a cast that a relocation entry names, and the 32-bit word of the record's value. -/
def relocRec (d : CastFile) (r : Reloc) : Option (List (BitVec 8) × Nat) :=
  let n := recSize r.type
  if r.off % n < 8 ∨ r.off % 4 ≠ 0 then none
  else
    let b := ((sectionBytes d.raw d.sections r.type).drop (r.off / n * n)).take n
    if b.length < n then none else some (b, (r.off % n - 8) / 4)

/-- A relocation entry applied to what the niche's cells, courts and segments hold now: `d` is the cast before it. -/
def State.relocLive (s : State) (i : Nat) (d : CastFile) (r : Reloc) (f : Nat → Nat) : State :=
  match relocRec d r with
  | none => s
  | some (b, k) =>
    let p := relOf b
    let cell := fun (g : Cell → Cell) => s.modCell (s.phys (s.relId i p)) g
    let word := fun (ctx at' : Nat) (c : Cell) => { c with istore := fmod w0 c.istore (1024 * ctx + at') (fun v => BitVec.ofNat 32 (f v.toNat)) }
    let route := fun (ctx at' : Nat) (c : Cell) =>
      { c with routes := fmod r0 c.routes (256 * ctx + at') (fun v => BitVec.ofNat 64 (modWord v.toNat k f)) }
    let reg := fun (x : RegRec) => BitVec.toNat (BitVec.ofNat 64 (modWord x.v.toNat k f))
    match r.type with
    | 2 => cell (word (wordRecOf b).ctx (wordRecOf b).index)
    | 3 => cell (route (routeRecOf b).ctx (routeRecOf b).index)
    | 4 => cell (Cell.loadArm (regRecOf b).off (reg (regRecOf b)))
    | 5 => cell (Cell.loadReg (regRecOf b).off (reg (regRecOf b)))
    | 6 => cell (fun c =>
        let a := (dataRecOf false b).addr / 64 * 64 + 4 * k
        c.spdWrite a (f (memRead c.spd a 4) % 2 ^ 32) (fget noMark c.spdPoison (a / 4)))
    | 7 => s.modCourt (s.relCourt i p) (Court.modPlnWord ((dataRecOf false b).addr / 64 * 64 + 4 * k) f)
    | 8 => (match s.spaceArea i (dataRecOf true b).addr 64 true with
        | some a => s.hbmWrite (a + 4 * k) (valBytes (f (memRead s.hbm (a + 4 * k) 4) % 2 ^ 32) 4) false
        | none => s)
    | 9 => s.modCourt (s.relCourt i p) (fun c =>
        let x := syncRecOf b
        if k < 2 then c.putReg (0x1000 + 16 * x.k) (modWord x.cfg.toNat k f) else c)
    | 0x10 => (match le b 2 1 with
        | 0 => cell (word 3 (le b 4 2))
        | 1 => cell (route 3 (le b 4 2))
        | _ => cell (Cell.loadArm (le b 4 2) (modWord (le b 8 8) k f)))
    | _ => s

/-- Every relocation entry of a niche's cast applied for a move of its anchor. -/
def State.relocNiche (s : State) (i dx dy : Nat) : State :=
  match (s.niche i).cast with
  | none => s
  | some d =>
    let s := (d.reloc.filter (fun r => r.kind == 1 || r.kind == 2)).foldl (fun s r => s.relocLive i d r (adjust dx dy 0 r.pos r.kind)) s
    if d.reloc.isEmpty then s
    else s.modNiche i (fun n => { n with
      cast := some ((relocate dx dy 0 { d with reloc := d.reloc.filter (fun r => r.kind != 3) }).getD d) })

/-- The move of a paused niche to a reserve. -/
def State.moveNiche (s : State) (i ax ay : Nat) : State :=
  let ox := s.rd (NCH_CFG_AX.niche i)
  let oy := s.rd (NCH_CFG_AY.niche i)
  let cells := s.nicheCells i
  let courts := s.nicheCourts i
  let to' := fun (q : Nat) => q + 12 * ay + ax - (12 * oy + ox)
  let ids := s.nicheIds i
  let s := s.powerRegions (courts.map to')
  let s := ids.foldl (fun s id => s.copyCell (s.phys id) (s.phys (mkId (idX id + 8 * ax - 8 * ox) (idY id + 8 * ay - 8 * oy)))) s
  let s := courts.foldl (fun s q => s.copyCourt q (to' q)) s
  let s := (s.nicheRings i).foldl (fun s r => (s.wr (NCH_RING_CX.by16 r) (s.rd (NCH_RING_CX.by16 r) + ax - ox)).wr
    (NCH_RING_CY.by16 r) (s.rd (NCH_RING_CY.by16 r) + ay - oy)) s
  let s := (s.modCells cells (fun c => ((c.nicheReset (s.env 0)).wipe.wr CELL_CTRL_ISOLATE 0).freezeWrite false))
  let s := (courts.foldl State.courtNicheReset s).modCourts courts Court.wipe
  let s := ((s.wr (NCH_CFG_AX.niche i) ax).wr (NCH_CFG_AY.niche i) ay).writeNiche i
  s.relocNiche i ((16 + ax - ox) % 16) ((16 + ay - oy) % 16)

/-- RELOCATE: a niche whose relocation has begun, and that has paused, goes to a reserve and resumes (R475). -/
def execRelocate (niche : Nat) (s : State) : Out :=
  if 16 ≤ niche then .fault .noSuchUnit
  else .next (
    if s.rd (RES_HEAL_STATUS_STEP.by8 niche) ≠ 7 ∨ !s.paused niche then s
    else match s.reserve niche with
      | none => s.demand { level := 3, unit := niche, trigger := 0, niche := some niche }
      | some (ax, ay) =>
        let s := ((s.moveNiche niche ax ay).restartNiche niche).wr (RES_HEAL_STATUS_STEP.by8 niche) 0
        s.nicheEvent niche 0x07)

/-! ### Rasp passes and confirmation tests (16 R476, R481) -/

/-- RASP_PASS_START: a pass of `steps` whole steps begins in a court, within a test window of its cell. -/
def execRaspPassStart (court steps : Nat) (s : State) : Out := s.onCourt court (fun s => s.raspStart court steps)

/-- CONFIRMATION_TEST: the full test of a cell that an arbitration has fenced ends (R481). -/
def execConfirmationTest (n : Nat) (pass : Bool) (s : State) : Out :=
  if cellCount ≤ n then .fault .noSuchUnit
  else .next (
    if !s.flaws.any (fun f => f.kind == 1 && f.cause == 1 && f.loc == n && !f.confirmed) then s
    else if pass then s.unexplain n (s.cellRec n)
    else { s with flaws := s.flaws.map (fun f => if f.kind == 1 && f.loc == n then { f with confirmed := true } else f) })

/-! ### Context and cell resets (17 R487, R491, R492) -/

/-- A reset inside a pause of the cell's niche, where the niche runs frames (R492). -/
def State.insidePause (s : State) (n : Nat) (f : State → State) : State :=
  match s.nicheAt (cellCourt n) with
  | none => f s
  | some i =>
    if s.nicheState i = 3 ∧ s.frameMode i ≠ 0 ∧ (s.logical n).isSome ∧ s.rd (RES_HEAL_STATUS_STEP.by8 i) = 0
    then (f (s.pause i)).restartNiche i else f s

/-- A due step that is taken: it is noted for R491. -/
def State.stepTaken (s : State) (r : ResetReq) : State :=
  let s := (s.resetDone r).resetBegun r
  { s with lastReset := s.lastReset.filter (fun p => !(p.2.level == r.level && p.2.unit == r.unit)) ++ [(s.tick, r)] }

/-- A context reset begins: the one that an escalation has made due, or one asked for (03 R70, 08 R253, R261). -/
def State.beginReset (s : State) (n k : Nat) : State :=
  let go := fun (s : State) => s.modCell n (Cell.ctxReset (s.env n) k)
  match s.resets.find? (fun r => r.level == 1 && r.unit == 4 * n + k) with
  | some r => (s.stepTaken r).insidePause n go
  | none => go s

/-- CTX_RESET: CTX_CTRL.RESET (03 R69, R70). -/
def execCtxReset (x : CtxRef) (s : State) : Out := s.onCtxWin x (fun s => s.beginReset x.cell x.ctx)

/-- CELL_RESET: the cell reset that is due, or one asked for (R487). -/
def execCellReset (n : Nat) (s : State) : Out :=
  s.onCell n (fun s =>
    let r := (s.resets.find? (fun r => r.level == 2 && r.unit == n)).getD (askedReset 2 n (s.nicheAt (cellCourt n)))
    (s.stepTaken r).insidePause n (fun s => s.resetCell n))

end Sys2Proof.Machine
end

