-- ==== Sys2Proof/Machine/Integrity.lean ====
section
/-! DEFINITION. Checkpoints before the last, and arbitration by recomputation (spec/15_integrity.md R443 to R453). -/

namespace Sys2Proof.Machine
open Sys2Proof

/-- The operation of an origin cell and its slab, where the slab compares checksums. -/
def State.ckSlab (s : State) (n : Nat) : Option (MacOp × Slab) :=
  match (s.cell n).macOp with
  | none => none
  | some op =>
    let l := opSlab s.phys (s.cell n) n op.logical
    if (l.ckcol || l.ckrow) && (s.cell n).flag INT_PLUMB_CFG_CK_EN then some (op, l) else none

/-- The record that names an operation's issuing context. -/
def State.opRec (s : State) (n : Nat) (op : MacOp) (code detail : Nat) : FaultRec :=
  { code := code, ctx := op.ctx, ctxValid := true, pc := op.pc, detail := detail, unit := n, index := op.logical
    niche := (s.cell n).nicheOf op.ctx, tick := s.tick }

/-- A log only record of a cell. -/
def Cell.note (r : FaultRec) (c : Cell) : Cell := { c with faults := c.faults ++ [r] }

/-! ### CHECKPOINT_RESULT (R443, R447) -/

/-- An earlier checkpoint fails: all cells stop, OPEN and the history stay, the origin's context waits. -/
def State.checkpointFails (s : State) (n : Nat) (op : MacOp) (l : Slab) (fails : List (Nat × Nat × Nat)) : State :=
  let s := fails.foldl (fun s f => s.modCell (l.at f.1 f.2.1) (fun c => c.wr INT_PLUMB_STATUS_MISMATCH 1)) s
  let s := State.modCells { s with cells := stopDrain s.cells l.nums n } l.nums (fun c => (c.macIdle).dropFeeds n)
  let s := s.modCell l.verdictCell (fun c => { c with ckFails := fails })
  let d := match fails with | [] => 0 | f :: _ => slabDetail f.1 f.2.1
  s.modCell n (fun c => { (c.wr CELL_MAC_STATUS_VERDICT_WAIT 1).note (s.opRec n op 0x69 d) with
    macOp := some { op with ended := false }, arbWait := true })

/-- CHECKPOINT_RESULT: the result of an earlier checkpoint, at block `block`, of the operation that cell `n` is the origin
of, with the comparisons that failed: slab x, slab y, entry. -/
def execCheckpointResult (n block : Nat) (fails : List (Nat × Nat × Nat)) (s : State) : Out :=
  s.onCell n (fun s =>
    match s.ckSlab n with
    | none => s
    | some (op, l) =>
      if (s.cell n).arbWait || fails.any (fun f => !(l.cells.any (fun p => p.1 == f.1 && p.2.1 == f.2.1) && !l.member f.1 f.2.1)) then s
      else
        let s := s.modCells l.nums (fun c => (c.checkpoint (block + 1)).wr INT_CK_STATE_LAST_CKPT (block % 4096))
        if fails.isEmpty then s else s.checkpointFails n op l fails)

/-! ### Suspects and arbiters (R448, R449) -/

/-- The suspects of a set of failed comparisons, in order; empty where there is none. -/
def suspects (l : Slab) (fails : List (Nat × Nat × Nat)) : List (Nat × Nat) :=
  let at' := (fails.map (fun f => (f.1, f.2.1))).dedup
  let ents := fun (p : Nat × Nat) => (fails.filter (fun f => (f.1, f.2.1) == p)).map (fun f => f.2.2)
  let row := at'.filter (fun p => decide (p.2 = l.h ∧ p.1 < l.w))
  let col := at'.filter (fun p => decide (p.1 = l.w ∧ p.2 < l.h))
  match at', row, col with
  | [p], [_], [] => if l.ckcol then [p] else (List.range l.h).map (fun y => (p.1, y)) ++ [p]
  | [p], [], [_] => if l.ckrow then [p] else (List.range l.w).map (fun x => (x, p.2)) ++ [p]
  | [p], [], [] => [p]
  | [_, _], [p], [q] => if (ents p).all (ents q).contains && (ents q).all (ents p).contains then [(p.1, q.2)] else []
  | _, _, _ => []

/-- The arbiter of a suspect. -/
def arbiterOf (l : Slab) (p : Nat × Nat) : Option (Nat × Nat) :=
  let has := fun (q : Nat × Nat) => l.cells.any (fun c => c.1 == q.1 && c.2.1 == q.2)
  let east := if l.member (p.1 + 1) p.2 then [(p.1 + 1, p.2)] else []
  let west := if 0 < p.1 then [(p.1 - 1, p.2)] else []
  let south := if l.member p.1 (p.2 + 1) then [(p.1, p.2 + 1)] else []
  let north := if 0 < p.2 then [(p.1, p.2 - 1)] else []
  (east ++ west ++ south ++ north ++ [(l.w, p.2), (p.1, l.h)]).find? (fun q => has q && q != p)

/-- Mesh cycles of one suspect's arbitration (R450). -/
def arbCycles (w nb : Nat) : Nat :=
  16 + 8 + 2 * (32 * nb * (if tmFa w = 13 then 2 else 1) + 80) + nb * 16 * pairCycles (tmFa w) (tmFb w) + 30 + 8

/-! ### Decisions (R451, R453) -/

/-- What an arbitration decides: OUTCOME of INT_ARB_REC, and the slab positions found at fault. -/
structure ArbRes where
  outcome : Nat
  cells : List (Nat × Nat)
  last : Option (Nat × Nat)
  count : Nat

/-- The walk over the suspects. `outs` gives, for each recomputation, 0: A = O; 1: A differs and satisfies I; 2: any other
result; 3: a parity error; 4: a reset, FREEZE, ISOLATE or fencing of suspect or arbiter, which `cut` shows of a suspect where the
cells still show it. None where `outs` ends early. -/
def arbWalk (cut : Nat × Nat → Bool) (l : Slab) (fails : List (Nat × Nat × Nat)) : Nat → List (Nat × Nat) → List Nat → Option ArbRes
  | k, [], _ => some ⟨4, [], none, k⟩
  | _, _ :: _, [] => none
  | k, p :: ps, o :: os =>
    let r := fun (oc : Nat) (cs : List (Nat × Nat)) => some (ArbRes.mk oc cs (some p) (k + 1))
    match if cut p then 4 else o with
    | 0 => if !l.member p.1 p.2 then r 4 []
      else if ps.isEmpty then r 1 (fails.map (fun f => (f.1, f.2.1))).dedup
      else arbWalk cut l fails (k + 1) ps os
    | 1 => if l.member p.1 p.2 then r 2 [p] else r 1 [p]
    | 2 => r 3 []
    | 3 => r 4 []
    | _ => r 5 []

/-- Whether the suspect or the arbiter has been reset, frozen, isolated or fenced since the history was kept (R453). -/
def State.arbCut (s : State) (l : Slab) (p : Nat × Nat) : Bool :=
  let bad := fun (q : Nat × Nat) =>
    let n := l.at q.1 q.2
    let c := s.cell n
    c.flag CELL_CTRL_FREEZE || c.flag CELL_CTRL_ISOLATE || s.cellFenced n || !c.flag INT_CK_STATE_HIST_VALID
  bad p || (match arbiterOf l p with | some a => bad a | none => false)

/-- INT_ARB_REC of a cell, where no record is held. -/
def Cell.arbRecord (outcome role suspect entries first dur : Nat) (c : Cell) : Cell :=
  if c.flag INT_ARB_REC_VALID then c
  else
    let c := ((c.wr INT_ARB_REC_VALID 1).wr INT_ARB_REC_OUTCOME outcome).wr INT_ARB_REC_ROLE role
    (((c.wr INT_ARB_REC_SUSPECT suspect).wr INT_ARB_REC_ENTRIES entries).wr INT_ARB_REC_FIRST_ENTRY first).wr
      INT_ARB_REC_DURATION (min dur (2 ^ 24 - 1))

/-- The logical cell of a slab position. -/
def slabLogical (op : MacOp) (p : Nat × Nat) : Nat := mkId (idX op.logical + p.1) (idY op.logical + p.2)

/-- The records of an arbitration in the suspect, the arbiter and the verdict cell; the arbiter holds the recomputed
entries (R449, R451). -/
def State.arbRecords (s : State) (op : MacOp) (l : Slab) (fails : List (Nat × Nat × Nat)) (r : ArbRes) : State :=
  let ents := (fails.map (fun f => f.2.2)).dedup
  let nb := (s.cell l.verdictCell).rd INT_CK_STATE_HIST_BLOCKS
  let dur := if r.count = 0 then 16 else r.count * arbCycles op.w nb
  let sus := match r.last with | some p => slabLogical op p | none => 0
  let put := fun (s : State) (n role : Nat) =>
    s.modCell n (Cell.arbRecord r.outcome role sus ents.length (ents.foldl min 255) dur)
  let s := match r.last with
    | none => s
    | some p =>
      let s := put s (l.at p.1 p.2) 1
      match arbiterOf l p with
      | none => s
      | some a =>
        let o := (s.cell (l.at p.1 p.2)).hist
        put (s.modCell (l.at a.1 a.2) (fun c => { c with acc := o })) (l.at a.1 a.2) 2
  put s l.verdictCell 3

/-- The end of an arbitration at its origin: the history is let go; the context goes on where the outputs of a final
checkpoint stand or have been corrected (R452), and an operation cut off at an earlier one is interrupted (05 R173). -/
def State.arbEnd (s : State) (n : Nat) (op : MacOp) (l : Slab) (ready : Bool) : State :=
  let s := s.modCells l.nums (fun c => let c := { c.ckFormed (c.rd INT_CK_STATE_LAST_CKPT) with ckFails := [] }
    if op.ended then c else c.wr CELL_MAC_STATUS_INTERRUPTED 1)
  s.modCell n (fun c =>
    let c := { c.wr CELL_MAC_STATUS_VERDICT_WAIT 0 with macOp := none, arbWait := false }
    if ready then c.wakeMac else c)

/-- A decided arbitration: records, counts, the fence of the cells at fault. -/
def State.arbDecide (s : State) (n : Nat) (op : MacOp) (l : Slab) (fails : List (Nat × Nat × Nat)) (r : ArbRes) : State :=
  let s := s.arbRecords op l fails r
  let det := fun (p : Nat × Nat) => slabDetail p.1 p.2
  let fence := fun (s : State) (code : Nat) => r.cells.foldl (fun s p =>
    (s.modCell n (Cell.note (s.opRec n op code (det p)))).decideCell (l.at p.1 p.2) 1) s
  let stops := fun (s : State) (code : Nat) =>
    let d := match r.last, fails with | some p, _ => det p | none, f :: _ => slabDetail f.1 f.2.1 | none, [] => 0
    (s.arbEnd n op l false).modCell n (fun c => c.raise (s.env n) op.ctx code d op.pc)
  match r.outcome with
  | 1 => (fence (s.addSat INT_PKG_STATUS_CHECKER 1) 0xE3).arbEnd n op l op.ended
  | 2 =>
    let p := r.cells.headD (0, 0)
    let dest := (s.cell (l.at p.1 p.2)).patDest
    let rs := redrainRows op l s.cycle (s.cell n).win p s.cells
    let s := (fence (s.addSat INT_PKG_STATUS_MEMBER 1) 0xE4).arbEnd n op l (op.ended && !tmDrain op.w)
    if op.ended && tmDrain op.w && dest != 1 then { s with cells := redrain op n (l.at p.1 p.2) rs s.cells } else s
  | 3 =>
    let s := ((s.addSat INT_PKG_STATUS_DISPUTES 1).wr INT_PKG_STATUS_SUSPECT 1)
    let p := (suspects l fails).headD (0, 0)
    (stops s 0xE1).unexplain (l.at p.1 p.2) (s.cellRec (l.at p.1 p.2))
  | _ => stops (s.addSat INT_PKG_STATUS_UNPLACED 1) 0xE2

/-- ARBITRATION: the sequencer arbitrates the failed comparisons of the slab of which cell `n` is the origin; `outs` gives
the results of the recomputations in the order of the suspects. -/
def execArbitration (n : Nat) (outs : List Nat) (s : State) : Out :=
  s.onCell n (fun s =>
    match s.ckSlab n with
    | none => s
    | some (op, l) =>
      if !(s.cell n).arbWait then s
      else
        let fails := (s.cell l.verdictCell).ckFails
        match arbWalk (s.arbCut l) l fails 0 (suspects l fails) outs with
        | none => s
        | some r => s.arbDecide n op l fails r)

end Sys2Proof.Machine
end

