-- ==== Sys2Proof/Machine/Recovery.lean ====
section
/-! DEFINITION. Die and package resets, power cycles, their requests and the crash cast (spec/17_reset_recovery.md R487 to
R500, spec/18_bringup.md R519, spec/19_catalogue_atelier.md R550, R551). -/

namespace Sys2Proof.Machine
open Sys2Proof

/-! ### The crash cast (R493 to R496) -/

/-- The cells that a crash cast before a reset dumps (R493). -/
def State.crashCells (s : State) (r : ResetReq) : List Nat :=
  match r.level with
  | 2 => [r.unit]
  | 3 => s.nicheCells r.unit
  | 4 => (List.range 2592).map (fun i => 2592 * r.unit + i) |>.filter (fun n => (s.logical n).isSome && s.powered n)
  | _ => (List.range cellCount).filter (fun n => (s.logical n).isSome && s.powered n)

/-- Register words of a cell window as lines. -/
def Cell.wordLines (e : Env) (c : Cell) (off n lines : Nat) : List VR :=
  (linesOf (packNat 64 ((List.range n).map (fun j => c.word e (off + 8 * j)))) lines (fun _ => false)).map lineVR

/-- The scratchpad excerpt of a crash record: the first and the last line of each address bank, read under class 6 (R495, 06
R196). -/
def Cell.excerpt (c : Cell) : List VR × Cell :=
  ((List.range 16).flatMap (fun b => [0x3000 * b, 0x3000 * b + 0x2FC0])).foldl (fun r a =>
    let x := r.2.line6 a
    (r.1 ++ [x.1], x.2)) ([], c)

/-- The header line of a cell slot (R495). -/
def crashHeader (seq tick n logical level valid cause : Nat) : VR :=
  ⟨BitVec.ofNat 512 (seq % 2 ^ 32 + tick % 2 ^ 64 * 2 ^ 32 + n % 2 ^ 16 * 2 ^ 96 + logical % 2 ^ 16 * 2 ^ 112 + level * 2 ^ 128
    + valid * 2 ^ 136 + cause % 2 ^ 32 * 2 ^ 144), 0⟩

/-- The slot of a physical cell. -/
def State.crashSlot (s : State) (n : Nat) : Nat := s.crashBase + 0x100000 + n * 0x6000

/-- One cell's record; the layout of its four lines of Sprue stop state is open. -/
def State.dumpCell (r : ResetReq) (s : State) (n : Nat) : State :=
  let c := s.cell n
  let head := fun (s : State) v => s.hbmPut (s.crashSlot n) (crashHeader s.crashSeq s.tick n ((s.logical n).getD 0) r.level v r.seq)
  let stop : List VR := (List.range 4).map (fun i => ⟨BitVec.ofNat 512 (Config.freeValue (s.free + i)), 0⟩)
  let e := s.env n
  let banks := c.excerpt
  let s := s.modCell n (fun _ => banks.2)
  let body := (c.image e 0xE1F).map lineVR ++ c.wordLines e 0xA00 41 6 ++ stop ++ c.wordLines e 0xC00 48 6 ++ banks.1
  let s := head { s with free := s.free + 4 } 0
  let s := s.hbmPutAll (s.crashSlot n + 64) (body ++ List.replicate 100 ⟨0, 0⟩)
  head s 1

/-- A directory entry (R496), in the order in which the rule lists its fields. -/
def State.dirEntry (s : State) (r : ResetReq) (cells : Nat) (incomplete : Bool) : State :=
  s.hbmPut (s.crashBase + 64 * (s.crashSeq % 256))
    ⟨BitVec.ofNat 512 (s.crashSeq % 2 ^ 32 + s.tick % 2 ^ 64 * 2 ^ 32 + r.level * 2 ^ 96 + r.seq % 2 ^ 32 * 2 ^ 104 + r.die * 2 ^ 136
      + (r.niche.getD 0xFF) * 2 ^ 144 + cells % 2 ^ 16 * 2 ^ 152 + b2n incomplete * 2 ^ 168), 0⟩

/-- Words of 64 bits as lines, zeros after them. -/
def wordsLines (ws : List Nat) : List VR :=
  (linesOf (packNat 64 ws) ((ws.length + 7) / 8) (fun _ => false)).map lineVR

/-- A register of a court block as a read returns it: CRT_STATUS and SYN_STATUS show the Riffler and the waiters, SPR_RT_DATA the
selected route (08 R264). -/
def Court.word (now : Nat) (c : Court) (off : Nat) : Nat :=
  let plain := regWord courtRst courtRegs c.regs off
  if off = 0x8 then c.statusWord now
  else if off = 0x800 then plain + c.waiters.length % 128
  else if off = 0x208 then (fget r0 c.rt (c.rd SPR_RT_ADDR_VER * 144 + c.rd SPR_RT_ADDR_INDEX)).toNat
  else plain

/-- A court record (R495), its parts in the order in which the rule lists them. -/
def State.dumpCourt (s : State) (q : Nat) : State :=
  let c := s.court q
  let w := fun (off : Nat) => c.word s.cycle off
  let held := (List.range 4).flatMap (fun i => match c.rif[i]? with
    | some o => (List.range 8).map (fun j => o.desc.getD j 0) | none => List.replicate 8 0)
  let qs := (List.range 16).flatMap (fun i => w (DMA_QST_QUEUED.queue i).off :: (match fget nil0 c.dma i with
    | o :: _ => (List.range 8).map (fun j => o.words.getD j 0) | [] => List.replicate 8 0))
  let ws := [w CRT_STATUS_HELD.off, w RIF_FAULT_VALID.off] ++ held ++ qs ++ [w SYN_STATUS_WAITERS.off]
    ++ [w 0x3800, w 0x3808, w 0x3810, w 0x3818]
  s.hbmPutAll (s.crashBase + 0xF400000 + q * 0x4000) (wordsLines ws)

/-- The fault log of a die in the crash cast region. -/
def State.dumpLog (s : State) (d : Nat) : State :=
  s.hbmPutAll (s.crashBase + 0x4000 + 0x8000 * d) ((List.range 512).map (fun i =>
    ⟨BitVec.ofNat 512 ((fget flog0 s.flog (1024 * d + 2 * i)).toNat + (fget flog0 s.flog (1024 * d + 2 * i + 1)).toNat * 2 ^ 256), 0⟩))

/-- The dies that a reset at die or package level reaches. -/
def resetDies (r : ResetReq) : List Nat := if r.level = 4 then [r.unit] else if r.level = 5 then [0, 1, 2, 3] else []

/-- A crash cast before a due reset: the cells are frozen and the first `k` of them recorded; with all of them it ends. -/
def State.crashCast (s : State) (r : ResetReq) (k : Nat) : State :=
  let ns := s.crashCells r
  let s := ns.foldl (fun s n => (s.raspCut n true).breakSlab n) s
  let s := s.modCells ns (fun c => (c.freezeWrite true).freezeComplete 0)
  let s := { s with crashSeq := s.crashSeq + 1, crashOpen := true, crashFrozen := (s.crashFrozen ++ ns).dedup }
  let s := (((s.wr RST_CRASH_CRASH_SEQ s.crashSeq).wr RST_CRASH_INCOMPLETE 0).wr RST_CRASH_CELLS (min k ns.length)).dirEntry r (min k ns.length) false
  let s := (resetDies r).foldl State.dumpLog s
  let s := (ns.take k).foldl (State.dumpCell r) s
  let s := (((ns.take k).map cellCourt).dedup).foldl State.dumpCourt s
  if k < ns.length then s else { (s.wr RST_CRASH_NEW 1).alert MGT_ALERT_CRASH with crashOpen := false }

/-- The dies whose cells a crash cast before a reset step dumps. -/
def State.castDies (s : State) (r : ResetReq) : List Nat :=
  match r.level with
  | 2 => [cellDie r.unit]
  | 3 => ((s.nicheCourts r.unit).map courtDie).dedup
  | _ => resetDies r

/-- CRASH_CAST: before a due reset of a level and a unit, of which `k` cells are recorded before it ends or is abandoned.
Where the clocks have been halted first, nothing is written (R493). -/
def execCrashCast (level unit k : Nat) (s : State) : Out :=
  .next (match s.resets.find? (fun r => r.level == level && r.unit == unit) with
    | some r => if 2 ≤ level ∧ level ≤ 5 ∧ (s.castDies r).any (fun d => !fget noMark s.dieHalt d) then s.crashCast r k else s
    | none => s)

/-- CRASH_CAST_ABANDON: the crash cast in progress is marked INCOMPLETE (R496). -/
def execCrashCastAbandon (s : State) : Out :=
  .next (if s.crashOpen then
      let a := s.crashBase + 64 * (s.crashSeq % 256)
      let x := s.hbmLine a
      let v := x.1.v.toNat
      let s := x.2.hbmPut a ⟨BitVec.ofNat 512 (v - bits v 168 168 * 2 ^ 168 + 2 ^ 168), x.1.p⟩
      { s.wr RST_CRASH_INCOMPLETE 1 with crashOpen := false }
    else s)

/-! ### What a die reset clears (R487, R488) -/

/-- A cell of a die that is reset. -/
def Cell.dieReset (c : Cell) : Cell := { regs := regsReset cellRegs Dom.die.rank c.regs, faults := c.faults }

/-- A court of it: plinth data stay. -/
def Court.dieReset (c : Court) : Court :=
  { regs := regsReset courtRegs Dom.die.rank c.regs, plinth := c.plinth, plnPoison := c.plnPoison, plnEcc := c.plnEcc
    faults := c.faults }

/-- The fenced cells of a die mapped again from fuses and flaw map; the entries are in force (16 R458, R466). -/
def State.mapDie (s : State) (d : Nat) : State :=
  let ns := ((s.fuses ++ s.flaws).filter (fun f => f.kind == 1 && cellDie f.loc == d)).map (fun f => f.loc)
  let s := ns.foldl State.remapRow s
  { s with flaws := s.flaws.map (fun f => if f.kind == 1 && cellDie f.loc == d then { f with applied := true } else f)
           decided := s.decided.filter (fun n => cellDie n != d) }

/-- Courts that lose two cells of one row are DEGRADED (R516, 16 R474). -/
def State.bootDegraded (s : State) : State :=
  (List.range 144).foldl (fun s q =>
    if (List.range 8).any (s.rowDegraded q) ∧ !s.flaws.any (fun f => f.kind == 7 && f.loc == q) then
      let s := s.addFlaw { kind := 7, cause := 5, die := courtDie q, applied := true, confirmed := false, loc := q, tick := s.tick, stored := false }
      let s := (s.addSat RES_PKG_STATUS_DEGRADED 1).resEvent (courtDie q) 0x05 { kind := 1, index := q }
      if s.anyReserve then s else s.replaceSoon
    else s) s

/-- RST_WD_CFG from the NV objects (19 R534). -/
def State.watchdogs (s : State) (d : Nat) : State :=
  ((s.dieWr d RST_WD_CFG_CWD_EXP (s.obj 0x4060 1)).dieWr d RST_WD_CFG_NWD_EXP (s.obj 0x4060 2)).dieWr d RST_WD_CFG_ATL_WD (s.obj 0x4060 3)

/-- The links of a die fresh and DISABLED, FORCE_RS as strapped or as its object has been written since (18 R503, 19 R530). -/
def State.resetLinks (s : State) (d : Nat) : State :=
  (List.range 24).foldl (fun s j =>
    let l := 24 * d + j
    let saved := (s.link l).saved
    (s.lwr l LNK_CTRL_FORCE_RS (match fget z0 s.mgmt.forceRs l with | 0 => s.rd MGT_STRAPS_LINKFEC | v + 1 => v)).modLink l (fun _ => { saved := saved })) s

/-- The units of a die as a die reset leaves them; its links are DISABLED. -/
def State.clearDie (s : State) (d : Nat) : State :=
  let s := (List.range 24).foldl (fun s j => s.setLink (24 * d + j) 0) s
  let s := { s with
    dieStart := fset z0 s.dieStart d s.cycle
    cells := s.cells.foldl (fun m (e : Nat × Cell) => if cellDie e.1 = d then fmod cell0 m e.1 Cell.dieReset else m) s.cells
    courts := s.courts.foldl (fun m (e : Nat × Court) => if courtDie e.1 = d then fmod court0 m e.1 Court.dieReset else m) s.courts
    flights := s.flights.filter (fun f => cellDie (s.phys f.dest) != d)
    dieRegs := fset regs0 s.dieRegs d (regsReset Machine.dieRegs Dom.die.rank (fget regs0 s.dieRegs d))
    flog := fdrop (fun k => k / 1024 == d) s.flog
    dieSnap := ferase s.dieSnap d
    mailbox := ferase s.mailbox d }
  (((s.repairRows d).mapDie d).watchdogs d).resetLinks d

/-- A restarted or booted Atelier runs the image of the active-slot record; a TRIAL has failed (19 R551). -/
def State.bootImage (s : State) (d : Nat) : State :=
  let m := s.mgmt
  { s with mgmt := { m with
    fwRuns := fset z0 m.fwRuns d (fget z0 m.fwSlot d)
    fwState := if fget z0 m.fwState d = 3 ∨ fget z0 m.fwState d = 4 then fset z0 m.fwState d 6 else m.fwState } }

/-- The functions of a port reset (14 R411). -/
def State.portReset (s : State) (port : Nat) : State := (List.range 17).foldl (fun s f => s.fnReset (17 * port + f)) s

/-- A die reset (R487): the niches with a court on the die first. -/
def State.resetDie (s : State) (r : ResetReq) : State :=
  let d := r.unit
  let s := (s.resetDone r).resetBegun r
  let niches := (List.range 16).filter (fun i => s.nicheState i != 0 && (s.nicheCourts i).any (fun q => courtDie q == d))
  let s := niches.foldl State.nicheReset s
  let s := (((s.clearDie d).bootImage d).bootDegraded)
  let s := if d = s.primary then s.endSessions else s
  let s := if d = 3 ∧ s.portOn 1 then s.portReset 1 else s
  let s := niches.foldl State.writeNiche s
  (List.range 24).foldl (fun s j => s.startLink (24 * d + j)) s

/-- DIE_RESET: the due reset of a die; before SERVICE it is held (18 R519). -/
def execDieReset (die : Nat) (s : State) : Out :=
  if 4 ≤ die then .fault .noSuchUnit
  else .next (match s.resets.find? (fun r => r.level == 4 && r.unit == die) with
    | some r => if s.inService ∧ bit (s.rd MGT_BOOT_STATUS_DIE_OK) die then s.resetDie r else s
    | none => s)

/-! ### Package resets (R487, R491, R498) -/

/-- One hour of the timebase. -/
def hourTicks : Nat := 3240000000000

/-- The objects and byte values that the NV store holds: the latest record of each key (19 R544). -/
def State.fromNv (s : State) : State :=
  { s with
    objects := (s.mgmt.nv.filter (fun e => e.area == 2)).foldl (fun m e => fset objDefault m e.key (bytesVal e.data e.data.length)) []
    mgmt := { s.mgmt with
      blobs := (s.mgmt.nv.filter (fun e => e.area == 5)).foldl (fun m e => fset blob0 m e.key e.data) []
      nvQueue := [] } }

/-- Flaw map entries not yet in the NV store are lost (16 R460). -/
def State.loseFlaws (s : State) : State :=
  let fs := s.flaws.filter (fun f => f.stored)
  { s.wr RES_PKG_STATUS_FLAW_USED fs.length with flaws := fs }

/-- What a package reset clears. -/
def State.clearPackage (s : State) : State :=
  let segs := (List.range 16).flatMap s.windows
  let s := { s with dirty := s.dirty ++ segsWithout segs s.dirty, errLog := [], hbmErrs := [] }
  let s := [0, 1, 2, 3].foldl (fun s d => (s.clearDie d).bootImage d) (s.endSessions.fromNv.loseFlaws)
  let m := s.mgmt
  { s with
    dieRegs := [0, 1, 2, 3].foldl (fun m d => fset regs0 m d (regsReset Machine.dieRegs Dom.package.rank (fget regs0 m d))) s.dieRegs
    pkgRegs := (fdrop (fun k => decide (0x10000 ≤ k / 64)) (regsReset Machine.pkgRegs Dom.package.rank s.pkgRegs))
    niches := [], rings := [], pends := [], hostQs := [], hostRings := [], irq := []
    links := s.links.map (fun e => (e.1, { saved := e.2.saved : Link })) |>.filter (fun e => e.2 != {})
    pod := {}, flights := [], doubts := [], lastReset := [], crashFrozen := [], crashOpen := false
    dieHalt := [(0, true), (1, true), (2, true), (3, true)]
    mgmt := { m with powerOn := false, seamsOut := [], kept := [], gate := false, goal := none } }

/-- A package reset: the dies stand still until bring-up, which starts at FUSES. Three within an hour lead to a power
cycle. -/
def State.resetPackage (s : State) (r : ResetReq) (boot : Nat) : State :=
  let s := ((s.resetDone { r with level := 5 }).resetBegun { r with level := 5 }).clearPackage
  let ts := s.pkgResets.filter (fun t => decide (s.tick < t + hourTicks)) ++ [s.tick]
  let s := { (s.wr MGT_BOOT_STATUS_STATE boot).wr RST_STATUS_DIE_BUSY 0xF with pkgResets := ts }
  let s := if s.mgmt.clockLost then State.event { s with mgmt := { s.mgmt with clockLost := false } } 0 { code := 0x41, space := 3, kind := 6 }
    else s
  if 3 ≤ ts.length then s.demand { r with level := 6, unit := 0, trigger := 8 } else s

/-- What holds a package reset beside the return of rails and REFCLK: PWR_GOOD low, SYS_RST# (19 R538, 21 R579). -/
def State.resetHeld (s : State) : Bool := !s.flag PWR_STATUS_PWR_GOOD || s.mgmt.sysRst

/-- PACKAGE_RESET: the package reset that is due. -/
def execPackageReset (s : State) : Out :=
  .next (match s.resets.find? (fun r => r.level == 5) with
    | some r => if s.resetHeld then s else s.resetPackage r 1
    | none => s)

/-! ### Power cycles (R497) -/

/-- A record for a journal or area of the NV store; it waits while NV writes are blocked (19 R538, R544). -/
def State.nvWrite (s : State) (area key : Nat) (data : List (BitVec 8)) : State :=
  { s with mgmt := { s.mgmt with nvQueue := s.mgmt.nvQueue ++ [⟨area, key, data⟩] } }

/-- The crash summary: the directory, the cause record, the fault logs. -/
def State.crashSummary (s : State) : List (BitVec 8) :=
  memBytes s.hbm s.crashBase 16384 ++ valBytes (regWord pkgRst Machine.pkgRegs s.pkgRegs 0x7008) 8
    ++ (List.range 4096).flatMap (fun i => valBytes (fget flog0 s.flog i).toNat 32)

/-- PWR_CYCLE_REQ# and ALERT#, held until power is removed. -/
def State.powerCycle (s : State) (r : ResetReq) (summary : Bool) : State :=
  let s := (s.resetDone r).resetBegun { r with level := 6 }
  let s := { s with mgmt := { s.mgmt with cycleReq := true } }
  let s := if summary ∧ s.flag PWR_STATUS_NV_OK then
      { s with mgmt := { s.mgmt with nv := s.mgmt.nv ++ [⟨3, (s.mgmt.nv.filter (fun e => e.area == 3)).length % 16, s.crashSummary⟩] } } else s
  s.alert MGT_ALERT_PWR_CYCLE

/-- Power removed, and back: everything is as at power-on but the NV store with what it holds, and the fuses (R487 level 6). -/
def State.powerOff (s : State) : State :=
  let m := s.mgmt
  let fs := s.flaws.filter (fun f => f.stored)
  let ls := s.links.map (fun e => (e.1, { saved := e.2.saved : Link })) |>.filter (fun e => e.2 != {})
  let t : State := { links := ls, stepping := s.stepping, free := s.free, pending := s.pending, flaws := fs
                     mgmt := { factory := m.factory, saved := m.saved, badSegs := m.badSegs, nv := m.nv, svn := m.svn
                               fwImages := m.fwImages, fwSlot := m.fwSlot, fwRuns := m.fwSlot } }
  (t.wr RES_PKG_STATUS_FLAW_USED fs.length).fromNv

/-- POWER_CYCLE: the power cycle that is due. -/
def execPowerCycle (s : State) : Out :=
  .next (match s.resets.find? (fun r => r.level == 6) with
    | some r => s.powerCycle r true
    | none => s)

/-! ### RST_CTRL (R500) -/

/-- DIE_RESET_REQ: a write of DIE_REQ, which only the Catalogue makes. -/
def execDieResetReq (mask : Nat) (s : State) : Out :=
  .next ([0, 1, 2, 3].foldl (fun s d => if bit mask d then s.demand { level := 4, unit := d, trigger := 3, die := d } else s) s)

/-- PKG_RESET_REQ: a write of PKG_REQ. -/
def execPkgResetReq (s : State) : Out := .next (s.demand { level := 5, unit := 0, trigger := 3 })

/-- PWRCYC_REQ: a write of PWRCYC_REQ. -/
def execPwrcycReq (s : State) : Out := .next (s.demand { level := 6, unit := 0, trigger := 3 })

end Sys2Proof.Machine
end

