-- ==== Sys2Proof/Machine/Bringup.lean ====
section
/-! DEFINITION. Straps, bring-up and levels of service (spec/18_bringup.md R501 to R519, spec/21_package_electrical.md R574,
R577). -/

namespace Sys2Proof.Machine
open Sys2Proof

/-! ### SYS_RST# (R502, R519, 21 R577) -/

/-- Every die's clocks stand still. -/
def State.haltAll (s : State) : State := { s with dieHalt := [(0, true), (1, true), (2, true), (3, true)] }

/-- The state of bring-up as MGT_BOOT_STATUS shows it. -/
def State.bootState (s : State) : Nat := s.rd MGT_BOOT_STATUS_STATE

/-- RESET ends with SYS_RST# deasserted, PWR_GOOD high and REFCLK present (R501). -/
def State.leaveReset (s : State) : State :=
  if s.bootState = 0 ∧ !s.mgmt.sysRst ∧ s.flag PWR_STATUS_PWR_GOOD ∧ !s.mgmt.clockLost then s.wr MGT_BOOT_STATUS_STATE 1 else s

/-- The straps latched into MGT_STRAPS (R502, R503). -/
def State.latchStraps (s : State) (b : Straps) : State :=
  let s := ((((s.wr MGT_STRAPS_BOOT b.boot).wr MGT_STRAPS_SLOT b.slot).wr MGT_STRAPS_PROFILE b.profile).wr MGT_STRAPS_HOSTPORT
    (b2n b.hostport)).wr MGT_STRAPS_LINKFEC (b2n b.linkfec)
  let s := (s.wr MGT_STRAPS_PROFILE_EFF (min b.profile 2)).wr MGT_STRAPS_I3C_ADDR (0x08 + b.slot)
  let s := State.wr { s with mgmt := { s.mgmt with forceRs := [] } } PWR_STATUS_TARGET (min b.profile 2)
  if b.profile = 3 then s.event 0 { code := Config.eventCode 1, space := 3, kind := 6 } else s

/-- SYS_RST_DEASSERT: the straps are sampled and RESET may end. -/
def execSysRstDeassert (b : Straps) (s : State) : Out :=
  .next (if !s.mgmt.sysRst ∨ s.mgmt.tripped then s
    else
      let s := ({ s with mgmt := { s.mgmt with sysRst := false, clockLost := !b.refclk } }.latchStraps b)
      let s := (s.wr PWR_STATUS_PWR_GOOD (b2n b.pwrGood)).wr PWR_STATUS_NV_OK (b2n b.pwrGood)
      let s := [0, 1, 2, 3].foldl (fun s d => s.resetLinks d) s
      s.leaveReset)

/-- SYS_RST_ASSERT: every die halts at once, and what a package reset clears is cleared, without a crash cast. -/
def execSysRstAssert (s : State) : Out :=
  .next (if s.mgmt.sysRst then s
    else
      let s := s.haltAll.resetPackage (askedReset 5 0 none) 0
      { s with mgmt := { s.mgmt with sysRst := true } })

/-- BOOT_TAKEOVER: die 3 takes the QSPI bus and boots as primary (R507). -/
def execBootTakeover (s : State) : Out :=
  .next (if s.bootState = 1 ∨ s.bootState = 2 then s.wr MGT_BOOT_STATUS_PRIMARY 1 else s)

/-! ### The states of bring-up (R501) -/

/-- An event of bring-up with the first failure's code. -/
def State.bootEvent (s : State) (fail code die : Nat) : State :=
  let s := if s.rd MGT_BOOT_STATUS_FAIL_CODE = 0 then s.wr MGT_BOOT_STATUS_FAIL_CODE fail else s
  s.event die { code := code, space := 3, kind := 6 }

/-- The same for each member of a list. -/
def State.bootEvents (s : State) (fail code : Nat) (ds : List Nat) (die : Nat → Nat) : State :=
  ds.foldl (fun s d => s.bootEvent fail code (die d)) s

/-- DIAG (R517). -/
def State.toDiag (s : State) (elapsed : Nat) : State :=
  ((s.wr MGT_BOOT_STATUS_STATE 8).wr MGT_BOOT_STATUS_SERVICE 1).wr MGT_BOOT_STATUS_ELAPSED (min elapsed 0xFFFF)

/-- What the fuses read: they are blown at the factory, so what the first bring-up has read stands for every later one (00 R1). -/
def State.withFuses (s : State) (b : Boot) : Boot :=
  match s.mgmt.factory with | some f => { b with variants := f.1, fuseCells := f.2.1, fuseRest := f.2.2 } | none => b

/-- FUSES: factory fences, fused-off units, the variant (R504, R505). -/
def State.bootFuses (s : State) (b : Boot) : State :=
  let s := if b.seqBad then s.event 0 { code := 0x40, space := 3, kind := 6 } else s
  let s := s.bootEvents 1 (Config.eventCode 6) (b.railBad.filter (fun d => !b.avsBad.contains d)) id
  let s := s.bootEvents 1 0x42 b.avsBad id
  let s := s.bootEvents 2 (Config.eventCode 2) b.fuseBad id
  let s := s.bootEvents 2 (Config.eventCode 2) b.fuseCourts courtDie
  let cells := b.fuseCells ++ b.fuseCourts.flatMap (fun q => (List.range 72).map (fun j => rowBase q 0 + j))
  let v := b.variants.headD 0
  { s.wr MGT_BOOT_STATUS_VARIANT v with
    small := v == 2, lite := v == 3
    mgmt := { s.mgmt with factory := some (b.variants, b.fuseCells, b.fuseRest) }
    fuses := cells.map (fun n => ⟨1, 0, cellDie n, true, false, n, 0, true⟩)
      ++ b.fuseRest.map (fun r => ⟨r.1, 0, if r.1 = 6 then r.2 % 128 / 24 else s.flawDie r.1 r.2, true, false, r.2, 0, true⟩) }

/-- The variant is not common to the dies, or is none. -/
def bootMismatch (b : Boot) : Bool :=
  let v := b.variants.headD 0
  b.variants.length != 4 || b.variants.any (fun x => x != v) || !(v == 1 || v == 2 || v == 3)

/-- The dies in service. -/
def bootDies (b : Boot) : List Nat :=
  [0, 1, 2, 3].filter (fun d => !b.railBad.contains d && !b.fuseBad.contains d && !b.bootBad.contains d && !b.pllBad.contains d)

/-- The stacks of the variant on the dies in service that trained; stack 2d + c is die d's controller c. -/
def State.stacks (s : State) (b : Boot) : List Nat :=
  (List.range 8).filter (fun k => (bootDies b).contains (k / 2) && !b.hbmBad.contains k && !(s.lite && k % 2 == 1))

/-- A bring-up is cold (R514, R515). -/
def State.coldStart (s : State) (b : Boot) : Bool :=
  s.rd MGT_STRAPS_BOOT == 1 || !s.mgmt.saved || b.old || (s.mgmt.powerOn && s.obj 0x7020 4 == 1) || b.shortFail

/-- MEMORY: training, the cell test, the sweeps and their results (R508 to R511, R518). The settings that a cold bring-up has measured
are saved once their record stands in the NV store (R519). -/
def State.bootMemory (s : State) (b : Boot) : State :=
  let ks := s.stacks b
  let want := if s.lite then 4 else 8
  let s := s.bootEvents 8 (Config.eventCode 7) (b.hbmBad.filter (fun k => (bootDies b).contains (k / 2))) (fun k => k / 2)
  let s := s.wr MGT_BOOT_STATUS_HBM_OK (ks.foldl (fun m k => m + 2 ^ k) 0)
  let s := if ks.length < want then
      State.replace { s with mgmt := { s.mgmt with soleStack := ks.find? (fun k => k / 2 == s.primary) } }
    else { s with mgmt := { s.mgmt with soleStack := none } }
  let s := b.cellBad.foldl (fun s n => s.decideCell n 5) s
  let s := b.rows.foldl (fun s r => s.addFlaw { kind := r.1, cause := 5, die := s.flawDie r.1 r.2, applied := false, confirmed := false, loc := r.2
                                                tick := s.tick, stored := false }) s
  let s := if b.rowsOver.isEmpty then s
    else State.replaceSoon { s with mgmt := { s.mgmt with badSegs := (s.mgmt.badSegs ++ b.rowsOver).dedup } }
  if s.coldStart b then
    let s := (b.vcore.zipIdx).foldl (fun s v => (s.setObj 0x2021 (v.2 + 1) v.1).nvWrite 2 (0x2021 * 256 + v.2 + 1) (valBytes v.1 2)) s
    let s := s.nvWrite 0 0 (b.vcore.flatMap (fun v => valBytes v 2))
    { s with mgmt := { s.mgmt with saved := false } }
  else s

/-- A court after FABRIC: as after a die reset, with its plinth cleared. -/
def Court.fabric (c : Court) : Court := { c.dieReset with plinth := [], plnPoison := [], plnEcc := [] }

/-- FABRIC: every store cleared, HBM zeroed where R511 asks for it, the flaw map in force. -/
def State.bootFabric (s : State) (b : Boot) : State :=
  let zero := s.coldStart b || s.mgmt.powerOn
  let s := { s with
    cells := s.cells.foldl (fun m (e : Nat × Cell) => if (bootDies b).contains (cellDie e.1) then fmod cell0 m e.1 Cell.dieReset else m) s.cells
    courts := s.courts.foldl (fun m (e : Nat × Court) => if (bootDies b).contains (courtDie e.1) then fmod court0 m e.1 Court.fabric else m) s.courts }
  let s := (bootDies b).foldl (fun s d => ((s.repairRows d).mapDie d).watchdogs d) s
  let s := s.bootDegraded
  if zero then { s.zeroSegs 0 (s.hbmAlloc / 65536) with dirty := [] } else s

/-- LINKS: the enabled links of the dies in service enter DETECT, with a device ID (R512, R513). -/
def State.bootLinks (s : State) (b : Boot) : State :=
  if 0xFFF ≤ s.obj 0x3800 0 then s.bootEvent 9 (Config.eventCode 5) s.primary
  else (bootDies b).foldl (fun s d => (List.range 24).foldl (fun s j => s.startLink (24 * d + j)) s) s

/-- The minimum set for compute service (R517). -/
def State.computeSet (s : State) (b : Boot) : Bool :=
  let p := s.primary
  (List.range 144).any (fun q => courtDie q == p && !s.courtDegraded q
      && !(s.small && inFused (8 * (q % 12)) (8 * (q / 12))))
    && !(s.stacks b).isEmpty && (p == 0 || s.rd MGT_STRAPS_HOSTPORT == 0)

/-- SERVICE (R503, R516): the dies in service run, at the strapped profile, or at the one that PROFILE has been given since the straps
were sampled (19 R530). -/
def State.toService (s : State) (b : Boot) : State :=
  let full := (bootDies b).length == 4 && b.seamBad.isEmpty && (s.stacks b).length == (if s.lite then 4 else 8)
    && !(List.range 144).any s.courtDegraded
  let s := ((s.wr MGT_BOOT_STATUS_STATE 7).wr MGT_BOOT_STATUS_SERVICE (if full then 3 else 2)).wr MGT_BOOT_STATUS_ELAPSED (min b.elapsed 0xFFFF)
  let s := (s.wr MGT_BOOT_STATUS_DIE_OK ((bootDies b).foldl (fun m d => m + 2 ^ d) 0)).wr RST_STATUS_DIE_BUSY 0
  let s := s.wr PWR_STATUS_PROFILE (s.rd PWR_STATUS_TARGET)
  let s := (((s.wr SEC_STATUS_KEYS_VALID 1).wr SEC_STATUS_SPDM_READY 1).wr SEC_STATUS_SECURE_BOOT 1).wr SEC_STATUS_ANCHOR_SET
    (b2n (!(fget blob0 s.mgmt.blobs (0x7030 * 256)).isEmpty))
  { s with dieHalt := [0, 1, 2, 3].filterMap (fun d => if (bootDies b).contains d then none else some (d, true))
           dieStart := (bootDies b).foldl (fun m d => fset z0 m d s.cycle) s.dieStart
           mgmt := { s.mgmt with powerOn := false, seamsOut := b.seamBad } }

/-- From a started primary to SERVICE or DIAG. -/
def State.bootRun (s : State) (b : Boot) : State :=
  let s := (s.wr MGT_BOOT_STATUS_IMAGE ((fget z0 s.mgmt.fwSlot s.primary + b2n b.fallback) % 2)).wr MGT_BOOT_STATUS_FAST (b2n (!s.coldStart b))
  let s := if b.fallback then s.bootEvent 4 (Config.eventCode 4) s.primary else s
  let s := s.bootEvents 6 (Config.eventCode 8) b.pllBad id
  let s := s.bootEvents 7 (Config.eventCode 9) b.seamBad (fun m => (seamDies m).1)
  let s := ((s.bootMemory b).bootFabric b)
  if s.computeSet b then (s.bootLinks b).toService b else s.toDiag b.elapsed

/-- BRINGUP: bring-up runs from FUSES to SERVICE or DIAG; under STRAP_BOOT = TEST it holds in BOOT, under RECOVERY the boot
ROM serves DIAG. -/
def execBringup (b : Boot) (s : State) : Out :=
  .next (
    if s.bootState = 0 ∨ 7 ≤ s.bootState ∨ s.mgmt.sysRst ∨ s.mgmt.tripped ∨ s.mgmt.clockLost then s
    else
      let b := s.withFuses b
      let s := s.bootFuses b
      if s.rd MGT_STRAPS_BOOT = 3 then s.wr MGT_BOOT_STATUS_STATE 2
      else if s.rd MGT_STRAPS_BOOT = 2 then (s.wr MGT_BOOT_STATUS_IMAGE 2).toDiag b.elapsed
      else if bootMismatch b then (s.bootEvent 3 (Config.eventCode 3) 0).toDiag b.elapsed
      else
        let up := fun d => (bootDies b).contains d
        let s := if s.primary = 0 ∧ !up 0 ∧ up 3 then s.wr MGT_BOOT_STATUS_PRIMARY 1 else s
        if !up s.primary then ((s.wr MGT_BOOT_STATUS_IMAGE 2).bootEvent 5 (Config.eventCode 10) s.primary).toDiag b.elapsed
        else s.bootRun b)

end Sys2Proof.Machine
end

