-- ==== Sys2Proof/Machine/Supplies.lean ====
section
/-! DEFINITION. Supplies, clocks, temperature, power profiles and the NV store's writes (spec/19_catalogue_atelier.md R537 to
R544, spec/21_package_electrical.md R574, R579, R585). -/

namespace Sys2Proof.Machine
open Sys2Proof

/-! ### Supplies (R538, 21 R579) -/

/-- NV writes are blocked. -/
def State.nvBlock (s : State) : State := (s.wr PWR_STATUS_NV_OK 0).alert MGT_ALERT_NV_BLOCKED

/-- BROWN_OUT: rail `rail` (1 to 12) falls below its threshold, or PWR_GOOD falls (0): every die halts, and a package reset
is due. PWR_GOOD falling while PWR_CYCLE_REQ# or THERM_TRIP# is asserted is the board's power-down (21 R576): the power cycle. -/
def execBrownOut (rail : Nat) (s : State) : Out :=
  if 12 < rail then .fault .noSuchUnit
  else if rail = 0 ∧ (s.mgmt.cycleReq ∨ s.mgmt.tripped) then .next s.powerOff
  else
    let s := if rail = 0 then (s.wr PWR_STATUS_PWR_GOOD 0).nvBlock
      else s.wr PWR_STATUS_RAIL_BROWN (s.rd PWR_STATUS_RAIL_BROWN ||| 2 ^ (rail - 1))
    let s := if rail = 11 ∨ rail = 12 then s.nvBlock else s
    .next (s.haltAll.demand { level := 5, unit := 0, trigger := 5 })

/-- OVERVOLTAGE: rail `rail` rises above its threshold: every die halts, and PWR_CYCLE_REQ# and ALERT# are asserted without a
crash summary. -/
def execOvervoltage (rail : Nat) (s : State) : Out :=
  if rail = 0 ∨ 12 < rail then .fault .noSuchUnit
  else
    let s := s.wr PWR_STATUS_RAIL_OV (s.rd PWR_STATUS_RAIL_OV ||| 2 ^ (rail - 1))
    .next ((s.haltAll.alert MGT_ALERT_SUPPLY_OV).powerCycle { level := 6, unit := 0, trigger := 5 } false)

/-- NV_WRITE_BLOCK: VDD_AUX, VDD_IO or PWR_GOOD no longer allows NV writes. -/
def execNvWriteBlock (s : State) : Out := .next s.nvBlock

/-- NV_WRITE_RESUME: every condition has cleared for 10 ms. -/
def execNvWriteResume (s : State) : Out :=
  .next (((s.wr PWR_STATUS_PWR_GOOD 1).wr PWR_STATUS_NV_OK 1).leaveReset)

/-- REFCLK_LOSS: every die halts, and a package reset is due when the clock has returned. -/
def execRefclkLoss (s : State) : Out :=
  .next (State.demand { s.haltAll with mgmt := { s.mgmt with clockLost := true } } { level := 5, unit := 0, trigger := 5 })

/-! ### The NV store's journals (R544) -/

/-- The 16 bytes of a flaw map entry (16 R459). -/
def flawBytes (f : Flaw) : List (BitVec 8) :=
  valBytes f.kind 1 ++ valBytes f.cause 1 ++ valBytes f.die 1 ++ valBytes (b2n f.applied + 2 * b2n f.confirmed) 1
    ++ valBytes f.loc 4 ++ valBytes f.tick 8

/-- The first flaw map entry not yet written, now written. -/
def storeFlaw : List Flaw → List Flaw
  | [] => []
  | f :: fs => if f.stored then f :: storeFlaw fs else { f with stored := true } :: fs

/-- NV_JOURNAL_WRITE: the next record that waits, or the next flaw map entry, is written; `done` says that its commit word
is. A record without one leaves the old value. -/
def execNvJournalWrite (done : Bool) (s : State) : Out :=
  .next (if !done || !s.flag PWR_STATUS_NV_OK then s
    else match s.mgmt.nvQueue with
      | r :: rs => { s with mgmt := { s.mgmt with nvQueue := rs, nv := s.mgmt.nv ++ [r], saved := s.mgmt.saved || (r.area == 0 && r.key == 0) } }
      | [] => match s.flaws.findIdx? (fun f => !f.stored) with
        | some i => { s with flaws := storeFlaw s.flaws
                             mgmt := { s.mgmt with nv := s.mgmt.nv ++ [⟨1, i, (s.flaws[i]?.map flawBytes).getD []⟩] } }
        | none => s)

/-! ### Profiles (R540 to R542) -/

/-- An update or a reset that refuses a profile change (R541, R551). -/
def State.updating (s : State) : Bool :=
  (List.range 4).any (fun d => [3, 4].contains (fget z0 s.mgmt.fwState d))
    || s.resets.any (fun r => decide (4 ≤ r.level))

/-- Why a change to profile `p` is refused: the reason of R526 and the niche. -/
def State.profileRefused (s : State) (p : Nat) : Option (Nat × Option Nat) :=
  match (List.range 16).find? (fun i => (s.nicheState i == 2 || s.nicheState i == 3) &&
      (match (s.niche i).cast with | some c => !bit c.profiles p | none => false)) with
  | some i => some (1, some i)
  | none => match (List.range 16).find? (fun i => s.frameMode i == 3) with
    | some i => some (2, some i)
    | none => if s.updating then some (3, none) else none

/-- A change to a profile is requested: accepted, or refused with PROFILE_REFUSED. -/
def State.requestProfile (s : State) (p : Nat) : State × Option (Nat × Option Nat) :=
  if p = s.rd PWR_STATUS_PROFILE then ({ s.wr PWR_STATUS_CHANGING 0 with mgmt := { s.mgmt with goal := none } }, none)
  else match s.profileRefused p with
    | some r => (s.event 0 { code := 0x20, space := 3, kind := 6, niche := r.2 }, some r)
    | none => ({ s.wr PWR_STATUS_CHANGING 1 with mgmt := { s.mgmt with goal := some p } }, none)

/-- THROTTLED: the profile in force is below TARGET. -/
def State.noteThrottle (s : State) : State :=
  s.wr PWR_STATUS_THROTTLED (b2n (decide (s.rd PWR_STATUS_TARGET < s.rd PWR_STATUS_PROFILE)))

/-- PROFILE_CHANGE: an accepted change runs once no frame is in progress; `avs` names dies whose setpoint write failed
(21 R574). -/
def execProfileChange (avs : List Nat) (s : State) : Out :=
  .next (match s.mgmt.goal with
    | none => s
    | some p =>
      if (List.range 16).any (fun i => s.nicheState i == 3 && s.frameMode i != 0 && s.frameRuns i) then s
      else
        let up := decide (p < s.rd PWR_STATUS_PROFILE)
        let s := avs.foldl (fun s d => s.event d { code := 0x42, space := 3, kind := 6 }) s
        let s := { s.wr PWR_STATUS_CHANGING 0 with mgmt := { s.mgmt with goal := none } }
        if up && !avs.isEmpty then s
        else
          let s := (s.wr PWR_STATUS_PROFILE p).noteThrottle
          (List.range 16).foldl (fun s i => s.modNiche i (fun n => { n with trig := none })) s)

/-- A step down, to the next lower profile. -/
def State.stepDown (s : State) : State :=
  if s.rd PWR_STATUS_PROFILE < 2 ∧ s.mgmt.goal.isNone then (s.requestProfile (s.rd PWR_STATUS_PROFILE + 1)).1 else s

/-- A step back up, never above TARGET. -/
def State.stepUp (s : State) : State :=
  if s.rd PWR_STATUS_TARGET < s.rd PWR_STATUS_PROFILE ∧ s.mgmt.goal.isNone then (s.requestProfile (s.rd PWR_STATUS_PROFILE - 1)).1 else s

/-- The junction temperatures of dies 0 to 3, in sixteenths of a degree. -/
def State.putTj (s : State) (tj : List Nat) : State :=
  (((s.wr PWR_THERM_TJ0 (tj.getD 0 0)).wr PWR_THERM_TJ1 (tj.getD 1 0)).wr PWR_THERM_TJ2 (tj.getD 2 0)).wr PWR_THERM_TJ3 (tj.getD 3 0)

/-- Whether the hottest die is at or above a temperature, in units of 2^-17 degrees (R539). -/
def tjReaches (tj : List Nat) (limit : Nat) : Bool := tj.any (fun t => decide ((limit : Int) ≤ signed 16 (t % 65536) * 8192))

/-- THROTTLE_C in those units: a binary32 value from 80 to 95 (R532). -/
def State.throttleC (s : State) : Nat := 2 ^ 23 + s.obj 0x2012 0 % 2 ^ 23

/-- THERM_HOT: Tj at THROTTLE_C for 10 ms, or still there 1 s after a refused step (R539, R541). -/
def execThermHot (tj : List Nat) (s : State) : Out :=
  let s := s.putTj tj
  .next (if tjReaches tj s.throttleC then
      State.stepDown { s.alert MGT_ALERT_THERM_HOT with mgmt := { s.mgmt with thermWant := true } }
    else s)

/-- THERM_COOL: Tj 10 °C below THROTTLE_C for 10 s while throttled. -/
def execThermCool (tj : List Nat) (s : State) : Out :=
  let s := s.putTj tj
  .next (if s.mgmt.thermWant ∧ !tjReaches tj (s.throttleC - 10 * 2 ^ 17) then
      let s := s.stepUp
      { s with mgmt := { s.mgmt with thermWant := decide (s.rd PWR_STATUS_TARGET < s.rd PWR_STATUS_PROFILE) } }
    else s)

/-- THERM_LIMIT: no niche starts a frame, and START is refused. -/
def execThermLimit (tj : List Nat) (s : State) : Out :=
  let s := s.putTj tj
  .next (if tjReaches tj (100 * 2 ^ 17) then { s.alert MGT_ALERT_THERM_LIMIT with mgmt := { s.mgmt with thermLimit := true } } else s)

/-- THERM_LIMIT_END: niches start frames again. -/
def execThermLimitEnd (tj : List Nat) (s : State) : Out :=
  let s := s.putTj tj
  .next (if tjReaches tj (95 * 2 ^ 17) then s else { s with mgmt := { s.mgmt with thermLimit := false } })

/-- THERM_TRIP: THERM_TRIP# is asserted and every clock stops. -/
def execThermTrip (tj : List Nat) (s : State) : Out :=
  let s := s.putTj tj
  .next (if tjReaches tj (110 * 2 ^ 17) then { (s.haltAll.alert MGT_ALERT_THERM_TRIP) with mgmt := { s.mgmt with tripped := true } } else s)

/-- The TDP of the part at a profile, in watts (21 R585). -/
def State.tdp (s : State) (p : Nat) : Nat :=
  if s.small then [750, 545, 410].getD p 410 else if s.lite then [780, 550, 400].getD p 400 else [850, 620, 470].getD p 470

/-- POWER_CAP_CHECK: the average power of 100 ms against the cap; `low` says that the average has stayed 10 % below it for
10 s. -/
def execPowerCapCheck (avg : Nat) (low : Bool) (s : State) : Out :=
  let s := s.wr PWR_STATUS_POWER_W (min avg 0xFFFF)
  let cap := if s.obj 0x2022 0 = 0 then s.tdp (s.rd PWR_STATUS_PROFILE) else s.obj 0x2022 0
  .next (if cap < avg then
      State.stepDown { s.alert MGT_ALERT_POWER_CAP with mgmt := { s.mgmt with capWant := true } }
    else if low ∧ 10 * avg ≤ 9 * cap ∧ s.mgmt.capWant then
      let s := s.stepUp
      { s with mgmt := { s.mgmt with capWant := decide (s.rd PWR_STATUS_TARGET < s.rd PWR_STATUS_PROFILE) } }
    else s)

end Sys2Proof.Machine
end

