-- ==== Sys2Proof/Machine/CapTable.lean ====
section
/-! DEFINITION. The Catalogue's table of objects (spec/19_catalogue_atelier.md R522, R529 to R536,
spec/12_zovar_links.md R372, spec/13_pod_time_collectives.md R408, spec/20_counters_debug.md R567). -/

namespace Sys2Proof.Machine
open Sys2Proof

/-- Objects of one kind: `count` indices from `base` on, `step` apart, each with subindices `lo` to `hi`. Types are those of
R529, levels 0 PUBLIC to 3 VENDOR and 255 for none. `size` is the value's size in bytes, `elem` that of an ARRAY's element;
a number must lie in `bot` to `top`, a binary32 value by its encoding. -/
structure ObjDef where
  base : Nat
  lo : Nat
  hi : Nat
  type : Nat
  size : Nat
  read : Nat
  write : Nat
  count : Nat := 1
  step : Nat := 1
  elem : Nat := 0
  nv : Bool := false
  strap : Bool := false
  cmd : Bool := false
  bot : Nat := 0
  top : Nat := 2 ^ 64
deriving DecidableEq, Repr

/-- Identity, versions and straps (R531). -/
def identityObjects : List ObjDef := [
  { base := 0x1000, lo := 0, hi := 0, type := 9, size := 16, read := 0, write := 255 },
  { base := 0x1001, lo := 0, hi := 0, type := 1, size := 1, read := 0, write := 255 },
  { base := 0x1002, lo := 0, hi := 0, type := 9, size := 16, read := 0, write := 255 },
  { base := 0x1003, lo := 0, hi := 0, type := 1, size := 1, read := 0, write := 255 },
  { base := 0x1010, lo := 1, hi := 1, type := 9, size := 8, read := 0, write := 255, count := 4 },
  { base := 0x1010, lo := 2, hi := 2, type := 1, size := 1, read := 0, write := 255, count := 4 },
  { base := 0x1010, lo := 3, hi := 4, type := 2, size := 2, read := 0, write := 255, count := 4 },
  { base := 0x1010, lo := 5, hi := 5, type := 3, size := 4, read := 0, write := 255, count := 4 },
  { base := 0x1010, lo := 6, hi := 6, type := 1, size := 1, read := 0, write := 255, count := 4 },
  { base := 0x1010, lo := 7, hi := 7, type := 10, size := 97, read := 0, write := 255, count := 4 },
  { base := 0x1020, lo := 0, hi := 0, type := 10, size := 4096, read := 1, write := 255 },
  { base := 0x1100, lo := 1, hi := 4, type := 9, size := 16, read := 0, write := 255 },
  { base := 0x1101, lo := 0, hi := 0, type := 9, size := 16, read := 0, write := 255 },
  { base := 0x1102, lo := 0, hi := 0, type := 1, size := 1, read := 0, write := 255 },
  { base := 0x1103, lo := 1, hi := 4, type := 1, size := 1, read := 0, write := 255 },
  { base := 0x1104, lo := 0, hi := 0, type := 3, size := 4, read := 0, write := 255 },
  { base := 0x1200, lo := 1, hi := 5, type := 1, size := 1, read := 0, write := 255, strap := true },
  { base := 0x1201, lo := 1, hi := 5, type := 1, size := 1, read := 0, write := 255, strap := true }]

/-- Supplies, temperature and power (R532). -/
def supplyObjects : List ObjDef := [
  { base := 0x2000, lo := 1, hi := 12, type := 2, size := 2, read := 0, write := 255 },
  { base := 0x2001, lo := 1, hi := 12, type := 2, size := 2, read := 0, write := 3 },
  { base := 0x2002, lo := 1, hi := 12, type := 2, size := 2, read := 0, write := 3 },
  { base := 0x2003, lo := 1, hi := 12, type := 3, size := 4, read := 0, write := 255 },
  { base := 0x2010, lo := 1, hi := 4, type := 7, size := 4, read := 0, write := 255 },
  { base := 0x2011, lo := 1, hi := 8, type := 7, size := 4, read := 0, write := 255 },
  { base := 0x2012, lo := 0, hi := 0, type := 7, size := 4, read := 0, write := 2, bot := 1117782016, top := 1119748096, nv := true },
  { base := 0x2020, lo := 0, hi := 0, type := 1, size := 1, read := 0, write := 2, top := 2, strap := true },
  { base := 0x2021, lo := 1, hi := 12, type := 2, size := 2, read := 1, write := 3, nv := true },
  { base := 0x2022, lo := 0, hi := 0, type := 3, size := 4, read := 0, write := 2, nv := true },
  { base := 0x2023, lo := 0, hi := 0, type := 3, size := 4, read := 0, write := 255 },
  { base := 0x2030, lo := 0, hi := 0, type := 4, size := 8, read := 0, write := 1 }]

/-- Links (R533), 16 indices each. -/
def linkObjects : List ObjDef := [
  { base := 0x3000, lo := 0, hi := 0, type := 0, size := 1, read := 0, write := 1, count := 96, step := 16 },
  { base := 0x3001, lo := 0, hi := 0, type := 4, size := 8, read := 0, write := 255, count := 96, step := 16 },
  { base := 0x3002, lo := 0, hi := 0, type := 4, size := 8, read := 0, write := 255, count := 96, step := 16 },
  { base := 0x3003, lo := 0, hi := 0, type := 4, size := 8, read := 0, write := 255, count := 96, step := 16 },
  { base := 0x3004, lo := 1, hi := 1, type := 8, size := 8, read := 0, write := 1, count := 96, step := 16, bot := 10000, top := 10000000, nv := true },
  { base := 0x3004, lo := 2, hi := 2, type := 8, size := 8, read := 0, write := 1, count := 96, step := 16, bot := 1000000, top := 1000000000, nv := true },
  { base := 0x3004, lo := 3, hi := 3, type := 7, size := 4, read := 0, write := 1, count := 96, step := 16, bot := 841731191, top := 925353388, nv := true },
  { base := 0x3004, lo := 4, hi := 4, type := 8, size := 8, read := 0, write := 1, count := 96, step := 16, bot := 100000, top := 100000000, nv := true },
  { base := 0x3004, lo := 5, hi := 5, type := 8, size := 8, read := 0, write := 1, count := 96, step := 16, bot := 100, top := 100000, nv := true },
  { base := 0x3004, lo := 6, hi := 6, type := 8, size := 8, read := 0, write := 1, count := 96, step := 16, bot := 1000000, top := 1000000000, nv := true },
  { base := 0x3004, lo := 7, hi := 7, type := 8, size := 8, read := 0, write := 1, count := 96, step := 16, bot := 10000, top := 10000000, nv := true },
  { base := 0x3004, lo := 8, hi := 8, type := 8, size := 8, read := 0, write := 1, count := 96, step := 16, bot := 500, top := 50000, nv := true },
  { base := 0x3004, lo := 9, hi := 9, type := 3, size := 4, read := 0, write := 1, count := 96, step := 16, bot := 1, top := 255, nv := true },
  { base := 0x3004, lo := 10, hi := 10, type := 8, size := 8, read := 0, write := 1, count := 96, step := 16, bot := 1000, top := 100000, nv := true },
  { base := 0x3004, lo := 11, hi := 11, type := 8, size := 8, read := 0, write := 1, count := 96, step := 16, bot := 10000, top := 1000000, nv := true },
  { base := 0x3004, lo := 12, hi := 12, type := 3, size := 4, read := 0, write := 1, count := 96, step := 16, bot := 1, top := 15, nv := true },
  { base := 0x3004, lo := 13, hi := 13, type := 8, size := 8, read := 0, write := 1, count := 96, step := 16, bot := 1000000, top := 10000000000, nv := true },
  { base := 0x3004, lo := 14, hi := 14, type := 8, size := 8, read := 0, write := 1, count := 96, step := 16, bot := 100000, top := 1000000000, nv := true },
  { base := 0x3004, lo := 15, hi := 15, type := 3, size := 4, read := 0, write := 1, count := 96, step := 16, bot := 1, top := 4294967295, nv := true },
  { base := 0x3005, lo := 0, hi := 0, type := 4, size := 8, read := 0, write := 1, count := 96, step := 16 },
  { base := 0x3006, lo := 1, hi := 3, type := 4, size := 8, read := 0, write := 1, count := 96, step := 16 },
  { base := 0x3007, lo := 0, hi := 0, type := 7, size := 4, read := 0, write := 1, count := 96, step := 16, bot := 1077936128, top := 1090519040, nv := true },
  { base := 0x3008, lo := 0, hi := 0, type := 0, size := 1, read := 0, write := 1, count := 96, step := 16, strap := true },
  { base := 0x3009, lo := 1, hi := 3, type := 0, size := 1, read := 0, write := 1, count := 96, step := 16 },
  { base := 0x300A, lo := 0, hi := 0, type := 0, size := 1, read := 255, write := 1, count := 96, step := 16, cmd := true },
  { base := 0x300B, lo := 0, hi := 0, type := 10, size := 256, read := 1, write := 3, count := 96, step := 16, nv := true }]

/-- The device and the timebase (R533). -/
def podObjects : List ObjDef := [
  { base := 0x3800, lo := 0, hi := 0, type := 2, size := 2, read := 0, write := 2, top := 4094, nv := true },
  { base := 0x3801, lo := 1, hi := 3, type := 4, size := 8, read := 0, write := 255 },
  { base := 0x3802, lo := 1, hi := 1, type := 8, size := 8, read := 0, write := 1, bot := 10000, top := 10000000, nv := true },
  { base := 0x3802, lo := 2, hi := 2, type := 8, size := 8, read := 0, write := 1, bot := 1000, top := 1000000, nv := true },
  { base := 0x3802, lo := 3, hi := 3, type := 3, size := 4, read := 0, write := 1, bot := 4, top := 255, nv := true },
  { base := 0x3802, lo := 4, hi := 4, type := 3, size := 4, read := 0, write := 1, bot := 2, top := 1048576, nv := true },
  { base := 0x3802, lo := 5, hi := 5, type := 8, size := 8, read := 0, write := 1, bot := 1000000, top := 10000000000, nv := true },
  { base := 0x3802, lo := 6, hi := 6, type := 3, size := 4, read := 0, write := 1, bot := 900, top := 16777216, nv := true },
  { base := 0x3802, lo := 7, hi := 7, type := 8, size := 8, read := 0, write := 1, bot := 2000, top := 1000000, nv := true },
  { base := 0x3802, lo := 8, hi := 8, type := 8, size := 8, read := 0, write := 1, bot := 20000, top := 100000000, nv := true },
  { base := 0x3802, lo := 9, hi := 9, type := 8, size := 8, read := 0, write := 1, bot := 1000000, top := 100000000000, nv := true },
  { base := 0x3803, lo := 1, hi := 2, type := 0, size := 1, read := 0, write := 2 },
  { base := 0x3804, lo := 1, hi := 4, type := 4, size := 8, read := 0, write := 255 },
  { base := 0x3805, lo := 0, hi := 0, type := 4, size := 8, read := 0, write := 1 }]

/-- Integrity, Restorer and resets (R534). -/
def restorerObjects : List ObjDef := [
  { base := 0x4000, lo := 0, hi := 0, type := 4, size := 8, read := 0, write := 1 },
  { base := 0x4001, lo := 0, hi := 0, type := 4, size := 8, read := 0, write := 1, count := 2 },
  { base := 0x4010, lo := 0, hi := 0, type := 11, size := 32768, read := 1, write := 255, count := 4, elem := 32 },
  { base := 0x4020, lo := 0, hi := 0, type := 11, size := 32768, read := 1, write := 3, elem := 16, nv := true },
  { base := 0x4030, lo := 1, hi := 144, type := 4, size := 8, read := 0, write := 255 },
  { base := 0x4040, lo := 1, hi := 16, type := 1, size := 1, read := 1, write := 2, top := 1 },
  { base := 0x4041, lo := 0, hi := 0, type := 8, size := 8, read := 1, write := 2, bot := 10000000, top := 3600000000000, nv := true },
  { base := 0x4042, lo := 0, hi := 0, type := 1, size := 1, read := 1, write := 2, top := 25, nv := true },
  { base := 0x4043, lo := 0, hi := 0, type := 8, size := 8, read := 1, write := 2, bot := 200, top := 100000, nv := true },
  { base := 0x4044, lo := 1, hi := 8, type := 3, size := 4, read := 1, write := 2, nv := true },
  { base := 0x4050, lo := 1, hi := 144, type := 1, size := 1, read := 1, write := 2, top := 3 },
  { base := 0x4060, lo := 1, hi := 3, type := 2, size := 2, read := 1, write := 2, nv := true },
  { base := 0x4070, lo := 0, hi := 0, type := 1, size := 1, read := 255, write := 2, top := 63, cmd := true },
  { base := 0x4071, lo := 1, hi := 3, type := 4, size := 8, read := 0, write := 1 },
  { base := 0x4080, lo := 0, hi := 0, type := 11, size := 16384, read := 1, write := 255, elem := 64 },
  { base := 0x4081, lo := 0, hi := 0, type := 10, size := 268435456, read := 1, write := 255 },
  { base := 0x4082, lo := 0, hi := 0, type := 11, size := 4194304, read := 1, write := 255, elem := 262144, nv := true }]

/-- Niches and hosts (R535). -/
def hostObjects : List ObjDef := [
  { base := 0x5000, lo := 1, hi := 2, type := 4, size := 8, read := 0, write := 255, count := 16 },
  { base := 0x5000, lo := 3, hi := 3, type := 10, size := 16, read := 0, write := 255, count := 16 },
  { base := 0x5000, lo := 4, hi := 4, type := 0, size := 1, read := 0, write := 255, count := 16 },
  { base := 0x5000, lo := 5, hi := 5, type := 10, size := 0, read := 1, write := 255, count := 16 },
  { base := 0x5010, lo := 1, hi := 16, type := 0, size := 1, read := 1, write := 2, nv := true },
  { base := 0x5011, lo := 1, hi := 16, type := 0, size := 1, read := 1, write := 2 },
  { base := 0x5012, lo := 0, hi := 0, type := 10, size := 64, read := 255, write := 2, cmd := true },
  { base := 0x5020, lo := 1, hi := 2, type := 3, size := 4, read := 0, write := 255 }]

/-- Derived counters (20 R567). -/
def counterObjects : List ObjDef := [
  { base := 0x6000, lo := 0, hi := 0, type := 8, size := 8, read := 0, write := 1, bot := 100000, top := 1000000000, nv := true },
  { base := 0x6001, lo := 0, hi := 0, type := 4, size := 8, read := 0, write := 255 },
  { base := 0x6002, lo := 1, hi := 8, type := 7, size := 4, read := 0, write := 255, count := 2 },
  { base := 0x6004, lo := 1, hi := 96, type := 7, size := 4, read := 0, write := 255, count := 2 },
  { base := 0x6006, lo := 1, hi := 4, type := 7, size := 4, read := 0, write := 255 },
  { base := 0x6007, lo := 1, hi := 8, type := 7, size := 4, read := 0, write := 255 },
  { base := 0x6010, lo := 1, hi := 96, type := 10, size := 16, read := 0, write := 255 }]

/-- Firmware, the NV store and security (R536). -/
def securityObjects : List ObjDef := [
  { base := 0x7000, lo := 1, hi := 4, type := 1, size := 1, read := 0, write := 255 },
  { base := 0x7001, lo := 0, hi := 0, type := 1, size := 1, read := 0, write := 2, top := 1 },
  { base := 0x7002, lo := 0, hi := 0, type := 10, size := 12582912, read := 255, write := 2, cmd := true },
  { base := 0x7003, lo := 0, hi := 0, type := 0, size := 1, read := 255, write := 2, cmd := true },
  { base := 0x7004, lo := 0, hi := 0, type := 1, size := 1, read := 255, write := 2, top := 3, cmd := true },
  { base := 0x7005, lo := 0, hi := 0, type := 1, size := 1, read := 255, write := 2, top := 3, cmd := true },
  { base := 0x7006, lo := 0, hi := 0, type := 8, size := 8, read := 0, write := 2, bot := 10000000000, top := 3600000000000, nv := true },
  { base := 0x7007, lo := 0, hi := 0, type := 3, size := 4, read := 255, write := 2, cmd := true },
  { base := 0x7010, lo := 1, hi := 1, type := 3, size := 4, read := 0, write := 255 },
  { base := 0x7010, lo := 2, hi := 2, type := 0, size := 1, read := 0, write := 255 },
  { base := 0x7010, lo := 3, hi := 3, type := 3, size := 4, read := 0, write := 255 },
  { base := 0x7020, lo := 1, hi := 1, type := 8, size := 8, read := 1, write := 2, bot := 1000000000, top := 60000000000, nv := true },
  { base := 0x7020, lo := 2, hi := 2, type := 1, size := 1, read := 1, write := 2, bot := 1, top := 16, nv := true },
  { base := 0x7020, lo := 3, hi := 3, type := 8, size := 8, read := 1, write := 2, bot := 86400000000000, top := 31536000000000000, nv := true },
  { base := 0x7020, lo := 4, hi := 4, type := 0, size := 1, read := 1, write := 2, nv := true },
  { base := 0x7030, lo := 0, hi := 0, type := 11, size := 192, read := 0, write := 2, elem := 48, nv := true },
  { base := 0x7031, lo := 0, hi := 0, type := 10, size := 48, read := 0, write := 2, nv := true },
  { base := 0x7040, lo := 0, hi := 0, type := 4, size := 8, read := 0, write := 255 },
  { base := 0x7041, lo := 0, hi := 0, type := 10, size := 48, read := 0, write := 255 },
  { base := 0x7042, lo := 0, hi := 0, type := 10, size := 256, read := 255, write := 2, cmd := true },
  { base := 0x7043, lo := 0, hi := 0, type := 11, size := 1600, read := 0, write := 255, elem := 64 },
  { base := 0x7050, lo := 1, hi := 1, type := 1, size := 1, read := 0, write := 2, top := 2, nv := true },
  { base := 0x7050, lo := 2, hi := 2, type := 10, size := 16, read := 0, write := 2, nv := true },
  { base := 0x7050, lo := 3, hi := 3, type := 1, size := 1, read := 0, write := 2, nv := true },
  { base := 0x7050, lo := 4, hi := 4, type := 10, size := 16, read := 0, write := 2, nv := true },
  { base := 0x7050, lo := 5, hi := 5, type := 2, size := 2, read := 0, write := 2, nv := true }]

/-- The rows of R531 to R536 and 20 R567. -/
def objRows : List ObjDef :=
  identityObjects ++ supplyObjects ++ linkObjects ++ podObjects ++ restorerObjects ++ hostObjects ++ counterObjects ++ securityObjects

/-- Subindex 0 of an object with subindices from 1 upward (R530). -/
def subZero (d : ObjDef) : ObjDef := { d with lo := 0, hi := 0, type := 1, size := 1, write := 255, nv := false, strap := false, cmd := false }

/-- Every object. -/
def objTable : List ObjDef := objRows ++ (objRows.filter (fun d => d.lo == 1)).map subZero

/-- Whether an index is one of a row's. -/
def ObjDef.holds (d : ObjDef) (i : Nat) : Bool :=
  decide (d.base ≤ i) && (i - d.base) % d.step == 0 && decide ((i - d.base) / d.step < d.count)

/-- The row of an object. -/
def objDef (i j : Nat) : Option ObjDef := objTable.find? (fun d => d.holds i && decide (d.lo ≤ j ∧ j ≤ d.hi))

/-- The highest subindex of an index. -/
def objTop (i : Nat) : Nat := (objRows.filter (fun d => d.holds i)).foldl (fun m d => max m d.hi) 0

/-- The first object of a row after key `k`, index * 256 + subindex. -/
def ObjDef.after (d : ObjDef) (k : Nat) : Option Nat :=
  let at' := fun (i : Nat) => if i * 256 + d.hi ≤ k then none else some (max (i * 256 + d.lo) (k + 1))
  let i := k / 256
  if i < d.base then at' d.base
  else
    let n := (i - d.base) / d.step
    let here := if (i - d.base) % d.step = 0 ∧ n < d.count then at' i else none
    match here with
    | some x => some x
    | none => if n + 1 < d.count then at' (d.base + d.step * (n + 1)) else none

/-- The next object after a key that a level may read (R525). -/
def nextObj (level k : Nat) : Option Nat :=
  (objTable.filter (fun d => decide (d.read ≤ level))).foldl (fun best d =>
    match best, d.after k with
    | some a, some b => some (min a b)
    | none, x => x
    | x, none => x) none

/-- The die that an object belongs to, where it is one die's. -/
def objDie (i j : Nat) : Option Nat :=
  if 0x3000 ≤ i ∧ i < 0x3600 then some ((i - 0x3000) / 16 / 24)
  else if 0x4010 ≤ i ∧ i < 0x4014 then some (i - 0x4010)
  else if (i = 0x4030 ∨ i = 0x4050) ∧ 0 < j then some (courtDie (j - 1))
  else none

/-- Whether a value lies in its object's range, with the ranges that depend on another value (R532, R534, 13 R408, 17 R500). -/
def State.objRange (s : State) (d : ObjDef) (i j v : Nat) : Bool :=
  (if d.type = 0 then decide (v ≤ 1) else decide (d.bot ≤ v ∧ v ≤ d.top))
    && (match i with
      | 0x2022 => v == 0 || decide (300 ≤ v ∧ v ≤ s.tdp (s.rd PWR_STATUS_PROFILE))
      | 0x3802 => (j != 7 || decide (v < s.podT 8)) && (j != 8 || decide (s.podT 7 < v))
      | 0x4060 => (match j with
        | 1 => v == 0 || decide (16 ≤ v ∧ v ≤ 31)
        | 2 => v == 0 || decide (16 ≤ v ∧ v ≤ 30)
        | _ => decide (1 ≤ v ∧ v ≤ 600))
      | _ => true)

end Sys2Proof.Machine
end

