-- ==== Sys2Proof/Machine/CapRead.lean ====
section
/-! DEFINITION. What a READ of each object of the Catalogue returns (spec/19_catalogue_atelier.md R528 to R536,
spec/20_counters_debug.md R566, R567). -/

namespace Sys2Proof.Machine
open Sys2Proof

/-- A register of a die block as a word. -/
def State.dieWord (s : State) (d off : Nat) : Nat :=
  let busy := if d = 0 ∧ 0x8100 ≤ off ∧ off < 0x8180 then
      16 * b2n (s.oldBusy ((off - 0x8100) / 8)) + 8 * b2n (s.privBusy ((off - 0x8100) / 8)) else 0
  regWord dieRst Machine.dieRegs (fget regs0 s.dieRegs d) off + busy
/-- A register of the package block as a word. -/
def State.pkgWord (s : State) (off : Nat) : Nat :=
  let w := regWord pkgRst Machine.pkgRegs s.pkgRegs off
  if off = 0x6080 then w - bits w 23 16 * 2 ^ 16 + s.unexplained24 * 2 ^ 16 else w

/-- A register of a link; LNK_STATUS shows the fuses and the flaw map (12 R378). -/
def State.linkWord (s : State) (l off : Nat) : Nat :=
  let w := s.dieWord (l / 24) (0xC000 + 0x200 * (l % 24) + off)
  if off = 8 then w + b2n (s.linkFused l) * 2 ^ 15 + b2n (s.laneFenced l 1) * 2 ^ 14 + b2n (s.laneFenced l 0) * 2 ^ 13 else w

/-- The binary32 encoding of a quotient. -/
def quotF32 (neg : Bool) (a b : Nat) : Nat := (convert 13 false false 0 (vDiv (.fin neg a 0) (.fin false b 0)).1).out

/-- A derived byte counter's rate in MB/s (20 R566). -/
def State.bandwidth (s : State) (i j : Nat) : Nat :=
  let k := 256 * i + j
  quotF32 false ((fget z0 s.mgmt.bwNow k + 2 ^ 48 - fget z0 s.mgmt.bwPrev k % 2 ^ 48) % 2 ^ 48 * 1000) (s.obj 0x6000 0)

/-- SVN_MIN (R549). -/
def State.svnMin (s : State) : Nat := s.mgmt.svn.getD (Config.objectValue 0x1104 0)

/-- The defaults that the straps set (18 R503): boot mode, I3C address, profile, port B off, FORCE_RS. -/
def State.strapDefault (s : State) : Nat → Nat
  | 1 => s.rd MGT_STRAPS_BOOT | 2 => s.rd MGT_STRAPS_I3C_ADDR | 3 => s.rd MGT_STRAPS_PROFILE_EFF
  | 4 => s.rd MGT_STRAPS_HOSTPORT | _ => s.rd MGT_STRAPS_LINKFEC

/-- The straps as sampled. -/
def State.strap (s : State) : Nat → Nat
  | 1 => s.rd MGT_STRAPS_BOOT | 2 => s.rd MGT_STRAPS_SLOT | 3 => s.rd MGT_STRAPS_PROFILE
  | 4 => s.rd MGT_STRAPS_HOSTPORT | _ => s.rd MGT_STRAPS_LINKFEC

/-- A junction temperature in sixteenths of a degree. -/
def State.tjRaw (s : State) : Nat → Nat
  | 1 => s.rd PWR_THERM_TJ0 | 2 => s.rd PWR_THERM_TJ1 | 3 => s.rd PWR_THERM_TJ2 | _ => s.rd PWR_THERM_TJ3

/-- A number object of link `l` (R533). -/
def State.linkObj (s : State) (l k j : Nat) : Nat :=
  match k with
  | 1 => s.linkWord l 0x08 | 2 => s.linkWord l 0x18 | 3 => s.linkWord l 0x20 | 5 => s.linkWord l 0x28
  | 6 => s.linkWord l (0x28 + 8 * j)
  | 8 => s.lrd l LNK_CTRL_FORCE_RS
  | 9 => (match j with | 1 => s.lrd l LNK_CTRL_RATE_CAP | 2 => s.lrd l LNK_CTRL_X1_ALLOW | _ => s.lrd l LNK_CTRL_AUTO_RESTART)
  | 0 => if s.linkFused l then 0 else s.obj (0x3000 + 16 * l) 0
  | _ => s.obj (0x3000 + 16 * l + k) j

/-- Whether the ISTORE section of a niche's cast holds PCFG words (16 R477). -/
def State.pcfgPresent (s : State) (i : Nat) : Bool :=
  match (s.niche i).cast with
  | some c => (c.istore ++ c.mqWords).any (fun r => bits r.v.toNat 31 26 == 0x2A)
  | none => false

/-- The value of a number object; none where it is measured and no state of this model holds it. -/
def State.objVal (s : State) (i j : Nat) : Option Nat :=
  if j = 0 ∧ objTop i ≠ 0 then some (objTop i)
  else if 0x3000 ≤ i ∧ i < 0x3600 then some (s.linkObj ((i - 0x3000) / 16) (i % 16) j)
  else if 0x5000 ≤ i ∧ i < 0x5010 then some (if j = 4 then b2n (s.pcfgPresent (i - 0x5000)) else s.pkgWord (0x1000 + 0x10 * (i - 0x5000) + 8 * (j - 1)))
  else match i with
    | 0x1001 => some s.stepping
    | 0x1003 => some (s.rd MGT_BOOT_STATUS_VARIANT)
    | 0x1103 => some (fget z0 s.mgmt.fwRuns (j - 1) + 4 * fget z0 s.mgmt.fwSlot (j - 1))
    | 0x1104 => some s.svnMin
    | 0x1200 => some (s.strap j)
    | 0x1201 => some (s.strapDefault j)
    | 0x2000 | 0x2003 | 0x2011 | 0x5020 => none
    | 0x2010 =>
      let z := signed 16 (s.tjRaw j)
      some (quotF32 (decide (z < 0)) z.natAbs 16)
    | 0x2020 => some (s.rd PWR_STATUS_TARGET)
    | 0x2023 => some (s.rd PWR_STATUS_POWER_W)
    | 0x2030 => some (s.pkgWord 0x7810)
    | 0x3801 => some (s.pkgWord (match j with | 1 => 0x3008 | 2 => 0x3010 | _ => 0x3000))
    | 0x3803 => some (if j = 1 then s.rd TMB_CTRL_ENABLE else s.rd TMB_CTRL_STEP_ALLOW)
    | 0x3804 => some (s.pkgWord (0x3040 + 8 * (j - 1)))
    | 0x3805 => some (s.pkgWord 0x3020)
    | 0x4000 => some (s.pkgWord 0x6000)
    | 0x4001 => some (s.pkgWord 0x6080)
    | 0x4002 => some (s.pkgWord 0x6088)
    | 0x4030 => some ((s.court (j - 1)).rd RES_ROWMAP_ROWS)
    | 0x4050 => some ((s.court (j - 1)).rd RES_RASP_CTRL_ENABLE + 2 * (s.court (j - 1)).rd RES_RASP_CTRL_MODE)
    | 0x4071 => some (s.pkgWord (match j with | 1 => 0x7000 | 2 => 0x7008 | _ => 0x7018))
    | 0x6001 => some s.mgmt.bwTick
    | 0x6002 | 0x6003 | 0x6004 | 0x6005 | 0x6006 | 0x6007 => some (s.bandwidth i j)
    | 0x7000 => some (fget z0 s.mgmt.fwState (j - 1))
    | 0x7001 => some s.mgmt.fwTarget
    | 0x7010 => (match j with
      | 1 => some (s.mgmt.nvQueue.length + (s.flaws.filter (fun f => !f.stored)).length)
      | 2 => some (1 - s.rd PWR_STATUS_NV_OK)
      | _ => none)
    | 0x7040 => some (s.pkgWord 0x7900)
    | _ => some (s.obj i j)

/-- Bytes that fuses or an image hold and the spec does not state. -/
def fixedBytes (i j n : Nat) : List (BitVec 8) := (List.range n).map (fun k => BitVec.ofNat 8 (Config.objectValue i (256 * (k + 1) + j)))

/-- Free bytes. -/
def State.freeBytes (s : State) (n : Nat) : List (BitVec 8) × State :=
  ((List.range n).map (fun k => BitVec.ofNat 8 (Config.freeValue (s.free + k))), { s with free := s.free + n })

/-- The current DEBUG_NONCE (R548). -/
def State.nonce (s : State) : List (BitVec 8) := fixedBytes 0x7041 s.mgmt.nonces 48

/-- PACKAGE_SERIAL. -/
def packageSerial : List (BitVec 8) := fixedBytes 0x1002 0 16

/-- `n` bytes of a list, zeros after its end. -/
def padBytes (bs : List (BitVec 8)) (off n : Nat) : List (BitVec 8) := (List.range n).map (fun k => bs.getD (off + k) 0)

/-- Credits held and receive buffers occupied of a link, by virtual lane, 16 bits each (20 R567). -/
def State.creditPair (s : State) (l : Nat) : List (BitVec 8) :=
  let k := s.link l
  [0, 1, 2, 3].flatMap (fun v =>
    valBytes (s.partnerBuffers l v - (fget z0 k.used v + 64 - fget z0 k.back v) % 64) 2 ++ valBytes (fget z0 k.held v) 2)

/-- A byte-valued object as Voinfort holds it. -/
def State.blob (s : State) (i j : Nat) : List (BitVec 8) := fget blob0 s.mgmt.blobs (256 * i + j)

/-- The bytes that an object holds now. -/
def State.objLen (s : State) (d : ObjDef) (i j : Nat) : Nat :=
  if 0x3000 ≤ i ∧ i < 0x3600 ∧ i % 16 = 11 then (if (s.link ((i - 0x3000) / 16)).saved.isSome then 256 else 0)
  else if 0x5000 ≤ i ∧ i < 0x5010 ∧ j = 5 then (match (s.niche (i - 0x5000)).cast with | some c => c.timing.length | none => 0)
  else if i = 0x7030 then (s.blob i 0).length
  else d.size

/-- `n` bytes of an object from byte `off`. -/
def State.objSlice (s : State) (d : ObjDef) (i j off n : Nat) : List (BitVec 8) × State :=
  if d.type < 9 then
    match s.objVal i j with
    | some v => (((valBytes v d.size).drop off).take n, s)
    | none => (((valBytes (Config.freeValue s.free) d.size).drop off).take n, { s with free := s.free + 1 })
  else if 0x3000 ≤ i ∧ i < 0x3600 then s.freeBytes n
  else if 0x5000 ≤ i ∧ i < 0x5010 then
    (match (s.niche (i - 0x5000)).cast with
     | some c => if j = 3 then padBytes (valBytes c.castId 16) off n else padBytes (c.timing.map (BitVec.ofNat 8)) off n
     | none => List.replicate n 0, s)
  else if 0x4010 ≤ i ∧ i < 0x4014 then
    (padBytes ((List.range (n / 32 + 1)).flatMap (fun k => valBytes (fget flog0 s.flog (1024 * (i - 0x4010) + off / 32 + k)).toNat 32)) (off % 32) n, s)
  else match i with
    | 0x4020 => (padBytes (s.flaws.flatMap flawBytes) off n, s)
    | 0x4080 | 0x4081 =>
      let r := s.hbmRead (s.crashBase + off) n
      (r.1.1, r.2)
    | 0x4082 => (padBytes (match (s.mgmt.nv.filter (fun e => e.area == 3 && e.key == off / 262144)).getLast? with
        | some e => e.data | none => []) (off % 262144) n, s)
    | 0x6010 => (padBytes (s.creditPair (j - 1)) off n, s)
    | 0x7030 | 0x7031 | 0x7050 => (padBytes (s.blob i j) off n, s)
    | 0x7041 => (padBytes s.nonce off n, s)
    | 0x7043 => s.freeBytes n
    | _ => (padBytes (fixedBytes i j d.size) off n, s)

end Sys2Proof.Machine
end

