-- ==== Sys2Proof/Machine/Firmware.lean ====
section
/-! DEFINITION. SPDM sessions, the key store, debug tokens and firmware updates (spec/19_catalogue_atelier.md R522, R523, R545
to R551). -/

namespace Sys2Proof.Machine
open Sys2Proof

/-- How a Catalogue operation ends: STATUS of R526, the response's data, and the machine. -/
structure CapRes where
  st : Nat
  data : List (BitVec 8) := []
  s : State

/-- An operation that ends with a status. -/
def State.capEnds (s : State) (st : Nat) : CapRes := { st := st, s := s }
/-- STATE with its reason and a niche (R526). -/
def State.capState (s : State) (reason : Nat) (niche : Option Nat) : CapRes :=
  { st := 7, data := valBytes reason 1 ++ valBytes (niche.getD 0) 1 ++ valBytes 0 2, s := s }

/-! ### SPDM sessions (R522, R523) -/

/-- The open sessions, shown in SEC_STATUS.SESSIONS. -/
def State.putSessions (s : State) (l : List Session) : State := { s.wr SEC_STATUS_SESSIONS l.length with mgmt := { s.mgmt with sessions := l } }

/-- Traffic in a session. -/
def State.touchSession (s : State) (id : Nat) : State :=
  let now := s.tick
  s.putSessions (s.mgmt.sessions.map (fun x => if x.id = id then { x with tick := now } else x))

/-- What a request to the responder changes: at most 8 sessions, at the level that the requester's chain grants. -/
def State.spdm (s : State) (who : Nat) (m : Spdm) : State :=
  let ss := s.mgmt.sessions
  match m.op with
  | 1 => if 8 ≤ ss.length ∨ ss.any (fun x => x.id == m.sid) ∨ !s.flag SEC_STATUS_KEYS_VALID then s
    else s.putSessions (ss ++ [{ who := who, id := m.sid, tick := s.tick
                                 level := if m.anchor = 2 then 3 else if m.anchor = 1 ∧ s.flag SEC_STATUS_ANCHOR_SET then 2 else 1 }])
  | 2 => s.putSessions (ss.filter (fun x => x.id != m.sid))
  | _ => s

/-- The responder answers while it is ready. -/
def State.spdmAnswer (s : State) (who : Nat) (m : Spdm) : State :=
  if s.flag SEC_STATUS_SPDM_READY then
    let s := s.spdm who m
    { s with mgmt := { s.mgmt with answer := m.resp } }
  else s

/-! ### The key store (R547) -/

/-- The key store is zeroised, and the sessions that its keys carry end. -/
def State.zeroise (s : State) : State := ((s.wr SEC_STATUS_KEYS_CLEARED 1).wr SEC_STATUS_KEYS_VALID 0).endSessions
/-- The scan gate opens, after the zeroisation. -/
def State.openGate (s : State) : State := State.zeroise { s with mgmt := { s.mgmt with gate := true } }

/-! ### Debug tokens (R548) -/

/-- Whether a token's fixed fields, serial, nonce and NOT_AFTER are right, and who signed it may sign its scope. -/
def State.tokenOk (s : State) (t : List (BitVec 8)) (sigBy : Nat) : Bool :=
  let scope := bytesVal (t.drop 1) 1
  t.length == 256 && bytesVal t 1 == 1 && decide (1 ≤ scope ∧ scope ≤ 3) && (t.drop 2).take 14 == List.replicate 14 0
    && (t.drop 88).take 72 == List.replicate 72 0 && (t.drop 16).take 16 == packageSerial && (t.drop 32).take 48 == s.nonce
    && decide (s.tick ≤ bytesVal (t.drop 80) 8)
    && (sigBy == 1 || (sigBy == 2 && scope != 3 && padBytes (s.blob 0x7031 0) 0 48 != List.replicate 48 0))

/-- Scope 1 is admitted while no niche is RUNNING and every link is DISABLED. -/
def State.scopeOne (s : State) : Bool :=
  (List.range 16).all (fun i => s.nicheState i != 3) && (List.range 96).all (fun l => s.lstate l == 0)

/-- A scope is unlocked. -/
def State.unlock (s : State) (scope : Nat) : State :=
  let s := (s.wr SEC_STATUS_DEBUG_SCOPE (max scope (s.rd SEC_STATUS_DEBUG_SCOPE))).alert MGT_ALERT_DEBUG_UNLOCKED
  if scope = 3 then s.openGate else if scope = 2 then s.zeroise else s

/-- A token is refused; the third refusal locks. -/
def State.tokenRefused (s : State) : State :=
  let n := min 3 (s.rd SEC_STATUS_DEBUG_FAILS + 1)
  let s := s.wr SEC_STATUS_DEBUG_FAILS n
  if n = 3 then s.wr SEC_STATUS_DEBUG_LOCKOUT 1 else s

/-- A token is tried: the nonce changes, and the scope is unlocked or the token refused. The status of a refusal is not
stated: a free one of R526's. -/
def State.token (s : State) (t : List (BitVec 8)) (sigBy : Nat) : CapRes :=
  let ok := s.tokenOk t sigBy && !s.flag SEC_STATUS_DEBUG_LOCKOUT
  let scope := bytesVal (t.drop 1) 1
  let s := { s with mgmt := { s.mgmt with nonces := s.mgmt.nonces + 1 } }
  if ok then (if scope = 1 && !s.scopeOne then s.capState 4 none else (s.unlock scope).capEnds 0)
  else
    let st := 1 + Config.freeValue s.free % 8
    (State.tokenRefused { s with free := s.free + 1 }).capEnds st

/-! ### Firmware (R549 to R551) -/

/-- The role of a die: 0 primary, 1 secondary (R536). -/
def dieRole (d : Nat) : Nat := if d = 0 ∨ d = 3 then 0 else 1
/-- The dies of a role. -/
def roleDies (r : Nat) : List Nat := if r = 0 then [0, 3] else [1, 2]

/-- FW_STATE of a die. -/
def State.fwState (s : State) (d : Nat) : Nat := fget z0 s.mgmt.fwState d
/-- Set it. -/
def State.setFw (s : State) (d v : Nat) : State := { s with mgmt := { s.mgmt with fwState := fset z0 s.mgmt.fwState d v } }
/-- Set it for the dies of a role. -/
def State.setRole (s : State) (r v : Nat) : State := (roleDies r).foldl (fun s d => s.setFw d v) s

/-- The inactive slot of a role: none while its dies' active slots differ. -/
def State.inactiveSlot (s : State) (r : Nat) : Option Nat :=
  match (roleDies r).map (fun d => fget z0 s.mgmt.fwSlot d % 2) with
  | [a, b] => if a = b then some (1 - a) else none
  | _ => none

/-- An update of a role's dies is past VERIFIED and not at COMMITTED or FAILED (R551). -/
def State.fwBusy (s : State) (r : Nat) : Bool := (roleDies r).any (fun d => [2, 3, 4].contains (s.fwState d))

/-- FW_TARGET. -/
def State.fwTargetWrite (s : State) (v : Nat) : CapRes :=
  if s.fwBusy s.mgmt.fwTarget || s.fwBusy v then s.capState 3 none
  else State.capEnds { s with mgmt := { s.mgmt with fwTarget := v } } 0

/-- FW_DATA at a byte offset. -/
def State.fwData (s : State) (off : Nat) (bs : List (BitVec 8)) : CapRes :=
  let r := s.mgmt.fwTarget
  if s.fwBusy r then s.capState 3 none
  else if !s.flag PWR_STATUS_NV_OK then s.capEnds 8
  else if 12 * 2 ^ 20 < off + bs.length then s.capEnds 5
  else match s.inactiveSlot r with
    | none => s.capState 3 none
    | some a =>
      let img := fget fw0 s.mgmt.fwImages (2 * a + r)
      let img := { img with bytes := memPut img.bytes off bs, good := false, svn := 0 }
      (State.setRole { s with mgmt := { s.mgmt with fwImages := fset fw0 s.mgmt.fwImages (2 * a + r) img } } r 1).capEnds 0

/-- FW_VERIFY = 1: the signature and the SVN. -/
def State.fwVerify (s : State) (good : Bool) (svn : Nat) : CapRes :=
  let r := s.mgmt.fwTarget
  if (roleDies r).any (fun d => [3, 4].contains (s.fwState d)) then s.capState 3 none
  else match s.inactiveSlot r with
    | none => s.capState 3 none
    | some a =>
      let ok := good && decide (s.svnMin ≤ svn)
      let img := { fget fw0 s.mgmt.fwImages (2 * a + r) with good := ok, svn := svn }
      (State.setRole { s with mgmt := { s.mgmt with fwImages := fset fw0 s.mgmt.fwImages (2 * a + r) img } } r (if ok then 2 else 6)).capEnds 0

/-- FW_ACTIVATE: the Atelier of die `d` restarts into the verified image, to TRIAL. -/
def State.fwActivate (s : State) (d : Nat) : CapRes :=
  if [0, 1, 2, 3].any (fun e => e != d && [3, 4].contains (s.fwState e)) || s.fwState d != 2 then s.capState 3 none
  else
    let a := (fget z0 s.mgmt.fwSlot d + 1) % 2
    let s := State.setFw { s with mgmt := { s.mgmt with fwRuns := fset z0 s.mgmt.fwRuns d a, fwSince := fset z0 s.mgmt.fwSince d s.tick } } d 4
    let s := if d = s.primary ∧ s.rd MGT_BOOT_STATUS_IMAGE = 2 then s.wr MGT_BOOT_STATUS_IMAGE a else s
    (if d = s.primary then s.endSessions else s).capEnds 0

/-- FW_COMMIT: die `d`'s slot selection goes into the active-slot record. -/
def State.fwCommit (s : State) (d : Nat) : CapRes :=
  if s.fwState d ≠ 4 then s.capState 3 none
  else
    let a := fget z0 s.mgmt.fwRuns d
    ((State.setFw { s with mgmt := { s.mgmt with fwSlot := fset z0 s.mgmt.fwSlot d a } } d 5).nvWrite 4 d (valBytes a 1)).capEnds 0

/-- SVN_RAISE: refused unless every die runs a committed image with at least that SVN. -/
def State.svnRaise (s : State) (v : Nat) : CapRes :=
  if v < s.svnMin then s.capEnds 5
  else if [0, 1, 2, 3].all (fun d => fget z0 s.mgmt.fwRuns d == fget z0 s.mgmt.fwSlot d && s.fwState d != 4
      && decide (v ≤ (fget fw0 s.mgmt.fwImages (2 * (fget z0 s.mgmt.fwSlot d) + dieRole d)).svn)) then
    State.capEnds { s with mgmt := { s.mgmt with svn := some v } } 0
  else s.capState 3 none

/-- COMMIT_T_EXPIRY: COMMIT_T has passed since die `die` entered TRIAL. -/
def execCommitTExpiry (die : Nat) (s : State) : Out :=
  if 4 ≤ die then .fault .noSuchUnit
  else .next (if s.fwState die = 4 ∧ fget z0 s.mgmt.fwSince die + s.obj 0x7006 0 * 9 / 10 ≤ s.tick then s.trialFails die else s)

/-- KEY_ZEROISE: a request to open the scan gate. -/
def execKeyZeroise (s : State) : Out := .next s.openGate

/-- SPDM_HEARTBEAT_EXPIRY: a session without traffic for three heartbeat periods, 90 s, ends. -/
def execSpdmHeartbeatExpiry (id : Nat) (s : State) : Out :=
  let now := s.tick
  .next (s.putSessions (s.mgmt.sessions.filter (fun x => !(x.id == id && decide (x.tick + 81000000000 ≤ now)))))

/-- MGMT_PHY_LINK_UP: the MGMT_NET settings written earlier are applied (R536). -/
def execMgmtPhyLinkUp (s : State) : Out :=
  .next { s with mgmt := { s.mgmt with net :=
    { mode := s.obj 0x7050 1, addr := padBytes (s.blob 0x7050 2) 0 16, plen := s.obj 0x7050 3
      gateway := padBytes (s.blob 0x7050 4) 0 16, port := s.obj 0x7050 5 } } }

end Sys2Proof.Machine
end

