-- ==== Sys2Proof/Machine/CapWrite.lean ====
section
/-! DEFINITION. What a WRITE of each object of the Catalogue does (spec/19_catalogue_atelier.md R528 to R536, R541, R548, R549,
spec/18_bringup.md R513, spec/16_restorer.md R458, R459, R477, spec/12_zovar_links.md R378). -/

namespace Sys2Proof.Machine
open Sys2Proof

/-- A value is held, and journalled where the object is flagged NV (R530). -/
def State.objPut (s : State) (d : ObjDef) (i j v : Nat) : State :=
  let s := s.setObj i j v
  if d.nv then s.nvWrite 2 (256 * i + j) (valBytes v d.size) else s

/-- A write of a package register through its mirror (R530). -/
def State.pkgMirror (s : State) (off v : Nat) : State := { s with pkgRegs := regWrite pkgRst Machine.pkgRegs (fun _ _ => false) s.pkgRegs off 0 63 v }

/-- A write of a link register through its mirror. -/
def State.linkMirror (s : State) (l off v : Nat) : State :=
  { s with dieRegs := fmod regs0 s.dieRegs (l / 24) (fun m =>
      regWrite dieRst Machine.dieRegs (fun _ _ => false) m (0xC000 + 0x200 * (l % 24) + off) 0 63 v) }

/-- A write of LNK_CREDIT: ignored outside DISABLED, or where the buffers exceed 64 (12 R378). -/
def State.creditWrite (s : State) (l v : Nat) : State :=
  if s.lstate l ≠ 0 ∨ 64 < bits v 7 0 + bits v 15 8 + bits v 23 16 + bits v 31 24 then s else s.linkMirror l 0x28 v

/-- A number object of link `l` is written. -/
def State.linkPut (s : State) (d : ObjDef) (l i j v : Nat) : State :=
  match i % 16 with
  | 0 => if s.linkFused l then s else s.writeEnable l (v == 1)
  | 5 => s.creditWrite l v
  | 6 => s.linkMirror l (0x28 + 8 * j) v
  | 8 => State.lwr { s with mgmt := { s.mgmt with forceRs := fset z0 s.mgmt.forceRs l (v + 1) } } l LNK_CTRL_FORCE_RS v
  | 9 => s.lwr l (match j with | 1 => LNK_CTRL_RATE_CAP | 2 => LNK_CTRL_X1_ALLOW | _ => LNK_CTRL_AUTO_RESTART) v
  | 10 => if v = 1 then s.retrain l else s
  | _ => s.objPut d i j v

/-- The device ID is set, and the links with ENABLE set enter DETECT (18 R513). -/
def State.putDevice (s : State) (d : ObjDef) (v : Nat) : State :=
  let s := s.objPut d 0x3800 0 v
  if s.inService then (List.range 96).foldl (fun s l => if fget noMark s.dieHalt (l / 24) then s else s.startLink l) s else s

/-- PROFILE: the change is requested and, unless it is refused, becomes the target (R541). -/
def State.putProfile (s : State) (p : Nat) : CapRes :=
  match s.requestProfile p with
  | (s, some (reason, niche)) => s.capState reason niche
  | (s, none) => ((s.wr PWR_STATUS_TARGET p).noteThrottle).capEnds 0

/-- Whether R477 allows MODE = 1 for a court. -/
def State.rainOk (s : State) (q : Nat) : Bool :=
  match s.nicheAt q with
  | none => false
  | some i => match (s.niche i).cast with
    | none => false
    | some c => c.iiArea && c.cells.all (fun r =>
        12 * (idY (s.relId i r.at') / 8) + idX (s.relId i r.at') / 8 != q || r.role3 || !bit r.used 3)

/-- RASP of a court (R534). -/
def State.putRasp (s : State) (q v : Nat) : CapRes :=
  if bit v 1 && !s.rainOk q then s.capState 4 (s.nicheAt q)
  else (s.modCourt q (fun c => (c.wr RES_RASP_CTRL_ENABLE (v % 2)).wr RES_RASP_CTRL_MODE (v / 2))).capEnds 0

/-- RESET_REQ: the bits of RST_CTRL (17 R500). -/
def State.resetReq (s : State) (v : Nat) : State :=
  let s := [0, 1, 2, 3].foldl (fun s d => if bit v d then s.demand { level := 4, unit := d, trigger := 3, die := d } else s) s
  let s := if bit v 4 then s.demand { level := 5, unit := 0, trigger := 3 } else s
  if bit v 5 then s.demand { level := 6, unit := 0, trigger := 3 } else s

/-- A watchdog expiry, for every die. -/
def State.putWatchdog (s : State) (d : ObjDef) (j v : Nat) : State :=
  [0, 1, 2, 3].foldl (fun s e => s.watchdogs e) (s.objPut d 0x4060 j v)

/-- A number object is written, its value in range. -/
def State.objWrite (s : State) (d : ObjDef) (f : CapFacts) (i j v : Nat) : CapRes :=
  if 0x3000 ≤ i ∧ i < 0x3600 then (s.linkPut d ((i - 0x3000) / 16) i j v).capEnds 0
  else match i with
    | 0x2020 => s.putProfile v
    | 0x2030 => (s.pkgMirror 0x7810 v).capEnds 0
    | 0x3800 => (s.putDevice d v).capEnds 0
    | 0x3803 => (s.wr (if j = 1 then TMB_CTRL_ENABLE else TMB_CTRL_STEP_ALLOW) v).capEnds 0
    | 0x3805 => (s.pkgMirror 0x3020 v).capEnds 0
    | 0x4000 => (s.pkgMirror 0x6000 v).capEnds 0
    | 0x4001 => (s.pkgMirror 0x6080 v).capEnds 0
    | 0x4002 => (s.pkgMirror 0x6088 v).capEnds 0
    | 0x4050 => s.putRasp (j - 1) v
    | 0x4060 => (s.putWatchdog d j v).capEnds 0
    | 0x4070 => (s.resetReq v).capEnds 0
    | 0x4071 => (s.pkgMirror (match j with | 1 => 0x7000 | 2 => 0x7008 | _ => 0x7018) v).capEnds 0
    | 0x7001 => s.fwTargetWrite v
    | 0x7003 => if v = 1 then s.fwVerify f.good f.svn else s.capEnds 0
    | 0x7004 => s.fwActivate v
    | 0x7005 => s.fwCommit v
    | 0x7007 => s.svnRaise v
    | _ => (s.objPut d i j v).capEnds 0

/-! ### Byte values -/

/-- Bytes put over others from `off` on. -/
def overBytes (old : List (BitVec 8)) (off : Nat) (bs : List (BitVec 8)) : List (BitVec 8) :=
  padBytes old 0 off ++ bs ++ old.drop (off + bs.length)

/-- A byte-valued object is held and journalled. -/
def State.blobPut (s : State) (i j : Nat) (bs : List (BitVec 8)) : State :=
  State.nvWrite { s with mgmt := { s.mgmt with blobs := fset blob0 s.mgmt.blobs (256 * i + j) bs } } 5 (256 * i + j) bs

/-- The anchors (R522, R536): SEC_STATUS shows whether one is held. -/
def State.putAnchors (s : State) (off : Nat) (bs : List (BitVec 8)) : CapRes :=
  if bs.length % 48 ≠ 0 ∨ bs.isEmpty then s.capEnds 6
  else if 192 < 48 * off + bs.length then s.capEnds 5
  else
    let s := s.blobPut 0x7030 0 (overBytes (s.blob 0x7030 0) (48 * off) bs)
    (s.wr SEC_STATUS_ANCHOR_SET (b2n ((s.blob 0x7030 0).any (fun b => b != 0)))).capEnds 0

/-- A flaw map entry from its bytes (16 R459). -/
def flawOf (b : List (BitVec 8)) : Flaw :=
  let n := fun (o k : Nat) => bytesVal (b.drop o) k
  { kind := n 0 1, cause := n 1 1, die := n 2 1, applied := bit (n 3 1) 0, confirmed := bit (n 3 1) 1, loc := n 4 4, tick := n 8 8
    stored := false }

/-- One entry written at element `k`: a KIND 0 entry removes it, one past the end is added. -/
def State.flawPut (s : State) (k : Nat) (f : Flaw) : State :=
  if f.kind = 0 then
    let s := { s with flaws := s.flaws.eraseIdx k }
    s.wr RES_PKG_STATUS_FLAW_USED s.flaws.length
  else if k < s.flaws.length then { s with flaws := s.flaws.set k f } else s.addFlaw f

/-- FLAW_MAP (R534, 16 R458): entries from element `off` on. -/
def State.flawWrite (s : State) (off : Nat) (bs : List (BitVec 8)) : CapRes :=
  let n := bs.length / 16
  let fs := (List.range n).map (fun k => flawOf ((bs.drop (16 * k)).take 16))
  if bs.length % 16 ≠ 0 ∨ n = 0 then s.capEnds 6
  else if 2048 < off + n ∨ fs.any (fun f => decide (7 < f.kind ∨ 3 < f.die)) then s.capEnds 5
  else (fs.zipIdx.foldl (fun s f => s.flawPut (off + f.2) f.1) s).capEnds 0

/-- The saved-settings record of a link: LEN 0 erases it; the fields of one that is written are not laid out in the spec. -/
def State.savedWrite (s : State) (l : Nat) (bs : List (BitVec 8)) : CapRes :=
  if bs.isEmpty then ((s.modLink l (fun k => { k with saved := none })).nvWrite 0 (1 + l) []).capEnds 0
  else if bs.length ≠ 256 then s.capEnds 6
  else
    let v := fun k => Config.freeValue (s.free + k)
    let r : Saved := ⟨v 0 % 4096, v 1 % 256, v 2 % 2, v 3 % 2, v 4 % 2 ^ 32⟩
    ((State.modLink { s with free := s.free + 5 } l (fun k => { k with saved := some r })).nvWrite 0 (1 + l) bs).capEnds 0

/-! ### COMMAND (R535, 14 R417, R418) -/

/-- Whether the unused bytes of a command are 0 (14 R417): byte 1, bytes 5 to 7 and, by opcode, the fields it does not use. -/
def sqClean (op : Nat) (b : List (BitVec 8)) : Bool :=
  let zero := fun (o n : Nat) => (b.drop o).take n == List.replicate n 0
  zero 1 1 && zero 5 3 && (match op with
    | 0x00 => zero 4 60
    | 0x01 | 0x02 => zero 32 32
    | 0x03 => zero 34 30
    | 0x04 => zero 8 24 && zero 33 7 && zero 48 16
    | 0x05 | 0x06 | 0x11 => zero 8 56
    | 0x07 => zero 16 8 && zero 34 30
    | 0x10 => zero 8 24 && zero 37 27
    | 0x12 => zero 8 24 && zero 34 30
    | 0x13 => zero 8 24 && zero 33 7 && zero 48 16
    | _ => zero 8 24)

/-- The entry of a COMMAND write, as the primary's Atelier carries it out: with the rights of a physical function. -/
def sqOf (b : List (BitVec 8)) (f : CapFacts) : SqEntry :=
  let n := fun (o k : Nat) => bytesVal (b.drop o) k
  { fn := 0, q := 0, cid := n 2 2, niche := n 4 1, host := n 8 8, offset := n 16 8, length := n 24 8, ops := b.drop 32
    clean := sqClean (n 0 1) b, hostOk := f.hostOk, data := f.data }

/-- Opcodes that admit host memory. -/
def usesHost (op : Nat) : Bool := [0x01, 0x02, 0x03, 0x07].contains op

/-- The opcodes of 14 R418. -/
def sqOps : List Nat := [0, 1, 2, 3, 4, 5, 6, 7, 0x10, 0x11, 0x12, 0x13, 0x14]

/-- COMMAND: an operation of 14 R418; its completion entry is the response's data. An opcode outside the table ends as a bad
command; a staged cast lies in the niche's windows. -/
def State.capCommand (s : State) (b : List (BitVec 8)) (f : CapFacts) : CapRes :=
  let op := bytesVal b 1
  let e := sqOf b f
  if usesHost op && e.host != 0 then s.capEnds 5
  else if op = 4 ∧ s.mgmt.thermLimit ∧ s.nicheState e.niche = 2 then s.capState 5 (some e.niche)
  else
    let r : CmdRes := if !sqOps.contains op then s.ends 1
      else if op = 3 && !s.hbmAdmits e.niche false e.offset (e.offset + e.length) then s.ends 3
      else s.command true op e f.cast f.fault
    let w := r.words
    let v := fun k => Config.freeValue (r.s.free + 2 + k)
    { st := 0, data := cqEntry e.cid (v 0 % 256) r.st w.1 (v 1) (v 2 % 2 == 1) w.2, s := { r.s with free := r.s.free + 5 } }

/-- A byte-valued object is written at an offset: bytes of a BLOB, elements of an ARRAY. -/
def State.blobWrite (s : State) (f : CapFacts) (d : ObjDef) (i j off : Nat) (bs : List (BitVec 8)) : CapRes :=
  if 0x3000 ≤ i ∧ i < 0x3600 then s.savedWrite ((i - 0x3000) / 16) bs
  else match i with
    | 0x4020 => s.flawWrite off bs
    | 0x5012 => if off = 0 ∧ bs.length = 64 then s.capCommand bs f else s.capEnds 6
    | 0x7002 => if bs.isEmpty then s.capEnds 6 else s.fwData off bs
    | 0x7030 => s.putAnchors off bs
    | 0x7042 => if off = 0 ∧ bs.length = 256 then s.token bs f.sigBy else s.capEnds 6
    | _ => if d.size < off + bs.length ∨ bs.isEmpty then s.capEnds 6
      else (s.blobPut i j (overBytes (padBytes (s.blob i j) 0 d.size) off bs)).capEnds 0

end Sys2Proof.Machine
end

