-- ==== Sys2Proof/Machine/Catalogue.lean ====
section
/-! DEFINITION. The Catalogue Access Protocol (spec/19_catalogue_atelier.md R521 to R530). -/

namespace Sys2Proof.Machine
open Sys2Proof

/-! ### Requests (R521 to R524, R527) -/

/-- The boot ROM serves the Catalogue in DIAG (R522, 18 R503, R506). -/
def State.romServes (s : State) : Bool := s.rd MGT_BOOT_STATUS_STATE == 8 && s.rd MGT_BOOT_STATUS_IMAGE == 2

/-- The primary's Atelier runs and answers. -/
def State.capServed (s : State) : Bool :=
  !s.mgmt.sysRst && !s.mgmt.tripped && !s.mgmt.clockLost
    && (s.rd MGT_BOOT_STATUS_STATE == 8 || (s.inService && !fget noMark s.dieHalt s.primary))

/-- Whether a die answers on its own pins. -/
def State.dieServed (s : State) (d : Nat) : Bool := s.rd MGT_BOOT_STATUS_STATE == 8 || !fget noMark s.dieHalt d

/-- Whether a transport reaches the Catalogue (R521): a datagram by its port, a PF on an enabled port (14 R411). -/
def State.transportOn (s : State) (m : CapMsg) : Bool :=
  match m.via with
  | 0 => s.dieServed 0 && s.primary == 0
  | 1 => s.dieServed 3
  | 2 => s.dieServed 0 && s.primary == 0
  | 3 => s.dieServed 3 && s.rd MGT_STRAPS_HOSTPORT == 0
  | 4 => s.dieServed 0 && s.primary == 0 && m.port == s.mgmt.net.port
  | 5 => decide (m.who < 96)
  | _ => false

/-- Messages in a die's mailbox that a link brought. -/
def fromLink (l : Nat) (x : Msg) : Bool := x.info == [l]

/-- The message's bytes: over Zovar those of the oldest MGMT message of the link that its die's Atelier holds. -/
def State.capBytes (s : State) (m : CapMsg) : Option (List (BitVec 8)) :=
  if m.via = 5 then ((fget nil0 s.mailbox (m.who / 24)).find? (fromLink m.who)).map (fun x => x.payload) else some m.bytes

/-- A Zovar message leaves the mailbox. -/
def State.capTaken (s : State) (m : CapMsg) : State :=
  if m.via = 5 then { s with mailbox := fmod nil0 s.mailbox (m.who / 24) (fun q =>
      match takeFirst (fromLink m.who) q with | some (_, t) => t | none => q) }
  else s

/-- A requester: the transport and its address (R527). -/
def capKey (m : CapMsg) : Nat := 8 * m.who + m.via

/-- The session that carries a request; none where no such session of the requester is open. -/
def State.sessionOf (s : State) (m : CapMsg) : Option Session :=
  m.session.bind (fun id => s.mgmt.sessions.find? (fun x => x.id == id && x.who == capKey m))

/-- The requester's level (R522): 0 PUBLIC, 1 OPERATOR, 2 ADMIN, 3 VENDOR. -/
def State.capLevel (s : State) (m : CapMsg) : Nat :=
  match s.sessionOf m with | some x => x.level | none => if m.via ≤ 3 then 1 else 0

/-- A header field of `n` bytes (R524). -/
def capField (b : List (BitVec 8)) (off n : Nat) : Nat := bytesVal (b.drop off) n

/-- The operations of R525. -/
def capOps : List Nat := [0x01, 0x02, 0x03, 0x04, 0x10]

/-- Whether VERSION, OP, LEN, the reserved bits and bytes are right (R524, R526). -/
def capSound (m : CapMsg) (b : List (BitVec 8)) : Bool :=
  let op := capField b 1 1
  let data := if op = 2 ∨ op = 0x10 then b.length == 16 + capField b 12 2 else b.length == 16
  decide (16 ≤ b.length ∧ b.length ≤ 1040) && capField b 0 1 == 1 && capOps.contains op && data
    && (bit (capField b 7 1) 2 == m.session.isSome) && capField b 7 1 &&& 0xF9 == 0 && capField b 14 2 == 0
    && (op != 0x10 || m.via == 4 || m.via == 5)

/-- A response: the request's header with RESPONSE, MORE, the length of the data and STATUS (R524). -/
def capReply (b : List (BitVec 8)) (st : Nat) (more : Bool) (data : List (BitVec 8)) : List (BitVec 8) :=
  valBytes 1 1 ++ padBytes b 1 6 ++ valBytes (1 + 2 * b2n more + (capField b 7 1 &&& 4)) 1 ++ padBytes b 8 4
    ++ valBytes data.length 2 ++ valBytes st 1 ++ valBytes 0 1 ++ data

/-! ### Operations (R525) -/

/-- An operation's end with MORE. -/
abbrev CapEnd := CapRes × Bool

/-- READ: up to LEN bytes from OFFSET. -/
def State.capRead (s : State) (level : Nat) (b : List (BitVec 8)) (d : ObjDef) : CapEnd :=
  let i := capField b 4 2
  let j := capField b 6 1
  let off := capField b 8 4 * (if d.type = 11 then d.elem else 1)
  if d.read = 255 ∨ level < d.read ∨ (s.romServes && d.read != 0) then (s.capEnds 3, false)
  else
    let len := s.objLen d i j
    let n := min (min (capField b 12 2) 1024) (len - off)
    let r := s.objSlice d i j off n
    ({ st := 0, data := r.1, s := r.2 }, decide (off + n < len))

/-- Whether a level may write an object over a transport (R522, R536). -/
def State.mayWrite (s : State) (level via i : Nat) (d : ObjDef) : Bool :=
  if s.romServes then decide (0x7001 ≤ i ∧ i ≤ 0x7004 ∧ 1 ≤ level ∧ via ≤ 3)
  else if i = 0x7030 ∧ !s.flag SEC_STATUS_ANCHOR_SET then decide (via ≤ 1 ∧ 1 ≤ level)
  else if i = 0x7042 ∧ via ≤ 1 then decide (1 ≤ level)
  else decide (d.write ≤ level)

/-- WRITE. -/
def State.capPut (s : State) (level : Nat) (m : CapMsg) (b : List (BitVec 8)) (d : ObjDef) : CapRes :=
  let i := capField b 4 2
  let j := capField b 6 1
  let data := b.drop 16
  if d.write = 255 then s.capEnds 4
  else if !s.mayWrite level m.via i d then s.capEnds 3
  else if d.type < 9 then
    if data.length ≠ d.size then s.capEnds 6
    else
      let v := bytesVal data d.size
      if s.objRange d i j v then s.objWrite d m.facts i j v else s.capEnds 5
  else s.blobWrite m.facts d i j (capField b 8 4) data

/-- INFO. -/
def State.capInfo (s : State) (i j : Nat) (d : ObjDef) : List (BitVec 8) :=
  valBytes d.type 1 ++ valBytes (if d.type = 11 then 10 else 0) 1 ++ valBytes d.read 1 ++ valBytes d.write 1
    ++ valBytes (b2n d.nv + 2 * b2n d.strap + 4 * b2n d.cmd) 1 ++ valBytes 0 3
    ++ valBytes (if d.size = 0 then s.objLen d i j else d.size) 4 ++ valBytes 0 4

/-- NEXT. -/
def State.capNext (s : State) (level : Nat) (b : List (BitVec 8)) : List (BitVec 8) :=
  match nextObj (if s.romServes then 0 else level) (256 * capField b 4 2 + capField b 6 1) with
  | some k => valBytes (k / 256) 2 ++ valBytes (k % 256) 1
  | none => valBytes 0xFFFF 2

/-- A request is carried out (R525, R526): the checks in the order message, object, die, then those of the operation. -/
def State.capDo (s : State) (m : CapMsg) (b : List (BitVec 8)) : CapEnd :=
  let op := capField b 1 1
  let i := capField b 4 2
  let j := capField b 6 1
  let level := s.capLevel m
  if !capSound m b then (s.capEnds 1, false)
  else if op = 0x10 then
    let s := s.spdmAnswer (capKey m) m.facts.spdm
    ({ st := 0, data := m.facts.spdm.resp.take 1024, s := s }, false)
  else if op = 4 then ({ st := 0, data := s.capNext level b, s := s }, false)
  else match objDef i j with
    | none => (s.capEnds 2, false)
    | some d =>
      if op = 3 then ({ st := 0, data := s.capInfo i j d, s := s }, false)
      else match objDie i j with
        | some e => if s.inService && fget noMark s.dieHalt e then (s.capEnds 8, false)
          else if op = 1 then s.capRead level b d else (s.capPut level m b d, false)
        | none => if op = 1 then s.capRead level b d else (s.capPut level m b d, false)

/-! ### Responses (R521, R527) -/

/-- The response leaves: over Zovar as a MGMT packet on the link of the request. -/
def State.capAnswer (s : State) (m : CapMsg) (resp : List (BitVec 8)) : State :=
  let s := { s with mgmt := { s.mgmt with answer := resp } }
  if m.via = 5 then s.send m.who { s.timePacket m.who resp with mclass := 7 } else s

/-- A kept response of the requester with the same REQ_ID, at most 1 s old. -/
def State.keptFor (s : State) (m : CapMsg) (b : List (BitVec 8)) : Option Kept :=
  s.mgmt.kept.find? (fun k => k.who == (capKey m) && k.req == capField b 2 2 && decide (s.tick < k.tick + 900000000))

/-- A response is kept: the last 32 of each requester. -/
def keepLast (l : List Kept) (k : Kept) : List Kept :=
  let own := l.filter (fun x => x.who == k.who)
  l.filter (fun x => x.who != k.who) ++ own.drop (own.length - 31) ++ [k]

/-- A request that has reached the primary's Atelier is answered. -/
def State.capServe (s : State) (m : CapMsg) (b : List (BitVec 8)) : State :=
  match s.keptFor m b with
  | some k => s.capAnswer m k.resp
  | none =>
    let s := match m.session with | some id => s.touchSession id | none => s
    let r := s.capDo m b
    let resp := capReply b r.1.st r.2 r.1.data
    let k : Kept := { who := (capKey m), req := capField b 2 2, tick := s.tick, resp := resp }
    let s := r.1.s
    State.capAnswer { s with mgmt := { s.mgmt with kept := keepLast s.mgmt.kept k } } m resp

/-- A COMMAND for a niche that heals waits (16 R466, 14 R421). -/
def State.capHeld (s : State) (m : CapMsg) (b : List (BitVec 8)) : Bool :=
  capField b 1 1 == 2 && capField b 4 2 == 0x5012 && s.cmdWaits (capField b 16 1) (sqOf (b.drop 16) m.facts)

/-- A CAP message of one operation and, where the row names one, one object. A message in a session that is not open is
dropped. -/
def State.cap (s : State) (row : List (BitVec 8) → Bool) (m : CapMsg) : Out :=
  if 5 < m.via ∨ (m.via = 5 ∧ 96 ≤ m.who) then .fault .noSuchUnit
  else .next (match s.capBytes m with
    | none => s
    | some b =>
      if !s.capServed || !s.transportOn m || !row b || s.capHeld m b then s
      else if m.session.isSome && (s.sessionOf m).isNone then s.capTaken m
      else (s.capTaken m).capServe m b)

/-- A WRITE of one object. -/
def writes (i : Nat) (b : List (BitVec 8)) : Bool := capField b 1 1 == 2 && capField b 4 2 == i

/-! ### The commands -/

/-- CAP_READ (R525); a message with an operation outside R525 ends here too, with BAD_MESSAGE. -/
def execCapRead (m : CapMsg) (s : State) : Out := s.cap (fun b => capField b 1 1 == 1 || !capOps.contains (capField b 1 1)) m
/-- CAP_WRITE (R525), of any object. -/
def execCapWrite (m : CapMsg) (s : State) : Out := s.cap (fun b => capField b 1 1 == 2) m
/-- CAP_INFO (R525). -/
def execCapInfo (m : CapMsg) (s : State) : Out := s.cap (fun b => capField b 1 1 == 3) m
/-- CAP_NEXT (R525). -/
def execCapNext (m : CapMsg) (s : State) : Out := s.cap (fun b => capField b 1 1 == 4) m
/-- CAP_TUNNEL (R525). -/
def execCapTunnel (m : CapMsg) (s : State) : Out := s.cap (fun b => capField b 1 1 == 0x10) m
/-- CAP_COMMAND: a WRITE of COMMAND (R535). -/
def execCapCommand (m : CapMsg) (s : State) : Out := s.cap (writes 0x5012) m
/-- PROFILE_WRITE: a WRITE of PROFILE (R541). -/
def execProfileWrite (m : CapMsg) (s : State) : Out := s.cap (writes 0x2020) m
/-- FLAW_MAP_WRITE: a WRITE of FLAW_MAP (R534). -/
def execFlawMapWrite (m : CapMsg) (s : State) : Out := s.cap (writes 0x4020) m
/-- DEVICE_ID_WRITE: a WRITE of DEVICE_ID (18 R513). -/
def execDeviceIdWrite (m : CapMsg) (s : State) : Out := s.cap (writes 0x3800) m
/-- FW_DATA (R549). -/
def execFwData (m : CapMsg) (s : State) : Out := s.cap (writes 0x7002) m
/-- FW_VERIFY (R549). -/
def execFwVerify (m : CapMsg) (s : State) : Out := s.cap (writes 0x7003) m
/-- FW_ACTIVATE (R549). -/
def execFwActivate (m : CapMsg) (s : State) : Out := s.cap (writes 0x7004) m
/-- FW_COMMIT (R549). -/
def execFwCommit (m : CapMsg) (s : State) : Out := s.cap (writes 0x7005) m
/-- SVN_RAISE (R549). -/
def execSvnRaise (m : CapMsg) (s : State) : Out := s.cap (writes 0x7007) m

/-- Whether the TAP accepts a token: under Voinfort, or held in BOOT by STRAP_BOOT = TEST (R548, 18 R503). -/
def State.tapOn (s : State) : Bool :=
  !s.mgmt.sysRst && (s.inService || (s.rd MGT_BOOT_STATUS_STATE == 8 && !s.romServes)
    || (s.rd MGT_STRAPS_BOOT == 3 && s.rd MGT_BOOT_STATUS_STATE == 2))

/-- DEBUG_TOKEN: a token written to its object, or shifted into the JTAG TAP (R548). -/
def execDebugToken (m : CapMsg) (s : State) : Out :=
  if m.via = 6 then .next (if s.tapOn ∧ m.bytes.length = 256 then (s.token m.bytes m.facts.sigBy).s else s)
  else s.cap (writes 0x7042) m

/-- SPDM_MESSAGE: an SPDM message over MCTP (R523). -/
def execSpdmMessage (m : CapMsg) (s : State) : Out :=
  if 6 ≤ m.via then .fault .noSuchUnit
  else .next (if s.capServed ∧ !s.romServes ∧ m.via ≤ 3 ∧ s.transportOn m then
      (match m.session with | some id => s.touchSession id | none => s).spdmAnswer (capKey m) m.facts.spdm
    else s)

end Sys2Proof.Machine
end

