-- ==== Sys2Proof/Machine/Clock.lean ====
section
/-! DEFINITION. What time does by itself: the timebase and the mesh cycles (spec/13_pod_time_collectives.md R379). -/

namespace Sys2Proof.Machine
open Sys2Proof

/-- One clock of the timebase (R379): TICK advances, and a mesh cycle passes as the profile divides. -/
def State.clock (s : State) : State :=
  let f := ((s.tickFrac : Int) + 2 ^ 40 + s.rateAdj).toNat
  let s := { s.wr TMB_TICK_TICK (s.tick + f / 2 ^ 40) with tickFrac := f % 2 ^ 40 }
  let m := s.meshAcc + meshRate (s.rd PWR_STATUS_PROFILE)
  if m < 15 then { s with meshAcc := m } else { s with meshAcc := m - 15 }.bucketCycle.localTurns.meshCycle.hangCycle.gatherErrs

end Sys2Proof.Machine
end

