-- ==== Sys2Proof/Machine/Gpio.lean ====
section
/-! DEFINITION. GPIO pins, and what a clock does beside the mesh (spec/21_package_electrical.md R582, R583). -/

namespace Sys2Proof.Machine
open Sys2Proof

/-- The function code in force or to come of pin `p`. -/
def State.pinCode (s : State) (p : Nat) : Nat := bits (s.rd MGT_GPIO_FUNC_FUNC) (4 * p + 2) (4 * p)
/-- OUT of pin `p`. -/
def State.pinOut (s : State) (p : Nat) : Bool := bit (s.rd MGT_GPIO_DATA_OUT) p

/-- The level a function drives, none where it drives nothing (R582). -/
def State.pinDrives (s : State) (code p : Nat) : Option Bool :=
  match code with
  | 1 => some (s.pinOut p)
  | 2 => if s.pinOut p then none else some false
  | 3 => some (decide (s.tick % 900000000 < 900000))
  | 4 =>
    let n := s.niche (s.rd MGT_GPIO_DATA_FRAME_NICHE)
    some (n.trig.isSome && decide (n.edgeTick ≤ s.tick ∧ s.tick < n.edgeTick + 36))
  | 5 => some (!(s.flag RES_PKG_STATUS_REPLACE || s.flag RES_PKG_STATUS_REPLACE_SOON))
  | 6 => if p = 0 then some true else none
  | _ => none

/-- The level that a function drives when it has nothing to signal (R582). -/
def State.pinIdle (s : State) (code p : Nat) : Option Bool :=
  match code with
  | 3 | 4 => some false
  | 5 => some true
  | _ => s.pinDrives code p

/-- Ticks of an always-on cycle, 40 ns. -/
def aonTicks : Nat := 36

/-- The level of pin `p`: in a hold the held level for three always-on cycles, then the new function's idle level for one. -/
def State.pinLevel (s : State) (p : Nat) : Option Bool :=
  let h := fget hold0 s.mgmt.holds p
  if h.left = 0 then s.pinDrives (s.pinCode p) p
  else if aonTicks < h.left then h.level
  else s.pinIdle h.code p

/-- A switch of pin `p` to a code: a hold of four always-on cycles at the level last driven; a hold in progress runs again at
its level. A reserved code, or UART off pins 0 and 1, changes nothing; nor does the code in force. -/
def State.pinSwitch (s : State) (p code : Nat) : State :=
  if code = 7 ∨ (code = 6 ∧ 2 ≤ p) ∨ code = s.pinCode p then s
  else
    let h := fget hold0 s.mgmt.holds p
    let level := if h.left = 0 then s.pinDrives (s.pinCode p) p else if aonTicks < h.left then h.level else s.pinIdle h.code p
    let f := s.rd MGT_GPIO_FUNC_FUNC
    let s := s.wr MGT_GPIO_FUNC_FUNC (f - s.pinCode p * 2 ^ (4 * p) + code * 2 ^ (4 * p))
    let s := s.wr MGT_GPIO_DATA_HOLD (s.rd MGT_GPIO_DATA_HOLD ||| 2 ^ p)
    { s with mgmt := { s.mgmt with holds := fset hold0 s.mgmt.holds p { level := level, code := code, left := 4 * aonTicks } } }

/-- GPIO_FUNC_WRITE: a physical function writes MGT_GPIO_FUNC (R583). -/
def execGpioFuncWrite (v : W64) (s : State) : Out :=
  .next ((List.range 16).foldl (fun s p => s.pinSwitch p (bits v.toNat (4 * p + 2) (4 * p))) s)

/-- One pin's tick: its hold counts down, and outside a hold IN takes the level that the pin drives. -/
def State.pinTick (s : State) (p : Nat) : State :=
  let h := fget hold0 s.mgmt.holds p
  if h.left = 0 then
    match s.pinDrives (s.pinCode p) p with
    | none => s
    | some v =>
      let x := s.rd MGT_GPIO_DATA_IN
      s.wr MGT_GPIO_DATA_IN (x - x / 2 ^ p % 2 * 2 ^ p + b2n v * 2 ^ p)
  else
    let s := { s with mgmt := { s.mgmt with holds := if h.left = 1 then ferase s.mgmt.holds p
                                                     else fset hold0 s.mgmt.holds p { h with left := h.left - 1 } } }
    if h.left = 1 then s.wr MGT_GPIO_DATA_HOLD (s.rd MGT_GPIO_DATA_HOLD - s.rd MGT_GPIO_DATA_HOLD / 2 ^ p % 2 * 2 ^ p) else s

/-- What a step on an empty queue does: one clock of the timebase (13 R379), with the pins. -/
def State.idle (s : State) : State := (List.range 16).foldl State.pinTick s.clock

end Sys2Proof.Machine
end

