-- ==== Sys2Proof/Machine/Pmc.lean ====
section
/-! DEFINITION. Counter banks, precise samples, snapshots with their queue views, the halves latched by 32-bit reads, and the
bandwidth windows (spec/20_counters_debug.md R554 to R567, spec/13_pod_time_collectives.md R380). -/

namespace Sys2Proof.Machine
open Sys2Proof

/-! ### Banks (R554) -/

/-- Where a kind of bank lies in its window. -/
def bankBase : Nat → Nat
  | 0 => 0xE00 | 1 => 0x3900 | _ => 0xD0000

/-- A field of a bank. -/
def State.bankRd (s : State) (kind unit : Nat) (f : Fld) : Nat :=
  let g := f.up (bankBase kind)
  match kind with
  | 0 => (s.cell unit).rd g | 1 => (s.court unit).rd g | _ => s.dieRd unit g

/-- A field of a bank written. -/
def State.bankWr (s : State) (kind unit : Nat) (f : Fld) (v : Nat) : State :=
  let g := f.up (bankBase kind)
  match kind with
  | 0 => s.modCell unit (fun c => c.wr g v) | 1 => s.modCourt unit (fun c => c.wr g v) | _ => s.dieWr unit g v

/-- The bank's latched snapshot. -/
def State.bankSnap (s : State) (kind unit : Nat) : FMap Nat :=
  match kind with
  | 0 => (s.cell unit).snap | 1 => (s.court unit).snap | _ => fget (fun _ => []) s.dieSnap unit

/-- The snapshot put in place. -/
def State.setSnap (s : State) (kind unit : Nat) (m : FMap Nat) : State :=
  match kind with
  | 0 => s.modCell unit (fun c => { c with snap := m })
  | 1 => s.modCourt unit (fun c => { c with snap := m })
  | _ => { s with dieSnap := fset (fun _ => []) s.dieSnap unit m }

/-- A command that names a bank. -/
def State.onBank (s : State) (kind unit : Nat) (f : State → State) : Out :=
  match kind with
  | 0 => s.onCell unit f
  | 1 => s.onCourt unit f
  | 2 => if unit < 4 then .next (if fget noMark s.dieHalt unit then s else f s) else .fault .noSuchUnit
  | _ => .fault .noSuchUnit

/-- The niche of a bank. -/
def State.bankNiche (s : State) (kind unit : Nat) : Option Nat :=
  match kind with
  | 0 => s.nicheAt (cellCourt unit) | 1 => s.nicheAt unit | _ => none

/-! ### Events and filters (R555, R557) -/

/-- The codes that a kind of bank counts. -/
def bankCodes : Nat → List Nat
  | 0 => [0x0001, 0x0002, 0x0003, 0x0004, 0x0005, 0x0006, 0x0101, 0x0102, 0x0103, 0x0104, 0x0201, 0x0202, 0x0203,
          0x0301, 0x0302, 0x0401, 0x0402, 0x0403, 0x0404]
  | 1 => [0x0501, 0x0502, 0x0503, 0x0504, 0x0505]
  | _ => [0x0601, 0x0602, 0x0603, 0x0701, 0x0702, 0x0703, 0x0704, 0x0801, 0x0802, 0x0901, 0x0902]

/-- Events marked P. -/
def preciseCodes : List Nat := [0x0002, 0x0003, 0x0004, 0x0006, 0x0201, 0x0202, 0x0203, 0x0401]

/-- Whether a MASTER field admits an event's master. -/
def masterAdmits (mask code master : Nat) : Bool :=
  if code = 0x0001 ∨ code = 0x0901 ∨ code = 0x0902 then true
  else if code / 256 = 7 then bit mask 7 || bits mask 4 0 == master
  else decide (master < 8) && bit mask master

/-- Whether counter `k` of a bank counts an event. -/
def State.counts (s : State) (e : PmcEvent) (k : Nat) : Bool :=
  let f := fun (g : Fld) => s.bankRd e.kind e.unit (g.up (0x10 * k))
  f PMC_CTL_EN == 1 && f PMC_CTL_CODE == e.code && (bankCodes e.kind).contains e.code
    && masterAdmits (f PMC_CTL_MASTER) e.code e.master && decide (e.src ≤ f PMC_CTL_PRIV)
    && (f PMC_CTL_ADDR_EN == 0 || (match e.addr with
        | none => false
        | some a => decide (s.bankRd e.kind e.unit PMC_ADDR_LO ≤ a ∧ a ≤ s.bankRd e.kind e.unit PMC_ADDR_HI)))

/-! ### Samples (R562, R563) -/

/-- The four words of a record. -/
def State.sampleOf (s : State) (e : PmcEvent) (seq : Nat) : List Nat :=
  let niche := s.bankNiche e.kind e.unit
  [ s.tick % 2 ^ 64,
    e.code % 2 ^ 16 + (e.ctx % 4 + 4 * b2n (preciseCodes.contains e.code) + 8 * (e.src % 4) + 32 * b2n e.poison) * 2 ^ 16
      + (niche.getD 0 % 16 + 16 * b2n niche.isSome) * 2 ^ 24 + e.pc % 2 ^ 10 * 2 ^ 32 + e.detail % 2 ^ 16 * 2 ^ 48,
    e.at' % 2 ^ 32 + min e.latency (2 ^ 32 - 1) * 2 ^ 32,
    e.instr % 2 ^ 32 + seq % 2 ^ 32 * 2 ^ 32 ]

/-- A record goes to the buffer of 64 entries: a full one stops, or loses its oldest. -/
def Cell.putSample (c : Cell) (r : List Nat) : Cell :=
  let drop := c.rd (PMC_SAMP_CTL_MODE.up 0xE00) == 1
  let full := decide (64 ≤ c.samples.length)
  let c := if full then c.bumpSat (PMC_SAMP_CTL_LOST.up 0xE00) else c
  let c := if full && !drop then c
    else { c with samples := (if full then c.samples.drop 1 else c.samples) ++ [r], sampSeq := (c.sampSeq + 1) % 2 ^ 32 }
  (c.wr (PMC_SAMP_CTL_COUNT.up 0xE00) (min 63 c.samples.length)).wr (PMC_SAMP_CTL_FULL.up 0xE00)
    (b2n (decide (64 ≤ c.samples.length)))

/-! ### Counting (R554, R559) -/

/-- A wrap of counter `k`: OVF, and with INT_EN PMC_OVERFLOW in the die's fault log. -/
def State.counterWrap (s : State) (kind unit k : Nat) : State :=
  let s := (s.bankWr kind unit (PMC_CTL_OVF.up (0x10 * k)) 1).bankWr kind unit (PMC_CNT_OVF.up (0x10 * k)) 1
  if s.bankRd kind unit (PMC_CTL_INT_EN.up (0x10 * k)) = 0 then s
  else
    let niche := s.bankNiche kind unit
    match kind with
    | 0 => s.event (cellDie unit) { code := 0x30, space := 3, unit := unit, index := (s.env unit).logical, niche := niche }
    | 1 => s.event (courtDie unit) { code := 0x30, space := 3, kind := 1, index := unit, niche := niche }
    | _ => s.event unit { code := 0x30, space := 3, kind := 6, index := unit }

/-- Counter `k` adds an event: modulo 2^48, and the sample source reloads and writes a record at its wrap. -/
def State.count (e : PmcEvent) (s : State) (k : Nat) : State :=
  if !s.counts e k then s
  else
    let f := PMC_CNT_COUNT.up (0x10 * k)
    let v := s.bankRd e.kind e.unit f + e.n
    if v < 2 ^ 48 then s.bankWr e.kind e.unit f v
    else
      let s := (s.bankWr e.kind e.unit f v).counterWrap e.kind e.unit k
      if e.kind = 0 ∧ s.bankRd 0 e.unit PMC_SAMP_CTL_EN = 1 ∧ s.bankRd 0 e.unit PMC_SAMP_CTL_SRC = k then
        let s := s.bankWr 0 e.unit f (2 ^ 48 - s.bankRd 0 e.unit PMC_SAMP_CTL_PERIOD)
        s.modCell e.unit (fun c => c.putSample (s.sampleOf e c.sampSeq))
      else s

/-- An event at a bank: all 8 counters look at it. -/
def State.pmcEvent (s : State) (e : PmcEvent) : State := (List.range 8).foldl (State.count e) s

/-- PMC_OVERFLOW: an event that makes a counter wrap (R559). -/
def execPmcOverflow (e : PmcEvent) (s : State) : Out := s.onBank e.kind e.unit (fun s => s.pmcEvent e)

/-- PMC_SAMPLE: an event of a cell bank that makes the sample source wrap (R562). -/
def execPmcSample (e : PmcEvent) (s : State) : Out :=
  if e.kind = 0 then s.onCell e.unit (fun s => s.pmcEvent e) else .fault .noSuchUnit

/-! ### Queue views (R565) -/

/-- Words of a view in a snapshot: word `w` of KIND and INDEX. -/
def viewKey (kind index w : Nat) : Nat := 4096 * kind + 16 * index + w

/-- A view's words into a snapshot: word 0, then the head entry. -/
def putView (kind index : Nat) (ws : List Nat) (m : FMap Nat) : FMap Nat :=
  (ws.zipIdx).foldl (fun m x => fset z0 m (viewKey kind index x.2) (x.1 % 2 ^ 64)) m

/-- Views put one after the other. -/
def putViews (kind n : Nat) (f : Nat → List Nat) (m : FMap Nat) : FMap Nat :=
  (List.range n).foldl (fun m i => putView kind i (f i) m) m

/-- The words of a number, 64 bits each. -/
def wordList (n v : Nat) : List Nat := (List.range n).map (fun i => v / 2 ^ (64 * i) % 2 ^ 64)

/-- A receive entry at the head of its channel: the fields, then the first 48 payload bytes. -/
def recvView (st : Nat) (q : List RecvEntry) : List Nat :=
  st :: (match q with
    | [] => []
    | e :: _ => wordList 2 (recvWord (some (e, 0)) / 2 ^ 512) ++ wordList 6 (bytesVal e.payload 48))

/-- The first line of slot TAKE of a ring, where the slot is full. -/
def Cell.ringView (e : Env) (c : Cell) (r : Nat) : List Nat :=
  let k := c.rd (SPD_RING_ST_TAKE.ring r)
  c.word e (SPD_RING_ST_TAKE.ring r).off ::
    (if c.slotFull r k then wordList 8 (memRead c.spd (c.slotBase r k) 64) else [])

/-- The header flits of a message (08 R232). -/
def Msg.flit0 (m : Msg) : Nat :=
  (match m.kind with | .posted => 0 | .request => 1 | .response => 2 | .nack => 3) * 2 ^ 62 + m.epoch % 2 * 2 ^ 61
    + b2n m.priv * 2 ^ 60 + m.len % 128 * 2 ^ 52 + m.srcCtx % 4 * 2 ^ 50 + m.tag % 4096 * 2 ^ 38 + m.unit % 16 * 2 ^ 34
    + m.port % 64 * 2 ^ 28 + m.dest % 2 ^ 14 * 2 ^ 14 + m.src % 2 ^ 14

/-- A stop input's buffer of one channel. -/
def sprView (q : List Msg) : List Nat :=
  (q.map Msg.flits).sum % 16 :: (match q with | [] => [] | m :: _ => [m.flit0, m.route % 2 ^ 64])

/-- The counters of a bank as PMC_CNT reads. -/
def State.countView (s : State) (kind unit k : Nat) : List Nat :=
  [s.bankRd kind unit (PMC_CNT_OVF.up (0x10 * k)) * 2 ^ 63 + s.bankRd kind unit (PMC_CNT_COUNT.up (0x10 * k))]

/-- The views of a cell bank. -/
def Cell.views (e : Env) (c : Cell) (m : FMap Nat) : FMap Nat :=
  let st := c.word e 0x60
  let m := putView 1 0 (recvView st c.recvReq) m
  let m := putView 1 1 (recvView st c.recvRsp) m
  let m := putViews 2 8 (fun i =>
    let q := fget nil0 c.ports (scanPorts.getD i 0)
    q.length :: (match q with | [] => [] | w :: _ => wordList 8 w.v.toNat)) m
  let m := putViews 3 16 (c.ringView e) m
  putViews 4 10 (fun i => sprView (fget nil0 c.stop i)) m

/-- The views of a court bank. -/
def Court.views (now : Nat) (c : Court) (m : FMap Nat) : FMap Nat :=
  let m := putViews 5 16 (fun i => c.word now (DMA_QST_QUEUED.queue i).off ::
    (match fget nil0 c.dma i with | [] => [] | o :: _ => (List.range 8).map (fun j => o.words.getD j 0))) m
  let m := putView 6 0 (c.word now CRT_STATUS_HELD.off ::
    (match c.rif.find? (fun o => o.phase == .held) with
      | none => [] | some o => (List.range 8).map (fun j => o.desc.getD j 0))) m
  putView 7 0 (c.word now SYN_STATUS_WAITERS.off ::
    (match c.waiters with | [] => [] | w :: _ => [w.obj, w.src, w.ctx, w.op, w.op1])) m

/-- The fault records of a die that are not yet logged. -/
def State.waitingFaults (s : State) (d : Nat) : List FaultRec :=
  (s.cells.filter (fun p => cellDie p.1 == d)).flatMap (fun p => p.2.faults)
    ++ (s.courts.filter (fun p => courtDie p.1 == d)).flatMap (fun p => p.2.faults) ++ fget nil0 s.events d

/-- The oldest record of a list. -/
def oldestFault : List FaultRec → Option FaultRec
  | [] => none
  | r :: rs => match oldestFault rs with
    | none => some r
    | some x => some (if x.tick < r.tick then x else r)

/-- The views of a die bank. -/
def State.dieViews (s : State) (d : Nat) (m : FMap Nat) : FMap Nat :=
  let m := putViews 8 24 (fun i =>
    match (s.link (24 * d + i)).retry with
    | [] => []
    | x :: xs => ((xs.length + 1) % 256 + x.1.seq % 2 ^ 24 * 256) :: wordList 2 (frameHeader x.1)) m
  let q := s.waitingFaults d
  putView 9 0 (q.length % 512 :: (match oldestFault q with | none => [] | some r => wordList 4 (flogEntry r 0).toNat)) m

/-! ### Snapshots (R560) -/

/-- Whether a view's KIND belongs to a kind of bank. -/
def viewIn (bank kind : Nat) : Bool :=
  kind == 0 || (match bank with
    | 0 => decide (1 ≤ kind ∧ kind ≤ 4) | 1 => decide (5 ≤ kind ∧ kind ≤ 7) | _ => kind == 8 || kind == 9)

/-- PMC_QDATA shows the selected word of the selected view. -/
def State.showView (s : State) (kind unit : Nat) : State :=
  let k := s.bankRd kind unit PMC_QSEL_KIND
  s.bankWr kind unit PMC_QDATA_DATA (if viewIn kind k
    then fget z0 (s.bankSnap kind unit) (viewKey k (s.bankRd kind unit PMC_QSEL_INDEX) (s.bankRd kind unit PMC_QSEL_WORD)) else 0)

/-- A bank latches its counters, the queue views of its unit and the timebase. -/
def State.snapshot (s : State) (kind unit : Nat) : State :=
  let m := putViews 0 8 (s.countView kind unit) []
  let m := match kind with
    | 0 => (s.cell unit).views (s.env unit) m | 1 => (s.court unit).views s.cycle m | _ => s.dieViews unit m
  let s := (s.setSnap kind unit m).bankWr kind unit PMC_SNAP_TICK s.tick
  (s.bankWr kind unit PMC_SNAP_SNAP_SEQ (s.bankRd kind unit PMC_SNAP_SNAP_SEQ + 1)).showView kind unit

/-- PMC_SNAP_GO at a bank: a write that a fenced cell's window ignores (03 R77). -/
def execPmcSnapGo (kind unit : Nat) (s : State) : Out :=
  if kind = 0 then s.onWin unit (fun s => s.snapshot 0 unit) else s.onBank kind unit (fun s => s.snapshot kind unit)

/-- Every bank whose clock runs latches. -/
def State.snapAll (s : State) : State :=
  let s := (List.range cellCount).foldl (fun s n => if s.powered n then s.snapshot 0 n else s) s
  let s := (List.range 144).foldl (fun s q =>
    if fget noMark s.dieHalt (courtDie q) || (s.small && inFused (8 * (q % 12)) (8 * (q / 12))) then s else s.snapshot 1 q) s
  (List.range 4).foldl (fun s d => if fget noMark s.dieHalt d then s else s.snapshot 2 d) s

/-- PMC_GSNAP_LATCH: TICK has reached PMC_GSNAP.AT (R560). -/
def execPmcGsnapLatch (s : State) : Out :=
  .next (if s.mgmt.gsnap ∧ s.rd PMC_GSNAP_AT ≤ s.tick
    then State.snapAll { s with mgmt := { s.mgmt with gsnap := false } } else s)

/-! ### Reads that latch (R558, R564, 13 R380) -/

/-- A 32-bit read of a half: the low one latches the high one, which the next read of the high half returns. -/
def State.readHalf (s : State) (key v : Nat) (high : Bool) : State :=
  if high then
    let l := fget z0 s.mgmt.lastCat key
    { s with readVal := if l = 0 then v / 2 ^ 32 else l - 1, readStat := 0, mgmt := { s.mgmt with lastCat := ferase s.mgmt.lastCat key } }
  else { s with readVal := v % 2 ^ 32, readStat := 0, mgmt := { s.mgmt with lastCat := fset z0 s.mgmt.lastCat key (v / 2 ^ 32 + 1) } }

/-- TMB_TICK_LOW_READ, and the read of the high half that follows it (13 R380). -/
def execTmbTickLowRead (high : Bool) (s : State) : Out := .next (s.readHalf 0 (s.tick % 2 ^ 64) high)

/-- PMC_CNT_LOW_READ of counter `k` of a bank, and the read of the high half that follows it (R558). -/
def execPmcCntLowRead (kind unit k : Nat) (high : Bool) (s : State) : Out :=
  if 8 ≤ k then .fault .noSuchUnit
  else s.onBank kind unit (fun s =>
    s.readHalf (1 + k + 8 * (unit + 16384 * kind)) ((s.countView kind unit k).headD 0) high)

/-- PMC_SAMP_DATA_READ: word 0 latches the entry, words 1 to 3 are read from that latch (R564). `fn` reads: a virtual function sees
only records of the niche's own work. -/
def execPmcSampDataRead (n : Nat) (fn : Option Nat) (s : State) : Out :=
  s.onCell n (fun s =>
    let c := s.cell n
    let w := c.rd (PMC_SAMP_CTL_RD_WORD.up 0xE00)
    let e := if w = 0 then c.samples.getD (c.rd (PMC_SAMP_CTL_RD_ENTRY.up 0xE00)) [] else c.sampLatch
    let vf := match fn with | some f => f % 17 != 0 | none => false
    let v := if vf && bits (e.getD 1 0) 20 19 != 0 then 0 else e.getD w 0
    { s.modCell n (fun c => { c with sampLatch := e }.wr (PMC_SAMP_DATA_DATA.up 0xE00) v) with readVal := v, readStat := 0 })

/-! ### Bandwidth (R566) -/

/-- BW_WINDOW_LATCH: at a tick that is a multiple of BW_WIN the derived byte counters latch; `l` gives them by object and
subindex. -/
def execBwWindowLatch (l : List (Nat × Nat × Nat)) (s : State) : Out :=
  .next (if s.obj 0x6000 0 = 0 ∨ s.tick % (s.obj 0x6000 0 * 9 / 10) ≠ 0 then s
    else { s with mgmt := { s.mgmt with bwPrev := s.mgmt.bwNow, bwTick := s.tick,
                                        bwNow := l.foldl (fun m x => fset z0 m (256 * x.1 + x.2.1) (x.2.2 % 2 ^ 48)) [] } })

end Sys2Proof.Machine
end

