-- ==== Sys2Proof/Machine/RegWrite.lean ====
section
/-! DEFINITION. A write to a register that has no command of its own: owners, access codes, reserved values and the conditions
that register descriptions state (spec/00_scope.md R10 to R14, R588; spec/14_host_niches.md R414 to R416, R434; the register
sections of the chapters). -/

namespace Sys2Proof

/-! ### The written bits -/

/-- Lowest bit of the access. -/
def RegAcc.lo (a : RegAcc) : Nat := if a.half = some true then 32 else 0
/-- Highest bit of the access. -/
def RegAcc.hi (a : RegAcc) : Nat := if a.half = some false then 31 else 63
/-- The written value in its place. -/
def RegAcc.val (a : RegAcc) : Nat :=
  match a.half with
  | none => a.v.toNat | some false => a.v.toNat % 2 ^ 32 | some true => a.v.toNat % 2 ^ 32 * 2 ^ 32
/-- A 64-bit value of which the access writes its half. -/
def RegAcc.mix (a : RegAcc) (old : Nat) : Nat :=
  match a.half with
  | none => a.v.toNat
  | some false => old - old % 2 ^ 32 + a.v.toNat % 2 ^ 32
  | some true => old % 2 ^ 32 + a.v.toNat % 2 ^ 32 * 2 ^ 32
/-- Whether the access writes bit `i`. -/
def RegAcc.covers (a : RegAcc) (i : Nat) : Bool := decide (a.lo ≤ i ∧ i ≤ a.hi)
/-- Whether a virtual function writes. -/
def RegAcc.vf (a : RegAcc) : Bool := match a.who with | some fn => fn % 17 != 0 | none => false

end Sys2Proof

namespace Sys2Proof.Machine
open Sys2Proof

/-! ### Reserved values, and fields that have a command of their own (R14)

Each function says of a written value of a field whether the field keeps its value: the value is reserved, or the field's write
is another row of the command table. -/

/-- Fields of a counter bank at `b` (20): `vf` says that a virtual function writes (R556). -/
def keepPmc (b : Nat) (vf : Bool) (f : Fld) (x : Nat) : Bool :=
  let o := f.off - b
  if f.off < b ∨ b + 0xB0 ≤ f.off then false
  else if o < 0x80 then o % 16 == 0 && f.lsb == 58 && (x == 3 || (vf && x != 0))
  else if o = 0x90 then f.lsb == 0 && x == 0
  else if o = 0xA0 then (f.lsb == 12 && decide (10 ≤ x)) || (f.lsb == 0 && decide (9 ≤ x))
  else false

/-- Places in the cell window, contexts, rings and route schedules folded onto the first. -/
def cellPlace (off : Nat) : Nat :=
  if 0x400 ≤ off ∧ off < 0x800 then 0x400 + off % 0x100
  else if 0xA00 ≤ off ∧ off < 0xB00 then 0xA00 + off % 0x10
  else if 0xC40 ≤ off ∧ off < 0xD80 then 0xC40 + (off - 0xC40) % 0x50
  else off

/-- Fields of the cell window; `file` is FILE of CELL_REG_SEL after the write. -/
def keepCell (vf : Bool) (file : Nat) (f : Fld) (x : Nat) : Bool :=
  keepPmc 0xE00 vf f x ||
  match cellPlace f.off, f.lsb with
  | 0x8, 9 => true
  | 0x8, 4 => decide (2 ≤ x)
  | 0x28, 2 => x == 3
  | 0x48, _ => true
  | 0x50, 0 => match file with
    | 0 => decide (32 ≤ x) | 1 => decide (8 ≤ x) | 2 => decide (128 ≤ x) | _ => decide (12 ≤ x)
  | 0x58, _ => true
  | 0x410, 0 => true
  | 0x418, 0 => true
  | 0x418, 21 => f.off != 0x718
  | 0x420, 0 => !(decide (8 ≤ x ∧ x ≤ 24) || x == 31)
  | 0x828, _ => true
  | 0x830, _ => true
  | 0x838, _ => true
  | 0x848, 12 => x == 3
  | 0x848, 10 => x == 3
  | 0x848, 8 => x == 3
  | 0xA00, l => l != 60
  | 0xB00, _ => true
  | 0xB40, _ => true
  | 0xC00, 7 => true
  | 0xC18, _ => true
  | 0xC40, 62 => x == 3
  | 0xC40, 0 => true
  | 0xD80, 8 => !decide (12 ≤ x ∧ x ≤ 28)
  | _, _ => false

/-- Fields of a court block; `held` says that the DMA queue at the offset holds descriptors. -/
def keepCourt (vf held : Bool) (f : Fld) (x : Nat) : Bool :=
  keepPmc 0x3900 vf f x ||
  (if f.off = 0x208 ∨ f.off = 0x30 then true
   else if f.off = 0x200 then f.lsb == 0 && decide (144 ≤ x)
   else if 0x1000 ≤ f.off ∧ f.off < 0x1800 then
     (if f.off % 16 = 8 then true
      else match f.lsb with
        | 32 => x == 0 | 8 => !decide (8 ≤ x ∧ x ≤ 27) | 0 => decide (5 ≤ x) | _ => false)
   else if 0x3000 ≤ f.off ∧ f.off < 0x3100 then f.lsb == 62 && held
   else false)

/-- Fields of a die block. -/
def keepDie (f : Fld) (x : Nat) : Bool :=
  keepPmc 0xD0000 false f x ||
  (if 0x8100 ≤ f.off ∧ f.off < 0x8200 then f.lsb < 2
   else if 0xC000 ≤ f.off ∧ f.off < 0xF000 then (f.off % 0x200 == 0 && f.lsb == 0) || f.off % 0x200 == 0x28
   else if f.off = 0x30000 then
     match f.lsb with
     | 16 => !decide (1 ≤ x ∧ x ≤ 600)
     | 8 => x != 0 && !decide (16 ≤ x ∧ x ≤ 30)
     | 0 => x != 0 && decide (x < 16)
     | _ => false
   else false)

/-- Fields of the package block. -/
def keepPkg (f : Fld) (_ : Nat) : Bool :=
  if 0x3100 ≤ f.off ∧ f.off < 0x3200 then f.off % 16 == 0 || f.lsb == 62 || f.lsb == 0
  else f.off == 0x7A00 || f.off == 0x7A80

/-! ### Who writes (R588, 14 R414, R416) -/

/-- The owner of the register at an offset, none where there is no register. -/
def ownerAt (tbl : List RegDef) (off : Nat) : Option Owner := (tbl.find? (fun r => r.at off)).map (fun r => r.owner)

/-- Whether a host write to a register with an owner takes effect. -/
def hostMay : Option Owner → Bool
  | some .host => true | some .cell => true | some .hw => true | _ => false

/-- Package registers whose chapters give host writes no effect (14 R434, 19 R553). -/
def hostShut (off : Nat) : Bool :=
  decide (0x1000 ≤ off ∧ off < 0x1100) || decide (0x4000 ≤ off ∧ off < 0x5C00) || [0x7810, 0x7880, 0x7888, 0x7900].contains off

/-- Whether a function's view holds a register for writing: a virtual function's own page, the courts of its niche and the
cells there that carry a logical cell. -/
def State.viewHolds (s : State) (a : RegAcc) (fn : Nat) : Bool :=
  s.portOn (fn / 17) && (match a.space with
    | 0 => fn % 17 == 0
    | 1 => fn % 17 == 0
    | 2 => s.fnReaches fn a.unit
    | 3 => s.fnReaches fn (cellCourt a.unit) && (fn % 17 == 0 || (s.logical a.unit).isSome)
        && !((a.off == 0xB38) && !s.cellWin a.unit)
    | _ => a.unit == fn || (fn % 17 == 0 && a.unit / 17 == fn / 17))

/-- Whether the writer may write the register. -/
def State.mayReg (s : State) (a : RegAcc) (tbl : List RegDef) : Bool :=
  match a.who with
  | none => true
  | some fn => s.viewHolds a fn && hostMay (ownerAt tbl a.off) && !(a.space == 0 && hostShut a.off)

/-! ### Cells -/

/-- The selected accumulator entry takes N0, N1 or the status word. -/
def Cell.accWrite (c : Cell) (a : RegAcc) : Cell :=
  let i := c.rd CELL_MAC_ACC_SEL_ENTRY
  let x := fget acc0 c.acc i
  let n := x.n.toNat % 2 ^ 128
  let y := if a.off = 0x828 then Acc.ofWords (n - n % 2 ^ 64 + a.mix (n % 2 ^ 64)) x.stWord
    else if a.off = 0x830 then Acc.ofWords (n % 2 ^ 64 + a.mix (n / 2 ^ 64) * 2 ^ 64) x.stWord
    else Acc.ofWords n (a.mix x.stWord)
  { c with acc := fset acc0 c.acc i y }

/-- Registers of the MAC block whose RW fields a host writes only while the block is idle (05 R169). -/
def Cell.macShut (c : Cell) (a : RegAcc) : Bool :=
  decide (0x818 ≤ a.off ∧ a.off < 0xA00) && (c.flag CELL_MAC_STATUS_BUSY || c.flag CELL_MAC_STATUS_DRAINING)

/-- What follows a write in a cell: a cleared CTX_FAULTED frees the record, CTX_PC.PC is written in OFF or HALTED, an
accumulation is closed, OVF shows in both counter registers. -/
def Cell.afterWrite (c : Cell) (a : RegAcc) : Cell :=
  if a.off = 0x18 then (if c.rd CELL_FAULT_CTX_FAULTED = 0 then c.wr CELL_FAULT_REC_VALID 0 else c)
  else if 0x400 ≤ a.off ∧ a.off < 0x800 ∧ a.off % 0x100 = 0x10 then
    let k := a.off / 0x100 - 4
    let st := (c.ctx k).state
    if a.covers 0 ∧ (st = .off ∨ st = .halted) then c.modCtx k (fun x => { x with pc := BitVec.ofNat 10 (a.val % 1024) }) else c
  else if a.off = 0x820 then (if c.rd CELL_MAC_ACC_SEL_OPEN = 0 then { c with openCfg := none } else c)
  else if 0xE00 ≤ a.off ∧ a.off < 0xE80 ∧ a.off % 16 = 0 then
    c.wr (PMC_CNT_OVF.up a.off) (c.rd (PMC_CTL_OVF.up a.off))
  else c

/-- Whether the access writes a bit of the fields of a register whose access code satisfies a test. -/
def regTouches (a : RegAcc) (tbl : List RegDef) (p : Acc11 → Bool) : Bool :=
  tbl.any (fun r => r.at a.off && r.fields.any (fun f => p f.acc && decide (a.lo ≤ f.lsb + f.width - 1 ∧ f.lsb ≤ a.hi)))

/-- A write to a cell window: the fields that the access codes govern. CELL_SLAB_CFG takes no write while the block is busy, whoever
writes (05 R135); the other RW fields of the block none from a host (05 R169). -/
def Cell.regWrite (c : Cell) (a : RegAcc) : Cell :=
  let shut := c.macShut a
  if a.off = 0x828 ∨ a.off = 0x830 ∨ a.off = 0x838 then
    if shut then
      let c := c.wr CELL_MAC_ACC_SEL_ACC_ERR 1
      if a.who.isSome then c.wr CELL_MAC_STATUS_WR_ERR 1 else c
    else c.accWrite a
  else
    let file := if a.covers 8 then bits a.val 9 8 else c.rd CELL_REG_SEL_FILE
    let busy := shut && (a.who.isSome || a.off == 0x840)
    let keep := fun (f : Fld) (x : Nat) => busy || keepCell a.vf file f x
    let c := ({ c with regs := Machine.regWrite cellRst cellRegs keep c.regs a.off a.lo a.hi a.val }).afterWrite a
    if busy && regTouches a cellRegs (fun x => x == .rw) then c.wr CELL_MAC_STATUS_WR_ERR 1 else c

/-- What a command of its own does, where it is executed. -/
def State.runs (s : State) (f : State → Out) : State := match f s with | .next t => t | _ => s
/-- The same under a condition. -/
def State.runsIf (s : State) (b : Bool) (f : State → Out) : State := if b then s.runs f else s

/-- The command bits of CTX_CTRL: the highest-ranked one acts, in the order RESET, HALT, START, STEP (03 R69). -/
def State.ctxCtrl (n k v : Nat) (s : State) : State :=
  let x : CtxRef := ⟨n, k⟩
  if bit v 2 then s.runs (execCtxReset x)
  else if bit v 1 then s.runs (execCtxHalt x)
  else if bit v 0 then s.runs (execCtxStart x)
  else s.runsIf (bit v 3) (execCtxStep x)

/-- The bits of ARM_SCHED_CTRL that act: a changed ENABLE, GO, STOP (07 R219). -/
def State.schedCtrl (n k v : Nat) (s : State) : State :=
  let x : CtxRef := ⟨n, k⟩
  let s := s.runsIf (b2n (bit v 0) != (s.cell n).rd (ARM_SCHED_CTRL_ENABLE.arm k)) (execArmEnableWrite x (bit v 0))
  (s.runsIf (bit v 2) (execArmGo x)).runsIf (bit v 3) (execArmStop x)

/-- The fields of a cell's registers whose write is a command of its own: the written bits do what that command does, a half of
SPD_OWN or SPD_RING_CFG with the other half as it stands (03 R69, R81, 06 R189, R191, 07 R213, 20 R560). -/
def State.cellOwn (a : RegAcc) (s : State) : State :=
  let n := a.unit
  let v := a.val
  let c := s.cell n
  let w : Nat → W64 := BitVec.ofNat 64
  let k := a.off / 0x100 - 4
  if a.off = 0x8 then s.runsIf (a.covers 9) (execFreezeWrite n (bit v 9))
  else if a.off = 0x28 then
    s.runsIf (a.covers 0 && bit v 0) (execScanGo n (w (c.rd CELL_SCAN_CTRL_SECTIONS * 2 ^ 16 + c.rd CELL_SCAN_CTRL_DEST * 4
      + c.rd CELL_SCAN_CTRL_DIR * 2 + 1)))
  else if a.off = 0x48 then s.runsIf (a.covers 0) (execCellIsDataAccess n (some (w v)))
  else if a.off = 0x58 then s.runs (execCellRegDataAccess n (some (w (a.mix (c.rd CELL_REG_DATA_DATA)))))
  else if a.off = 0x818 then s.runsIf (a.covers 8 && bit v 8) (execMacFlagsRestart n)
  else if a.off = 0xB00 then
    let own := c.rd SPD_OWN_STATE
    let d := c.ownWrite s.cycle (a.mix own) ((List.range 16).filter (fun b => a.covers (3 * b) || a.covers (3 * b + 2)))
    (s.modCell n (fun _ => d)).raspOwn n c d
  else if a.off = 0xB10 then s.runsIf (a.covers 0) (execSpdClearWrite n (w v))
  else if a.off = 0xB40 then s.runsIf (a.covers 0) (execSpdHostDataAccess n (some (w v)))
  else if a.off = 0xC00 then s.runsIf (a.covers 7) (execArmShift n (bit v 7))
  else if a.off = 0xC18 then s.runs (execArmRsDataAccess n (some (w (a.mix (c.route (c.rd ARM_RS_ADDR_CTX) (c.rd ARM_RS_ADDR_ENTRY))))))
  else if a.off = 0xE88 then s.runsIf (a.covers 63 && bit v 63) (execPmcSnapGo 0 n)
  else if a.off % 0x100 = 0x08 ∧ 0x400 ≤ a.off ∧ a.off < 0x800 then (if a.covers 0 then s.ctxCtrl n k v else s)
  else if a.off % 0x100 = 0x18 ∧ 0x400 ≤ a.off ∧ a.off < 0x800 then s.runsIf (a.covers 0) (execProgValidWrite ⟨n, k⟩ (bit v 0))
  else if 0xA00 ≤ a.off ∧ a.off < 0xB00 then
    let r := (a.off - 0xA00) / 16
    if a.off % 16 = 0 then
      let old := regWord cellRst cellRegs c.regs a.off
      s.runs (execSpdRingCfgWrite n r (w (a.mix (old - bits old 60 60 * 2 ^ 60))))
    else s.runsIf (a.covers 15 && bit v 15) (execSpdRingReset n r)
  else if 0xC40 ≤ a.off ∧ a.off < 0xD80 ∧ (a.off - 0xC40) % 0x50 = 0 then
    (if a.covers 0 then s.schedCtrl n ((a.off - 0xC40) / 0x50) v else s)
  else s

/-- A write to the register at an offset of a physical cell's window (03 R77): the window of a fenced cell takes only the Atelier's
writes to CELL_CTRL, CELL_SCAN_CTRL and CELL_SCAN_BASE. ISOLATE breaks up a slab (05 R141). -/
def State.cellWrite (s : State) (a : RegAcc) : State :=
  let n := a.unit
  if !s.mayReg a cellRegs then s
  else if (s.cellFenced n || s.fused n) && !(a.who.isNone && [0x8, 0x28, 0x30].contains a.off) then s
  else
    let s := if a.off = 0x8 ∧ a.covers 8 ∧ bit a.val 8 = true ∧ (s.cell n).rd CELL_CTRL_ISOLATE = 0 then s.breakSlab n else s
    let s := (s.modCell n (fun c => c.regWrite a)).cellOwn a
    if a.off = 0xEA0 then s.showView 0 n else s

/-! ### Courts and dies -/

/-- A write to a court block: SYN_CFGk of an object with waiters is ignored. -/
def Court.regWrite (c : Court) (a : RegAcc) : Court :=
  if 0x1000 ≤ a.off ∧ a.off < 0x1800 ∧ a.off % 16 = 0 ∧ c.waiters.any (fun w => w.obj == (a.off - 0x1000) / 16) = true
  then c.wr (SYN_CFG_CFG_ERR.up (a.off - 0x1000)) 1
  else
    let held := decide (0x3000 ≤ a.off ∧ a.off < 0x3100) && !(c.queue ((a.off - 0x3000) / 16)).isEmpty
    let c := { c with regs := Machine.regWrite courtRst courtRegs (keepCourt a.vf held) c.regs a.off a.lo a.hi a.val }
    if 0x3900 ≤ a.off ∧ a.off < 0x3980 ∧ a.off % 16 = 0 then c.wr (PMC_CNT_OVF.up a.off) (c.rd (PMC_CTL_OVF.up a.off)) else c

/-- The fields of a court's registers whose write is a command of its own (08 R248, R260, 09 R269, R291, 20 R560). -/
def State.courtOwn (a : RegAcc) (s : State) : State :=
  let q := a.unit
  let v := a.val
  let w : Nat → W64 := BitVec.ofNat 64
  if a.off = 0 then s.runsIf (a.covers 0 && bit v 0) (execCrtClear q)
  else if a.off = 0x30 then s.runsIf (a.covers 0) (execCrtHostDataAccess q (a.who.getD 0) (some (w v)))
  else if a.off = 0x208 then s.runs (execSprRtDataWrite q (w (a.mix ((s.court q).word s.cycle 0x208))))
  else if 0x1000 ≤ a.off ∧ a.off < 0x1800 ∧ a.off % 16 = 8 then
    s.runs (execSynStateWrite q ((a.off - 0x1000) / 16) (w (a.mix (regWord courtRst courtRegs (s.court q).regs a.off))))
  else if a.off = 0x3988 then s.runsIf (a.covers 63 && bit v 63) (execPmcSnapGo 1 q)
  else s

/-- A write to a court block of a court. -/
def State.courtWrite (s : State) (a : RegAcc) : State :=
  if !s.mayReg a courtRegs then s
  else
    let s := (s.modCourt a.unit (fun c => c.regWrite a)).courtOwn a
    if a.off = 0x39A0 then s.showView 1 a.unit else s

/-- The fields of a die's registers whose write is a command of its own: a changed route version or PRIV_HOLD, a link's ENABLE and
RETRAIN, a snapshot (08 R249, 12 R366, 20 R560). -/
def State.dieOwn (a : RegAcc) (s : State) : State :=
  let v := a.val
  if a.unit = 0 ∧ 0x8100 ≤ a.off ∧ a.off < 0x8180 ∧ a.covers 0 = true then
    let i := (a.off - 0x8100) / 8
    let s := s.runsIf (b2n (bit v 0) != s.dieRd 0 (SPR_NICHE_EPOCH_ACTIVE.epoch i)) (execEpochActiveWrite i (bit v 0))
    s.runsIf (b2n (bit v 1) != s.dieRd 0 (SPR_NICHE_EPOCH_PRIV_HOLD.epoch i)) (execPrivHoldWrite i (bit v 1))
  else if 0xC000 ≤ a.off ∧ a.off < 0xF000 ∧ a.off % 0x200 = 0 ∧ a.covers 0 = true then
    let l := 24 * a.unit + (a.off - 0xC000) / 0x200
    (s.runsIf (b2n (bit v 0) != s.lrd l LNK_CTRL_ENABLE) (execLinkEnableWrite l (bit v 0))).runsIf (bit v 1) (execLinkRetrain l)
  else if a.off = 0xD0088 then s.runsIf (a.covers 63 && bit v 63) (execPmcSnapGo 2 a.unit)
  else s

/-- A write to a die block: the buffers of a link change by LNK_CREDIT's own conditions (12). -/
def State.dieWrite (s : State) (a : RegAcc) : State :=
  let d := a.unit
  if !s.mayReg a Machine.dieRegs then s
  else if 0xC000 ≤ a.off ∧ a.off < 0xF000 ∧ a.off % 0x200 = 0x28 then
    (if a.covers 0 then s.creditWrite (24 * d + (a.off - 0xC000) / 0x200) (a.val % 2 ^ 32) else s)
  else
    let m := Machine.regWrite dieRst Machine.dieRegs keepDie (fget regs0 s.dieRegs d) a.off a.lo a.hi a.val
    let s := State.dieOwn a { s with dieRegs := fset regs0 s.dieRegs d m }
    let s := if 0xD0000 ≤ a.off ∧ a.off < 0xD0080 ∧ a.off % 16 = 0
      then s.dieWr d (PMC_CNT_OVF.up a.off) (s.dieRd d (PMC_CTL_OVF.up a.off)) else s
    if a.off = 0xD00A0 then s.showView 2 d else s

/-! ### The package block and function pages -/

/-- PMC_GSNAP.AT: a value not ahead of TICK is ignored (20). -/
def State.gsnapWrite (s : State) (a : RegAcc) : State :=
  let v := a.mix (s.rd PMC_GSNAP_AT)
  if v ≤ s.tick then s else { s.wr PMC_GSNAP_AT v with mgmt := { s.mgmt with gsnap := true } }

/-- A write to the package block: START_TICK and FRAME_LEN can be written only while MODE is OFF (13 R390). -/
def State.pkgWrite (s : State) (a : RegAcc) : State :=
  if !s.mayReg a Machine.pkgRegs then s
  else if a.off = 0x7A00 then s.gsnapWrite a
  else
    let s := { s with pkgRegs := Machine.regWrite pkgRst Machine.pkgRegs keepPkg s.pkgRegs a.off a.lo a.hi a.val }
    if 0x3100 ≤ a.off ∧ a.off < 0x3200 then
      let i := (a.off - 0x3100) / 16
      if a.off % 16 = 0 then s.writeFrame i TMB_NSTART_START_TICK (a.mix (s.rd (TMB_NSTART_START_TICK.by16 i)))
      else
        let s := if a.covers 0 ∧ 0xFF ≤ bits a.val 23 0 then s.writeFrame i TMB_NFRAME_FRAME_LEN (bits a.val 23 0) else s
        s.runsIf (a.covers 62) (execTmbNframeModeWrite i (BitVec.ofNat 32 (a.val / 2 ^ 32)))
    else if a.off = 0x7010 ∧ a.covers 0 = true then
      let s := s.runsIf (bits a.val 3 0 != 0) (execDieResetReq (bits a.val 3 0))
      (s.runsIf (bit a.val 4) execPkgResetReq).runsIf (bit a.val 5) execPwrcycReq
    else s

/-- A write to HST_SQBq, HST_CQBq or HST_ERBr of function `a.unit`'s page (14 R422): ADDR and SIZE hold while ENABLE is 1, SIZE takes no
reserved value, and ENABLE = 1 before SERVICE sets ERR (18 R501). A queue that is disabled begins anew. -/
def State.pageWrite (s : State) (a : RegAcc) : State :=
  if !s.mayReg a Machine.fnRegs || (ownerAt Machine.fnRegs a.off).isNone then s
  else
    let g := fun (lsb w : Nat) => (⟨a.off, lsb, w⟩ : Fld).page a.unit
    let on := s.rd (g 5 1) == 1
    let s := if a.covers 4 ∧ bit a.val 4 = true then s.wr (g 4 1) 0 else s
    let addr := a.mix (s.rd (g 12 52) * 2 ^ 12) / 2 ^ 12
    let s := if on then s else s.wr (g 12 52) addr
    if !a.covers 0 then s
    else
      let s := s.wr (g 6 6) (bits a.val 11 6)
      let s := if on ∨ 9 ≤ bits a.val 3 0 then s else s.wr (g 0 4) (bits a.val 3 0)
      if bit a.val 5 then (if s.inService then s.wr (g 5 1) 1 else s.wr (g 4 1) 1)
      else
        let s := s.wr (g 5 1) 0
        let q := a.off % 0x40 / 8
        if !on then s
        else if a.off < 0x40 then s.modHostQ a.unit q (fun h => { h with sqHead := 0, sqTail := 0, sqStop := false })
        else if a.off < 0x80 then s.modHostQ a.unit q (fun h => { h with cqHead := 0, cqTail := 0, cqStop := false })
        else { s with hostRings := ferase s.hostRings (16 * a.unit + (a.off - 0x80) / 8) }

/-- The word that a 64-bit read of a register answers (R11): the same spaces as a write's. WO and RSV bits read 0. -/
def State.regRead (s : State) (space unit off : Nat) : Nat :=
  match space with
  | 0 => s.pkgWord off
  | 1 => s.dieWord unit off
  | 2 => (s.court unit).word s.cycle off
  | 3 => (s.cell unit).word (s.env unit) off
  | _ => s.pkgWord ((⟨off, 0, 1⟩ : Fld).page unit).off

/-- REG_WRITE (R588): a 64-bit write, or a 32-bit write of a half. An access of 8 or 16 bits, or a misaligned one, changes nothing
and is answered with Unsupported Request (R10). A write to an offset that holds no register is ignored. -/
def execRegWrite (a : RegAcc) (s : State) : Out :=
  match a.who with
  | some fn => if 34 ≤ fn then .fault .noSuchUnit else go
  | none => go
where
  /-- The access where its unit exists. -/
  go : Out :=
    let refused : State := { s with readVal := 0, readStat := 2 }
    let bad := a.odd || a.off % 8 != 0
    match a.space with
    | 0 => .next (if bad then refused else s.pkgWrite a)
    | 1 => if a.unit < 4 then .next (if bad then refused else if fget noMark s.dieHalt a.unit then s else s.dieWrite a) else .fault .noSuchUnit
    | 2 => if bad && decide (a.unit < 144) then .next refused else s.onCourt a.unit (fun s => s.courtWrite a)
    | 3 => if a.unit < cellCount then .next (if bad then refused else if fget noMark s.dieHalt (cellDie a.unit) then s else s.cellWrite a)
      else .fault .noSuchUnit
    | 4 => if a.unit < 34 then .next (if bad then refused else s.pageWrite a) else .fault .noSuchUnit
    | _ => .fault .noSuchUnit

end Sys2Proof.Machine
end

