-- ==== Sys2Proof/Machine/Dispatch.lean ====
section
/-! DEFINITION. One arm for each constructor of `Instr`, each one direct call of its meaning. -/

namespace Sys2Proof.Machine
open Sys2Proof

/-- The effect of a command on everything but the queue. -/
def exec (i : Instr) (s : State) : Host.Outcome State Fault Refusal :=
  match i with
  | .salu x => Sys2Proof.Machine.execSalu x s
  | .salui x => Sys2Proof.Machine.execSalui x s
  | .lui x => Sys2Proof.Machine.execLui x s
  | .smul x => Sys2Proof.Machine.execSmul x s
  | .br x => Sys2Proof.Machine.execBr x s
  | .j x => Sys2Proof.Machine.execJ x s
  | .jal x => Sys2Proof.Machine.execJal x s
  | .jr x => Sys2Proof.Machine.execJr x s
  | .loop x => Sys2Proof.Machine.execLoop x s
  | .sfp x => Sys2Proof.Machine.execSfp x s
  | .dfp x => Sys2Proof.Machine.execDfp x s
  | .cvt x => Sys2Proof.Machine.execCvt x s
  | .cvtx x => Sys2Proof.Machine.execCvtx x s
  | .ld x => Sys2Proof.Machine.execLd x s
  | .st x => Sys2Proof.Machine.execSt x s
  | .vmemLoad x => Sys2Proof.Machine.execVmemLoad x s
  | .vmemStore x => Sys2Proof.Machine.execVmemStore x s
  | .tileLoad x => Sys2Proof.Machine.execTileLoad x s
  | .tileStore x => Sys2Proof.Machine.execTileStore x s
  | .aadd x => Sys2Proof.Machine.execAadd x s
  | .aswap x => Sys2Proof.Machine.execAswap x s
  | .slotTake x => Sys2Proof.Machine.execSlotTake x s
  | .slotPut x => Sys2Proof.Machine.execSlotPut x s
  | .slotTimeout x => Sys2Proof.Machine.execSlotTimeout x s
  | .valu x => Sys2Proof.Machine.execValu x s
  | .vfp x => Sys2Proof.Machine.execVfp x s
  | .vcmp x => Sys2Proof.Machine.execVcmp x s
  | .vsel x => Sys2Proof.Machine.execVsel x s
  | .perm x => Sys2Proof.Machine.execPerm x s
  | .bcast x => Sys2Proof.Machine.execBcast x s
  | .extract x => Sys2Proof.Machine.execExtract x s
  | .slide x => Sys2Proof.Machine.execSlide x s
  | .lxsum x => Sys2Proof.Machine.execLxsum x s
  | .lxadd x => Sys2Proof.Machine.execLxadd x s
  | .lxout x => Sys2Proof.Machine.execLxout x s
  | .lxshr x => Sys2Proof.Machine.execLxshr x s
  | .vcvt x => Sys2Proof.Machine.execVcvt x s
  | .pred x => Sys2Proof.Machine.execPred x s
  | .recv x => Sys2Proof.Machine.execRecv x s
  | .recvTimeout x => Sys2Proof.Machine.execRecvTimeout x s
  | .sendPosted x => Sys2Proof.Machine.execSendPosted x s
  | .sendRequest x => Sys2Proof.Machine.execSendRequest x s
  | .sendResponse x => Sys2Proof.Machine.execSendResponse x s
  | .sync x => Sys2Proof.Machine.execSync x s
  | .rif x => Sys2Proof.Machine.execRif x s
  | .dma x => Sys2Proof.Machine.execDma x s
  | .tmac x => Sys2Proof.Machine.execTmac x s
  | .mwait x => Sys2Proof.Machine.execMwait x s
  | .pcfg x => Sys2Proof.Machine.execPcfg x s
  | .nop x => Sys2Proof.Machine.execNop x s
  | .halt x => Sys2Proof.Machine.execHalt x s
  | .yield x => Sys2Proof.Machine.execYield x s
  | .fence x => Sys2Proof.Machine.execFence x s
  | .waitt x => Sys2Proof.Machine.execWaitt x s
  | .waittWake x => Sys2Proof.Machine.execWaittWake x s
  | .waitf x => Sys2Proof.Machine.execWaitf x s
  | .rdtick x => Sys2Proof.Machine.execRdtick x s
  | .rdctx x => Sys2Proof.Machine.execRdctx x s
  | .brk x => Sys2Proof.Machine.execBrk x s
  | .rsig x => Sys2Proof.Machine.execRsig x s
  | .raspend x => Sys2Proof.Machine.execRaspend x s
  | .ctxStart x => Sys2Proof.Machine.execCtxStart x s
  | .ctxHalt x => Sys2Proof.Machine.execCtxHalt x s
  | .ctxStep x => Sys2Proof.Machine.execCtxStep x s
  | .ctxReset x => Sys2Proof.Machine.execCtxReset x s
  | .progValidWrite x v => Sys2Proof.Machine.execProgValidWrite x v s
  | .cellIsDataAccess n w => Sys2Proof.Machine.execCellIsDataAccess n w s
  | .cellRegDataAccess n w => Sys2Proof.Machine.execCellRegDataAccess n w s
  | .freezeWrite n v => Sys2Proof.Machine.execFreezeWrite n v s
  | .freezeComplete n late => Sys2Proof.Machine.execFreezeComplete n late s
  | .scanGo n v => Sys2Proof.Machine.execScanGo n v s
  | .scanDone n => Sys2Proof.Machine.execScanDone n s
  | .macFlagsRestart n => Sys2Proof.Machine.execMacFlagsRestart n s
  | .spdOwnWrite n v => Sys2Proof.Machine.execSpdOwnWrite n v s
  | .bankClearEnd n => Sys2Proof.Machine.execBankClearEnd n s
  | .spdClearWrite n v => Sys2Proof.Machine.execSpdClearWrite n v s
  | .spdRingCfgWrite n r v => Sys2Proof.Machine.execSpdRingCfgWrite n r v s
  | .spdRingReset n r => Sys2Proof.Machine.execSpdRingReset n r s
  | .spdHostDataAccess n w => Sys2Proof.Machine.execSpdHostDataAccess n w s
  | .spdEccWriteback n word => Sys2Proof.Machine.execSpdEccWriteback n word s
  | .armRsDataAccess n w => Sys2Proof.Machine.execArmRsDataAccess n w s
  | .armGo x => Sys2Proof.Machine.execArmGo x s
  | .armStop x => Sys2Proof.Machine.execArmStop x s
  | .armEnableWrite x v => Sys2Proof.Machine.execArmEnableWrite x v s
  | .schedStart x => Sys2Proof.Machine.execSchedStart x s
  | .armShift n v => Sys2Proof.Machine.execArmShift n v s
  | .seamAlarm seam => Sys2Proof.Machine.execSeamAlarm seam s
  | .sprRtDataWrite court v => Sys2Proof.Machine.execSprRtDataWrite court v s
  | .epochActiveWrite niche v => Sys2Proof.Machine.execEpochActiveWrite niche v s
  | .privHoldWrite niche v => Sys2Proof.Machine.execPrivHoldWrite niche v s
  | .sprueMessageArrive n input vc err => Sys2Proof.Machine.execSprueMessageArrive n input vc err s
  | .nackReceive n input vc => Sys2Proof.Machine.execNackReceive n input vc s
  | .responseReceive n input vc => Sys2Proof.Machine.execResponseReceive n input vc s
  | .sprRspTimeout n tag => Sys2Proof.Machine.execSprRspTimeout n tag s
  | .syncRead court => Sys2Proof.Machine.execSyncRead court s
  | .syncAdd court => Sys2Proof.Machine.execSyncAdd court s
  | .syncSet court => Sys2Proof.Machine.execSyncSet court s
  | .syncCas court => Sys2Proof.Machine.execSyncCas court s
  | .syncWaitGe court => Sys2Proof.Machine.execSyncWaitGe court s
  | .syncArrive court => Sys2Proof.Machine.execSyncArrive court s
  | .syncAcquire court => Sys2Proof.Machine.execSyncAcquire court s
  | .syncRelease court => Sys2Proof.Machine.execSyncRelease court s
  | .syncFlagSet court => Sys2Proof.Machine.execSyncFlagSet court s
  | .syncFlagClear court => Sys2Proof.Machine.execSyncFlagClear court s
  | .syncFlagWait court => Sys2Proof.Machine.execSyncFlagWait court s
  | .orphanNotice court => Sys2Proof.Machine.execOrphanNotice court s
  | .syncWaitTimeout court waiter => Sys2Proof.Machine.execSyncWaitTimeout court waiter s
  | .synStateWrite court k v => Sys2Proof.Machine.execSynStateWrite court k v s
  | .rifRequestArrive court => Sys2Proof.Machine.execRifRequestArrive court s
  | .rifPrologue court => Sys2Proof.Machine.execRifPrologue court s
  | .gather court => Sys2Proof.Machine.execGather court s
  | .scadd court => Sys2Proof.Machine.execScadd court s
  | .segred court => Sys2Proof.Machine.execSegred court s
  | .sort court => Sys2Proof.Machine.execSort court s
  | .topk court => Sys2Proof.Machine.execTopk court s
  | .rifComplete court => Sys2Proof.Machine.execRifComplete court s
  | .xbarRound court => Sys2Proof.Machine.execXbarRound court s
  | .crtClear court => Sys2Proof.Machine.execCrtClear court s
  | .plinthClearEnd court => Sys2Proof.Machine.execPlinthClearEnd court s
  | .crtHostDataAccess court fn w => Sys2Proof.Machine.execCrtHostDataAccess court fn w s
  | .dmaDescArrive court => Sys2Proof.Machine.execDmaDescArrive court s
  | .dmaSpdToPln court queue => Sys2Proof.Machine.execDmaSpdToPln court queue s
  | .dmaPlnToSpd court queue => Sys2Proof.Machine.execDmaPlnToSpd court queue s
  | .dmaPlnToHbm court queue => Sys2Proof.Machine.execDmaPlnToHbm court queue s
  | .dmaHbmToPln court queue => Sys2Proof.Machine.execDmaHbmToPln court queue s
  | .dmaSpdToHbm court queue => Sys2Proof.Machine.execDmaSpdToHbm court queue s
  | .dmaHbmToSpd court queue => Sys2Proof.Machine.execDmaHbmToSpd court queue s
  | .zeroH court queue => Sys2Proof.Machine.execZeroH court queue s
  | .dmaComplete court queue => Sys2Proof.Machine.execDmaComplete court queue s
  | .hbmPatrolScrub line => Sys2Proof.Machine.execHbmPatrolScrub line s
  | .macOpComplete n => Sys2Proof.Machine.execMacOpComplete n s
  | .checkpointResult n block fails => Sys2Proof.Machine.execCheckpointResult n block fails s
  | .arbitration n outs => Sys2Proof.Machine.execArbitration n outs s
  | .frameTriggerFree niche => Sys2Proof.Machine.execFrameTriggerFree niche s
  | .frameTriggerEvent niche => Sys2Proof.Machine.execFrameTriggerEvent niche s
  | .frameTriggerPod niche => Sys2Proof.Machine.execFrameTriggerPod niche s
  | .frameEdge niche => Sys2Proof.Machine.execFrameEdge niche s
  | .tmbNframeModeWrite niche v => Sys2Proof.Machine.execTmbNframeModeWrite niche v s
  | .ingressEntryArrive ring src entry poison => Sys2Proof.Machine.execIngressEntryArrive ring src entry poison s
  | .egressSlotWrite ring slot => Sys2Proof.Machine.execEgressSlotWrite ring slot s
  | .pendWaitExpiry p => Sys2Proof.Machine.execPendWaitExpiry p s
  | .sqTailDoorbell fn q v => Sys2Proof.Machine.execSqTailDoorbell fn q v s
  | .cqHeadDoorbell fn q v => Sys2Proof.Machine.execCqHeadDoorbell fn q v s
  | .egrHeadDoorbell fn q v => Sys2Proof.Machine.execEgrHeadDoorbell fn q v s
  | .cmdNop e => Sys2Proof.Machine.execCmdNop e s
  | .writeHbm e => Sys2Proof.Machine.execWriteHbm e s
  | .readHbm e => Sys2Proof.Machine.execReadHbm e s
  | .loadCast cast e fault => Sys2Proof.Machine.execLoadCast cast e fault s
  | .cmdStart e => Sys2Proof.Machine.execCmdStart e s
  | .cmdStop e => Sys2Proof.Machine.execCmdStop e s
  | .nicheReset niche e => Sys2Proof.Machine.execNicheReset niche e s
  | .ingressPost e => Sys2Proof.Machine.execIngressPost e s
  | .nicheCreate e => Sys2Proof.Machine.execNicheCreate e s
  | .nicheDestroy e => Sys2Proof.Machine.execNicheDestroy e s
  | .bindVf e => Sys2Proof.Machine.execBindVf e s
  | .setWindow e => Sys2Proof.Machine.execSetWindow e s
  | .bind e => Sys2Proof.Machine.execBind e s
  | .hostBar2Read fn off len => Sys2Proof.Machine.execHostBar2Read fn off len s
  | .hostBar2Write fn off data ep => Sys2Proof.Machine.execHostBar2Write fn off data ep s
  | .functionLevelReset fn => Sys2Proof.Machine.execFunctionLevelReset fn s
  | .perstAssert port => Sys2Proof.Machine.execPerstAssert port s
  | .regWrite a => Sys2Proof.Machine.execRegWrite a s
  | .tmbTickLowRead high => Sys2Proof.Machine.execTmbTickLowRead high s
  | .pmcCntLowRead kind unit k high => Sys2Proof.Machine.execPmcCntLowRead kind unit k high s
  | .pmcSampDataRead n fn => Sys2Proof.Machine.execPmcSampDataRead n fn s
  | .pmcSnapGo kind unit => Sys2Proof.Machine.execPmcSnapGo kind unit s
  | .pmcGsnapLatch => Sys2Proof.Machine.execPmcGsnapLatch s
  | .pmcOverflow e => Sys2Proof.Machine.execPmcOverflow e s
  | .pmcSample e => Sys2Proof.Machine.execPmcSample e s
  | .bwWindowLatch l => Sys2Proof.Machine.execBwWindowLatch l s
  | .faultLogEntry source index => Sys2Proof.Machine.execFaultLogEntry source index s
  | .zovarDataFrame link f => Sys2Proof.Machine.execZovarDataFrame link f s
  | .zovarIdleFrame link f => Sys2Proof.Machine.execZovarIdleFrame link f s
  | .zovarHello link f => Sys2Proof.Machine.execZovarHello link f s
  | .zovarPing link f turn => Sys2Proof.Machine.execZovarPing link f turn s
  | .zovarPong link f t4 => Sys2Proof.Machine.execZovarPong link f t4 s
  | .zovarBadFrame link crc => Sys2Proof.Machine.execZovarBadFrame link crc s
  | .txFrameSlot link => Sys2Proof.Machine.execTxFrameSlot link s
  | .replayTimeout link => Sys2Proof.Machine.execReplayTimeout link s
  | .linkEnableWrite link v => Sys2Proof.Machine.execLinkEnableWrite link v s
  | .linkRetrain link => Sys2Proof.Machine.execLinkRetrain link s
  | .linkDetect link lane0 lane1 => Sys2Proof.Machine.execLinkDetect link lane0 lane1 s
  | .linkEqDone link res lane => Sys2Proof.Machine.execLinkEqDone link res lane s
  | .berWindowEnd link ber0 ber1 => Sys2Proof.Machine.execBerWindowEnd link ber0 ber1 s
  | .linkLock link => Sys2Proof.Machine.execLinkLock link s
  | .linkLockLost link => Sys2Proof.Machine.execLinkLockLost link s
  | .lockTExpiry link => Sys2Proof.Machine.execLockTExpiry link s
  | .negTExpiry link => Sys2Proof.Machine.execNegTExpiry link s
  | .holdTExpiry link => Sys2Proof.Machine.execHoldTExpiry link s
  | .helloTSend link => Sys2Proof.Machine.execHelloTSend link s
  | .deadTExpiry link => Sys2Proof.Machine.execDeadTExpiry link s
  | .recoverTExpiry link => Sys2Proof.Machine.execRecoverTExpiry link s
  | .downHoldExpiry link => Sys2Proof.Machine.execDownHoldExpiry link s
  | .measTPing link t1 => Sys2Proof.Machine.execMeasTPing link t1 s
  | .fecDegrade link lane => Sys2Proof.Machine.execFecDegrade link lane s
  | .linkDown link => Sys2Proof.Machine.execLinkDown link s
  | .packetReceive link => Sys2Proof.Machine.execPacketReceive link s
  | .pktDesc link => Sys2Proof.Machine.execPktDesc link s
  | .pktSync link => Sys2Proof.Machine.execPktSync link s
  | .pktEdgeIn link => Sys2Proof.Machine.execPktEdgeIn link s
  | .pktMgmt link => Sys2Proof.Machine.execPktMgmt link s
  | .vl0Deliver link => Sys2Proof.Machine.execVl0Deliver link s
  | .announceSend => Sys2Proof.Machine.execAnnounceSend s
  | .announce link => Sys2Proof.Machine.execAnnounce link s
  | .parentLoss => Sys2Proof.Machine.execParentLoss s
  | .timeSyncSend link ttx => Sys2Proof.Machine.execTimeSyncSend link ttx s
  | .timeSync link trx => Sys2Proof.Machine.execTimeSync link trx s
  | .holdoverExpiry => Sys2Proof.Machine.execHoldoverExpiry s
  | .fallback link => Sys2Proof.Machine.execFallback link s
  | .slotSend niche slot => Sys2Proof.Machine.execSlotSend niche slot s
  | .collInstanceStart niche plan => Sys2Proof.Machine.execCollInstanceStart niche plan s
  | .collSegment link => Sys2Proof.Machine.execCollSegment link s
  | .collAck link => Sys2Proof.Machine.execCollAck link s
  | .collLost link => Sys2Proof.Machine.execCollLost link s
  | .collRetxExpiry niche plan seq step idx => Sys2Proof.Machine.execCollRetxExpiry niche plan seq step idx s
  | .collTExpiry niche plan seq => Sys2Proof.Machine.execCollTExpiry niche plan seq s
  | .instTExpiry niche plan seq => Sys2Proof.Machine.execInstTExpiry niche plan seq s
  | .stragglerWindowEnd => Sys2Proof.Machine.execStragglerWindowEnd s
  | .heal n => Sys2Proof.Machine.execHeal n s
  | .healShift niche => Sys2Proof.Machine.execHealShift niche s
  | .maquetteActivate niche => Sys2Proof.Machine.execMaquetteActivate niche s
  | .relocate niche => Sys2Proof.Machine.execRelocate niche s
  | .raspPassStart court steps => Sys2Proof.Machine.execRaspPassStart court steps s
  | .confirmationTest n pass => Sys2Proof.Machine.execConfirmationTest n pass s
  | .contextWatchdog x => Sys2Proof.Machine.execContextWatchdog x s
  | .nicheWatchdog niche => Sys2Proof.Machine.execNicheWatchdog niche s
  | .atelierWatchdog die => Sys2Proof.Machine.execAtelierWatchdog die s
  | .escalationTimeout level unit => Sys2Proof.Machine.execEscalationTimeout level unit s
  | .cellReset n => Sys2Proof.Machine.execCellReset n s
  | .dieReset die => Sys2Proof.Machine.execDieReset die s
  | .packageReset => Sys2Proof.Machine.execPackageReset s
  | .powerCycle => Sys2Proof.Machine.execPowerCycle s
  | .crashCast level unit k => Sys2Proof.Machine.execCrashCast level unit k s
  | .crashCastAbandon => Sys2Proof.Machine.execCrashCastAbandon s
  | .dieResetReq mask => Sys2Proof.Machine.execDieResetReq mask s
  | .pkgResetReq => Sys2Proof.Machine.execPkgResetReq s
  | .pwrcycReq => Sys2Proof.Machine.execPwrcycReq s
  | .sysRstDeassert b => Sys2Proof.Machine.execSysRstDeassert b s
  | .sysRstAssert => Sys2Proof.Machine.execSysRstAssert s
  | .bringup b => Sys2Proof.Machine.execBringup b s
  | .bootTakeover => Sys2Proof.Machine.execBootTakeover s
  | .brownOut rail => Sys2Proof.Machine.execBrownOut rail s
  | .overvoltage rail => Sys2Proof.Machine.execOvervoltage rail s
  | .nvWriteBlock => Sys2Proof.Machine.execNvWriteBlock s
  | .nvWriteResume => Sys2Proof.Machine.execNvWriteResume s
  | .nvJournalWrite done => Sys2Proof.Machine.execNvJournalWrite done s
  | .refclkLoss => Sys2Proof.Machine.execRefclkLoss s
  | .thermHot tj => Sys2Proof.Machine.execThermHot tj s
  | .thermCool tj => Sys2Proof.Machine.execThermCool tj s
  | .thermLimit tj => Sys2Proof.Machine.execThermLimit tj s
  | .thermTrip tj => Sys2Proof.Machine.execThermTrip tj s
  | .powerCapCheck avg low => Sys2Proof.Machine.execPowerCapCheck avg low s
  | .profileChange avs => Sys2Proof.Machine.execProfileChange avs s
  | .capRead m => Sys2Proof.Machine.execCapRead m s
  | .capWrite m => Sys2Proof.Machine.execCapWrite m s
  | .capInfo m => Sys2Proof.Machine.execCapInfo m s
  | .capNext m => Sys2Proof.Machine.execCapNext m s
  | .capTunnel m => Sys2Proof.Machine.execCapTunnel m s
  | .spdmMessage m => Sys2Proof.Machine.execSpdmMessage m s
  | .spdmHeartbeatExpiry id => Sys2Proof.Machine.execSpdmHeartbeatExpiry id s
  | .capCommand m => Sys2Proof.Machine.execCapCommand m s
  | .profileWrite m => Sys2Proof.Machine.execProfileWrite m s
  | .flawMapWrite m => Sys2Proof.Machine.execFlawMapWrite m s
  | .deviceIdWrite m => Sys2Proof.Machine.execDeviceIdWrite m s
  | .fwData m => Sys2Proof.Machine.execFwData m s
  | .fwVerify m => Sys2Proof.Machine.execFwVerify m s
  | .fwActivate m => Sys2Proof.Machine.execFwActivate m s
  | .fwCommit m => Sys2Proof.Machine.execFwCommit m s
  | .commitTExpiry die => Sys2Proof.Machine.execCommitTExpiry die s
  | .svnRaise m => Sys2Proof.Machine.execSvnRaise m s
  | .debugToken m => Sys2Proof.Machine.execDebugToken m s
  | .keyZeroise => Sys2Proof.Machine.execKeyZeroise s
  | .gpioFuncWrite v => Sys2Proof.Machine.execGpioFuncWrite v s
  | .thermLimitEnd tj => Sys2Proof.Machine.execThermLimitEnd tj s
  | .mgmtPhyLinkUp => Sys2Proof.Machine.execMgmtPhyLinkUp s
  | .plinthEccWriteback court word => Sys2Proof.Machine.execPlinthEccWriteback court word s

end Sys2Proof.Machine
end

