-- ==== Sys2Proof/WellFormed.lean ====
section
/-! DEFINITION. Well-formed commands: every unit that a command names is one that the largest part has
(spec/00_scope.md R2 to R9, spec/03_cell_core.md R57, R77, spec/14_host_niches.md R410, R422). The machine answers a command
that is not well-formed with the fault `noSuchUnit`. -/

namespace Sys2Proof

/-- The context is one of the four of one of the 10,368 physical cells. -/
def CtxRef.ok (x : CtxRef) : Bool := decide (x.ctx < 4) && decide (x.cell < 10368)

/-- The function is one of the 17 of the two ports, the queue one of its eight. -/
def SqEntry.ok (e : SqEntry) : Bool := decide (e.fn < 34) && decide (e.q < 8)

/-- The transport carries CAP messages; over Zovar the requester is a package link. -/
def CapMsg.ok (m : CapMsg) : Bool := decide (m.via ≤ 5) && !(m.via == 5 && decide (96 ≤ m.who))

/-- A counter bank is that of a cell, a court or a die. -/
def bankOk (kind unit : Nat) : Bool :=
  match kind with
  | 0 => decide (unit < 10368) | 1 => decide (unit < 144) | 2 => decide (unit < 4) | _ => false

/-- The window of a register access is one of the package's, and so is its function. -/
def RegAcc.ok (a : RegAcc) : Bool :=
  (match a.who with | some fn => decide (fn < 34) | none => true) && (match a.space with
    | 0 => true
    | 1 => decide (a.unit < 4)
    | 2 => decide (a.unit < 144)
    | 3 => decide (a.unit < 10368)
    | 4 => decide (a.unit < 34)
    | _ => false)

/-- A well-formed command. -/
def Instr.wf : Instr → Bool
  | .salu x => x.ok
  | .salui x => x.ok
  | .lui x => x.ok
  | .smul x => x.ok
  | .br x => x.ok
  | .j x => x.ok
  | .jal x => x.ok
  | .jr x => x.ok
  | .loop x => x.ok
  | .sfp x => x.ok
  | .dfp x => x.ok
  | .cvt x => x.ok
  | .cvtx x => x.ok
  | .ld x => x.ok
  | .st x => x.ok
  | .vmemLoad x => x.ok
  | .vmemStore x => x.ok
  | .tileLoad x => x.ok
  | .tileStore x => x.ok
  | .aadd x => x.ok
  | .aswap x => x.ok
  | .slotTake x => x.ok
  | .slotPut x => x.ok
  | .slotTimeout x => x.ok
  | .valu x => x.ok
  | .vfp x => x.ok
  | .vcmp x => x.ok
  | .vsel x => x.ok
  | .perm x => x.ok
  | .bcast x => x.ok
  | .extract x => x.ok
  | .slide x => x.ok
  | .lxsum x => x.ok
  | .lxadd x => x.ok
  | .lxout x => x.ok
  | .lxshr x => x.ok
  | .vcvt x => x.ok
  | .pred x => x.ok
  | .recv x => x.ok
  | .recvTimeout x => x.ok
  | .sendPosted x => x.ok
  | .sendRequest x => x.ok
  | .sendResponse x => x.ok
  | .sync x => x.ok
  | .rif x => x.ok
  | .dma x => x.ok
  | .tmac x => x.ok
  | .mwait x => x.ok
  | .pcfg x => x.ok
  | .nop x => x.ok
  | .halt x => x.ok
  | .yield x => x.ok
  | .fence x => x.ok
  | .waitt x => x.ok
  | .waittWake x => x.ok
  | .waitf x => x.ok
  | .rdtick x => x.ok
  | .rdctx x => x.ok
  | .brk x => x.ok
  | .rsig x => x.ok
  | .raspend x => x.ok
  | .ctxStart x => x.ok
  | .ctxHalt x => x.ok
  | .ctxStep x => x.ok
  | .ctxReset x => x.ok
  | .progValidWrite x _ => x.ok
  | .cellIsDataAccess n _ => decide (n < 10368)
  | .cellRegDataAccess n _ => decide (n < 10368)
  | .freezeWrite n _ => decide (n < 10368)
  | .freezeComplete n _ => decide (n < 10368)
  | .scanGo n _ => decide (n < 10368)
  | .scanDone n => decide (n < 10368)
  | .macFlagsRestart n => decide (n < 10368)
  | .spdOwnWrite n _ => decide (n < 10368)
  | .bankClearEnd n => decide (n < 10368)
  | .spdClearWrite n _ => decide (n < 10368)
  | .spdRingCfgWrite n r _ => decide (n < 10368) && decide (r < 16)
  | .spdRingReset n r => decide (n < 10368) && decide (r < 16)
  | .spdHostDataAccess n _ => decide (n < 10368)
  | .spdEccWriteback n word => decide (n < 10368) && decide (word < 49152)
  | .armRsDataAccess n _ => decide (n < 10368)
  | .armGo x => x.ok
  | .armStop x => x.ok
  | .armEnableWrite x _ => x.ok
  | .schedStart x => x.ok
  | .armShift n _ => decide (n < 10368)
  | .seamAlarm seam => decide (seam < 4)
  | .sprRtDataWrite court _ => decide (court < 144)
  | .epochActiveWrite niche _ => decide (niche < 16)
  | .privHoldWrite niche _ => decide (niche < 16)
  | .sprueMessageArrive n input vc _ => decide (n < 10368) && decide (input < 6) && decide (vc < 2)
  | .nackReceive n input vc => decide (n < 10368) && decide (input < 6) && decide (vc < 2)
  | .responseReceive n input vc => decide (n < 10368) && decide (input < 6) && decide (vc < 2)
  | .sprRspTimeout n tag => decide (n < 10368) && decide (tag < 4096)
  | .syncRead court => decide (court < 144)
  | .syncAdd court => decide (court < 144)
  | .syncSet court => decide (court < 144)
  | .syncCas court => decide (court < 144)
  | .syncWaitGe court => decide (court < 144)
  | .syncArrive court => decide (court < 144)
  | .syncAcquire court => decide (court < 144)
  | .syncRelease court => decide (court < 144)
  | .syncFlagSet court => decide (court < 144)
  | .syncFlagClear court => decide (court < 144)
  | .syncFlagWait court => decide (court < 144)
  | .orphanNotice court => decide (court < 144)
  | .syncWaitTimeout court _ => decide (court < 144)
  | .synStateWrite court k _ => decide (court < 144) && decide (k < 128)
  | .rifRequestArrive court => decide (court < 144)
  | .rifPrologue court => decide (court < 144)
  | .gather court => decide (court < 144)
  | .scadd court => decide (court < 144)
  | .segred court => decide (court < 144)
  | .sort court => decide (court < 144)
  | .topk court => decide (court < 144)
  | .rifComplete court => decide (court < 144)
  | .xbarRound court => decide (court < 144)
  | .crtClear court => decide (court < 144)
  | .plinthClearEnd court => decide (court < 144)
  | .crtHostDataAccess court fn _ => decide (court < 144) && decide (fn < 34)
  | .dmaDescArrive court => decide (court < 144)
  | .dmaSpdToPln court queue => decide (court < 144) && decide (queue < 16)
  | .dmaPlnToSpd court queue => decide (court < 144) && decide (queue < 16)
  | .dmaPlnToHbm court queue => decide (court < 144) && decide (queue < 16)
  | .dmaHbmToPln court queue => decide (court < 144) && decide (queue < 16)
  | .dmaSpdToHbm court queue => decide (court < 144) && decide (queue < 16)
  | .dmaHbmToSpd court queue => decide (court < 144) && decide (queue < 16)
  | .zeroH court queue => decide (court < 144) && decide (queue < 16)
  | .dmaComplete court queue => decide (court < 144) && decide (queue < 16)
  | .hbmPatrolScrub line => decide (line < 3221225472)
  | .macOpComplete n => decide (n < 10368)
  | .checkpointResult n _ _ => decide (n < 10368)
  | .arbitration n _ => decide (n < 10368)
  | .frameTriggerFree niche => decide (niche < 16)
  | .frameTriggerEvent niche => decide (niche < 16)
  | .frameTriggerPod niche => decide (niche < 16)
  | .frameEdge niche => decide (niche < 16)
  | .tmbNframeModeWrite niche _ => decide (niche < 16)
  | .ingressEntryArrive ring _ entry _ => decide (ring < 128) && decide (entry.length ≤ 224)
  | .egressSlotWrite ring _ => decide (ring < 128)
  | .pendWaitExpiry p => decide (p < 8)
  | .sqTailDoorbell fn q _ => decide (fn < 34) && decide (q < 8)
  | .cqHeadDoorbell fn q _ => decide (fn < 34) && decide (q < 8)
  | .egrHeadDoorbell fn q _ => decide (fn < 34) && decide (q < 16)
  | .cmdNop e => e.ok
  | .writeHbm e => e.ok
  | .readHbm e => e.ok
  | .loadCast _ e _ => e.ok
  | .cmdStart e => e.ok
  | .cmdStop e => e.ok
  | .nicheReset niche e => decide (niche < 16) && (match e with | some e => e.ok | none => true)
  | .ingressPost e => e.ok
  | .nicheCreate e => e.ok
  | .nicheDestroy e => e.ok
  | .bindVf e => e.ok
  | .setWindow e => e.ok
  | .bind e => e.ok
  | .hostBar2Read fn off len => decide (fn < 34) && decide (off % 4096 + len ≤ 4096)
  | .hostBar2Write fn off data _ => decide (fn < 34) && decide (off % 4096 + data.length ≤ 4096)
  | .functionLevelReset fn => decide (fn < 34)
  | .perstAssert port => decide (port < 2)
  | .regWrite a => a.ok
  | .tmbTickLowRead _ => true
  | .pmcCntLowRead kind unit k _ => bankOk kind unit && decide (k < 8)
  | .pmcSampDataRead n _ => decide (n < 10368)
  | .pmcSnapGo kind unit => bankOk kind unit
  | .pmcGsnapLatch => true
  | .pmcOverflow e => bankOk e.kind e.unit
  | .pmcSample e => (e.kind == 0 && decide (e.unit < 10368))
  | .bwWindowLatch _ => true
  | .faultLogEntry source index => decide (index < if source = 0 then 10368 else if source = 1 then 144 else 4)
  | .zovarDataFrame link _ => decide (link < 96)
  | .zovarIdleFrame link _ => decide (link < 96)
  | .zovarHello link _ => decide (link < 96)
  | .zovarPing link _ _ => decide (link < 96)
  | .zovarPong link _ _ => decide (link < 96)
  | .zovarBadFrame link _ => decide (link < 96)
  | .txFrameSlot link => decide (link < 96)
  | .replayTimeout link => decide (link < 96)
  | .linkEnableWrite link _ => decide (link < 96)
  | .linkRetrain link => decide (link < 96)
  | .linkDetect link _ _ => decide (link < 96)
  | .linkEqDone link _ _ => decide (link < 96)
  | .berWindowEnd link _ _ => decide (link < 96)
  | .linkLock link => decide (link < 96)
  | .linkLockLost link => decide (link < 96)
  | .lockTExpiry link => decide (link < 96)
  | .negTExpiry link => decide (link < 96)
  | .holdTExpiry link => decide (link < 96)
  | .helloTSend link => decide (link < 96)
  | .deadTExpiry link => decide (link < 96)
  | .recoverTExpiry link => decide (link < 96)
  | .downHoldExpiry link => decide (link < 96)
  | .measTPing link _ => decide (link < 96)
  | .fecDegrade link _ => decide (link < 96)
  | .linkDown link => decide (link < 96)
  | .packetReceive link => decide (link < 96)
  | .pktDesc link => decide (link < 96)
  | .pktSync link => decide (link < 96)
  | .pktEdgeIn link => decide (link < 96)
  | .pktMgmt link => decide (link < 96)
  | .vl0Deliver link => decide (link < 96)
  | .announceSend => true
  | .announce link => decide (link < 96)
  | .parentLoss => true
  | .timeSyncSend link _ => decide (link < 96)
  | .timeSync link _ => decide (link < 96)
  | .holdoverExpiry => true
  | .fallback link => decide (link < 96)
  | .slotSend niche _ => decide (niche < 16)
  | .collInstanceStart niche _ => decide (niche < 16)
  | .collSegment link => decide (link < 96)
  | .collAck link => decide (link < 96)
  | .collLost link => decide (link < 96)
  | .collRetxExpiry niche _ _ _ _ => decide (niche < 16)
  | .collTExpiry niche _ _ => decide (niche < 16)
  | .instTExpiry niche _ _ => decide (niche < 16)
  | .stragglerWindowEnd => true
  | .heal n => decide (n < 10368)
  | .healShift niche => decide (niche < 16)
  | .maquetteActivate niche => decide (niche < 16)
  | .relocate niche => decide (niche < 16)
  | .raspPassStart court _ => decide (court < 144)
  | .confirmationTest n _ => decide (n < 10368)
  | .contextWatchdog x => x.ok
  | .nicheWatchdog niche => decide (niche < 16)
  | .atelierWatchdog die => decide (die < 4)
  | .escalationTimeout _ _ => true
  | .cellReset n => decide (n < 10368)
  | .dieReset die => decide (die < 4)
  | .packageReset => true
  | .powerCycle => true
  | .crashCast _ _ _ => true
  | .crashCastAbandon => true
  | .dieResetReq _ => true
  | .pkgResetReq => true
  | .pwrcycReq => true
  | .sysRstDeassert _ => true
  | .sysRstAssert => true
  | .bringup _ => true
  | .bootTakeover => true
  | .brownOut rail => decide (rail < 13)
  | .overvoltage rail => decide (0 < rail ∧ rail < 13)
  | .nvWriteBlock => true
  | .nvWriteResume => true
  | .nvJournalWrite _ => true
  | .refclkLoss => true
  | .thermHot _ => true
  | .thermCool _ => true
  | .thermLimit _ => true
  | .thermTrip _ => true
  | .powerCapCheck _ _ => true
  | .profileChange _ => true
  | .capRead m => m.ok
  | .capWrite m => m.ok
  | .capInfo m => m.ok
  | .capNext m => m.ok
  | .capTunnel m => m.ok
  | .spdmMessage m => decide (m.via < 6)
  | .spdmHeartbeatExpiry _ => true
  | .capCommand m => m.ok
  | .profileWrite m => m.ok
  | .flawMapWrite m => m.ok
  | .deviceIdWrite m => m.ok
  | .fwData m => m.ok
  | .fwVerify m => m.ok
  | .fwActivate m => m.ok
  | .fwCommit m => m.ok
  | .commitTExpiry die => decide (die < 4)
  | .svnRaise m => m.ok
  | .debugToken m => (m.via == 6 || m.ok)
  | .keyZeroise => true
  | .gpioFuncWrite _ => true
  | .thermLimitEnd _ => true
  | .mgmtPhyLinkUp => true
  | .plinthEccWriteback court word => decide (court < 144) && decide (word < 1048576)

end Sys2Proof
end

