-- ==== Sys2Proof/Safety.lean ====
section
/-! DEFINITION. What the statements speak of: stores in their canonical form, commands that complete, and runs. -/

namespace Sys2Proof.Machine
open Sys2Proof

/-- A sparse store is in canonical form: keys strictly rising, no entry equal to what its key reads as unlisted. -/
def canon {α : Type} [DecidableEq α] (d : Nat → α) (m : FMap α) : Prop := fwf d m

/-- Every unit table, register bank and memory of the package is in canonical form, so that packages that read alike there are
equal; and the part is of one variant (00 R2). -/
structure State.Canonical (s : State) : Prop where
  cells : canon cell0 s.cells
  courts : canon court0 s.courts
  dieRegs : canon regs0 s.dieRegs
  events : canon nil0 s.events
  flog : canon flog0 s.flog
  flogSeq : canon z0 s.flogSeq
  irq : canon noMark s.irq
  dieHalt : canon noMark s.dieHalt
  dieStart : canon z0 s.dieStart
  regions : canon noMark s.regions
  pkgRegs : canon pkgRst s.pkgRegs
  niches : canon niche0 s.niches
  rings : canon ring0 s.rings
  pends : canon pend0 s.pends
  hostQs : canon hostq0 s.hostQs
  hostRings : canon hostring0 s.hostRings
  hostMem : canon byteDefault s.hostMem
  hostEp : canon noMark s.hostEp
  links : canon link0 s.links
  dieSnap : canon (fun _ => []) s.dieSnap
  objects : canon objDefault s.objects
  hbm : canon byteDefault s.hbm
  hbmPoison : canon noMark s.hbmPoison
  hbmEcc : canon ecc0 s.hbmEcc
  hbmCheck : canon zeroCheck s.hbmCheck
  mailbox : canon nil0 s.mailbox
  variant : ¬(s.small = true ∧ s.lite = true)

/-- A command completes from a state: it is answered with a next state. -/
def Completes (c : Instr) (s : State) : Prop := ∃ t, exec c s = .next t

/-- `n` steps that all answer a next state. -/
def Runs : Nat → State → State → Prop
  | 0, s, t => t = s
  | n + 1, s, t => ∃ u, step s = .next u ∧ Runs n u t

/-! ### Instructions of a cell -/

/-- The issue stage issues the instruction of row `r` at the PC of context `x` now: the cell has clocks, the context is
selected, the fetched words are good and of that row, and so are the registers it reads; the context is not stepping
(03 R60, R67 to R69, R76). -/
structure Ready (r : Row) (x : CtxRef) (s : State) : Prop where
  ctx : x.ctx < 4
  cell : x.cell < cellCount
  powered : s.powered x.cell = true
  issues : s.mayIssue x.cell x.ctx = true
  fetch : ∀ a ∈ (s.cell x.cell).fetchAddrs x.ctx, (s.cell x.cell).fetchEcc x.ctx a = .ok
  row : rowOf ((s.cell x.cell).word0 x.ctx) ((s.cell x.cell).word1 x.ctx) = some r
  regs : (s.cell x.cell).badSources x.ctx r = []
  free : ((s.cell x.cell).ctx x.ctx).stepping = false

/-- The context that a command names. -/
def State.ctxOf (s : State) (x : CtxRef) : Ctx := (s.cell x.cell).ctx x.ctx
/-- The first word of its instruction. -/
def State.wordOf (s : State) (x : CtxRef) : Nat := (s.cell x.cell).word0 x.ctx
/-- The extension word. -/
def State.extOf (s : State) (x : CtxRef) : Nat := (s.cell x.cell).word1 x.ctx

/-- No loop of the context ends at the last word of an instruction of `words` words, so that the PC passes it (04 R97). -/
def NoReturn (words : Nat) (x : CtxRef) (s : State) : Prop :=
  ∀ n < 4, (s.ctxOf x).lReg n = 0 ∨
    (s.cell x.cell).rd ((loopEnd n).ctx x.ctx) ≠ ((s.ctxOf x).pc + BitVec.ofNat 10 (words - 1)).toNat

/-- A context in the issue stage. -/
def Ctx.issuing (y : Ctx) : Ctx := { y with state := .running, yielded := 0 }
/-- A context in the issue stage whose PC goes `words` words on. -/
def Ctx.past (y : Ctx) (words : Nat) : Ctx := { y.issuing with pc := y.pc + BitVec.ofNat 10 words }

/-- A cell without its contexts and what it keeps of them beside. -/
def Cell.noCtxs (c : Cell) : Cell := { c with ctxs := [], undo := [] }

/-- Nothing of the package but one cell differs. -/
def OnlyCell (n : Nat) (s t : State) : Prop := t = { s with cells := t.cells } ∧ ∀ m, m ≠ n → t.cell m = s.cell m

/-- From `s` to `t` an instruction of context `x` leaves the cell as `c` but for its contexts, its own context as `y`, of
the other contexts at most what the issue stage shows of them, and every other cell and unit alone. -/
def Issued (x : CtxRef) (s t : State) (c : Cell) (y : Ctx) : Prop :=
  OnlyCell x.cell s t ∧ (t.cell x.cell).noCtxs = c.noCtxs ∧ t.ctxOf x = y ∧
  ∀ j < 4, j ≠ x.ctx → { (t.cell x.cell).ctx j with state := ((s.cell x.cell).ctx j).state, yielded := ((s.cell x.cell).ctx j).yielded }
    = (s.cell x.cell).ctx j ∧ (((t.cell x.cell).ctx j).state = ((s.cell x.cell).ctx j).state ∨
      ((s.cell x.cell).ctx j).state = .running ∧ ((t.cell x.cell).ctx j).state = .ready)

/-- From `s` to `t` one cell becomes `c` and nothing else of the package changes. -/
def CellIs (n : Nat) (s t : State) (c : Cell) : Prop := OnlyCell n s t ∧ t.cell n = c

/-- A cell has clocks and its window takes writes (03 R77). -/
def Live (n : Nat) (s : State) : Prop := n < cellCount ∧ s.powered n = true ∧ s.cellFenced n = false

/-- A court has clocks and is not fused off. -/
def CourtLive (q : Nat) (s : State) : Prop :=
  q < 144 ∧ fget noMark s.dieHalt (courtDie q) = false ∧ ¬(s.small = true ∧ inFused (8 * (q % 12)) (8 * (q / 12)) = true)

/-- From `s` to `t` one court becomes `c` and nothing else of the package changes. -/
def CourtIs (q : Nat) (s t : State) (c : Court) : Prop :=
  t = { s with courts := t.courts } ∧ t.court q = c ∧ ∀ p, p ≠ q → t.court p = s.court p

/-- Every byte outside `n` bytes from `a` reads in `m'` as in `m`. -/
def SameBytes (a n : Nat) (m m' : Memory) : Prop := ∀ b, b < a ∨ a + n ≤ b → memByte m' b = memByte m b

/-- The value of a field after writes of fields, the first match in the list; the value before where none names it. -/
def newest (fs : List (Fld × Nat)) (g : Fld) (old : Nat) : Nat :=
  match fs.find? (fun p => p.1.key == g.key) with | some p => p.2 | none => old

/-- From `s` to `t` the listed fields of one die's block take the listed values and nothing else of the package changes. -/
def DieSets (d : Nat) (fs : List (Fld × Nat)) (s t : State) : Prop :=
  t = { s with dieRegs := t.dieRegs } ∧ ∀ e g, t.dieRd e g = if e = d then newest fs g (s.dieRd e g) else s.dieRd e g

/-- From `s` to `t` the listed fields of the package block take the listed values, and no other of its fields changes. -/
def PkgSets (fs : List (Fld × Nat)) (s t : State) : Prop := ∀ g, t.rd g = newest fs g (s.rd g)

/-! ### Lines of the memories -/

/-- The line at a scratchpad address, as a row view loads it. -/
def Cell.line (c : Cell) (a : Nat) : VR := (c.viewLoad (viewMap false 0 a)).1
/-- The line at a plinth address. -/
def Court.line (c : Court) (a : Nat) : VR := (c.plnLine a).1
/-- The data of the line at an HBM address. -/
def State.hbmWord (s : State) (a : Nat) : Nat := memRead s.hbm a 64

/-- A scratchpad line whose check bits are good. -/
def Cell.lineGood (c : Cell) (a : Nat) : Prop := a % 64 = 0 ∧ ∀ i < 16, fget ecc0 c.spdEcc (a / 4 + i) = .ok
/-- A line claim of a class that a cell admits. -/
def Cell.admits (c : Cell) (cls a : Nat) : Prop := a % 64 = 0 ∧ c.spdCheck cls true [a] = none ∧ c.flag CELL_CTRL_ISOLATE = false
/-- Plinth words whose check bits are good, from a word's address on. -/
def Court.good (c : Court) (a n : Nat) : Prop := a % 4 = 0 ∧ ∀ i < n, fget ecc0 c.plnEcc (a / 4 + i) = .ok
/-- A cell of which only the latest claims granted on its scratchpad's ports differ. -/
def Cell.claimOnly (c d : Cell) : Prop := d = { c with rdClaim := d.rdClaim, wrClaim := d.wrClaim }
/-- A cell of which only the scratchpad's words and the latest claims granted on its ports differ. -/
def Cell.spdOnly (c d : Cell) : Prop :=
  d = { c with spd := d.spd, spdPoison := d.spdPoison, spdEcc := d.spdEcc, rdClaim := d.rdClaim, wrClaim := d.wrClaim }

/-! ### Commands of a host queue -/

/-- A host queue is in service, an entry of it waits, its completion has room, and the entry is well-formed. -/
def Fetches (op : Nat) (e : SqEntry) (s : State) : Prop :=
  e.fn < 34 ∧ e.q < 8 ∧ e.clean = true ∧ s.canFetch e.fn e.q = true ∧ s.cmdWaits op e = false

/-- From `s` to `t` the entry is fetched and completed with STATUS `st`: both indices have moved on, the completion entry
holds CID and STATUS, and its vector is raised. -/
def HostDone (e : SqEntry) (s t : State) (st : Nat) : Prop :=
  let h := s.hostQ e.fn e.q
  let a := 4096 * t.rd (qf HST_CQB_ADDR e.fn e.q) + 16 * (h.cqTail % t.qSize HST_CQB_SIZE e.fn e.q)
  t.hostQ e.fn e.q = { h with sqHead := h.sqHead + 1, cqTail := h.cqTail + 1 } ∧ memRead t.hostMem a 2 = e.cid % 65536 ∧
  memRead t.hostMem (a + 3) 1 = st ∧
  fget noMark t.irq ((e.fn / 17 * 17 + e.fn % 17) * 64 + t.rd (qf HST_CQB_VECTOR e.fn e.q)) = true

/-- The half-lines that hold `n` bytes from a device address have good check bits. -/
def State.hbmGood (s : State) (a n : Nat) : Prop :=
  ∀ h, 2 * (a / 64) ≤ h → h ≤ 2 * ((a + n) / 64) + 1 → fget ecc0 s.hbmEcc h = .ok

/-! ### Links -/

/-- A link is present and its die has clocks. -/
def LinkLive (l : Nat) (s : State) : Prop := l < 96 ∧ fget noMark s.dieHalt (l / 24) = false ∧ s.linkFused l = false

/-- From `s` to `t` one link becomes `k` beside its registers and nothing else of the package changes. -/
def LinkIs (l : Nat) (s t : State) (k : Link) : Prop :=
  t = { s with links := t.links } ∧ t.link l = k ∧ ∀ m, m ≠ l → t.link m = s.link m

/-- From `s` to `t` one link enters the state of code `st`, every other link keeps its own, and no cell, court or byte of HBM
differs. -/
def LinkGoes (l : Nat) (s t : State) (st : Nat) : Prop :=
  t.lstate l = st ∧ (∀ m < 96, m ≠ l → t.lstate m = s.lstate m) ∧ t.cells = s.cells ∧ t.courts = s.courts ∧ t.hbm = s.hbm

/-! ### The Catalogue -/

/-- A sound message of an operation on an object reaches the Catalogue over its own transport, in an open session of its
requester or in none, and no kept response answers it. -/
def Asks (op i j : Nat) (m : CapMsg) (s : State) : Prop :=
  m.via < 5 ∧ s.capServed = true ∧ s.romServes = false ∧ s.transportOn m = true ∧
  (m.session.isSome = true → (s.sessionOf m).isSome = true) ∧ s.keptFor m m.bytes = none ∧ capSound m m.bytes = true ∧
  capField m.bytes 1 1 = op ∧ capField m.bytes 4 2 = i ∧ capField m.bytes 6 1 = j

/-- A write of the object at subindex 0 that the requester's level admits. -/
def Grants (i : Nat) (m : CapMsg) (s : State) : Prop :=
  Asks 2 i 0 m s ∧ ∃ d, objDef i 0 = some d ∧ s.mayWrite (s.capLevel m) m.via i d = true

/-- The response: a status, MORE and its data. -/
def Answers (m : CapMsg) (t : State) (st : Nat) (more : Bool) (data : List (BitVec 8)) : Prop :=
  t.mgmt.answer = capReply m.bytes st more data

/-- The data that a write carries. -/
def capData (m : CapMsg) : List (BitVec 8) := m.bytes.drop 16

end Sys2Proof.Machine
end

