-- ==== Sys2Proof/Certificates/Slice0/Obligations.lean ====
section
/-! DEFINITION. The statements for the provers. -/

open Sys2Proof Sys2Proof.Machine

/-- O1. An entry for an enabled ingress ring with room, whose shape fits a bucket, is written into slot WR with its
arrival metadata; WR and COUNT move on and no other plinth byte differs. A full ring drops it and counts it; a ring
that is disabled or egress changes nothing. The write of the last line of an egress slot on a link target sends one
EGRESS_OUT packet with the slot's bytes and frees the slot; a poisoned slot is dropped, counted and logged. A pendant
wait that expires counts one SINGLE and lets its answer go. (R307, R431, R442, R472, R473) -/
def Obligations.RingsCarryEntries : Prop :=
  ∀ (s : State) (r : Nat), r < 128 → s.ringSlots r ≤ 256 →
    let q := s.ringCourt r
    let c := s.court q
    let slots := s.ringSlots r
    let cnt := s.rd (NCH_RST_COUNT.by16 r)
    let on := s.rd (NCH_RING_ENABLE.by16 r) = 1
    let drops := min (s.rd (NCH_RST_DROP_CNT.by16 r) + 1) 65535
    (∀ (src : Nat) (e : List (BitVec 8)) (p : Bool), e.length ≤ 224 →
      let k := s.rd (NCH_RST_WR.by16 r)
      let a := s.slotAddr r k
      let seq := (s.ring r).seq
      (s.rd (NCH_RING_ENABLE.by16 r) = 0 ∨ s.rd (NCH_RING_DIR.by16 r) = 1 → exec (.ingressEntryArrive r src e p) s = .next s) ∧
      (on → s.rd (NCH_RING_DIR.by16 r) = 0 → slots ≤ cnt + 64 → ∃ t, exec (.ingressEntryArrive r src e p) s = .next t ∧
        t.courts = s.courts ∧ t.rings = s.rings ∧ PkgSets [(NCH_RST_DROP_CNT.by16 r, drops)] s t ∧
        ∃ x, fget nil0 t.events (courtDie q) = fget nil0 s.events (courtDie q) ++ [x] ∧ x.code = 0x51 ∧ x.index = r) ∧
      (∀ es, on → s.rd (NCH_RING_DIR.by16 r) = 0 → cnt + 64 < slots → (s.niche (s.ringNiche r)).shape e = some es →
        s.pairOfIngress r = none → ∃ t, exec (.ingressEntryArrive r src e p) s = .next t ∧
        t = { s with courts := t.courts, rings := t.rings, pkgRegs := t.pkgRegs } ∧
        (∀ j < 224, memByte (t.court q).plinth (a + j) = es.getD j 0) ∧ memRead (t.court q).plinth (a + 240) 8 = s.tick % 2 ^ 64 ∧
        memRead (t.court q).plinth (a + 248) 2 = src % 65536 ∧ memRead (t.court q).plinth (a + 250) 2 = e.length ∧
        memRead (t.court q).plinth (a + 252) 4 = seq % 2 ^ 32 ∧
        (∀ b, (b < a ∨ a + 224 ≤ b) → (b < a + 240 ∨ a + 256 ≤ b) → memByte (t.court q).plinth b = memByte c.plinth b) ∧
        (∀ m, m ≠ q → t.court m = s.court m) ∧ (t.ring r).seq = (seq + 1) % 2 ^ 32 ∧ (∀ m, m ≠ r → t.ring m = s.ring m) ∧
        PkgSets [(NCH_RST_COUNT.by16 r, min (cnt + 1) 511), (NCH_RST_WR.by16 r, (k + 1) % slots)] s t)) ∧
    (∀ k, on → s.rd (NCH_RING_DIR.by16 r) = 1 → k < slots → k ∉ (s.ring r).full → cnt < 511 → c.good (s.slotAddr r k) 64 →
      let image := memBytes c.plinth (s.slotAddr r k) 256
      let l := s.rd (NCH_EGR_LINK.by8 r)
      let moved := [(NCH_RST_RD.by16 r, (k + 1) % slots), (NCH_RST_WR.by16 r, (k + 1) % slots), (NCH_RST_COUNT.by16 r, cnt)]
      ((∀ w < 64, fget noMark c.plnPoison (s.slotAddr r k / 4 + w) = false) → s.pairOfEgress r = none → s.rd (NCH_EGR_TARGET.by8 r) ≠ 1 →
        (∀ f, (s.niche (s.ringNiche r)).frame = some f → fget z0 (s.ring r).sent k ≠ f.2.2 + 1) →
        ∃ t p, exec (.egressSlotWrite r k) s = .next t ∧ fget nil0 (t.link l).out 2 = fget nil0 (s.link l).out 2 ++ [p] ∧
          p.mclass = 6 ∧ p.dest = s.rd (NCH_EGR_DEST.by8 r) ∧ p.payload = image.take (min 224 (bytesVal (image.drop 250) 2)) ∧
          (∀ m, m ≠ l → t.link m = s.link m) ∧ (t.ring r).full = (s.ring r).full ∧ (t.court q).plinth = c.plinth ∧ PkgSets moved s t) ∧
      ((∃ w < 64, fget noMark c.plnPoison (s.slotAddr r k / 4 + w) = true) → ∃ t, exec (.egressSlotWrite r k) s = .next t ∧
        t.links = s.links ∧ (t.ring r).full = (s.ring r).full ∧ PkgSets ((NCH_RST_DROP_CNT.by16 r, drops) :: moved) s t ∧
        ∃ x, fget nil0 t.events (courtDie q) = fget nil0 s.events (courtDie q) ++ [x] ∧ x.code = 0xE0 ∧ x.detail = r)) ∧
    (∀ p < 8,
      ((s.pend p).held = [] → exec (.pendWaitExpiry p) s = .next s) ∧
      (∀ h l, (s.pend p).held = h :: l → (s.pend p).singles + 1 ≠ 64 → ∃ t, exec (.pendWaitExpiry p) s = .next t ∧
        t = { s with pends := t.pends, pkgRegs := t.pkgRegs } ∧
        t.pend p = { s.pend p with held := l, old := (s.pend p).old ++ [h.2.1], singles := (s.pend p).singles + 1 } ∧
        PkgSets [(RES_PEND_CNT_SINGLE.by16 p, min (s.rd (RES_PEND_CNT_SINGLE.by16 p) + 1) 255)] s t))

/-- O2. A doorbell of a disabled queue or ring, or with a value not below its size, sets ERR and raises vector 0 with no
index moved; a stopped queue ignores it. An SQ tail or CQ head within what is posted or written moves the index;
beyond, it sets ERR and stops the queue. An EGR head moves the ring's head, no further than what was written. A
function-level reset and PERST# put every queue and ring of their functions and every register of their pages at reset
and touch no other function; port B's PERST# is ignored while that port is strapped off. (R411, R417, R422, R431,
R433) -/
def Obligations.DoorbellsAndFunctionResets : Prop :=
  ∀ (s : State) (fn : Nat), fn < 34 →
    let errs := fun (f : Fld) (q : Nat) (t : State) => t = { s with pkgRegs := t.pkgRegs, irq := t.irq, hostQs := t.hostQs } ∧
      PkgSets [(qf f fn q, 1)] s t ∧ fget noMark t.irq ((fn / 17 * 17 + fn % 17) * 64) = true
    let only := fun (q : Nat) (t : State) (h : HostQ) => t = { s with hostQs := t.hostQs } ∧
      ∀ g p, p < 8 → t.hostQ g p = if g = fn ∧ p = q then h else s.hostQ g p
    let clean := fun (g : Nat) (t : State) => (∀ q < 8, t.hostQ g q = {}) ∧ (∀ r < 16, fget hostring0 t.hostRings (g * 16 + r) = {}) ∧
      ∀ k, 0x10000 + 0x20000 * (g / 17) + 0x1000 * (g % 17) ≤ k / 64 → k / 64 < 0x11000 + 0x20000 * (g / 17) + 0x1000 * (g % 17) →
        fget pkgRst t.pkgRegs k = pkgRst k
    let kept := fun (g : Nat) (t : State) => (∀ q < 8, t.hostQ g q = s.hostQ g q) ∧
      ∀ r < 16, fget hostring0 t.hostRings (g * 16 + r) = fget hostring0 s.hostRings (g * 16 + r)
    (∀ q < 8, ∀ v,
      let n := 2 ^ (s.rd (qf HST_SQB_SIZE fn q) + 4)
      let h := s.hostQ fn q
      let d := (v + n - h.sqTail % n) % n
      (s.rd (qf HST_SQB_ENABLE fn q) = 0 ∨ n ≤ v → ∃ t, exec (.sqTailDoorbell fn q v) s = .next t ∧ errs HST_SQB_ERR q t ∧ t.hostQs = s.hostQs) ∧
      (s.rd (qf HST_SQB_ENABLE fn q) = 1 → v < n → h.sqStop = true → exec (.sqTailDoorbell fn q v) s = .next s) ∧
      (s.rd (qf HST_SQB_ENABLE fn q) = 1 → v < n → h.sqStop = false → h.sqTail - h.sqHead + d ≤ n →
        ∃ t, exec (.sqTailDoorbell fn q v) s = .next t ∧ only q t { h with sqTail := h.sqTail + d }) ∧
      (s.rd (qf HST_SQB_ENABLE fn q) = 1 → v < n → h.sqStop = false → n < h.sqTail - h.sqHead + d →
        ∃ t, exec (.sqTailDoorbell fn q v) s = .next t ∧ errs HST_SQB_ERR q t ∧ t.hostQ fn q = { h with sqStop := true })) ∧
    (∀ q < 8, ∀ v,
      let n := 2 ^ (s.rd (qf HST_CQB_SIZE fn q) + 4)
      let h := s.hostQ fn q
      let d := (v + n - h.cqHead % n) % n
      (s.rd (qf HST_CQB_ENABLE fn q) = 0 ∨ n ≤ v → ∃ t, exec (.cqHeadDoorbell fn q v) s = .next t ∧ errs HST_CQB_ERR q t ∧ t.hostQs = s.hostQs) ∧
      (s.rd (qf HST_CQB_ENABLE fn q) = 1 → v < n → h.cqStop = false → h.cqHead + d ≤ h.cqTail →
        ∃ t, exec (.cqHeadDoorbell fn q v) s = .next t ∧ only q t { h with cqHead := h.cqHead + d }) ∧
      (s.rd (qf HST_CQB_ENABLE fn q) = 1 → v < n → h.cqStop = false → h.cqTail < h.cqHead + d →
        ∃ t, exec (.cqHeadDoorbell fn q v) s = .next t ∧ errs HST_CQB_ERR q t ∧ t.hostQ fn q = { h with cqStop := true })) ∧
    (∀ r < 16, ∀ v,
      let n := 2 ^ (s.rd (qf HST_ERB_SIZE fn r) + 4)
      let g := fget hostring0 s.hostRings (fn * 16 + r)
      (s.rd (qf HST_ERB_ENABLE fn r) = 0 ∨ n ≤ v → ∃ t, exec (.egrHeadDoorbell fn r v) s = .next t ∧ errs HST_ERB_ERR r t ∧ t.hostQs = s.hostQs) ∧
      (s.rd (qf HST_ERB_ENABLE fn r) = 1 → v < n → (∀ m < 128, (s.ring m).full = []) → ∃ t, exec (.egrHeadDoorbell fn r v) s = .next t ∧
        t = { s with hostRings := t.hostRings } ∧
        ∀ k, fget hostring0 t.hostRings k = if k = fn * 16 + r then { g with head := min g.tail (g.head + (v + n - g.head % n) % n) }
          else fget hostring0 s.hostRings k)) ∧
    (∃ t, exec (.functionLevelReset fn) s = .next t ∧ clean fn t ∧ (∀ g < 34, g ≠ fn → kept g t) ∧
      (∀ v < 64, fget noMark t.irq (fn * 64 + v) = false) ∧ t.cells = s.cells ∧ t.courts = s.courts ∧ t.hbm = s.hbm) ∧
    (∀ p < 2, (p = 0 ∨ s.rd MGT_STRAPS_HOSTPORT = 0) → ∃ t, exec (.perstAssert p) s = .next t ∧
      (∀ g < 34, (g / 17 = p → clean g t) ∧ (g / 17 ≠ p → kept g t)) ∧ t.cells = s.cells ∧ t.hbm = s.hbm) ∧
    (s.rd MGT_STRAPS_HOSTPORT = 1 → exec (.perstAssert 1) s = .next s)

/-- O3. For a niche whose generator is on: FREE triggers when FRAME_LEN has passed, EVENT also takes the next waiting
entry and its bucket, 8 mesh cycles after the entry came where the cast has bucket tables, POD at its tick; the
trigger counts the frame and raises an edge due 16 mesh cycles on, and in any other state nothing changes. FRAME_EDGE
of an edge that is due makes every context that waits for it READY where its schedule does not overrun, marks the
cycle in every court of the niche and takes the edge away; with a decided maquette MAQUETTE_ACTIVATE also makes it
active, with context 3 of every cell READY and contexts 0 to 2 stopped. Context watchdogs and the niche's restart at
the edge. A write of MODE takes effect, FREE starting at once; a POD mode whose frame length or state does not allow
it sets FRAME_ERR. (R73, R309, R310, R390, R391, R392, R471) -/
def Obligations.FramesStartAndAreSeen : Prop :=
  ∀ (s : State) (i : Nat), i < 16 →
    let cnt := s.rd (TMB_NFRAME_FRAME_CNT.by16 i)
    let y := s.niche i
    let raised := fun (t : State) (b tick : Nat) (e : Option (Nat × Nat × Nat)) =>
      t = { s with cells := t.cells, niches := t.niches, pkgRegs := t.pkgRegs } ∧
      t.niche i = { y with trig := some s.cycle, count := y.count + 1, edges := y.edges ++ [⟨s.cycle + 16, b, tick, e⟩] } ∧
      (∀ j, j ≠ i → t.niche j = s.niche j) ∧ t.rd (TMB_NFRAME_FRAME_CNT.by16 i) = (cnt + 1) % 2 ^ 24 ∧
      ∀ n k, k < 4 → { (t.cell n).ctx k with waitObj := ((s.cell n).ctx k).waitObj } = (s.cell n).ctx k
    let due := ∀ c, y.trig = some c → c + s.frameLen i ≤ s.cycle
    let calm := fun n k => fget z0 (s.cell n).armDue k = 0 ∧
      ((s.cell n).sched k ≠ 2 ∨ (s.cell n).rd (ARM_SCHED_CTRL_MODE.arm k) = 2)
    let ready := fun (t : State) n k => ((t.cell n).ctx k).state = .ready
    (s.frameMode i = 1 → s.genOn i = true → due → ∃ t, exec (.frameTriggerFree i) s = .next t ∧ raised t (s.rd (NCH_CFG_DEFBUCKET.niche i)) s.tick none) ∧
    (s.frameMode i ≠ 1 ∨ s.genOn i = false ∨ ¬ due → exec (.frameTriggerFree i) s = .next s) ∧
    (∀ r, s.frameMode i = 2 → s.genOn i = true → due → s.waitingRing i = some r → s.entryDue i r = true → s.ringSlots r ≤ 256 →
      let k := s.rd (NCH_RST_RD.by16 r)
      let n := s.rd (NCH_RST_COUNT.by16 r)
      ∃ t, exec (.frameTriggerEvent i) s = .next t ∧ raised t (s.entryBucket i r k) s.tick (some (r, k, fget z0 (s.ring r).tag k - 1)) ∧
        (n ≤ 511 → t.rd (NCH_RST_COUNT.by16 r) = n - 1) ∧ t.rd (NCH_RST_RD.by16 r) = (k + 1) % s.ringSlots r) ∧
    (s.frameMode i ≠ 2 ∨ s.genOn i = false ∨ ¬ due ∨ (∀ r ∈ s.waitingRing i, s.entryDue i r = false) → exec (.frameTriggerEvent i) s = .next s) ∧
    (s.frameMode i = 3 → s.genOn i = true → s.podTick i ≤ s.tick → ∃ t, exec (.frameTriggerPod i) s = .next t ∧
      raised t (s.rd (NCH_CFG_DEFBUCKET.niche i)) (s.podTick i) none) ∧
    (s.frameMode i ≠ 3 ∨ s.genOn i = false ∨ s.tick < s.podTick i → exec (.frameTriggerPod i) s = .next s) ∧
    (∀ e l, y.edges = e :: l → e.due ≤ s.cycle → y.mq = false → y.mqTick = none →
      y.cast = none ∨ y.fresh = false → (∀ n ∈ s.nicheCells i, (s.cell n).bktBad = []) → ∃ t, exec (.frameEdge i) s = .next t ∧
      t = { s with cells := t.cells, courts := t.courts, niches := t.niches } ∧
      t.niche i = { y with edges := l, frame := e.entry, edgeTick := e.tick, slots := [], fresh := false, hang := 0 } ∧
      (∀ q < 144, t.court q = if s.nicheHas i q then { s.court q with edge := some s.cycle } else s.court q) ∧
      (∀ n ∈ s.nicheCells i, ∀ k < 4, let x := (s.cell n).ctx k
        x.state = .blocked → x.wait = .time → x.waitEdge = true → x.stepping = false → calm n k → ready t n k) ∧
      (∀ n ∈ s.nicheCells i, ∀ k < 4, ((t.cell n).ctx k).watch = 0) ∧ (∀ n, n ∉ s.nicheCells i → t.cell n = s.cell n)) ∧
    ((∀ e ∈ y.edges.head?, s.cycle < e.due) → exec (.frameEdge i) s = .next s) ∧
    (∀ e l, y.edges = e :: l → e.due ≤ s.cycle → y.mq = true → ∃ t, exec (.maquetteActivate i) s = .next t ∧
      (t.niche i).mqOn = true ∧ (t.niche i).mq = false ∧ (t.niche i).edges = l ∧
      (∀ n ∈ s.nicheCells i, s.fused n = false → (calm n 3 → ready t n 3) ∧ ∀ k < 3, ((t.cell n).ctx k).state = .halted ∨ ((t.cell n).ctx k).state = .off ∨
        ((t.cell n).ctx k).state = .resetting)) ∧
    (y.mq = false → exec (.maquetteActivate i) s = .next s) ∧
    (∀ v : BitVec 32, v.getLsbD 29 = false → v.getLsbD 28 = false →
      let m := v.toNat / 2 ^ 30
      (m = 0 → ∃ t, exec (.tmbNframeModeWrite i v) s = .next t ∧ t.frameMode i = 0 ∧ t.niches = s.niches ∧ t.cells = s.cells) ∧
      (m = 1 → ∃ t, exec (.tmbNframeModeWrite i v) s = .next t ∧ t.frameMode i = 1 ∧
        (t.niche i).edges = y.edges ++ [⟨s.cycle + 16, s.rd (NCH_CFG_DEFBUCKET.niche i), s.tick, none⟩] ∧ (t.niche i).count = 1) ∧
      (m = 2 → ∃ t, exec (.tmbNframeModeWrite i v) s = .next t ∧ t.frameMode i = 2 ∧ t.niche i = { y with trig := none, count := 0 } ∧ t.cells = s.cells) ∧
      (m = 3 → s.frameTicks4 i % 4 ≠ 0 ∨ s.rd TMB_STATUS_STATE ≠ 2 → ∃ t, exec (.tmbNframeModeWrite i v) s = .next t ∧
        t.rd (TMB_NFRAME_FRAME_ERR.by16 i) = 1 ∧ t.frameMode i = s.frameMode i ∧ t.niches = s.niches ∧ t.cells = s.cells))

/-- O4. A ready SALU, SALUI, LUI or SMUL completes: its destination takes the operation's result with the poison of what
it depends on, the PC goes one word on where no loop ends, and no other register, cell or unit changes. The 32-bit
operations and the moves are written out; the pair operations are those of saluCtx. (R91, R92, R93, R94, R58) -/
def Obligations.IntegerResults : Prop :=
  ∀ (x : CtxRef) (s : State), NoReturn 1 x s →
    let y := s.ctxOf x
    let w := s.wordOf x
    let a := y.sReg (fRs1 w)
    let b := y.sReg (fRs2 w)
    let i : PW := ⟨BitVec.ofInt 32 (signed 11 (bits w 10 0)), false⟩
    let sets := fun (v : BitVec 32) (p : Bool) => fun t => Issued x s t (s.cell x.cell) ((y.past 1).setS (fRd w) ⟨v, p⟩)
    (Ready .lui x s → ∃ t, exec (.lui x) s = .next t ∧ sets (BitVec.ofNat 32 (2 ^ 16 * bits w 15 0)) false t) ∧
    (Ready .salu x s → ∃ t, exec (.salu x) s = .next t ∧ Issued x s t (s.cell x.cell) (saluCtx w b (y.past 1)) ∧
      (minor w = 0x00 → sets (a.v + b.v) (a.p || b.p) t) ∧
      (minor w = 0x01 → sets (a.v - b.v) (a.p || b.p) t) ∧
      (minor w = 0x04 → sets (a.v ^^^ b.v) (a.p || b.p) t) ∧
      (minor w = 0x05 → sets (a.v <<< (b.v.toNat % 32)) (a.p || b.p) t) ∧
      (minor w = 0x09 → sets (if a.v.toNat < b.v.toNat then 1 else 0) (a.p || b.p) t) ∧
      (minor w = 0x0E → sets (BitVec.ofInt 32 (max (-2 ^ 31) (min (2 ^ 31 - 1) (a.v.toInt + b.v.toInt)))) (a.p || b.p) t) ∧
      (minor w = 0x10 → Issued x s t (s.cell x.cell) ((y.past 1).setPairW (fRd w)
        (y.pair (fRs1 w) + y.pair (fRs2 w)) (a.p || b.p) (y.pairP (fRs1 w) || y.pairP (fRs2 w)))) ∧
      (minor w = 0x16 → Issued x s t (s.cell x.cell) ((y.past 1).setA (fRd w % 8) ⟨a.v + b.v, a.p || b.p⟩)) ∧
      (minor w = 0x17 → Issued x s t (s.cell x.cell) ((y.past 1).setS (fRd w) (y.aReg (fRs1 w % 8))))) ∧
    (Ready .salui x s → ∃ t, exec (.salui x) s = .next t ∧ Issued x s t (s.cell x.cell) (saluCtx w i (y.past 1)) ∧
      (minor w = 0x00 → sets (a.v + i.v) a.p t) ∧
      (minor w = 0x0A → sets (if i.v.slt a.v then i.v else a.v) a.p t)) ∧
    (Ready .smul x s → ∃ t, exec (.smul x) s = .next t ∧
      (minor w = 0x00 → sets (BitVec.ofNat 32 (a.v.toNat * b.v.toNat)) (a.p || b.p) t) ∧
      (minor w = 0x01 → sets (BitVec.ofInt 32 (a.v.toInt * b.v.toInt / 2 ^ 32)) (a.p || b.p) t) ∧
      (minor w = 0x02 → sets (BitVec.ofNat 32 (a.v.toNat * b.v.toNat / 2 ^ 32)) (a.p || b.p) t) ∧
      (minor w = 0x03 → sets (if b.v = 0 then BitVec.allOnes 32 else BitVec.ofInt 32 (a.v.toInt.tdiv b.v.toInt)) (a.p || b.p) t) ∧
      (minor w = 0x04 → sets (if b.v = 0 then BitVec.allOnes 32 else a.v / b.v) (a.p || b.p) t) ∧
      (minor w = 0x05 → sets (if b.v = 0 then a.v else BitVec.ofInt 32 (a.v.toInt.tmod b.v.toInt)) (a.p || b.p) t) ∧
      (minor w = 0x06 → sets (if b.v = 0 then a.v else a.v % b.v) (a.p || b.p) t) ∧
      (minor w = 0x07 → Issued x s t (s.cell x.cell) ((y.past 1).setPairW (fRd w)
        (y.pair (fRs1 w) * y.pair (fRs2 w)) (a.p || b.p) (y.pairP (fRs1 w) || y.pairP (fRs2 w)))))

/-- O5. A ready branch or jump completes: the PC is the target modulo 1,024 where it is taken, the next word where it is
not and no loop ends; JAL writes the return address; a poisoned condition or target stops the context with
POISON_CONSUMED and no other effect on its registers. (R87, R91, R95, R96) -/
def Obligations.BranchesAndJumps : Prop :=
  ∀ (x : CtxRef) (s : State),
    let y := s.ctxOf x
    let w := s.wordOf x
    let goes := fun (pc : BitVec 10) t => Issued x s t (s.cell x.cell) { y.issuing with pc := pc }
    let faults := fun (d : Nat) (t : State) => (t.ctxOf x) = { y.issuing with state := .faulted, wait := .none } ∧
      OnlyCell x.cell s t ∧ ∃ r, (t.cell x.cell).faults = (s.cell x.cell).faults ++ [r] ∧ r.code = 0x09 ∧ r.detail = d ∧
        r.pc = y.pc.toNat
    (Ready .br x s → ∃ t, exec (.br x) s = .next t ∧
      (minor w < 8 → (y.sReg (fRd w)).p = true → faults 0 t) ∧
      (minor w < 8 → (y.sReg (fRd w)).p = false → (y.sReg (fRs1 w)).p = true → faults 1 t) ∧
      (minor w < 8 → (y.sReg (fRd w)).p = false → (y.sReg (fRs1 w)).p = false →
        (brCond (minor w) (y.sReg (fRd w)).v (y.sReg (fRs1 w)).v = true → goes (y.pc + BitVec.ofInt 10 (signed 11 (bits w 10 0))) t) ∧
        (brCond (minor w) (y.sReg (fRd w)).v (y.sReg (fRs1 w)).v = false → NoReturn 1 x s → goes (y.pc + 1) t)) ∧
      (8 ≤ minor w → (y.pReg (bits w 18 16)).p = true → faults 0 t) ∧
      (8 ≤ minor w → (y.pReg (bits w 18 16)).p = false →
        (((y.pReg (bits w 18 16)).v ≠ 0 ↔ minor w = 8) → goes (y.pc + BitVec.ofInt 10 (signed 11 (bits w 10 0))) t) ∧
        (¬ ((y.pReg (bits w 18 16)).v ≠ 0 ↔ minor w = 8) → NoReturn 1 x s → goes (y.pc + 1) t))) ∧
    (Ready .j x s → ∃ t, exec (.j x) s = .next t ∧ goes (y.pc + BitVec.ofInt 10 (signed 16 (bits w 15 0))) t) ∧
    (Ready .jal x s → ∃ t, exec (.jal x) s = .next t ∧ Issued x s t (s.cell x.cell)
      { y.issuing.setS (fRd w) ⟨BitVec.ofNat 32 (y.pc + 1).toNat, false⟩ with
        pc := y.pc + BitVec.ofInt 10 (signed 16 (bits w 15 0)) }) ∧
    (Ready .jr x s → ∃ t, exec (.jr x) s = .next t ∧
      ((y.sReg (fRs1 w)).p = false → goes ((y.sReg (fRs1 w)).v.setWidth 10) t) ∧
      ((y.sReg (fRs1 w)).p = true → faults 0 t))

/-- O6. A ready LOOP whose count is not poisoned writes ln, START = PC + 1 and END = PC + LEN modulo 1,024, and with a
count of 0 continues at PC + LEN + 1, in place of PC + 1 where no other loop ends; the advance past a last word at END
of the loop with the highest number decrements its count and returns to START while the count stays positive, and goes
on where it reaches 0 and no other loop ends there. (R87, R97) -/
def Obligations.LoopSetsUpAndReturns : Prop :=
  (∀ (x : CtxRef) (s : State),
    let y := s.ctxOf x
    let w := s.wordOf x
    let n := bits w 20 19
    let cnt : PW := if bit w 18 then ⟨BitVec.ofNat 32 (bits w 17 10), false⟩ else y.sReg (bits w 17 13)
    let last := y.pc + BitVec.ofNat 10 (bits w 9 0)
    let c := ((s.cell x.cell).wr ((loopStart n).ctx x.ctx) (y.pc + 1).toNat).wr ((loopEnd n).ctx x.ctx) last.toNat
    Ready .loop x s → cnt.p = false → ∃ t, exec (.loop x) s = .next t ∧
      (cnt.v = 0 → Issued x s t c { y.issuing.setL n 0 with pc := last + 1 }) ∧
      (cnt.v ≠ 0 → (∀ m < 4, m ≠ n → y.lReg m = 0 ∨ (s.cell x.cell).rd ((loopEnd m).ctx x.ctx) ≠ y.pc.toNat) →
        Issued x s t c ((y.past 1).setL n cnt.v))) ∧
  (∀ (c : Cell) (k words n : Nat), k < 4 → n < 4 →
    let y := c.ctx k
    let last := y.pc + BitVec.ofNat 10 (words - 1)
    (∀ m < 4, n < m → y.lReg m = 0 ∨ c.rd ((loopEnd m).ctx k) ≠ last.toNat) →
    y.lReg n ≠ 0 → c.rd ((loopEnd n).ctx k) = last.toNat →
    (y.lReg n ≠ 1 → (c.advance k words).ctx k =
      { y.setL n (y.lReg n - 1) with pc := BitVec.ofNat 10 (c.rd ((loopStart n).ctx k)) }) ∧
    (y.lReg n = 1 → (∀ m < n, y.lReg m = 0 ∨ c.rd ((loopEnd m).ctx k) ≠ last.toNat) →
      (c.advance k words).ctx k = { y.setL n 0 with pc := y.pc + BitVec.ofNat 10 words }))

/-- O7. A ready SFP, DFP, CVT or CVTX on a format of its column completes: rd takes the result rounded once into the
format, or 1 or 0 for a comparison, with the poison of its operands, CTX_FPFLAGS gathers the operation's flags, the PC
goes on by the instruction's words where no loop ends and nothing else changes; on any other format code the context
stops with FORMAT_INVALID. (R29, R31, R32, R33, R98, R99) -/
def Obligations.ScalarFloatResults : Prop :=
  ∀ (x : CtxRef) (s : State),
    let y := s.ctxOf x
    let w := s.wordOf x
    let c := s.cell x.cell
    let m := minor w
    let f := bits w 3 0
    let sv := fun i => unpack f (y.sReg i).v.toNat
    let dv := fun i => unpack 14 (y.pair i)
    let bad := fun (t : State) => (t.ctxOf x).state = .faulted ∧ OnlyCell x.cell s t ∧
      ∃ r, (t.cell x.cell).faults = c.faults ++ [r] ∧ r.code = 0x02
    (Ready .sfp x s → ∃ t, exec (.sfp x) s = .next t ∧
      ((f < 0xB ∨ 0xD < f) → bad t) ∧
      (0xB ≤ f → f ≤ 0xD → NoReturn 1 x s →
        (m < 8 → Issued x s t (c.gather x.ctx (fpArith f m (sv (fRd w)) (sv (fRs1 w)) (sv (fRs2 w))).2)
          ((y.past 1).setS (fRd w) ⟨BitVec.ofNat 32 (fpArith f m (sv (fRd w)) (sv (fRs1 w)) (sv (fRs2 w))).1,
            (y.sReg (fRs1 w)).p || (decide (m ≠ 7) && (y.sReg (fRs2 w)).p) || (decide (m = 3) && (y.sReg (fRd w)).p)⟩)) ∧
        (8 ≤ m → Issued x s t (c.gather x.ctx { invalid := (fpCompare (m - 8) (sv (fRs1 w)) (sv (fRs2 w))).2 })
          ((y.past 1).setS (fRd w) ⟨if (fpCompare (m - 8) (sv (fRs1 w)) (sv (fRs2 w))).1 then 1 else 0,
            (y.sReg (fRs1 w)).p || (y.sReg (fRs2 w)).p⟩)))) ∧
    (Ready .dfp x s → ∃ t, exec (.dfp x) s = .next t ∧
      (f ≠ 0xE → bad t) ∧
      (f = 0xE → NoReturn 1 x s →
        (m < 8 → Issued x s t (c.gather x.ctx (fpArith 14 m (dv (fRd w)) (dv (fRs1 w)) (dv (fRs2 w))).2)
          ((y.past 1).setPair (fRd w) (fpArith 14 m (dv (fRd w)) (dv (fRs1 w)) (dv (fRs2 w))).1
            (y.pairP (fRs1 w) || (decide (m ≠ 7) && y.pairP (fRs2 w)) || (decide (m = 3) && y.pairP (fRd w))))) ∧
        (8 ≤ m → Issued x s t (c.gather x.ctx { invalid := (fpCompare (m - 8) (dv (fRs1 w)) (dv (fRs2 w))).2 })
          ((y.past 1).setS (fRd w) ⟨if (fpCompare (m - 8) (dv (fRs1 w)) (dv (fRs2 w))).1 then 1 else 0,
            y.pairP (fRs1 w) || y.pairP (fRs2 w)⟩)))) ∧
    (∀ two : Bool, Ready (if two then .cvtx else .cvt) x s →
      let src := bits w 10 7
      let dst := bits w 6 3
      let v := if fmt64 src then y.pair (fRs1 w) else (y.sReg (fRs1 w)).v.toNat
      let p := if fmt64 src then y.pairP (fRs1 w) else (y.sReg (fRs1 w)).p
      let o : Int := if two then signed 8 (bits (s.extOf x) 7 0) else 0
      let r := convert dst (fmtIsInt src) (bit w 2) o (unpack src v)
      let n := if two then 2 else 1
      ∃ t, exec (if two then .cvtx x else .cvt x) s = .next t ∧
        (¬ (scalFmt src = true ∧ scalFmt dst = true) → bad t) ∧
        (scalFmt src = true → scalFmt dst = true → NoReturn n x s →
          Issued x s t (c.gather x.ctx { invalid := r.invalid, cvtRange := r.range })
            (if fmt64 dst then (y.past n).setPair (fRd w) r.out p
             else (y.past n).setS (fRd w) ⟨BitVec.ofNat 32 (if dst = 1 ∨ dst = 3 then wrap 32 (signed (fmtBits dst) r.out) else r.out), p⟩)))

/-- O8. A fetched NOP completes with OK and changes nothing but its queue and completion. A WRITE_HBM whose area is
admitted and whose data the host delivers writes exactly those bytes of HBM and completes with OK; outside what its
niche is admitted it completes with BOUNDS and writes nothing. A READ_HBM of good, unpoisoned lines writes their bytes
to host memory and completes with OK. A BAR2 read returns the bytes, with EP where a line holds a poisoned word, and
Unsupported Request outside the view; a BAR2 write writes exactly its bytes, or none outside the view. (R327, R330,
R412, R413, R418, R419, R420, R421) -/
def Obligations.HostCopiesMoveBytes : Prop :=
  (∀ (s : State) (e : SqEntry) (i : Nat), s.cmdNiche e = some i → i < 16 →
    let ok := [1, 2, 3, 5].contains (s.nicheState i) = true
    let only := fun (t : State) => t = { s with hostQs := t.hostQs, hostMem := t.hostMem, irq := t.irq, free := t.free, hostEp := t.hostEp
                                                hbm := t.hbm, hbmPoison := t.hbmPoison, hbmEcc := t.hbmEcc, hbmCheck := t.hbmCheck }
    (Fetches 0 e s → ∃ t, exec (.cmdNop e) s = .next t ∧ HostDone e s t 0 ∧ only t ∧ t.hbm = s.hbm ∧ t.hostEp = s.hostEp) ∧
    (s.canFetch e.fn e.q = false → e.fn < 34 → e.q < 8 → exec (.cmdNop e) s = .next s) ∧
    (Fetches 1 e s → ok → s.copyArea e i true = none → ∃ t, exec (.writeHbm e) s = .next t ∧ HostDone e s t 3 ∧ only t ∧ t.hbm = s.hbm) ∧
    (∀ a, Fetches 1 e s → ok → s.copyArea e i true = some a → e.hostOk = true → e.length ≤ e.data.length → s.hbmGood a e.length →
      ∃ t, exec (.writeHbm e) s = .next t ∧ HostDone e s t 0 ∧ only t ∧
        (∀ j < e.length, memByte t.hbm (a + j) = e.data.getD j 0) ∧ SameBytes a e.length s.hbm t.hbm) ∧
    (∀ a, Fetches 2 e s → ok → s.copyArea e i false = some a → s.hbmGood a e.length →
      (∀ h, 2 * (a / 64) ≤ h → h ≤ 2 * ((a + e.length) / 64) + 1 → fget noMark s.hbmPoison h = false) →
      let cq := 4096 * s.rd (qf HST_CQB_ADDR e.fn e.q) + 16 * ((s.hostQ e.fn e.q).cqTail % s.qSize HST_CQB_SIZE e.fn e.q)
      (cq + 16 ≤ e.host ∨ e.host + e.length ≤ cq) → ∃ t, exec (.readHbm e) s = .next t ∧ HostDone e s t 0 ∧ only t ∧ t.hbm = s.hbm ∧
        (∀ j < e.length, memByte t.hostMem (e.host + j) = memByte s.hbm (a + j)) ∧
        ∀ b, (b < e.host ∨ e.host + e.length ≤ b) → (b < cq ∨ cq + 16 ≤ b) → memByte t.hostMem b = memByte s.hostMem b)) ∧
  (∀ (s : State) (fn off : Nat), fn < 34 →
    (∀ len a, off % 4096 + len ≤ 4096 → s.bar2 fn off len false = some a → s.hbmGood a len → ∃ t, exec (.hostBar2Read fn off len) s = .next t ∧
      t = { s with readVal := memRead s.hbm a len, readStat := t.readStat } ∧
      ((∀ h, 2 * (a / 64) ≤ h → h ≤ 2 * ((a + len) / 64) + 1 → fget noMark s.hbmPoison h = false) → t.readStat = 0)) ∧
    (∀ len, off % 4096 + len ≤ 4096 → s.bar2 fn off len false = none →
      exec (.hostBar2Read fn off len) s = .next { s with readVal := 0, readStat := 2 }) ∧
    (∀ data ep a, off % 4096 + data.length ≤ 4096 → s.bar2 fn off data.length true = some a → s.hbmGood a data.length →
      ∃ t, exec (.hostBar2Write fn off data ep) s = .next t ∧
        t = { s with hbm := t.hbm, hbmPoison := t.hbmPoison, hbmEcc := t.hbmEcc, hbmCheck := t.hbmCheck } ∧
        (∀ j < data.length, memByte t.hbm (a + j) = data.getD j 0) ∧ SameBytes a data.length s.hbm t.hbm) ∧
    (∀ data ep, off % 4096 + data.length ≤ 4096 → s.bar2 fn off data.length true = none → exec (.hostBar2Write fn off data ep) s = .next s))

/-- O9. For an entry a physical function fetches, clean and for a niche in a state its command admits: NICHE_CREATE of a
free rectangle makes it the niche's, CREATED and cleared, powers its regions, which clear as they wake, and of any
other completes with RESOURCE and changes no unit; START in a mode the generator takes makes it RUNNING, its contexts
to be READY at the first edge; STOP turns the generator OFF and makes it LOADED; NICHE_RESET, from a command or due
from an escalation, leaves it CREATED with scratchpads and instruction stores kept; NICHE_DESTROY leaves it FREE, its
windows' HBM zero; BIND_VF, SET_WINDOW and BIND write their registers or are refused; INGRESS_POST does what an
entry's arrival does. (R417, R418, R423, R424, R425, R426, R427, R428, R431, R432) -/
def Obligations.NicheCommandsActOnTheirNiche : Prop :=
  ∀ (s : State) (e : SqEntry) (i : Nat), e.fn % 17 = 0 → e.niche = i → i < 16 →
    let arg := fun byte n => bytesVal (e.ops.drop (byte - 32)) n
    let st := s.nicheState i
    let may := s.obj 0x5010 (i + 1) ≠ 0
    let live := st = 1 ∨ st = 2 ∨ st = 3 ∨ st = 5
    let idle := st = 1 ∨ st = 2 ∨ st = 5
    let same := fun (t : State) => t = { s with hostQs := t.hostQs, hostMem := t.hostMem, irq := t.irq, free := t.free }
    let fresh := fun (t : State) => t.nicheState i = 1 ∧ t.niche i = {} ∧
      (t.rd (NCH_STATE_RESETS.niche i) = min (s.rd (NCH_STATE_RESETS.niche i) + 1) (2 ^ 32 - 1)) ∧
      (∀ n ∈ s.nicheCells i, (t.cell n).spd = (s.cell n).spd ∧ (t.cell n).istore = (s.cell n).istore ∧ (t.cell n).tags = [] ∧
        (t.cell n).recvReq = [] ∧ (t.cell n).inj = []) ∧ (∀ q, s.nicheHas i q = true → q < 144 → (t.court q).plinth = (s.court q).plinth ∧ (t.court q).rif = [])
    (Fetches 0x10 e s → may → st = 0 → s.createOk (arg 32 1) (arg 33 1) (arg 34 1) (arg 35 1) (bit (arg 36 1) 0) = true →
      ∃ t, exec (.nicheCreate e) s = .next t ∧ HostDone e s t 0 ∧ t.nicheState i = 1 ∧ t.rd (NCH_CFG_DEFBUCKET.niche i) = 0 ∧
        let inside := fun q => arg 32 1 ≤ q % 12 ∧ q % 12 < arg 32 1 + arg 34 1 ∧ arg 33 1 ≤ q / 12 ∧ q / 12 < arg 33 1 + arg 35 1
        (∀ q < 144, (t.nicheHas i q = true ↔ inside q) ∧ (inside q → fget noMark t.regions (courtRegion q) = true ∧
          ∀ b, memByte (t.court q).plinth b = 0) ∧
          (¬ inside q → (∀ p < 144, inside p → courtRegion p = courtRegion q → fget noMark s.regions (courtRegion q) = true) →
            (t.court q).plinth = (s.court q).plinth)) ∧
        ∀ g, fget noMark t.regions g = true ↔ fget noMark s.regions g = true ∨ ∃ p < 144, inside p ∧ courtRegion p = g) ∧
    (Fetches 0x10 e s → may → st = 0 → s.createOk (arg 32 1) (arg 33 1) (arg 34 1) (arg 35 1) (bit (arg 36 1) 0) = false →
      ∃ t, exec (.nicheCreate e) s = .next t ∧ HostDone e s t 6 ∧ same t) ∧
    (Fetches 4 e s → st = 2 → s.mgmt.thermLimit = false → s.rd RES_PKG_STATUS_REPLACE = 0 → s.frameMode i = 0 → 1 ≤ arg 32 1 → arg 32 1 ≤ 3 →
      (arg 32 1 = 3 → s.frameTicks4 i % 4 = 0 ∧ s.rd TMB_STATUS_STATE = 2 ∧ s.tick + 1024 ≤ arg 40 8) →
      ∃ t, exec (.cmdStart e) s = .next t ∧ HostDone e s t 0 ∧ t.nicheState i = 3 ∧ t.frameMode i = arg 32 1 ∧ (t.niche i).fresh = true ∧
        t.rd (TMB_NSTART_START_TICK.by16 i) = arg 40 8 ∧ t.courts = s.courts) ∧
    (Fetches 5 e s → st = 3 → ∃ t, exec (.cmdStop e) s = .next t ∧ HostDone e s t 0 ∧ t.nicheState i = 2 ∧ t.frameMode i = 0 ∧ t.cells = s.cells ∧
      t.courts = s.courts) ∧
    (Fetches 6 e s → live → s.rd (RES_HEAL_STATUS_STEP.by8 i) = 0 → s.crashFrozen = [] →
      ∃ t, exec (.nicheReset i (some e)) s = .next t ∧ HostDone e s t 0 ∧ fresh t) ∧
    (∀ r, s.resets = [r] → r.level = 3 → r.unit = i → live → s.rd (RES_HEAL_STATUS_STEP.by8 i) = 0 → s.crashFrozen = [] →
      ∃ t, exec (.nicheReset i none) s = .next t ∧ fresh t ∧ t.resets = []) ∧
    (Fetches 0x11 e s → may → idle → s.rd (RES_HEAL_STATUS_STEP.by8 i) = 0 → s.crashFrozen = [] → ∃ t, exec (.nicheDestroy e) s = .next t ∧ HostDone e s t 0 ∧ t.nicheState i = 0 ∧
      (∀ q < 144, t.nicheHas i q = false) ∧
      (∀ a, s.inWindows i (a / 65536) = true → (∀ j < 16, j ≠ i → s.inWindows j (a / 65536) = false) → memByte t.hbm a = 0) ∧
      (∀ a, s.inWindows i (a / 65536) = false → memByte t.hbm a = memByte s.hbm a)) ∧
    (Fetches 0x12 e s → may → live → arg 33 1 = 0 → s.portOn 0 = true → arg 32 1 ≤ 16 →
      (arg 32 1 = 0 → ∃ t, exec (.bindVf e) s = .next t ∧ HostDone e s t 0 ∧ PkgSets [(NCH_CFG_VFA.niche i, 0), (NCH_CFG_VFA_VALID.niche i, 0)] s t) ∧
      (1 ≤ arg 32 1 → s.boundNiche (arg 32 1) = none → ∃ t, exec (.bindVf e) s = .next t ∧ HostDone e s t 0 ∧
        PkgSets [(NCH_CFG_VFA.niche i, arg 32 1 - 1), (NCH_CFG_VFA_VALID.niche i, 1)] s t) ∧
      (∀ j, 1 ≤ arg 32 1 → s.boundNiche (arg 32 1) = some j → j ≠ i → ∃ t, exec (.bindVf e) s = .next t ∧ HostDone e s t 6 ∧ same t)) ∧
    (Fetches 0x13 e s → may → idle → arg 32 1 ≤ 1 →
      let v := arg 40 8
      let base := bits v 21 0
      let size := bits v 53 32
      (bit v 63 = true → 65536 * (base + size) ≤ s.hbmAlloc → (∀ g ∈ s.mgmt.badSegs, g < base ∨ base + size ≤ g) → s.windowClash i base size (bit v 62) = false →
        ∃ t, exec (.setWindow e) s = .next t ∧ HostDone e s t 0 ∧ t.window i (arg 32 1) = some (base, size) ∧ t.cells = s.cells ∧ t.courts = s.courts) ∧
      (bit v 63 = false → ∃ t, exec (.setWindow e) s = .next t ∧ HostDone e s t 0 ∧ t.window i (arg 32 1) = none ∧ t.hbm = s.hbm) ∧
      (bit v 63 = true → s.hbmAlloc < 65536 * (base + size) ∨ (∃ g ∈ s.mgmt.badSegs, base ≤ g ∧ g < base + size) → ∃ t, exec (.setWindow e) s = .next t ∧ HostDone e s t 6 ∧ same t)) ∧
    (Fetches 0x14 e s → may → live → arg 32 1 = 0 → arg 34 2 < 512 →
      let v := arg 40 8
      let b := arg 34 2
      (s.bindRefused i b v = true → ∃ t, exec (.bind e) s = .next t ∧ HostDone e s t 6 ∧ same t) ∧
      (s.bindRefused i b v = false → ∃ t, exec (.bind e) s = .next t ∧ HostDone e s t 0 ∧
        PkgSets [(NCH_BIND_VALID.by8 b, bits v 63 63), (NCH_BIND_TYPE.by8 b, bits v 62 60), (NCH_BIND_NICHE.by8 b, i),
          (NCH_BIND_SIZE_SEG.by8 b, bits v 53 32), (NCH_BIND_FIELD.by8 b, bits v 21 0)] s t)) ∧
    (Fetches 7 e s → st = 3 → e.length ≤ 224 → e.hostOk = true → e.length ≤ e.data.length → arg 32 2 < 512 →
      let b := arg 32 2
      s.rd (NCH_BIND_VALID.by8 b) = 1 → s.rd (NCH_BIND_NICHE.by8 b) = i → s.rd (NCH_BIND_TYPE.by8 b) = 1 →
      ∃ t u, exec (.ingressPost e) s = .next t ∧ HostDone e s t 0 ∧
        exec (.ingressEntryArrive (s.rd (NCH_BIND_FIELD.by8 b) % 128) 0 (e.data.take e.length) false) s = .next u ∧
        t.courts = u.courts ∧ t.rings = u.rings ∧ t.pkgRegs = u.pkgRegs ∧ t.events = u.events ∧ t.cells = u.cells)

/-- O10. For a fetched LOAD_CAST of a niche in CREATED, LOADED or FAULTED by a physical function, with no partner: a cast
that fails a check completes with CAST_REFUSED and the check's code as DETAIL, no unit changed; one that passes every
check, with the niche quiescent, is written: every instruction word of ISTORE is in its cell's store, the niche is
LOADED with the relocated cast and the command completes with OK; a write that fails leaves the niche FAULTED, its
cells' contexts OFF and its banks NONE. (R293, R317, R418, R419) -/
def Obligations.LoadCastChecksThenWrites : Prop :=
  ∀ (s : State) (e : SqEntry) (i : Nat) (raw : List (BitVec 8)), e.fn % 17 = 0 → e.niche = i → i < 16 → Fetches 3 e s →
    (s.nicheState i = 1 ∨ s.nicheState i = 2 ∨ s.nicheState i = 5) → e.hostOk = true → bytesVal (e.ops.drop 1) 1 = 0xFF →
    let c := parseCast raw
    let bucket := bytesVal e.ops 1
    let detail := fun (t : State) => memRead t.hostMem (4096 * t.rd (qf HST_CQB_ADDR e.fn e.q) +
      16 * ((s.hostQ e.fn e.q).cqTail % t.qSize HST_CQB_SIZE e.fn e.q) + 4) 2
    let same := fun (t : State) => t = { s with hostQs := t.hostQs, hostMem := t.hostMem, irq := t.irq, free := t.free }
    let place := fun (r : WordRec 32) => (s.phys (s.relId i r.at'), 1024 * r.ctx + r.index)
    (∀ fault k, k < 65536 → s.castFirst i c = some k → ∃ t, exec (.loadCast raw e fault) s = .next t ∧ HostDone e s t 8 ∧ detail t = k ∧ same t) ∧
    (∀ fault k, k < 65536 → s.castFirst i c = none → s.castFifth i c bucket 0xFF = some k →
      ∃ t, exec (.loadCast raw e fault) s = .next t ∧ HostDone e s t 8 ∧ detail t = k ∧ same t) ∧
    (∀ d u, s.castFirst i c = none → s.castFifth i c bucket 0xFF = none → s.relocated i c = some d → s.applyRings i c false = some u →
      (s.quiescent i = false → ∃ t, exec (.loadCast raw e false) s = .next t ∧ HostDone e s t 8 ∧ detail t = 17 ∧ same t) ∧
      (s.quiescent i = true → ∃ t, exec (.loadCast raw e false) s = .next t ∧ HostDone e s t 0 ∧ t.nicheState i = 2 ∧
        (t.niche i).cast = some d ∧ (d.mqWords = [] → d.istore.Pairwise (fun a b => place a ≠ place b) →
          ∀ r ∈ d.istore, fget w0 (t.cell (place r).1).istore (place r).2 = r.v)) ∧
      (s.quiescent i = true → ∃ t, exec (.loadCast raw e true) s = .next t ∧ HostDone e s t 8 ∧ detail t = 18 ∧ t.nicheState i = 5 ∧
        t.niche i = {} ∧ ∀ n ∈ s.nicheCells i, (∀ k < 4, ((t.cell n).ctx k).state = .off) ∧ ∀ b < 16, (t.cell n).ownState b = 0))

/-- O11. On a live link in UP: a DATA frame without NAK and with the expected SEQ joins its packet, which is whole at EOP,
E moves on, its buffer is held and acknowledged frames leave the retry buffer; one ahead of E asks for a replay and is
dropped, one behind is dropped; one without a free buffer sends the link to RECOVER. IDLE frames carry ACK and CRD; a
NAK or a timeout replays every unacknowledged frame, and with RETRY_MAX replays gone leads to RECOVER. A bad CRC is
counted and asks for a replay once an episode. A frame slot sends the next replayed frame, else a frame of a ready
lane with the next SEQ, kept for replay, else an IDLE frame; the frame joins the FEC block that forms, and the fifth
completes it. A link not in UP does nothing with them. (R349, R354, R355, R356, R357, R358, R359, R360, R361) -/
def Obligations.LinkFramesAreTakenAndSent : Prop :=
  ∀ (l : Nat) (s : State), LinkLive l s →
    let k := s.link l
    let acked := fun f : Frame => if f.ackv then k.retry.filter (fun x => ackAhead x.1.seq f.ack) else k.retry
    let heldBy := fun f : Frame => fget z0 k.held f.vl
    let bytes := fun f : Frame => (if f.sop then [] else fget nil0 k.part f.vl) ++ f.payload
    let max := s.linkT l 9
    let only := fun t : State => t = { s with links := t.links } ∧ ∀ m, m ≠ l → t.link m = s.link m
    (s.lstate l ≠ 6 → ∀ f, exec (.zovarDataFrame l f) s = .next s ∧ exec (.zovarIdleFrame l f) s = .next s ∧ exec (.replayTimeout l) s = .next s ∧
      exec (.txFrameSlot l) s = .next s) ∧
    (s.lstate l = 6 →
      (∀ f : Frame, f.nak = false → f.seq = k.expect → heldBy f < s.ownBuffers l f.vl → ∃ t, exec (.zovarDataFrame l f) s = .next t ∧ only t ∧
        (t.link l).expect = (k.expect + 1) % 2 ^ 24 ∧ fget z0 (t.link l).held f.vl = heldBy f + 1 ∧ (t.link l).retry = acked f ∧
        (t.link l).nak = false ∧ (t.link l).out = k.out ∧
        (f.eop = true → (t.link l).rx = k.rx ++ [packetOf (bytes f) f.info] ∧ fget nil0 (t.link l).part f.vl = []) ∧
        (f.eop = false → (t.link l).rx = k.rx ∧ fget nil0 (t.link l).part f.vl = bytes f)) ∧
      (∀ f : Frame, f.nak = false → f.seq ≠ k.expect → ∃ t, exec (.zovarDataFrame l f) s = .next t ∧ only t ∧ (t.link l).expect = k.expect ∧
        (t.link l).rx = k.rx ∧ (t.link l).part = k.part ∧ (t.link l).held = k.held ∧ (t.link l).retry = acked f ∧
        (t.link l).nak = (k.nak || (ackAhead f.seq k.expect && !k.episode)) ∧ (t.link l).episode = (k.episode || ackAhead f.seq k.expect)) ∧
      (∀ f : Frame, f.nak = false → f.seq = k.expect → s.ownBuffers l f.vl ≤ heldBy f → ∃ t, exec (.zovarDataFrame l f) s = .next t ∧
        LinkGoes l s t 7 ∧ (t.link l).rx = k.rx) ∧
      (∀ f : Frame, f.nak = false → ∃ t, exec (.zovarIdleFrame l f) s = .next t ∧ only t ∧ (t.link l).retry = acked f ∧
        (t.link l).expect = k.expect ∧ (t.link l).rx = k.rx ∧ ∀ v < f.crd.length, fget z0 (t.link l).back v = f.crd.getD v 0 % 64) ∧
      (∀ f : Frame, f.nak = true → f.ackv = false → k.retry ≠ [] → k.replays < max → ∃ t, exec (.zovarIdleFrame l f) s = .next t ∧
        (t.link l).replay = k.retry.map (fun x => x.1) ∧ (t.link l).replays = k.replays + 1 ∧
        t.lrd l LNK_CNT_REPLAYS = min (s.lrd l LNK_CNT_REPLAYS + 1) 65535 ∧ LinkGoes l s t 6) ∧
      (k.retry = [] → exec (.replayTimeout l) s = .next s) ∧
      (k.retry ≠ [] → k.replays < max → ∃ t, exec (.replayTimeout l) s = .next t ∧ (t.link l).replay = k.retry.map (fun x => x.1) ∧
        (t.link l).retry = k.retry ∧ (t.link l).replays = k.replays + 1 ∧ LinkGoes l s t 6) ∧
      (k.retry ≠ [] → max ≤ k.replays → ∃ t, exec (.replayTimeout l) s = .next t ∧ LinkGoes l s t 7) ∧
      (∃ t, exec (.zovarBadFrame l true) s = .next t ∧ t.lrd l LNK_CNT_CRC_ERR = min (s.lrd l LNK_CNT_CRC_ERR + 1) 65535 ∧
        t.link l = { k with nak := k.nak || !k.episode, episode := true } ∧ t = { s with links := t.links, dieRegs := t.dieRegs }) ∧
      (∀ f x, k.replay = f :: x → k.vl0 = [] → k.out = [] → ∃ t, exec (.txFrameSlot l) s = .next t ∧ only t ∧ (t.link l).replay = x ∧
        (t.link l).lastTx = some (k.stamp f) ∧ (t.link l).retry = k.retry ∧ (t.link l).txSeq = k.txSeq) ∧
      (k.replay = [] → k.vl0 = [] → k.out = [] → k.cur = [] → ∃ t, exec (.txFrameSlot l) s = .next t ∧ only t ∧
        (∃ g, (t.link l).lastTx = some g ∧ g.ftype = 0 ∧ g.ackv = true ∧ g.ack = (k.expect + 2 ^ 24 - 1) % 2 ^ 24 ∧
          (k.block.length < 4 → (t.link l).block = k.block ++ [g] ∧ (t.link l).blockSent = k.blockSent) ∧
          (k.block.length = 4 → (t.link l).block = [] ∧ (t.link l).blockSent = k.block ++ [g])) ∧ (t.link l).txSeq = k.txSeq) ∧
      (∀ p f0 fs, k.replay = [] → k.vl0 = [] → k.out = [(1, [p])] → k.cur = [] → s.maySend l p = true → packetFrames p = f0 :: fs →
        k.retry.length < 128 → (fget z0 k.used 1 + 64 - fget z0 k.back 1) % 64 < s.partnerBuffers l 1 → p.via = 0 →
        ∃ t, exec (.txFrameSlot l) s = .next t ∧ only t ∧ (t.link l).lastTx = some (k.stamp { f0 with seq := k.txSeq }) ∧
          (t.link l).retry = k.retry ++ [({ f0 with seq := k.txSeq }, p)] ∧ (t.link l).txSeq = (k.txSeq + 1) % 2 ^ 24 ∧
          fget nil0 (t.link l).out 1 = [] ∧ fget nil0 (t.link l).cur 1 = fs.map (fun f => (f, p)) ∧
          fget z0 (t.link l).used 1 = (fget z0 k.used 1 + 1) % 64))

/-- O12. On a live link: ENABLE, RETRAIN, detection, equalisation, error windows, lock, losses and timeouts move the link
between DISABLED, DETECT, EQ, LOCK, NEGOTIATE, HOLD, UP, RECOVER and DOWN as the state table says, and leave it where
its state is not the one they act in. A HELLO in NEGOTIATE sets version, features and partner, and one in UP leads to
RECOVER; HELLOs, PINGs and PONGs go out as the next frame; a PONG that matches a PING adds one measurement. No cell,
court or HBM byte and no other link's state differs. (R346, R351, R352, R366, R367, R368, R369, R370, R371, R373) -/
def Obligations.LinkStatesFollowTheirRules : Prop :=
  ∀ (l : Nat) (s : State), LinkLive l s →
    let k := s.link l
    let st := s.lstate l
    let to' := fun (i : Instr) (n : Nat) => ∃ t, exec i s = .next t ∧ LinkGoes l s t n
    let up := fun lane => s.laneFenced l lane = false
    let sends := fun (i : Instr) (ty : Nat) (bs : List (BitVec 8)) => ∃ t g, exec i s = .next t ∧ (t.link l).lastTx = some g ∧ g.ftype = ty ∧
      g.payload = bs ∧ LinkGoes l s t st
    (st = 0 → s.obj 0x3800 0 < 0xFFF → to' (.linkEnableWrite l true) 1) ∧ (st ≠ 0 → to' (.linkEnableWrite l true) st) ∧
    to' (.linkEnableWrite l false) 0 ∧
    (st = 6 → to' (.linkRetrain l) 7) ∧ (st = 8 ∨ st = 9 → to' (.linkRetrain l) 1) ∧
    (st < 6 → exec (.linkRetrain l) s = .next s) ∧
    (st = 1 → up 0 → up 1 → ∃ t, exec (.linkDetect l true true) s = .next t ∧ LinkGoes l s t 2 ∧ t.lrd l LNK_STATUS_WIDTH = 0) ∧
    (st = 1 → up 0 → s.lrd l LNK_CTRL_X1_ALLOW = 1 → ∃ t, exec (.linkDetect l true false) s = .next t ∧ LinkGoes l s t 2 ∧
      t.lrd l LNK_STATUS_WIDTH = 1) ∧
    (st ≠ 1 → ∀ a b, exec (.linkDetect l a b) s = .next s) ∧ exec (.linkDetect l false false) s = .next s ∧
    (∀ b0 b1 : W32, let w := max b0.toNat b1.toNat
      (st = 2 → 0x38D1B717 < w → s.lrd l LNK_STATUS_RATE = 1 → to' (.berWindowEnd l b0 b1) 8) ∧
      (st = 2 → 0x38D1B717 < w → s.lrd l LNK_STATUS_RATE = 0 → ∃ t, exec (.berWindowEnd l b0 b1) s = .next t ∧ LinkGoes l s t 2 ∧
        t.lrd l LNK_STATUS_RATE = 1) ∧
      (st = 2 → w ≤ 0x38D1B717 → ∃ t, exec (.berWindowEnd l b0 b1) s = .next t ∧ LinkIs l s t { k with fecReq := (t.link l).fecReq } ∧
        (s.linkT l 3 < w → (t.link l).fecReq = true)) ∧
      (st ≠ 2 → exec (.berWindowEnd l b0 b1) s = .next s)) ∧
    (∀ lane, (st = 2 → to' (.linkEqDone l 0 lane) 3) ∧ (st = 2 → k.full = true → to' (.linkEqDone l 1 lane) 8) ∧
      (st = 2 → k.full = false → ∃ t, exec (.linkEqDone l 1 lane) s = .next t ∧ LinkIs l s t { k with full := true }) ∧
      (st = 2 → to' (.linkEqDone l 2 lane) 8) ∧ ∀ r, st ≠ 2 → exec (.linkEqDone l r lane) s = .next s) ∧
    (st = 3 → ∃ t, exec (.linkLock l) s = .next t ∧ LinkGoes l s t 4 ∧ (t.link l).transit = (s.lrd l LNK_CTRL_TRANSIT != 0) ∧
      (t.link l).edge = (s.lrd l LNK_CTRL_EDGE != 0)) ∧
    (st = 7 → ∃ t, exec (.linkLock l) s = .next t ∧ LinkIs l s t { k with locked := true }) ∧
    (st = 6 → to' (.linkLockLost l) 7 ∧ to' (.deadTExpiry l) 7) ∧
    (st ≠ 6 → exec (.linkLockLost l) s = .next s ∧ exec (.deadTExpiry l) s = .next s) ∧
    (st = 3 → (k.lockFails < 2 → to' (.lockTExpiry l) 2) ∧ (2 ≤ k.lockFails → to' (.lockTExpiry l) 8)) ∧
    (st = 4 → to' (.negTExpiry l) 8) ∧ (st ≠ 4 → exec (.negTExpiry l) s = .next s) ∧
    (st = 5 → k.saved = none → ∃ t, exec (.holdTExpiry l) s = .next t ∧ LinkGoes l s t 6 ∧ (t.link l).txSeq = 0 ∧ (t.link l).expect = 0) ∧
    (st = 7 → (k.recFails + 1 < s.linkT l 12 → to' (.recoverTExpiry l) 7) ∧ (s.linkT l 12 ≤ k.recFails + 1 → to' (.recoverTExpiry l) 8)) ∧
    (st = 8 → (s.lrd l LNK_CTRL_AUTO_RESTART = 1 → to' (.downHoldExpiry l) 1) ∧ (s.lrd l LNK_CTRL_AUTO_RESTART = 0 → to' (.downHoldExpiry l) 0)) ∧
    (st = 8 → ∃ t, exec (.linkDown l) s = .next t ∧ LinkGoes l s t 8 ∧ (t.link l).retry = [] ∧ (t.link l).replay = []) ∧
    (st ≠ 8 → exec (.linkDown l) s = .next s ∧ exec (.downHoldExpiry l) s = .next s) ∧
    (∀ lane, st = 6 → s.lrd l LNK_STATUS_FEC = 0 → ∃ t, exec (.fecDegrade l lane) s = .next t ∧ LinkGoes l s t 7 ∧ (t.link l).rs = true ∧
      t.lrd l LNK_STATUS_FEC = 1) ∧
    (st = 4 ∨ st = 5 ∨ st = 7 ∨ st = 9 → k.hstate ≠ 2 → sends (.helloTSend l) 2 (s.helloBytes l)) ∧
    (∀ f : Frame, let h := helloOf f.payload
      (st = 4 → 1 ≤ h.verMax → h.verMin ≤ min 3 h.verMax → s.lrd l LNK_STATUS_WIDTH = 0 → k.meas.length < 64 →
        ∃ t, exec (.zovarHello l f) s = .next t ∧ LinkGoes l s t 4 ∧ t.lrd l LNK_STATUS_VER = min 3 h.verMax ∧
          t.lrd l LNK_PARTNER_FEATURES = (s.ownFeatures l &&& h.features) ∧ t.lrd l LNK_PARTNER_ID_DEV_ID = h.dev ∧
          t.lrd l LNK_PARTNER_ID_PORT = h.port ∧ t.lrd l LNK_PARTNER_ID_VALID = 1 ∧ (t.link l).hello = some h ∧ (t.link l).hstate = 1) ∧
      (st = 4 → min 3 h.verMax < max 1 h.verMin → to' (.zovarHello l f) 8) ∧
      (st = 6 → to' (.zovarHello l f) 7) ∧
      (st = 7 → k.locked = true → (h.dev ≠ s.lrd l LNK_PARTNER_ID_DEV_ID ∨ h.port ≠ s.lrd l LNK_PARTNER_ID_PORT) → to' (.zovarHello l f) 8)) ∧
    (∀ t1, st = 4 ∨ st = 6 → sends (.measTPing l t1) 3 (valBytes k.pingId 2)) ∧
    (∀ (f : Frame) (turn : Nat), st = 6 → f.nak = false → sends (.zovarPing l f turn) 4 (valBytes (bytesVal f.payload 2) 4 ++ valBytes turn 4)) ∧
    (∀ (f : Frame) (t4 id t1 : Nat), st = 6 → f.nak = false → id = bytesVal f.payload 2 → k.pings = [(id, t1)] → t4 ≤ t1 + 144000 → k.refill = 0 →
      let d := ((t4 - t1) * 625 - 9 * bytesVal (f.payload.drop 4) 4) / 18
      let use := s.lrd l LNK_DELAY_DELAY_PS
      d ≤ use + 2000 → use ≤ d + 2000 → ∃ t, exec (.zovarPong l f t4) s = .next t ∧ LinkGoes l s t 6 ∧ (t.link l).pings = [] ∧
        (t.link l).meas = (k.meas ++ [d]).drop (k.meas.length - 63))

/-- O13. PACKET_RECEIVE takes the oldest whole packet of a live link: below the end of its route it goes out of the next
link with HIDX one up where both links transit; with a bad HIDX, a next link that does not forward or another
destination it is discarded, counted and logged as 0xC; one for this device of a class or lane not agreed is refused
as 0xD, one outside its binding as 0xE; the rest joins the inbox, a VL0 packet before its tick the late list, from
where it is delivered or joins the inbox once its tick has come. DESC and VL0 data are written into the window of
their binding, every other byte of HBM kept; SYNC and the ADD of a DESC become requests of the object's court, EDGE_IN
an ingress entry, MGMT a message for the die's Atelier; each frees its buffers, and with nothing of its class waiting
changes nothing. (R357, R361, R362, R364, R365, R396) -/
def Obligations.PacketsReachTheirBinding : Prop :=
  ∀ (l : Nat) (s : State), LinkLive l s →
    let k := s.link l
    let freed := fun (p : Packet) (k : Link) => { k with
      freed := fset z0 k.freed p.vl ((fget z0 k.freed p.vl + packetCount p) % 64), held := fset z0 k.held p.vl (fget z0 k.held p.vl - packetCount p) }
    let refused := fun (i : Instr) (code : Nat) (k' : Link) => ∃ t, exec i s = .next t ∧
      t = { s with links := t.links, dieRegs := t.dieRegs, events := t.events } ∧ t.link l = k' ∧ (∀ m, m ≠ l → t.link m = s.link m) ∧
      t.lrd l LNK_CNT_REFUSED = min (s.lrd l LNK_CNT_REFUSED + 1) 65535 ∧
      ∃ x, fget nil0 t.events (l / 24) = fget nil0 s.events (l / 24) ++ [x] ∧ x.code = code ∧ x.index = l
    let window := fun (i : Instr) (p : Packet) (off : Nat) (bs : List (BitVec 8)) (k' : Link) => ∀ a,
      off + bs.length ≤ 65536 * s.rd (NCH_BIND_SIZE_SEG.by8 p.dest) →
      s.spaceArea (s.rd (NCH_BIND_NICHE.by8 p.dest)) (65536 * s.rd (NCH_BIND_FIELD.by8 p.dest) + off) bs.length true = some a → s.hbmGood a bs.length →
      ∃ t, exec i s = .next t ∧ t = { s with links := t.links, hbm := t.hbm, hbmPoison := t.hbmPoison, hbmEcc := t.hbmEcc, hbmCheck := t.hbmCheck } ∧
        t.link l = k' ∧ (∀ m, m ≠ l → t.link m = s.link m) ∧ (∀ j < bs.length, memByte t.hbm (a + j) = bs.getD j 0) ∧
        SameBytes a bs.length s.hbm t.hbm
    let syncReq := fun (t : State) (obj op op12 : Nat) (c : Court) => ∃ m, (t.court (12 * bits obj 14 11 + bits obj 10 7)) = { c with syncIn := c.syncIn ++ [m] } ∧
      m.info = [op, obj] ∧ m.payload = valBytes op12 8 ∧ m.kind = .posted
    let first := fun (cl : Nat) (p : Packet) (rest : List Packet) => takeFirst (fun p => p.mclass == cl) k.inbox = some (p, rest)
    let none' := fun (cl : Nat) => takeFirst (fun p => p.mclass == cl) k.inbox = none
    (k.rx = [] → exec (.packetReceive l) s = .next s) ∧
    (∀ p r, k.rx = p :: r →
      let i := Instr.packetReceive l
      let out := p.route.getD p.hidx 0
      let gone := { freed p k with rx := r }
      let kept := ∃ t, exec i s = .next t ∧ LinkIs l s t { k with rx := r, inbox := k.inbox ++ [p] }
      let here := p.hidx = p.nhops ∧ 1 ≤ p.hidx ∧ p.hidx ≤ 8 ∧ p.dst = s.devId
      (p.hidx = 0 ∨ 8 < p.hidx ∨ p.nhops < p.hidx → refused i 0x0C gone) ∧
      (p.hidx = p.nhops → p.dst ≠ s.devId → refused i 0x0C gone) ∧
      (p.hidx < p.nhops → (k.transit = false ∨ 96 ≤ out ∨ s.lstate out ≠ 6 ∨ (s.link out).transit = false) → refused i 0x0C gone) ∧
      (1 ≤ p.hidx → p.hidx < p.nhops → p.hidx ≤ 8 → k.transit = true → out < 96 → s.lstate out = 6 → (s.link out).transit = true → out ≠ l →
        let q := { p with hidx := p.hidx + 1, via := l + 1 }
        ∃ t, exec i s = .next t ∧ t = { s with links := t.links } ∧ t.link l = { k with rx := r } ∧ (∀ m, m ≠ l → m ≠ out → t.link m = s.link m) ∧
          t.link out = if p.vl = 0 then { s.link out with vl0 := (s.link out).vl0 ++ [⟨q, 0⟩] }
            else { s.link out with out := fset nil0 (s.link out).out p.vl (fget nil0 (s.link out).out p.vl ++ [q]) }) ∧
      (here → s.classOk l p = false → refused i 0x0D gone) ∧
      (here → s.classOk l p = true → p.mclass ≠ 4 → p.mclass ≠ 7 → s.bindOk l p = false → refused i 0x0E gone) ∧
      (here → s.classOk l p = true → p.mclass = 7 → kept) ∧
      (here → s.classOk l p = true → p.mclass = 4 → p.vl ≠ 0 → pay p 0 1 = 1 ∨ pay p 0 1 = 2 ∨ pay p 0 1 = 3 → kept) ∧
      (here → s.classOk l p = true → p.mclass = 1 ∨ p.mclass = 2 ∨ p.mclass = 5 ∨ p.mclass = 3 ∧ stype p ≠ 3 → s.bindOk l p = true → p.vl ≠ 0 → kept) ∧
      (here → s.classOk l p = true → p.mclass = 3 → s.bindOk l p = true → p.vl = 0 → s.tick < pay p 0 8 →
        ∃ t, exec i s = .next t ∧ LinkIs l s t { k with rx := r, late := k.late ++ [p] })) ∧
    (takeFirst (fun p => decide (pay p 0 8 ≤ s.tick)) k.late = none → exec (.vl0Deliver l) s = .next s) ∧
    (∀ p r, takeFirst (fun p => decide (pay p 0 8 ≤ s.tick)) k.late = some (p, r) → p.mclass = 3 → stype p = 3 → s.rd (NCH_BIND_TYPE.by8 p.dest) ≠ 1 →
      window (.vl0Deliver l) p 0 (p.payload.drop 64) { freed p k with late := r }) ∧
    (∀ p r, takeFirst (fun p => decide (pay p 0 8 ≤ s.tick)) k.late = some (p, r) → p.mclass ≠ 3 ∨ stype p ≠ 3 →
      ∃ t, exec (.vl0Deliver l) s = .next t ∧ LinkIs l s t { k with late := r, inbox := k.inbox ++ [p] }) ∧
    (none' 1 → exec (.pktDesc l) s = .next s) ∧
    (∀ p r, first 1 p r →
      let off := pay p 0 8
      let obj := pay p 8 4
      let bs := p.payload.drop 16
      let k' := { freed p k with inbox := r }
      (off % 64 = 0 → bs.length % 64 = 0 → bs.length ≤ 4032 → obj = 0xFFFFFFFF → window (.pktDesc l) p off bs k') ∧
      (off % 64 ≠ 0 ∨ bs.length % 64 ≠ 0 ∨ 4032 < bs.length → ∃ t, exec (.pktDesc l) s = .next t ∧ t.courts = s.courts ∧ t.link l = k' ∧
        t.lrd l LNK_CNT_REFUSED = min (s.lrd l LNK_CNT_REFUSED + 1) 65535 ∧
        ∃ x, fget nil0 t.events (l / 24) = fget nil0 s.events (l / 24) ++ [x] ∧ x.code = 0x0E ∧ x.index = l) ∧
      (∀ a, off % 64 = 0 → bs.length % 64 = 0 → bs.length ≤ 4032 → off + bs.length ≤ 65536 * s.rd (NCH_BIND_SIZE_SEG.by8 p.dest) →
        s.spaceArea (s.rd (NCH_BIND_NICHE.by8 p.dest)) (65536 * s.rd (NCH_BIND_FIELD.by8 p.dest) + off) bs.length true = some a →
        obj ≠ 0xFFFFFFFF → syncObjOk s.small obj = true → s.nicheHas (s.rd (NCH_BIND_NICHE.by8 p.dest)) (12 * bits obj 14 11 + bits obj 10 7) = true →
        ∃ t, exec (.pktDesc l) s = .next t ∧ syncReq t obj 1 (pay p 12 4) (s.court (12 * bits obj 14 11 + bits obj 10 7)))) ∧
    (none' 2 → exec (.pktSync l) s = .next s) ∧
    (∀ p r, first 2 p r → ∃ t, exec (.pktSync l) s = .next t ∧ t = { s with links := t.links, courts := t.courts } ∧ t.link l = { freed p k with inbox := r } ∧
      let obj := pay p 4 4
      syncReq t obj (pay p 0 1) (pay p 8 8) (s.court (12 * bits obj 14 11 + bits obj 10 7)) ∧
      ∀ q, q ≠ 12 * bits obj 14 11 + bits obj 10 7 → t.court q = s.court q) ∧
    (none' 5 → exec (.pktEdgeIn l) s = .next s) ∧
    (∀ p r, first 5 p r → ∃ u, LinkIs l s u { freed p k with inbox := r } ∧
      exec (.pktEdgeIn l) s = .next (u.ingress (s.rd (NCH_BIND_FIELD.by8 p.dest) % 128) p.src (p.payload.take 224) p.poison)) ∧
    (none' 7 → exec (.pktMgmt l) s = .next s) ∧
    (∀ p r, first 7 p r → ∃ t, exec (.pktMgmt l) s = .next t ∧ t = { s with links := t.links, mailbox := t.mailbox } ∧
      t.link l = { freed p k with inbox := r } ∧ (∀ m, m ≠ l → t.link m = s.link m) ∧
      (∃ x, fget nil0 t.mailbox (l / 24) = fget nil0 s.mailbox (l / 24) ++ [x] ∧ x.payload = p.payload ∧ x.src = p.src) ∧
      ∀ d, d ≠ l / 24 → fget nil0 t.mailbox d = fget nil0 s.mailbox d)

/-- O14. With the timebase running and enabled: ANNOUNCE_SEND of a device without a parent that is not in HOLDOVER makes
it the leader in LOCKED and sends the next sequence on every TIME link, of one with a parent passes on its leader's;
an announce is taken down by link and leader where it is new, and with its link the one that hears a lower leader,
that leader is followed over it in ACQUIRING; a lost parent gives the best other link or HOLDOVER, which its expiry
turns into FREE. A SYNC from the parent sets THETA and either steps TICK where that is allowed or moves RATE_ADJ, and
the counts of offsets move between ACQUIRING and LOCKED. A FALLBACK seen first schedules the maquette of its niche and
goes on; a slot of this device is read once a frame, at most 24 mesh cycles before its offset, and leaves at it with
the data in the plinth. Anything else changes nothing, or only frees the packet's buffers. (R382, R383, R384, R385,
R386, R389, R395, R398) -/
def Obligations.PodTimeElectsSynchronisesAndSends : Prop :=
  ∀ (s : State),
    let run := fget noMark s.dieHalt (3 * s.rd MGT_BOOT_STATUS_PRIMARY) = false
    let on := s.rd TMB_CTRL_ENABLE = 1
    let off := s.rd TMB_CTRL_ENABLE = 0
    let parent := s.rd TMB_STATUS_PARENT_VALID = 1
    let orphan := s.rd TMB_STATUS_PARENT_VALID = 0
    let st := s.rd TMB_STATUS_STATE
    let sends := fun (t : State) (to' : Nat → Bool) (bs : List (BitVec 8)) => ∀ m < 96, t.link m = if to' m then
      { s.link m with out := fset nil0 (s.link m).out 3 (fget nil0 (s.link m).out 3 ++ [s.timePacket m bs]) } else s.link m
    let status := fun (t : State) (pv leader hops state : Nat) => t.rd TMB_STATUS_PARENT_VALID = pv ∧ t.rd TMB_STATUS_LEADER_ID = leader ∧
      t.rd TMB_STATUS_HOPS = hops ∧ t.rd TMB_STATUS_STATE = state
    let logs := fun (t : State) (code : Nat) => ∃ x ∈ fget nil0 t.events 0, x.code = code ∧ x.space = 2
    (run → off → exec .announceSend s = .next s) ∧
    (run → on → orphan → st ≠ 3 → ∃ t, exec .announceSend s = .next t ∧ status t 0 s.devId 0 2 ∧ t.pod = { s.pod with seq := (s.pod.seq + 1) % 65536 } ∧
      sends t s.timeLink (valBytes 1 2 ++ valBytes s.devId 2 ++ valBytes 0 2 ++ valBytes ((s.pod.seq + 1) % 65536) 2)) ∧
    (run → on → parent → ∃ t, exec .announceSend s = .next t ∧ t = { s with links := t.links } ∧ sends t s.timeLink
      (valBytes 1 2 ++ valBytes (s.rd TMB_STATUS_LEADER_ID) 2 ++ valBytes (s.rd TMB_STATUS_HOPS) 1 ++ valBytes 0 1 ++
        valBytes (fget z0 s.pod.last (s.rd TMB_STATUS_LEADER_ID) - 1) 2)) ∧
    (run → orphan → exec .parentLoss s = .next s) ∧
    (run → parent → (∀ m, m ≠ s.rd TMB_STATUS_PARENT_LINK → fget heard0 s.pod.heard m = none) → ∃ t, exec .parentLoss s = .next t ∧
      t.rd TMB_STATUS_PARENT_VALID = 0 ∧ t.rd TMB_STATUS_STATE = 3 ∧ logs t 3) ∧
    (run → parent → ∀ m h, m < 96 → h.hops < 63 → h.leader = s.rd TMB_STATUS_LEADER_ID → s.timeLink m = true → (s.link m).refill = 0 →
      m ≠ s.rd TMB_STATUS_PARENT_LINK → (∀ j, j ≠ s.rd TMB_STATUS_PARENT_LINK → fget heard0 s.pod.heard j = if j = m then some h else none) →
      ∃ t, exec .parentLoss s = .next t ∧ status t 1 (s.rd TMB_STATUS_LEADER_ID) (h.hops + 1) 1 ∧ t.rd TMB_STATUS_PARENT_LINK = m ∧ logs t 2) ∧
    (run → st = 3 → ∃ t, exec .holdoverExpiry s = .next t ∧ t.rd TMB_STATUS_STATE = 0 ∧ t.rd MGT_ALERT_TIME = 1 ∧ logs t 4 ∧ t.links = s.links) ∧
    (run → st ≠ 3 → exec .holdoverExpiry s = .next s) ∧
    (∀ l, LinkLive l s →
      let k := s.link l
      let freed := fun (p : Packet) (r : List Packet) => { k with
        inbox := r, freed := fset z0 k.freed p.vl ((fget z0 k.freed p.vl + packetCount p) % 64), held := fset z0 k.held p.vl (fget z0 k.held p.vl - packetCount p) }
      let only := fun (i : Instr) (p : Packet) (r : List Packet) => ∃ t, exec i s = .next t ∧ LinkIs l s t (freed p r)
      let first := fun (ty : Nat) (p : Packet) (r : List Packet) => takeFirst (isTime ty) k.inbox = some (p, r)
      let mine := s.rd TMB_STATUS_PARENT_LINK = l
      (takeFirst (isTime 1) k.inbox = none → exec (.announce l) s = .next s) ∧
      (takeFirst (isTime 3) k.inbox = none → exec (.fallback l) s = .next s) ∧
      (∀ p r, first 1 p r →
        let leader := pay p 2 2 % 4096
        let hops := pay p 4 1
        let seq := pay p 6 2
        let last := fget z0 s.pod.last leader
        let new := hops < 63 ∧ (last = 0 ∨ seq16Ahead seq (last - 1) = true)
        (off → only (.announce l) p r) ∧ (leader ≠ s.devId → ¬ new → only (.announce l) p r) ∧
        (on → leader = s.devId → st ≠ 3 → only (.announce l) p r) ∧
        (on → leader = s.devId → st = 3 → ∃ t, exec (.announce l) s = .next t ∧ status t 0 s.devId 0 2) ∧
        (on → leader ≠ s.devId → new → ∃ t, exec (.announce l) s = .next t ∧ fget z0 t.pod.last leader = seq + 1 ∧
          fget heard0 t.pod.heard l = some ⟨leader, hops, seq⟩ ∧ t.link l = freed p r ∧
          (orphan → (∀ m, m ≠ l → fget heard0 s.pod.heard m = none) → s.timeLink l = true → k.refill = 0 →
            (leader < s.devId → status t 1 leader (hops + 1) 1 ∧ t.rd TMB_STATUS_PARENT_LINK = l ∧ logs t 2) ∧
            (s.devId < leader → t.pkgRegs = s.pkgRegs)))) ∧
      (∀ ttx, (s.timeLink l = false ∨ off ∨ parent ∧ mine → exec (.timeSyncSend l ttx) s = .next s) ∧
        (s.timeLink l = true → on → orphan → ∃ t, exec (.timeSyncSend l ttx) s = .next t ∧ t = { s with links := t.links } ∧
          sends t (fun m => m == l) (valBytes 2 8 ++ valBytes ttx 8 ++ valBytes (s.rd TMB_STATUS_LEADER_ID) 2 ++ valBytes s.pod.seq 2))) ∧
      (∀ trx, takeFirst (isTime 2) k.inbox = none → exec (.timeSync l trx) s = .next s) ∧
      (∀ trx p r, first 2 p r →
        let th : Int := (pay p 8 8 + (s.lrd l LNK_DELAY_DELAY_PS * 9 + 312) / 625 : Nat) - (trx : Nat)
        let step := (s.podT 4 * 16 : Nat) < th ∧ st ≤ 1 ∧ s.anyPod = false ∧ s.rd TMB_CTRL_STEP_ALLOW = 1
        (off ∨ orphan ∨ ¬ mine ∨ k.refill ≠ 0 → only (.timeSync l trx) p r) ∧
        (on → parent → mine → k.refill = 0 → ∃ t, exec (.timeSync l trx) s = .next t ∧ t.link l = freed p r ∧
          (-(2 ^ 31 : Int) ≤ th → th < 2 ^ 31 → signed 32 (t.rd TMB_SERVO_THETA) = th) ∧
          (step → t.tick = (s.tick + (th + 8).toNat / 16) % 2 ^ 64 ∧ t.rd TMB_SERVO_RATE_ADJ = s.rd TMB_SERVO_RATE_ADJ ∧ logs t 5) ∧
          (¬ step → t.tick = s.tick ∧ -219902325 ≤ t.rateAdj ∧ t.rateAdj ≤ 219902325) ∧
          (st = 1 → th.natAbs ≤ 16 → (s.podT 3 ≤ s.pod.good + 1 → t.rd TMB_STATUS_STATE = 2) ∧
            (s.pod.good + 1 < s.podT 3 → t.rd TMB_STATUS_STATE = 1 ∧ t.pod.good = s.pod.good + 1)) ∧
          (st = 1 → 16 < th.natAbs → 1 ≤ s.podT 3 → t.rd TMB_STATUS_STATE = 1 ∧ t.pod.good = 0) ∧
          (st = 2 → 32 < th.natAbs → (3 ≤ s.pod.bad → t.rd TMB_STATUS_STATE = 1) ∧ (s.pod.bad < 3 → t.rd TMB_STATUS_STATE = 2 ∧ t.pod.bad = s.pod.bad + 1)) ∧
          (st = 2 → th.natAbs ≤ 32 → t.rd TMB_STATUS_STATE = 2 ∧ t.pod.bad = 0) ∧ (st = 0 ∨ 3 ≤ st → t.rd TMB_STATUS_STATE = st))) ∧
      (∀ p r, first 3 p r →
        let bs := p.payload.take 35
        (bs ∈ s.pod.seen → only (.fallback l) p r) ∧
        (∀ i f x, bs ∉ s.pod.seen → i < 16 → (s.niche i).cast = some f → f.xdev = some x → f.mqKind = 1 → f.castId = pay p 8 16 →
          (∀ j < i, (s.niche j).cast = none) → ∃ t, exec (.fallback l) s = .next t ∧ t.niche i = { s.niche i with mqTick := some (pay p 24 8) } ∧
            (∀ j, j ≠ i → t.niche j = s.niche j) ∧ t.pod = { s.pod with seen := s.pod.seen ++ [bs] } ∧ logs t 7 ∧
            ∀ m < 96, m ≠ l → s.timeLink m = true → s.lrd m LNK_PARTNER_ID_DEV_ID ∈ x.parts →
              s.timePacket m bs ∈ fget nil0 (t.link m).out 3))) ∧
    (∀ i n, i < 16 →
      (s.xdev i = none → exec (.slotSend i n) s = .next s) ∧
      (∀ x r, s.xdev i = some x → x.slots[n]? = some r →
        let q := s.relCourt i r.court
        let c := s.court q
        let y := s.niche i
        let words := (r.plen - 64) / 4
        let route := if y.mqOn then r.routeB else r.routeA
        let l := bits route.toNat 6 0
        let near := s.cyclesTo (y.edgeTick + r.sendOfs) ≤ 24
        (r.fromP ≠ x.me ∨ n ∈ y.slots ∨ s.nicheState i ≠ 3 ∨ y.fresh = true ∨ ¬ near → exec (.slotSend i n) s = .next s) ∧
        (r.fromP = x.me → n ∉ y.slots → s.nicheState i = 3 → y.fresh = false → near → c.good r.addr words → ∃ t p, exec (.slotSend i n) s = .next t ∧
          t = { s with courts := t.courts, links := t.links, niches := t.niches } ∧ (∀ b, t.court b = s.court b) ∧
          t.niche i = { y with slots := y.slots ++ [n] } ∧ (∀ j, j ≠ i → t.niche j = s.niche j) ∧
          t.link l = { s.link l with vl0 := (s.link l).vl0 ++ [⟨p, y.edgeTick + r.sendOfs⟩] } ∧ (∀ m, m ≠ l → t.link m = s.link m) ∧
          p.mclass = 3 ∧ p.vl = 0 ∧ p.dest = r.dest ∧ p.src = s.devId ∧ p.hidx = 1 ∧ p.nhops = bits route.toNat 59 56 ∧
          (p.poison = true ↔ ∃ w < words, fget noMark c.plnPoison (r.addr / 4 + w) = true) ∧
          p.payload = valBytes (y.edgeTick + r.delivOfs) 8 ++ valBytes (3 * 2 ^ 16 + x.me * 2 ^ 96) 56 ++
            (List.range words).flatMap (fun w => valBytes (memRead c.plinth (r.addr + 4 * w) 4) 4))))

/-- O15. A plan's next instance starts in a running niche where its trigger has come and fewer than two are open: it is
entered with its start tick and, in a ring of two or more, its first step's segments leave and await their ACKs; its
number moves on. A DATA segment of an open instance is merged once, moved elements as sent and partials joined, and
acknowledged on its link; an old one is only acknowledged, one two or more ahead dropped. An ACK releases the segments
it names. An expired segment leaves again on ROUTE_B. A LOST segment, COLL_T or INST_T of an open instance sends LOST
on both routes, writes STATUS with LOST and ends it. The end of a straggler window moves CUR to PREV and clears CUR.
In every other case nothing changes but freed buffers. (R399, R400, R401, R402, R403, R404, R405, R406) -/
def Obligations.CollectivesRunByTheirRules : Prop :=
  (∀ (s : State) (i n : Nat), i < 16 →
    (s.coll i n = none → exec (.collInstanceStart i n) s = .next s) ∧
    (∀ c, s.coll i n = some c →
      let m := s.nextInst c
      let go := s.nicheState i = 3 ∧ s.triggered c m = true ∧ (m + 2 ^ 32 - s.oldest c) % 2 ^ 32 < 2 ∧
        fget noMark s.dieHalt (courtDie (s.relCourt i c.r.home)) = false
      (¬ go → exec (.collInstanceStart i n) s = .next s) ∧
      (go → 2 ≤ c.m → c.chain = false → s.inst c m = none →
        (c.reads = false ∨ c.r.elems = 0 ∨ s.hbmAdmits i false (hbmAddr c.r.src) (hbmAddr c.r.src + (c.r.elems * fmtBits c.r.fmt + 7) / 8) = true) →
        ∃ t y, exec (.collInstanceStart i n) s = .next t ∧ t.inst c m = some y ∧ y.started = true ∧ y.start = s.tick ∧ y.sent = [0] ∧ y.ended = false ∧
          y.unacked.map (fun u => (u.step, u.idx)) = (List.range (c.segs 0 (c.range (c.pos + 1) 0).2)).map (fun j => (0, j)) ∧
          t.nextInst c = (m + 1) % 2 ^ 32 ∧ t.cells = s.cells ∧ t.courts = s.courts ∧ t.hbm = s.hbm))) ∧
  (∀ (s : State) (l : Nat), LinkLive l s →
    let k := s.link l
    let freed := fun (p : Packet) (r : List Packet) => { k with
      inbox := r, freed := fset z0 k.freed p.vl ((fget z0 k.freed p.vl + packetCount p) % 64), held := fset z0 k.held p.vl (fget z0 k.held p.vl - packetCount p) }
    let only := fun (i : Instr) (p : Packet) (r : List Packet) => ∃ t, exec i s = .next t ∧ LinkIs l s t (freed p r)
    let first := fun (ty : Nat) (p : Packet) (r : List Packet) => takeFirst (isColl ty) k.inbox = some (p, r)
    (takeFirst (isColl 0) k.inbox = none → exec (.collSegment l) s = .next s) ∧ (takeFirst (isColl 1) k.inbox = none → exec (.collAck l) s = .next s) ∧
    (takeFirst (isColl 2) k.inbox = none → exec (.collLost l) s = .next s) ∧
    (∀ p r, first 0 p r → s.collOf p = none → only (.collSegment l) p r) ∧ (∀ p r, first 1 p r → s.collOf p = none → only (.collAck l) p r) ∧
    (∀ p r, first 2 p r → s.collOf p = none → only (.collLost l) p r) ∧
    (∀ p r c, s.collOf p = some c →
      let seq := pay p 12 4
      let step := pay p 11 1
      let idx := pay p 16 2
      let ahead := (seq + 2 ^ 32 - s.oldest c) % 2 ^ 32
      let acked := fun (t : State) => ∃ a, fget nil0 (t.link l).out 1 = fget nil0 k.out 1 ++ [a] ∧ a.mclass = 3 ∧ a.dst = p.src ∧ a.route = [l] ∧
        stype a = 1 ∧ pay a 8 2 = c.plan % 65536 ∧ pay a 11 1 = step ∧ pay a 12 4 = seq ∧ pay a 16 2 = idx ∧ pay a 24 8 = 1
      (first 0 p r → 2 ≤ ahead → ahead < 2 ^ 31 → only (.collSegment l) p r) ∧
      (first 0 p r → 2 ^ 31 ≤ ahead → ∃ t, exec (.collSegment l) s = .next t ∧ t = { s with links := t.links } ∧ acked t) ∧
      (∀ y, first 0 p r → ahead < 2 → s.inst c seq = some y → (step, idx) ∈ y.have' ∨ y.ended = true → ∃ t, exec (.collSegment l) s = .next t ∧
        t = { s with links := t.links } ∧ acked t) ∧
      (first 0 p r → ahead < 2 →
        let y := (s.inst c seq).getD { plan := c.plan, seq := seq }
        let n := fmtBits (c.moveFmt step)
        let e0 := pay p 24 8
        y.plan = c.plan → y.seq = seq → y.started = false → y.ended = false → (step, idx) ∉ y.have' →
        ∃ t z, exec (.collSegment l) s = .next t ∧ t = { s with links := t.links, niches := t.niches } ∧ acked t ∧ t.inst c seq = some z ∧
          z.have' = y.have' ++ [(step, idx)] ∧ z.sent = y.sent ∧ z.unacked = y.unacked ∧ z.maxT = max y.maxT (pay p 40 8) ∧
          (c.reduces = false → ∀ j < pay p 18 2, rawOf z (e0 + j) = some (bitsAt (p.payload.drop 64) n j)) ∧
          (c.partials step = true → ∀ j < pay p 18 2, fget acc0 z.acc (e0 + j) =
            (fget acc0 y.acc (e0 + j)).join (partialAt (p.payload.drop 64) p.info j))) ∧
      (∀ y, first 1 p r → s.inst c seq = some y → y.ended = false → ∃ t, exec (.collAck l) s = .next t ∧
        t = { s with links := t.links, niches := t.niches } ∧ t.link l = freed p r ∧ t.inst c seq = some { y with unacked := y.unacked.filter (fun u =>
          !(u.step == step && decide (idx ≤ u.idx ∧ u.idx < idx + 64) && bit (pay p 24 8) (u.idx - idx))) }) ∧
      (first 1 p r → s.inst c seq = none → only (.collAck l) p r) ∧
      (first 2 p r → 2 ≤ ahead → only (.collLost l) p r) ∧
      (first 2 p r → ahead < 2 → ((s.inst c seq).getD { plan := c.plan, seq := seq }).ended = false → ∃ t, exec (.collLost l) s = .next t ∧
        t.inst c seq = none ∧ ∃ x ∈ fget nil0 (t.link (bits c.r.routeB.toNat 6 0)).out 1, x.mclass = 3 ∧ stype x = 2 ∧ pay x 12 4 = seq))) ∧
  (∀ (s : State) (i n seq : Nat), i < 16 →
    let lost := fun (j : Instr) (c : Coll) => ∃ t, exec j s = .next t ∧ t.inst c seq = none ∧
      (∀ r ∈ [c.r.routeA, c.r.routeB], ∃ x ∈ fget nil0 (t.link (bits r.toNat 6 0)).out 1, x.mclass = 3 ∧ stype x = 2 ∧ pay x 12 4 = seq % 2 ^ 32) ∧
      (let a := hbmAddr c.r.status
       s.hbmAdmits i true a (a + 8) = true → s.hbmGood a 8 → memRead t.hbm a 4 / 2 ^ 24 = 1 ∧ memRead t.hbm (a + 4) 4 = seq % 2 ^ 32) ∧
      t.cells = s.cells
    (∀ step idx, s.coll i n = none → exec (.collRetxExpiry i n seq step idx) s = .next s ∧ exec (.collTExpiry i n seq) s = .next s ∧
      exec (.instTExpiry i n seq) s = .next s) ∧
    (∀ c, s.coll i n = some c →
      (∀ step idx, s.inst c seq = none → exec (.collRetxExpiry i n seq step idx) s = .next s ∧ exec (.collTExpiry i n seq) s = .next s ∧
        exec (.instTExpiry i n seq) s = .next s) ∧
      (∀ y, s.inst c seq = some y →
        (∀ step idx u, y.unacked.find? (fun u => u.step == step && u.idx == idx) = some u → u.pkt.vl = 1 → ∃ t, exec (.collRetxExpiry i n seq step idx) s = .next t ∧
          t = { s with links := t.links, events := t.events, pkgRegs := t.pkgRegs } ∧
          let l := bits c.r.routeB.toNat 6 0
          t.link l = { s.link l with out := fset nil0 (s.link l).out 1 (fget nil0 (s.link l).out 1 ++ [reroute u.pkt c.r.routeB]) } ∧
          ∀ m, m ≠ l → t.link m = s.link m) ∧
        (∀ step idx, (∀ u ∈ y.unacked, u.step ≠ step ∨ u.idx ≠ idx) → exec (.collRetxExpiry i n seq step idx) s = .next s) ∧
        (y.unacked = [] → exec (.collTExpiry i n seq) s = .next s) ∧
        (y.unacked ≠ [] → y.ended = false → lost (.collTExpiry i n seq) c) ∧
        (y.unacked ≠ [] → y.ended = true → ∃ t, exec (.collTExpiry i n seq) s = .next t ∧ t = { s with niches := t.niches } ∧ t.inst c seq = none) ∧
        (y.started = true → y.ended = false → lost (.instTExpiry i n seq) c) ∧
        (y.started = false ∨ y.ended = true → exec (.instTExpiry i n seq) s = .next s)))) ∧
  (∀ s : State, fget noMark s.dieHalt (3 * s.rd MGT_BOOT_STATUS_PRIMARY) = false → ∃ t, exec .stragglerWindowEnd s = .next t ∧
    t = { s with pkgRegs := t.pkgRegs } ∧ PkgSets [(TMB_STRAG_PREV0_INSTANCES, s.rd TMB_STRAG_CUR0_INSTANCES % 65536),
      (TMB_STRAG_PREV0_LAST_CNT, s.rd TMB_STRAG_CUR0_LAST_CNT % 65536), (TMB_STRAG_PREV0_LATE_MAX, s.rd TMB_STRAG_CUR0_LATE_MAX % 65536),
      (TMB_STRAG_PREV0_SPREAD_MAX, s.rd TMB_STRAG_CUR0_SPREAD_MAX % 65536), (TMB_STRAG_PREV1_LATE_SUM, s.rd TMB_STRAG_CUR1_LATE_SUM % 2 ^ 64),
      (TMB_STRAG_CUR0_INSTANCES, 0), (TMB_STRAG_CUR0_LAST_CNT, 0), (TMB_STRAG_CUR0_LATE_MAX, 0), (TMB_STRAG_CUR0_SPREAD_MAX, 0),
      (TMB_STRAG_CUR1_LATE_SUM, 0)] s t)

/-- O16. The oldest record of a cell, a court or a die's other units becomes the entry at HEAD with its tick, code, place,
detail and the next SEQ; HEAD moves on, COUNT grows to 1,024 and OVERWRITTEN from then on; no other entry differs, and
with no record nothing changes. With nothing due before, a poison consumption of a niche makes its reset due, a
SHARED_UE without package scope the die's, and the context watchdog's fault the context's. The context watchdog faults
a context that it has watched for its time, the niche watchdog logs such a running niche and makes its reset due, the
Atelier watchdog the die's; before their time they change nothing. A due step gives way to the next once its bound has
passed, and not before. (R437, R438, R440, R454, R455, R456, R486, R489, R491) -/
def Obligations.FaultLogKeepsRecordsAndStartsResets : Prop :=
  (∀ (s : State) (src n d : Nat) (r : FaultRec) (rs : List FaultRec),
    (src = 0 ∧ n < cellCount ∧ (s.cell n).faults = r :: rs ∧ d = cellDie n ∨ src = 1 ∧ n < 144 ∧ (s.court n).faults = r :: rs ∧ d = courtDie n ∨
      src = 2 ∧ n < 4 ∧ fget nil0 s.events n = r :: rs ∧ d = n) →
    let h := s.dieRd d INT_FLOG_STATUS_HEAD
    let cnt := s.dieRd d INT_FLOG_STATUS_COUNT
    let seq := fget z0 s.flogSeq d
    let e := flogEntry r seq
    h < 1024 → cnt ≤ 1024 → ∃ t, exec (.faultLogEntry src n) s = .next t ∧
      t = { s with cells := t.cells, courts := t.courts, events := t.events, flog := t.flog, flogSeq := t.flogSeq, dieRegs := t.dieRegs
                   irq := t.irq, resets := t.resets, pkgRegs := t.pkgRegs } ∧
      (src = 0 → t.cell n = { s.cell n with faults := rs }) ∧ (src ≠ 0 → t.cells = s.cells) ∧ (∀ m, m ≠ n → t.cell m = s.cell m) ∧
      (src = 1 → t.court n = { s.court n with faults := rs }) ∧ (src ≠ 1 → t.courts = s.courts) ∧
      (src = 2 → fget nil0 t.events n = rs) ∧ (src ≠ 2 → t.events = s.events) ∧
      (∀ k, fget flog0 t.flog k = if k = 1024 * d + h then e else fget flog0 s.flog k) ∧ fget z0 t.flogSeq d = (seq + 1) % 2 ^ 32 ∧
      t.dieRd d INT_FLOG_STATUS_HEAD = (h + 1) % 1024 ∧ t.dieRd d INT_FLOG_STATUS_COUNT = min (cnt + 1) 1024 ∧
      (cnt = 1024 → t.dieRd d INT_FLOG_STATUS_OVERWRITTEN = min (s.dieRd d INT_FLOG_STATUS_OVERWRITTEN + 1) (2 ^ 32 - 1)) ∧
      (let v := e.toNat
       v % 2 ^ 64 = r.tick % 2 ^ 64 ∧ v / 2 ^ 64 % 256 = r.code % 256 ∧ v / 2 ^ 72 % 256 = r.space % 256 ∧ v / 2 ^ 88 % 256 = r.kind % 256 ∧
       v / 2 ^ 96 % 65536 = r.index % 65536 ∧ v / 2 ^ 128 % 65536 = r.detail % 65536 ∧ v / 2 ^ 160 % 2 ^ 64 = r.addr % 2 ^ 64 ∧ v / 2 ^ 224 = seq % 2 ^ 32) ∧
      (s.resets = [] → let one := fun (level unit : Nat) => ∃ q, t.resets = [q] ∧ q.level = level ∧ q.unit = unit
        (∀ i, r.poisonUse = true → r.niche = some i → one 3 i) ∧
        (r.poisonUse = false → r.space = 0 → r.code = 0xE5 → r.detail % 16 ≠ 4 → d ≠ 0 → one 4 d) ∧
        (src = 0 → r.poisonUse = false → r.space = 0 → r.code = 0x0B → r.ctxValid = true → s.repeated r.unit r.ctx = none → one 1 (4 * r.unit + r.ctx)) ∧
        (src ≠ 0 → r.poisonUse = false → r.space ≠ 0 → r.space ≠ 3 → t.resets = []))) ∧
  (∀ (s : State) (n : Nat), (n < cellCount → (s.cell n).faults = [] → exec (.faultLogEntry 0 n) s = .next s) ∧
    (n < 144 → (s.court n).faults = [] → exec (.faultLogEntry 1 n) s = .next s) ∧
    (n < 4 → fget nil0 s.events n = [] → exec (.faultLogEntry 2 n) s = .next s)) ∧
  (∀ (s : State) (x : CtxRef), x.ctx < 4 → x.cell < cellCount → s.powered x.cell = true →
    let go := s.dieRd (cellDie x.cell) RST_WD_CFG_CWD_EXP ≠ 0 ∧ (s.ctxOf x).watched = true ∧
      2 ^ s.dieRd (cellDie x.cell) RST_WD_CFG_CWD_EXP ≤ (s.ctxOf x).watch
    (¬ go → exec (.contextWatchdog x) s = .next s) ∧
    (go → ∃ t r, exec (.contextWatchdog x) s = .next t ∧ OnlyCell x.cell s t ∧ (t.ctxOf x) = { s.ctxOf x with state := .faulted, wait := .none, watch := 0 } ∧
      (t.cell x.cell).faults = (s.cell x.cell).faults ++ [r] ∧ r.code = 0x0B ∧ r.ctx = x.ctx ∧ r.ctxValid = true ∧
      ∀ k < 4, k ≠ x.ctx → (t.cell x.cell).ctx k = (s.cell x.cell).ctx k)) ∧
  (∀ (s : State) (i : Nat), i < 16 →
    let go := s.dieRd 0 RST_WD_CFG_NWD_EXP ≠ 0 ∧ s.nicheWatched i = true ∧ 2 ^ s.dieRd 0 RST_WD_CFG_NWD_EXP ≤ (s.niche i).hang
    (¬ go → exec (.nicheWatchdog i) s = .next s) ∧
    (go → s.resets = [] → ∃ t q, exec (.nicheWatchdog i) s = .next t ∧ t.resets = [q] ∧ q.level = 3 ∧ q.unit = i ∧ q.trigger = 1 ∧
      t.rd RST_STATUS_ESCALATING = 1 ∧ (t.niche i).hang = 0 ∧ t.cells = s.cells ∧ t.courts = s.courts ∧ fget z0 t.flogSeq 0 = (fget z0 s.flogSeq 0 + 1) % 2 ^ 32)) ∧
  (∀ (s : State) (d : Nat), d < 4 →
    (fget z0 s.mgmt.fwState d ≠ 4 → s.resets = [] → ∃ t q, exec (.atelierWatchdog d) s = .next t ∧ t = { s with resets := [q], pkgRegs := t.pkgRegs } ∧
      PkgSets [(RST_STATUS_ESCALATING, 1)] s t ∧ q.level = (if d = 0 then 5 else 4) ∧ q.unit = d) ∧
    (fget z0 s.mgmt.fwState d = 4 → ∃ t, exec (.atelierWatchdog d) s = .next t ∧ fget z0 t.mgmt.fwState d = 6 ∧
      fget z0 t.mgmt.fwRuns d = fget z0 s.mgmt.fwSlot d ∧ t.rd MGT_ALERT_FW_FAILED = 1 ∧ t.resets = s.resets)) ∧
  (∀ (s : State) (level unit : Nat),
    ((∀ r ∈ s.resets, r.level ≠ level ∨ r.unit ≠ unit) → exec (.escalationTimeout level unit) s = .next s) ∧
    (∀ r, s.resets = [r] → r.level = level → r.unit = unit → (∀ b, s.stepBound level = some b → s.tick ≤ r.since + b) →
      exec (.escalationTimeout level unit) s = .next s) ∧
    (∀ r b, s.resets = [r] → r.level = level → r.unit = unit → s.stepBound level = some b → r.since + b < s.tick →
      let goes := fun (l u : Nat) => ∃ t q, exec (.escalationTimeout level unit) s = .next t ∧ t.resets = [q] ∧ q.level = l ∧ q.unit = u ∧ q.seq = r.seq ∧
        q.trigger = 2 ∧ t.cells = s.cells
      (level = 1 → goes 2 (unit / 4)) ∧ (∀ i, level = 2 → s.nicheAt (cellCourt unit) = some i → goes 3 i) ∧ (level = 4 → goes 5 0) ∧ (level = 5 → goes 6 0)))

/-- O17. At the origin of a slab that compares checksums, a passed checkpoint is noted by every member as the last; a
failed one keeps the comparisons in the verdict cell, logs CHECKSUM_MISMATCH and leaves the origin's context waiting.
An arbitration of the failed comparisons counts its outcome, ends the wait and, for a member or a checker at fault,
decides those cells at fault, so that they are fenced. Without such a slab, with the wait on at a checkpoint or off at
an arbitration, nothing changes. (R443, R447, R449, R451, R452, R453) -/
def Obligations.CheckpointsAndArbitrationDecide : Prop :=
  ∀ (s : State) (n : Nat), n < cellCount → s.powered n = true →
    let c := s.cell n
    (s.ckSlab n = none → ∀ b fs outs, exec (.checkpointResult n b fs) s = .next s ∧ exec (.arbitration n outs) s = .next s) ∧
    (∀ op l, s.ckSlab n = some (op, l) →
      let placed := fun (fs : List (Nat × Nat × Nat)) => ∀ f ∈ fs, l.cells.any (fun p => p.1 == f.1 && p.2.1 == f.2.1) || l.member f.1 f.2.1
      (∀ b fs, c.arbWait = true ∨ ¬ placed fs → exec (.checkpointResult n b fs) s = .next s) ∧
      (∀ b, c.arbWait = false → ∃ t, exec (.checkpointResult n b []) s = .next t ∧ t = { s with cells := t.cells } ∧
        (∀ m ∈ l.nums, (t.cell m).rd INT_CK_STATE_LAST_CKPT = b % 4096 ∧ (t.cell m).rd INT_CK_STATE_HIST_VALID = 1 ∧ (t.cell m).hist = (s.cell m).acc ∧
          (t.cell m).acc = (s.cell m).acc) ∧ ∀ m, m ∉ l.nums → t.cell m = s.cell m) ∧
      (∀ b f fs, c.arbWait = false → placed (f :: fs) → ∃ t r, exec (.checkpointResult n b (f :: fs)) s = .next t ∧ t = { s with cells := t.cells } ∧
        (t.cell n).arbWait = true ∧ (t.cell n).rd CELL_MAC_STATUS_VERDICT_WAIT = 1 ∧ (t.cell l.verdictCell).ckFails = f :: fs ∧
        (t.cell n).faults = c.faults ++ [r] ∧ r.code = 0x69 ∧ r.detail = slabDetail f.1 f.2.1 ∧ r.ctx = op.ctx) ∧
      (∀ outs, c.arbWait = false → exec (.arbitration n outs) s = .next s) ∧
      (∀ outs, let fails := (s.cell l.verdictCell).ckFails
        (arbWalk (s.arbCut l) l fails 0 (suspects l fails) outs = none → exec (.arbitration n outs) s = .next s) ∧
        (∀ r, c.arbWait = true → arbWalk (s.arbCut l) l fails 0 (suspects l fails) outs = some r → ∃ t, exec (.arbitration n outs) s = .next t ∧
          (t.cell n).arbWait = false ∧ (t.cell n).rd CELL_MAC_STATUS_VERDICT_WAIT = 0 ∧ t.courts = s.courts ∧ t.hbm = s.hbm ∧
          (let up := fun (f : Fld) => min (s.rd f + 1) 4095
           (r.outcome = 1 → t.rd INT_PKG_STATUS_CHECKER = up INT_PKG_STATUS_CHECKER) ∧ (r.outcome = 2 → t.rd INT_PKG_STATUS_MEMBER = up INT_PKG_STATUS_MEMBER) ∧
           (r.outcome = 3 → t.rd INT_PKG_STATUS_DISPUTES = up INT_PKG_STATUS_DISPUTES ∧ t.rd INT_PKG_STATUS_SUSPECT = 1) ∧
           (r.outcome = 4 ∨ r.outcome = 5 → t.rd INT_PKG_STATUS_UNPLACED = up INT_PKG_STATUS_UNPLACED)) ∧
          (r.outcome = 1 ∨ r.outcome = 2 → s.flaws.length + r.cells.length < 2048 → ∀ p ∈ r.cells, t.cellFenced (l.at p.1 p.2) = true) ∧
          (3 ≤ r.outcome → t.flaws = s.flaws))))

/-- O18. HEAL of a decided cell: a spare position is only remapped; in a row of no niche every cell from it on moves east
and the row map names the failed column; in a niche the niche pauses, its cells ISOLATED and frozen. HEAL_SHIFT of a
paused niche remaps the row, counts the heal with its pause and releases the generator. RELOCATE moves a paused
niche's anchor to its reserve with its plinth data, or makes its reset due where there is none. A rasp pass of a
position in the order of R476 starts context 3 of the cell under test at PC 0 with its step and count; a confirmation
test confirms the entry or counts an unexplained error. In every other case nothing changes. (R462, R464, R466, R470,
R475, R476, R477, R481) -/
def Obligations.HealingMovesWorkAroundFencedCells : Prop :=
  (∀ (s : State) (n : Nat), n < cellCount → s.powered n = true →
    let q := cellCourt n
    let r := cellRow n
    (n ∉ s.decided → exec (.heal n) s = .next s) ∧
    (n ∈ s.decided → (s.logical n).isSome = false → ∃ t, exec (.heal n) s = .next t ∧ n ∉ t.decided ∧ t.cells = s.cells ∧ t.niches = s.niches ∧
      (s.fence q r = 15 → t.fence q r = cellCol n) ∧ ∀ p, p ≠ q → t.court p = s.court p) ∧
    (n ∈ s.decided → (s.logical n).isSome = true → s.fence q r = 15 → s.nicheAt q = none → ∃ t, exec (.heal n) s = .next t ∧ n ∉ t.decided ∧
      t.fence q r = cellCol n ∧ t.niches = s.niches ∧ (∀ m, n ≤ m → cellCourt m = q → cellRow m = r → cellCol m < 8 → (t.cell (m + 1)).spd = (s.cell m).spd) ∧
      (∀ m, m < n ∨ n + 9 ≤ m → t.cell m = s.cell m) ∧ ∀ p, p ≠ q → t.court p = s.court p) ∧
    (∀ i, n ∈ s.decided → (s.logical n).isSome = true → s.fence q r = 15 → s.nicheAt q = some i → s.rd (RES_HEAL_STATUS_STEP.by8 i) ≠ 7 → i < 16 →
      (∀ m ∈ (s.niche i).heal, cellCourt m ≠ q ∨ cellRow m ≠ r) → ∃ t, exec (.heal n) s = .next t ∧
      t.rd (RES_HEAL_STATUS_STEP.by8 i) = 2 ∧ (t.niche i).heal = (s.niche i).heal ++ [n] ∧ (t.niche i).held = true ∧ (t.niche i).healAt = s.cycle ∧
      (∀ m ∈ s.nicheCells i, (t.cell m).flag CELL_CTRL_ISOLATE = true ∧ (t.cell m).flag CELL_CTRL_FREEZE = true) ∧
      ((∀ m ∈ s.healUnits i, (s.cell m).rasp = false) → t.courts = s.courts) ∧
      ∀ j, j ≠ i → t.niche j = s.niche j) ∧
    (∀ i, n ∈ s.decided → (s.logical n).isSome = true → s.fence q r = 15 → s.nicheAt q = some i → s.rd (RES_HEAL_STATUS_STEP.by8 i) = 7 →
      exec (.heal n) s = .next s) ∧
    (∀ pass, (∀ f ∈ s.flaws, f.kind ≠ 1 ∨ f.cause ≠ 1 ∨ f.loc ≠ n ∨ f.confirmed = true) → exec (.confirmationTest n pass) s = .next s) ∧
    ((∃ f ∈ s.flaws, f.kind = 1 ∧ f.cause = 1 ∧ f.loc = n ∧ f.confirmed = false) →
      (∃ t, exec (.confirmationTest n false) s = .next t ∧ t = { s with flaws := t.flaws } ∧
        t.flaws = s.flaws.map (fun f => if f.kind = 1 ∧ f.loc = n then { f with confirmed := true } else f)) ∧
      (∃ t, exec (.confirmationTest n true) s = .next t ∧ (n, s.tick) ∈ t.unexplained ∧ t.flaws = s.flaws ∧
        t.rd RES_PKG_STATUS_UNEXPLAINED_24H = min t.unexplained.length 255 ∧ (3 ≤ t.unexplained.length → t.rd RES_PKG_STATUS_REPLACE ≠ 0)))) ∧
  (∀ (s : State) (i : Nat), i < 16 →
    let f := RES_HEAL_STATUS_STEP.by8 i
    (s.rd f ≠ 2 ∨ s.paused i = false → exec (.healShift i) s = .next s) ∧
    (s.rd f ≠ 7 ∨ s.paused i = false → exec (.relocate i) s = .next s) ∧
    (s.rd f = 2 → s.paused i = true → ∃ t, exec (.healShift i) s = .next t ∧ t.rd f = 0 ∧ (t.niche i).heal = [] ∧ (t.niche i).held = false ∧
      t.rd (RES_HEAL_STATUS_HEALS.by8 i) = min (s.rd (RES_HEAL_STATUS_HEALS.by8 i) + 1) 65535 ∧
      t.rd (RES_HEAL_STATUS_LAST_PAUSE.by8 i) = min (s.cycle - (s.niche i).healAt) (2 ^ 32 - 1) ∧
      (∀ n, (s.niche i).heal = [n] → s.fence (cellCourt n) (cellRow n) = 15 → t.fence (cellCourt n) (cellRow n) = cellCol n) ∧
      (∃ x d, x ∈ fget nil0 t.events d ∧ x.code = 2 ∧ x.space = 3 ∧ x.niche = some i)) ∧
    (s.rd f = 7 → s.paused i = true → s.reserve i = none → s.resets = [] → ∃ t x, exec (.relocate i) s = .next t ∧
      t = { s with resets := [x], pkgRegs := t.pkgRegs } ∧ x.level = 3 ∧ x.unit = i ∧ PkgSets [(RST_STATUS_ESCALATING, 1)] s t) ∧
    (∀ ax ay, s.rd f = 7 → s.paused i = true → s.reserve i = some (ax, ay) → ∃ t, exec (.relocate i) s = .next t ∧ t.rd f = 0 ∧
      t.rd (NCH_CFG_AX.niche i) = ax ∧ t.rd (NCH_CFG_AY.niche i) = ay ∧ (t.niche i).held = false ∧ t.nicheState i = s.nicheState i ∧
      ((s.niche i).cast = none → (∀ q ∈ s.nicheCourts i, fget noMark s.regions (courtRegion q) = true) → ∀ q ∈ s.nicheCourts i, q < 144 →
        (t.court (q + 12 * ay + ax - (12 * s.rd (NCH_CFG_AY.niche i) + s.rd (NCH_CFG_AX.niche i)))).plinth = (s.court q).plinth))) ∧
  (∀ (s : State) (q k : Nat), CourtLive q s →
    let n := s.raspCell q
    let c := s.court q
    let step := c.rd RES_RASP_CTRL_STEP
    (s.raspOrder q).contains (c.rd RES_RASP_CTRL_CELL) = true →
    (c.rd RES_RASP_CTRL_ENABLE = 0 ∨ (s.cell n).rasp = true ∨ s.fused n = true → exec (.raspPassStart q k) s = .next s) ∧
    (c.rd RES_RASP_CTRL_ENABLE = 1 → (s.cell n).rasp = false → s.fused n = false → ∃ t, exec (.raspPassStart q k) s = .next t ∧
      t = { s with cells := t.cells, courts := t.courts } ∧ (∀ m, m ≠ n → t.cell m = s.cell m) ∧ (∀ p, p ≠ q → t.court p = s.court p) ∧
      (let y := (t.cell n).ctx 3
       y.pc = 0 ∧ y.state = .ready ∧ (y.sReg 0).v = BitVec.ofNat 32 step ∧ (y.sReg 1).v = BitVec.ofNat 32 (t.cell n).raspSteps) ∧
      (t.cell n).rasp = true ∧ (t.cell n).rd (CTX_CONFIG_RESTORER.ctx 3) = 1 ∧ (t.cell n).spd = (s.cell n).spd ∧ (t.cell n).raspSteps ≤ k ∧
      (step = 0 → (t.court q).rd RES_RASP_SIG_SIG = 0 ∧ (k ≤ 2048 → (t.cell n).raspSteps = k)) ∧
      ∀ j < 3, (t.cell n).ctx j = (s.cell n).ctx j))

/-- O19. A cell reset clears the cell's receive buffers, MAC entries and cell-domain registers and keeps its scratchpad,
instruction and route stores. A due die reset in service clears the die's log, scratchpads and link states and keeps
plinths and HBM. A due package reset that nothing holds stops all dies and leaves bring-up at FUSES with every niche,
ring, queue and link gone and HBM kept; the third within an hour makes a power cycle due, which raises PWR_CYCLE.
Requests make their level due, die 0's at package level; SYS_RST# halts every die. A crash cast before a due reset, of
which a die still has clocks, records its cells or is abandoned as INCOMPLETE. With nothing due nothing changes. (R70,
R487, R488, R489, R491, R495, R496, R497, R500, R577) -/
def Obligations.ResetsReachTheirUnits : Prop :=
  (∀ (s : State) (n : Nat), n < cellCount → s.powered n = true → s.resets = [] → s.crashFrozen = [] → s.nicheAt (cellCourt n) = none →
    ∃ t, exec (.cellReset n) s = .next t ∧
      (let c := s.cell n
       let d := t.cell n
       d.spd = c.spd ∧ d.istore = c.istore ∧ d.routes = c.routes ∧ d.acc = [] ∧ d.recvReq = [] ∧ d.recvRsp = [] ∧ d.macOp = none ∧ d.ports = [] ∧
       d.rasp = false ∧ d.rd CELL_FAULT_REC_VALID = 0 ∧ ∀ k < 4, (d.ctx k).wait = .none ∧ ((d.ctx k).state = .halted ∨ (d.ctx k).state = .off)) ∧
      t.rd RST_STATUS_LAST_LEVEL = 2 ∧ t.rd RST_CAUSE_LEVEL = 2 ∧ t.rd RST_CAUSE_TRIGGER = 3 ∧ ((s.cell n).rasp = false → t.courts = s.courts) ∧ t.hbm = s.hbm ∧ t.niches = s.niches) ∧
  (∀ (s : State) (d : Nat), d < 4 →
    ((∀ r ∈ s.resets, r.level ≠ 4 ∨ r.unit ≠ d) ∨ s.inService = false ∨ bit (s.rd MGT_BOOT_STATUS_DIE_OK) d = false → exec (.dieReset d) s = .next s) ∧
    (∀ r, s.resets = [r] → r.level = 4 → r.unit = d → s.inService = true → bit (s.rd MGT_BOOT_STATUS_DIE_OK) d = true → s.crashFrozen = [] →
      ∃ t, exec (.dieReset d) s = .next t ∧ t.resets = [] ∧ t.rd RST_STATUS_LAST_LEVEL = 4 ∧ t.rd RST_CAUSE_LEVEL = 4 ∧
        t.rd RST_STATUS_DIE_CNT = min (s.rd RST_STATUS_DIE_CNT + 1) 65535 ∧ t.hbm = s.hbm ∧
        (∀ k < 1024, fget flog0 t.flog (1024 * d + k) = 0) ∧ (∀ k, k / 1024 ≠ d → fget flog0 t.flog k = fget flog0 s.flog k) ∧
        (∀ n, cellDie n = d → (t.cell n).spd = [] ∧ (t.cell n).istore = [] ∧ (t.cell n).acc = []) ∧
        (∀ q, (t.court q).plinth = (s.court q).plinth) ∧
        ((∀ i < 16, s.nicheState i = 0) → (∀ f ∈ s.flaws, f.kind ≤ 1) → (∀ n, cellDie n ≠ d → t.cell n = s.cell n) ∧ ∀ q, courtDie q ≠ d → t.court q = s.court q))) ∧
  (∀ s : State, (s.resets = [] ∨ s.resetHeld = true → exec .packageReset s = .next s) ∧
    (∀ r, s.resets = [r] → r.level = 5 → s.resetHeld = false → ∃ t, exec .packageReset s = .next t ∧
      (∀ d < 4, fget noMark t.dieHalt d = true) ∧ t.rd MGT_BOOT_STATUS_STATE = 1 ∧ t.rd RST_STATUS_DIE_BUSY = 15 ∧ t.hbm = s.hbm ∧ t.niches = [] ∧
      t.rings = [] ∧ t.hostQs = [] ∧ t.flights = [] ∧ (∀ i < 16, t.nicheState i = 0) ∧ (∀ l, (t.link l).rx = [] ∧ (t.link l).retry = []) ∧
      (∀ n, (cellDie n < 4 → (t.cell n).spd = [])) ∧ t.tick = s.tick ∧
      (let ts := s.pkgResets.filter (fun k => decide (s.tick < k + 3240000000000)) ++ [s.tick]
       t.pkgResets = ts ∧ (ts.length < 3 → t.resets = []) ∧ (3 ≤ ts.length → ∃ x, t.resets = [x] ∧ x.level = 6 ∧ x.trigger = 8)))) ∧
  (∀ s : State, ((∀ r ∈ s.resets, r.level ≠ 6) → exec .powerCycle s = .next s) ∧
    (∀ r, s.resets = [r] → r.level = 6 → ∃ t, exec .powerCycle s = .next t ∧ t.resets = [] ∧ t.rd MGT_ALERT_PWR_CYCLE = 1 ∧ t.mgmt.cycleReq = true ∧
      t.rd RST_STATUS_LAST_LEVEL = 6 ∧ t.hbm = s.hbm ∧
      (s.rd PWR_STATUS_NV_OK = 0 → t.mgmt.nv = s.mgmt.nv) ∧ (s.rd PWR_STATUS_NV_OK = 1 → t.mgmt.nv.length = s.mgmt.nv.length + 1)) ∧
    (s.mgmt.sysRst = true → exec .sysRstAssert s = .next s) ∧
    (s.mgmt.sysRst = false → ∃ t, exec .sysRstAssert s = .next t ∧ t.mgmt.sysRst = true ∧ (∀ d < 4, fget noMark t.dieHalt d = true) ∧
      t.rd MGT_BOOT_STATUS_STATE = 0 ∧ t.hbm = s.hbm ∧ t.niches = []) ∧
    (s.resets = [] →
      let asks := fun (i : Instr) (level unit : Nat) => ∃ t x, exec i s = .next t ∧ t = { s with resets := [x], pkgRegs := t.pkgRegs } ∧
        PkgSets [(RST_STATUS_ESCALATING, 1)] s t ∧ x.level = level ∧ x.unit = unit ∧ x.trigger = 3
      exec (.dieResetReq 0) s = .next s ∧ asks (.dieResetReq 1) 5 0 ∧ asks (.dieResetReq 2) 4 1 ∧ asks (.dieResetReq 4) 4 2 ∧ asks (.dieResetReq 8) 4 3 ∧
      (∃ t, exec (.dieResetReq 14) s = .next t ∧ t.resets.map (fun x => (x.level, x.unit)) = [(4, 1), (4, 2), (4, 3)]) ∧
      asks .pkgResetReq 5 0 ∧ asks .pwrcycReq 6 0)) ∧
  (∀ (s : State) (level unit k : Nat),
    ((∀ r ∈ s.resets, r.level ≠ level ∨ r.unit ≠ unit) ∨ level < 2 ∨ 5 < level → exec (.crashCast level unit k) s = .next s) ∧
    (s.crashOpen = false → exec .crashCastAbandon s = .next s) ∧
    (s.crashOpen = true → ∃ t, exec .crashCastAbandon s = .next t ∧ t.crashOpen = false ∧ t.rd RST_CRASH_INCOMPLETE = 1 ∧ t.resets = s.resets ∧
      SameBytes (s.crashBase + 64 * (s.crashSeq % 256)) 64 s.hbm t.hbm) ∧
    (∀ r, s.resets = [r] → (∀ d ∈ s.castDies r, fget noMark s.dieHalt d = true) → exec (.crashCast level unit k) s = .next s) ∧
    (∀ r, s.resets = [r] → r.level = level → r.unit = unit → 2 ≤ level → level ≤ 5 → (∃ d ∈ s.castDies r, fget noMark s.dieHalt d = false) → ∃ t, exec (.crashCast level unit k) s = .next t ∧
      t.resets = [r] ∧ t.crashSeq = s.crashSeq + 1 ∧ t.rd RST_CRASH_CRASH_SEQ = (s.crashSeq + 1) % 2 ^ 32 ∧ t.rd RST_CRASH_INCOMPLETE = 0 ∧
      (let ns := s.crashCells r
       (∀ n ∈ ns, (t.cell n).frozen = true ∧ ((s.cell n).rasp = false → (t.cell n).spd = (s.cell n).spd)) ∧ t.rd RST_CRASH_CELLS = min k ns.length % 2 ^ 14 ∧
       (ns.length ≤ k → t.crashOpen = false ∧ t.rd RST_CRASH_NEW = 1 ∧ t.rd MGT_ALERT_CRASH = 1) ∧ (k < ns.length → t.crashOpen = true))))

/-- O20. SYS_RST_DEASSERT while SYS_RST# is asserted latches the straps, sets PWR_GOOD and leaves RESET where rails and
clock are there; otherwise it changes nothing. The fuses of the first bring-up stand for every later one (log entry
143, the model's choice of how they are represented). BRINGUP out of its states, or with SYS_RST#, a trip or no clock,
changes nothing; with STRAP_BOOT TEST it stays in BOOT, with RECOVERY or a bad variant it ends in DIAG; with all four
dies well it ends in SERVICE at the profile of TARGET with the dies of its list running, in FULL where nothing is
missing, and a first bring-up leaves HBM zero below the reserved ranges. BOOT_TAKEOVER before SERVICE makes die 3
primary. (R501, R502, R503, R505, R507, R511, R514, R516, R517) -/
def Obligations.BringupReachesServiceOrDiag : Prop :=
  (∀ (s : State) (b : Straps),
    (s.mgmt.sysRst = false ∨ s.mgmt.tripped = true → exec (.sysRstDeassert b) s = .next s) ∧
    (s.mgmt.sysRst = true → s.mgmt.tripped = false → b.slot < 64 → b.profile < 4 → b.boot < 4 → ∃ t, exec (.sysRstDeassert b) s = .next t ∧
      t.mgmt.sysRst = false ∧ t.mgmt.clockLost = !b.refclk ∧ t.rd MGT_STRAPS_BOOT = b.boot ∧ t.rd MGT_STRAPS_SLOT = b.slot ∧
      t.rd MGT_STRAPS_PROFILE = b.profile ∧ t.rd MGT_STRAPS_PROFILE_EFF = min b.profile 2 ∧ t.rd PWR_STATUS_TARGET = min b.profile 2 ∧ t.rd MGT_STRAPS_I3C_ADDR = 8 + b.slot ∧
      t.rd PWR_STATUS_PWR_GOOD = b2n b.pwrGood ∧ t.cells = s.cells ∧ t.hbm = s.hbm ∧
      (s.rd MGT_BOOT_STATUS_STATE = 0 → t.rd MGT_BOOT_STATUS_STATE = if b.pwrGood && b.refclk then 1 else 0))) ∧
  (∀ s : State, (s.rd MGT_BOOT_STATUS_STATE = 1 ∨ s.rd MGT_BOOT_STATUS_STATE = 2 → ∃ t, exec .bootTakeover s = .next t ∧
      t = { s with pkgRegs := t.pkgRegs } ∧ PkgSets [(MGT_BOOT_STATUS_PRIMARY, 1)] s t) ∧
    (s.rd MGT_BOOT_STATUS_STATE ≠ 1 → s.rd MGT_BOOT_STATUS_STATE ≠ 2 → exec .bootTakeover s = .next s)) ∧
  (∀ (s : State) (b : Boot),
    let st := s.rd MGT_BOOT_STATUS_STATE
    let may := 1 ≤ st ∧ st < 7 ∧ s.mgmt.sysRst = false ∧ s.mgmt.tripped = false ∧ s.mgmt.clockLost = false
    let well := b.railBad = [] ∧ b.avsBad = [] ∧ b.fuseBad = [] ∧ b.bootBad = [] ∧ b.pllBad = [] ∧ b.fuseCells = [] ∧ b.fuseCourts = [] ∧ b.fuseRest = []
    let told := s.mgmt.factory = none ∨ s.mgmt.factory = some (b.variants, b.fuseCells, b.fuseRest)
    (∀ f, s.mgmt.factory = some f → exec (.bringup b) s = exec (.bringup { b with variants := f.1, fuseCells := f.2.1, fuseRest := f.2.2 }) s) ∧
    (¬ may → exec (.bringup b) s = .next s) ∧
    (may → s.rd MGT_STRAPS_BOOT = 3 → ∃ t, exec (.bringup b) s = .next t ∧ t.rd MGT_BOOT_STATUS_STATE = 2 ∧ t.hbm = s.hbm ∧ t.cells = s.cells) ∧
    (may → s.rd MGT_STRAPS_BOOT = 2 → ∃ t, exec (.bringup b) s = .next t ∧ t.rd MGT_BOOT_STATUS_STATE = 8 ∧ t.rd MGT_BOOT_STATUS_SERVICE = 1 ∧
      t.rd MGT_BOOT_STATUS_IMAGE = 2 ∧ t.hbm = s.hbm) ∧
    (may → s.rd MGT_STRAPS_BOOT < 2 → told → bootMismatch b = true → ∃ t, exec (.bringup b) s = .next t ∧ t.rd MGT_BOOT_STATUS_STATE = 8 ∧
      t.rd MGT_BOOT_STATUS_SERVICE = 1 ∧ t.dieHalt = s.dieHalt ∧ t.hbm = s.hbm) ∧
    (∀ v, may → told → s.rd MGT_STRAPS_BOOT < 2 → s.rd MGT_BOOT_STATUS_PRIMARY = 0 → well → v = 1 ∨ v = 2 ∨ v = 3 → b.variants = [v, v, v, v] →
      b.hbmBad = [] → b.seamBad = [] → b.cellBad = [] → s.flaws = [] → b.rows = [] → (∀ q r, s.rowDegraded q r = false) → ∃ t, exec (.bringup b) s = .next t ∧
        t.rd MGT_BOOT_STATUS_STATE = 7 ∧ t.rd MGT_BOOT_STATUS_SERVICE = 3 ∧ t.rd MGT_BOOT_STATUS_DIE_OK = 15 ∧ t.rd MGT_BOOT_STATUS_VARIANT = v ∧ (t.small = true ↔ v = 2) ∧
        (t.lite = true ↔ v = 3) ∧ t.dieHalt = [] ∧ t.rd RST_STATUS_DIE_BUSY = 0 ∧ t.rd PWR_STATUS_PROFILE = s.rd PWR_STATUS_TARGET ∧
        t.mgmt.powerOn = false ∧ t.fuses = [] ∧ (∀ n < cellCount, (t.cell n).spd = [] ∧ (t.cell n).istore = []) ∧
        (s.mgmt.powerOn = true → ∀ a < 65536 * (t.hbmAlloc / 65536), memByte t.hbm a = 0)))

/-- O21. PWR_GOOD falling under PWR_CYCLE_REQ# or THERM_TRIP# is power removed: only the NV store and the fuses stay. A
brown-out and the loss of REFCLK halt every die and make a package reset due; an overvoltage halts them and raises
PWR_CYCLE. NV writes block and resume; a completed journal write takes the oldest record, an uncompleted or blocked
one nothing. A temperature event acts where a die has its temperature. THERM_HOT and a power above the cap ask for one
step down, THERM_COOL and a low average for one step up where one is owed; THERM_LIMIT stops frame starts until its
end; THERM_TRIP stops every clock. An accepted change waits for frames in progress, then the profile is in force, save
an upward one whose setpoint failed. (R538, R539, R540, R541, R542, R544, R574, R579, R585) -/
def Obligations.SuppliesClocksAndHeatAct : Prop :=
  (∀ s : State,
    let halted := fun (t : State) => ∀ d < 4, fget noMark t.dieHalt d = true
    let keeps := fun (t : State) => t.cells = s.cells ∧ t.courts = s.courts ∧ t.hbm = s.hbm ∧ t.niches = s.niches
    (s.mgmt.cycleReq = true ∨ s.mgmt.tripped = true → ∃ t, exec (.brownOut 0) s = .next t ∧ t.cells = [] ∧ t.courts = [] ∧ t.hbm = [] ∧ t.niches = [] ∧
      t.resets = [] ∧ t.pending = s.pending ∧ t.mgmt.nv = s.mgmt.nv ∧ t.mgmt.nvQueue = [] ∧ t.mgmt.sysRst = true ∧ t.mgmt.tripped = false ∧
      t.mgmt.factory = s.mgmt.factory ∧ t.flaws = s.flaws.filter (fun f => f.stored)) ∧
    (∀ rail ≤ 12, (rail = 0 → s.mgmt.cycleReq = false ∧ s.mgmt.tripped = false) → s.resets = [] → ∃ t x, exec (.brownOut rail) s = .next t ∧ halted t ∧ keeps t ∧ t.resets = [x] ∧ x.level = 5 ∧ x.trigger = 5 ∧
      (rail = 0 → t.rd PWR_STATUS_PWR_GOOD = 0) ∧ (1 ≤ rail → bit (t.rd PWR_STATUS_RAIL_BROWN) (rail - 1) = true) ∧
      (rail = 0 ∨ rail = 11 ∨ rail = 12 → t.rd PWR_STATUS_NV_OK = 0 ∧ t.rd MGT_ALERT_NV_BLOCKED = 1) ∧
      (1 ≤ rail → rail < 11 → t.rd PWR_STATUS_NV_OK = s.rd PWR_STATUS_NV_OK)) ∧
    (∀ rail, 1 ≤ rail → rail ≤ 12 → s.resets = [] → ∃ t, exec (.overvoltage rail) s = .next t ∧ halted t ∧ t.rd MGT_ALERT_SUPPLY_OV = 1 ∧
      t.rd MGT_ALERT_PWR_CYCLE = 1 ∧ bit (t.rd PWR_STATUS_RAIL_OV) (rail - 1) = true ∧ t.mgmt.nv = s.mgmt.nv ∧ t.resets = [] ∧ t.hbm = s.hbm) ∧
    (s.resets = [] → ∃ t x, exec .refclkLoss s = .next t ∧ halted t ∧ keeps t ∧ t.mgmt = { s.mgmt with clockLost := true } ∧ t.resets = [x] ∧ x.level = 5) ∧
    (∃ t, exec .nvWriteBlock s = .next t ∧ t = { s with pkgRegs := t.pkgRegs } ∧ PkgSets [(PWR_STATUS_NV_OK, 0), (MGT_ALERT_NV_BLOCKED, 1)] s t) ∧
    (∃ t, exec .nvWriteResume s = .next t ∧ t = { s with pkgRegs := t.pkgRegs } ∧ t.rd PWR_STATUS_NV_OK = 1 ∧ t.rd PWR_STATUS_PWR_GOOD = 1 ∧
      (s.rd MGT_BOOT_STATUS_STATE = 0 → s.mgmt.sysRst = false → s.mgmt.clockLost = false → t.rd MGT_BOOT_STATUS_STATE = 1) ∧
      (s.rd MGT_BOOT_STATUS_STATE ≠ 0 → t.rd MGT_BOOT_STATUS_STATE = s.rd MGT_BOOT_STATUS_STATE)) ∧
    exec (.nvJournalWrite false) s = .next s ∧ (s.rd PWR_STATUS_NV_OK = 0 → exec (.nvJournalWrite true) s = .next s) ∧
    (∀ r rs, s.rd PWR_STATUS_NV_OK = 1 → s.mgmt.nvQueue = r :: rs → exec (.nvJournalWrite true) s =
      .next { s with mgmt := { s.mgmt with nvQueue := rs, nv := s.mgmt.nv ++ [r], saved := s.mgmt.saved || (r.area == 0 && r.key == 0) } }) ∧
    (s.rd PWR_STATUS_NV_OK = 1 → s.mgmt.nvQueue = [] → (∀ f ∈ s.flaws, f.stored = true) → exec (.nvJournalWrite true) s = .next s) ∧
    (∀ f fs, s.rd PWR_STATUS_NV_OK = 1 → s.mgmt.nvQueue = [] → s.flaws = f :: fs → f.stored = false → ∃ t, exec (.nvJournalWrite true) s = .next t ∧
      t.flaws = { f with stored := true } :: fs ∧ t.mgmt.nv = s.mgmt.nv ++ [⟨1, 0, flawBytes f⟩])) ∧
  (∀ (s : State) (tj : List Nat), (∀ x ∈ tj, x < 65536) →
    let p := s.rd PWR_STATUS_PROFILE
    let told := fun (t : State) => t.rd PWR_THERM_TJ0 = tj.getD 0 0 ∧ t.rd PWR_THERM_TJ1 = tj.getD 1 0 ∧ t.rd PWR_THERM_TJ2 = tj.getD 2 0 ∧
      t.rd PWR_THERM_TJ3 = tj.getD 3 0 ∧ t.cells = s.cells ∧ t.courts = s.courts ∧ t.rd PWR_STATUS_PROFILE = p
    (∃ t, exec (.thermHot tj) s = .next t ∧ told t ∧ (tjReaches tj s.throttleC = false → t.mgmt = s.mgmt) ∧ (tjReaches tj s.throttleC = true → t.rd MGT_ALERT_THERM_HOT = 1 ∧ t.mgmt.thermWant = true ∧
      (p < 2 → s.mgmt.goal = none → s.profileRefused (p + 1) = none → t.mgmt.goal = some (p + 1) ∧ t.rd PWR_STATUS_CHANGING = 1) ∧
      (2 ≤ p ∨ s.mgmt.goal.isSome = true → t.mgmt.goal = s.mgmt.goal) ∧
      (p < 2 → s.mgmt.goal = none → s.profileRefused (p + 1) ≠ none → t.mgmt.goal = none ∧ ∃ x ∈ fget nil0 t.events 0, x.code = 0x20 ∧ x.space = 3))) ∧
    (∃ t, exec (.thermCool tj) s = .next t ∧ told t ∧ (s.mgmt.thermWant = false ∨ tjReaches tj (s.throttleC - 10 * 2 ^ 17) = true → t.mgmt = s.mgmt) ∧
      (s.mgmt.thermWant = true → tjReaches tj (s.throttleC - 10 * 2 ^ 17) = false → s.mgmt.goal = none → s.rd PWR_STATUS_TARGET < p → s.profileRefused (p - 1) = none → t.mgmt.goal = some (p - 1))) ∧
    (∃ t, exec (.thermLimit tj) s = .next t ∧ told t ∧ (tjReaches tj (100 * 2 ^ 17) = false → t.mgmt = s.mgmt) ∧
      (tjReaches tj (100 * 2 ^ 17) = true → t.rd MGT_ALERT_THERM_LIMIT = 1 ∧ t.mgmt = { s.mgmt with thermLimit := true } ∧ ∀ i, t.genOn i = false)) ∧
    (∃ t, exec (.thermLimitEnd tj) s = .next t ∧ told t ∧
      t.mgmt = if tjReaches tj (95 * 2 ^ 17) then s.mgmt else { s.mgmt with thermLimit := false }) ∧
    (∃ t, exec (.thermTrip tj) s = .next t ∧ told t ∧ (tjReaches tj (110 * 2 ^ 17) = false → t.mgmt = s.mgmt ∧ t.dieHalt = s.dieHalt) ∧
      (tjReaches tj (110 * 2 ^ 17) = true → t.rd MGT_ALERT_THERM_TRIP = 1 ∧ t.mgmt = { s.mgmt with tripped := true } ∧ ∀ d < 4, fget noMark t.dieHalt d = true))) ∧
  (∀ (s : State) (w : Nat) (low : Bool),
    let p := s.rd PWR_STATUS_PROFILE
    let cap := if s.obj 0x2022 0 = 0 then s.tdp p else s.obj 0x2022 0
    (cap < w → ∃ t, exec (.powerCapCheck w low) s = .next t ∧ t.rd PWR_STATUS_POWER_W = min w 65535 ∧ t.rd MGT_ALERT_POWER_CAP = 1 ∧ t.mgmt.capWant = true ∧
      (p < 2 → s.mgmt.goal = none → s.profileRefused (p + 1) = none → t.mgmt.goal = some (p + 1))) ∧
    (w ≤ cap → low = false ∨ s.mgmt.capWant = false ∨ 9 * cap < 10 * w → ∃ t, exec (.powerCapCheck w low) s = .next t ∧
      t = { s with pkgRegs := t.pkgRegs } ∧ PkgSets [(PWR_STATUS_POWER_W, min w 65535)] s t) ∧
    (w ≤ cap → low = true → s.mgmt.capWant = true → 10 * w ≤ 9 * cap → s.mgmt.goal = none → s.rd PWR_STATUS_TARGET < p → s.profileRefused (p - 1) = none →
      ∃ t, exec (.powerCapCheck w low) s = .next t ∧ t.mgmt.goal = some (p - 1))) ∧
  (∀ (s : State) (avs : List Nat),
    let p := s.rd PWR_STATUS_PROFILE
    (s.mgmt.goal = none → exec (.profileChange avs) s = .next s) ∧
    (∀ i < 16, s.nicheState i = 3 → s.frameMode i ≠ 0 → s.frameRuns i = true → exec (.profileChange avs) s = .next s) ∧
    (∀ g, s.mgmt.goal = some g → g < 3 → (∀ i < 16, s.nicheState i ≠ 3 ∨ s.frameMode i = 0 ∨ s.frameRuns i = false) → ∃ t, exec (.profileChange avs) s = .next t ∧
      t.mgmt = { s.mgmt with goal := none } ∧ t.rd PWR_STATUS_CHANGING = 0 ∧ t.cells = s.cells ∧
      (g < p → avs ≠ [] → t.rd PWR_STATUS_PROFILE = p) ∧
      (p ≤ g ∨ avs = [] → t.rd PWR_STATUS_PROFILE = g ∧ t.rd PWR_STATUS_THROTTLED = if s.rd PWR_STATUS_TARGET < g then 1 else 0)))

/-- O22. A ready LD whose address register is not poisoned and whose aligned address lies in the scratchpad, in a bank the
core may read, on words with good check bits, writes the little-endian bytes there to rd, zero- or sign-extended (a
double: the two words to rd and rd + 1), with the words' poison, and changes no memory; a poisoned address register
stops the context with POISON_CONSUMED. A ready ST under the same conditions completes: the bytes at the address read
as the low bytes of its register (a double: of the two registers), every byte outside reads as before, the word takes
the register's poison (a byte or half: merged with the word's), and beyond the scratchpad only the PC changes. (R24,
R91, R100, R177, R185, R188, R197) -/
def Obligations.LoadsAndStoresMoveTheirBytes : Prop :=
  ∀ (x : CtxRef) (s : State),
    let y := s.ctxOf x
    let w := s.wordOf x
    let c := s.cell x.cell
    let n := 2 ^ bits w 22 21
    let a := (y.aReg (fAa w)).v.toNat + fOff13 w * n
    let sound := (y.aReg (fAa w)).p = false ∧ a % n = 0 ∧ a + n ≤ spdBytes ∧ ownAdmits (c.ownState (abank a)) 0 = true ∧
      (∀ b < n, fget ecc0 c.spdEcc ((a + b) / 4) = .ok) ∧ NoReturn 1 x s
    (Ready .ld x s → ∃ t, exec (.ld x) s = .next t ∧
      ((y.aReg (fAa w)).p = true → (t.ctxOf x).state = .faulted ∧ (t.cell x.cell).spd = c.spd ∧
        ∃ r, (t.cell x.cell).faults = c.faults ++ [r] ∧ r.code = 0x09) ∧
      (sound →
        (n < 8 → Issued x s t c ((y.past 1).setS (fRd w)
          ⟨BitVec.ofNat 32 (if bit w 23 then wrap 32 (signed (8 * n) (memRead c.spd a n)) else memRead c.spd a n), c.wordP a⟩)) ∧
        (n = 8 → Issued x s t c (((y.past 1).setS (fRd w) ⟨BitVec.ofNat 32 (memRead c.spd a 4), c.wordP a⟩).setS (fRd w + 1)
          ⟨BitVec.ofNat 32 (memRead c.spd (a + 4) 4), c.wordP (a + 4)⟩)))) ∧
    (Ready .st x s → sound → ∃ t, exec (.st x) s = .next t ∧
      (let d := t.cell x.cell
       Issued x s t { c with spd := d.spd, spdPoison := d.spdPoison, spdEcc := d.spdEcc } (y.past 1) ∧
       SameBytes a n c.spd d.spd ∧ memRead d.spd a (min n 4) = (y.sReg (fRd w)).v.toNat % 256 ^ n ∧
       (n = 8 → memRead d.spd (a + 4) 4 = (y.sReg (fRd w + 1)).v.toNat ∧ d.wordP (a + 4) = (y.sReg (fRd w + 1)).p) ∧
       (4 ≤ n → d.wordP a = (y.sReg (fRd w)).p) ∧
       (n < 4 → d.wordP a = (c.wordP a || (y.sReg (fRd w)).p)) ∧
       ∀ b, b / 4 ≠ a / 4 → b / 4 ≠ (a + n - 1) / 4 → d.wordP b = c.wordP b))

/-- O23. A ready VMEM or TILE access whose address register is not poisoned, whose every transfer is admitted and whose
words have good check bits completes: a load writes each view to its v register, a store writes each register to its
view, in order, and nothing else changes. In row view a loaded register holds the 64 bytes of its line, and after a
store the line reads as the register and every byte outside it as before. (R101, R102, R177) -/
def Obligations.VectorAccessesMoveViews : Prop :=
  (∀ (x : CtxRef) (s : State), NoReturn 1 x s →
    let y := s.ctxOf x
    let w := s.wordOf x
    let c := s.cell x.cell
    let goes := fun a : Nat => c.spdCheck 1 (wordAligned w a) ((wordView w a).map (·.1)) = none ∧
      ∀ e ∈ wordView w a, fget ecc0 c.spdEcc (e.1 / 4) = .ok
    let a := (y.aReg (fAa w)).v.toNat + fOff13 w * 64
    let b := fun i : Nat => (y.aReg (bits w 16 14)).v.toNat + i * bits w 9 0 * 64
    let N := bits w 13 10 + 1
    (Ready .vmemLoad x s → (y.aReg (fAa w)).p = false → goes a → ∃ t, exec (.vmemLoad x) s = .next t ∧
      Issued x s t c ((y.past 1).setV (bits w 19 16) (c.viewLoad (wordView w a)).1)) ∧
    (Ready .vmemStore x s → (y.aReg (fAa w)).p = false → goes a → ∃ t, exec (.vmemStore x) s = .next t ∧
      Issued x s t (c.viewStore (y.vReg (bits w 19 16)) (wordView w a)) (y.past 1)) ∧
    (Ready .tileLoad x s → (y.aReg (bits w 16 14)).p = false → (∀ i < N, goes (b i)) → ∃ t, exec (.tileLoad x) s = .next t ∧
      Issued x s t c ((List.range N).foldl (fun z i => z.setV (bits w 20 17 + i) (c.viewLoad (wordView w (b i))).1) (y.past 1))) ∧
    (Ready .tileStore x s → (y.aReg (bits w 16 14)).p = false → (∀ i < N, goes (b i)) → ∃ t, exec (.tileStore x) s = .next t ∧
      Issued x s t ((List.range N).foldl (fun z i => z.viewStore (y.vReg (bits w 20 17 + i)) (wordView w (b i))) c) (y.past 1))) ∧
  (∀ (c : Cell) (a j : Nat), a % 64 = 0 → j < 16 → (∀ i < 16, fget ecc0 c.spdEcc (a / 4 + i) = .ok) →
    (c.viewLoad (viewMap false 0 a)).1.elem 32 j = memRead c.spd (a + 4 * j) 4 ∧
    ((c.viewLoad (viewMap false 0 a)).1.p.getLsbD j = c.wordP (a + 4 * j))) ∧
  (∀ (c : Cell) (r : VR) (a : Nat), a % 64 = 0 →
    SameBytes a 64 c.spd (c.viewStore r (viewMap false 0 a)).spd ∧
    ∀ j < 16, memRead (c.viewStore r (viewMap false 0 a)).spd (a + 4 * j) 4 = r.elem 32 j)

/-- O24. A ready AADD or ASWAP whose address register is not poisoned and whose aligned address is admitted, on words with
good check bits, completes: rd takes the old value with its poison, the address takes the wrapped sum or the operand,
every byte outside it reads as before and only the PC changes beside. (R103, R186) -/
def Obligations.AtomicsReturnTheOldWord : Prop :=
  ∀ (x : CtxRef) (s : State) (add : Bool), Ready (if add then .aadd else .aswap) x s → NoReturn 1 x s →
    let y := s.ctxOf x
    let w := s.wordOf x
    let c := s.cell x.cell
    let n := if minor w % 2 = 1 then 8 else 4
    let a := (y.aReg (bits w 10 8)).v.toNat + bits w 7 0 * n
    (y.aReg (bits w 10 8)).p = false → a % n = 0 → a + n ≤ spdBytes → ownAdmits (c.ownState (abank a)) 0 = true →
    (∀ b < n, fget ecc0 c.spdEcc ((a + b) / 4) = .ok) →
    ∃ t, exec (if add then .aadd x else .aswap x) s = .next t ∧
      (let d := t.cell x.cell
       let c' := { c with spd := d.spd, spdPoison := d.spdPoison, spdEcc := d.spdEcc }
       SameBytes a n c.spd d.spd ∧
       (n = 4 → Issued x s t c' ((y.past 1).setS (fRd w) ⟨BitVec.ofNat 32 (memRead c.spd a 4), c.wordP a⟩) ∧
         memRead d.spd a 4 = (if add then memRead c.spd a 4 + (y.sReg (fRs1 w)).v.toNat else (y.sReg (fRs1 w)).v.toNat) % 2 ^ 32 ∧
         d.wordP a = (if add then c.wordP a || (y.sReg (fRs1 w)).p else (y.sReg (fRs1 w)).p)) ∧
       (n = 8 → Issued x s t c' ((y.past 1).setPair (fRd w) (memRead c.spd a 8) (c.wordP a || c.wordP (a + 4))) ∧
         memRead d.spd a 8 = (if add then memRead c.spd a 8 + y.pair (fRs1 w) else y.pair (fRs1 w)) % 2 ^ 64))

/-- O25. A ready SLOT take on an enabled ring that the core consumes blocks while the slot at TAKE is empty; on a full
slot with an admitted access and good check bits it reads the doubleword or line there, clears the slot's FE bit,
decrements FULL_CNT and moves TAKE to the next slot. A SLOT put on a ring the core fills blocks while the slot at PUT
is full; on an empty one it stores, sets the FE bit, increments FULL_CNT and moves PUT. A ring access that R192
forbids stops the context with RING_CONFIG. (R104, R191, R192, R194) -/
def Obligations.SlotRingsTakeAndPut : Prop :=
  ∀ (x : CtxRef) (s : State) (put : Bool), Ready (if put then .slotPut else .slotTake) x s → NoReturn 1 x s →
    bit (s.wordOf x) 25 = put →
    let y := s.ctxOf x
    let w := s.wordOf x
    let c := s.cell x.cell
    let r := slotRing w
    let ptr := (if put then SPD_RING_ST_PUT else SPD_RING_ST_TAKE).ring r
    let slot := c.rd ptr
    ∃ t, exec (if put then .slotPut x else .slotTake x) s = .next t ∧ OnlyCell x.cell s t ∧
      (let d := t.cell x.cell
       let z := d.ctx x.ctx
       (c.slotBad w = true → z.state = .faulted ∧ ∃ f, d.faults = c.faults ++ [f] ∧ f.code = 0x46) ∧
       (c.slotBad w = false → c.slotFull r slot = put →
         Issued x s t c { y.issuing with state := .blocked, wait := .slot, waitObj := BitVec.ofNat 32 r, waitElapsed := 0 }) ∧
       (c.slotBad w = false → c.slotFull r slot = !put →
         c.spdCheck (if bit w 24 then 1 else 0) true ((List.range (slotSize w / 4)).map (fun i => c.slotAddr w + 4 * i)) = none →
         (∀ i < slotSize w / 4, fget ecc0 c.spdEcc (c.slotAddr w / 4 + i) = .ok) → slot < 32 → c.rd (SPD_RING_CFG_COUNT.ring r) < 32 →
         z.pc = y.pc + 1 ∧ d.rd ptr = c.slotNext r slot ∧ d.slotFull r slot = put ∧
         (∀ i, i ≠ slot → i < 32 → d.slotFull r i = c.slotFull r i) ∧
         d.rd (SPD_RING_ST_FULL_CNT.ring r) = (if put then c.rd (SPD_RING_ST_FULL_CNT.ring r) + 1
           else c.rd (SPD_RING_ST_FULL_CNT.ring r) - 1) % 2 ^ SPD_RING_ST_FULL_CNT.width ∧
         (put = false → d.spd = c.spd ∧ (bit w 24 = false → z.sReg (fRd w + 1) = ⟨BitVec.ofNat 32 (memRead c.spd (c.slotAddr w + 4) 4),
           c.wordP (c.slotAddr w + 4)⟩ ∧ z.sReg (fRd w) = ⟨BitVec.ofNat 32 (memRead c.spd (c.slotAddr w) 4), c.wordP (c.slotAddr w)⟩)) ∧
         (put = true → SameBytes (c.slotAddr w) (slotSize w) c.spd d.spd ∧
           (bit w 24 = false → memRead d.spd (c.slotAddr w) 4 = (y.sReg (fRd w)).v.toNat ∧
             memRead d.spd (c.slotAddr w + 4) 4 = (y.sReg (fRd w + 1)).v.toNat))))

/-- O26. A message that is not served, or of another operation than its row's, changes nothing. READ of an object that the
requester may read answers its bytes, of another ACCESS; INFO the descriptor; NEXT the next readable object or 0xFFFF;
an absent object NO_OBJECT, a malformed message BAD_MESSAGE; WRITE of a read-only object READ_ONLY, below its level
ACCESS, with the wrong length TYPE, out of range RANGE. A granted PROFILE write starts the change and sets TARGET, or
answers STATE and leaves it; a flaw map write appends or removes its entry; a device ID is set and in service every
enabled link leaves DISABLED; a COMMAND NOP completes; a tunnelled SPDM message answers the responder's bytes. SPDM
messages open and close sessions, three heartbeats without traffic end one; the PHY's link-up applies the MGMT_NET
settings. (R513, R522, R523, R524, R525, R526, R530, R534, R535, R536, R541) -/
def Obligations.CatalogueAnswersRequests : Prop :=
  (∀ (s : State) (m : CapMsg), m.via < 5 →
    let ends := fun (i : Instr) => exec i s = .next s
    let op := capField m.bytes 1 1
    let ob := capField m.bytes 4 2
    (s.capServed = false ∨ s.transportOn m = false → ends (.capRead m) ∧ ends (.capWrite m) ∧ ends (.capInfo m) ∧ ends (.capNext m) ∧ ends (.capTunnel m) ∧
      ends (.capCommand m) ∧ ends (.profileWrite m) ∧ ends (.flawMapWrite m) ∧ ends (.deviceIdWrite m) ∧ ends (.spdmMessage m)) ∧
    (op ≠ 2 → ends (.capWrite m) ∧ ends (.capCommand m) ∧ ends (.profileWrite m) ∧ ends (.flawMapWrite m) ∧ ends (.deviceIdWrite m)) ∧
    (op ≠ 3 → ends (.capInfo m)) ∧ (op ≠ 4 → ends (.capNext m)) ∧ (op ≠ 0x10 → ends (.capTunnel m)) ∧ (op ∈ [2, 3, 4, 0x10] → ends (.capRead m)) ∧
    (ob ≠ 0x2020 → ends (.profileWrite m)) ∧ (ob ≠ 0x3800 → ends (.deviceIdWrite m)) ∧ (ob ≠ 0x4020 → ends (.flawMapWrite m)) ∧
    (ob ≠ 0x5012 → ends (.capCommand m))) ∧
  (∀ (s : State) (m : CapMsg) (i j : Nat),
    let level := s.capLevel m
    let gives := fun (c : Instr) (st : Nat) => ∃ t, exec c s = .next t ∧ Answers m t st false [] ∧ t.cells = s.cells ∧ t.courts = s.courts ∧ t.hbm = s.hbm ∧
      t.objects = s.objects
    (Asks 1 i j m s → objDef i j = none → gives (.capRead m) 2) ∧ (Asks 2 i j m s → objDef i j = none → i ≠ 0x5012 → gives (.capWrite m) 2) ∧
    (Asks 3 i j m s → objDef i j = none → gives (.capInfo m) 2) ∧
    (m.via < 5 → s.capServed = true → s.transportOn m = true → m.session = none → s.keptFor m m.bytes = none → capSound m m.bytes = false →
      (capOps.contains (capField m.bytes 1 1) = false ∨ capField m.bytes 1 1 = 1 → gives (.capRead m) 1) ∧
      (capField m.bytes 1 1 = 2 → capField m.bytes 4 2 ≠ 0x5012 → gives (.capWrite m) 1)) ∧
    (Asks 4 i j m s → ∃ t, exec (.capNext m) s = .next t ∧ t.objects = s.objects ∧ Answers m t 0 false (match nextObj level (256 * i + j) with
      | some k => valBytes (k / 256) 2 ++ valBytes (k % 256) 1
      | none => valBytes 0xFFFF 2)) ∧
    (∀ d, objDef i j = some d → objDie i j = none →
      (Asks 3 i j m s → ∃ t x, exec (.capInfo m) s = .next t ∧ Answers m t 0 false x ∧ x.take 4 = valBytes d.type 1 ++ valBytes (if d.type = 11 then 10 else 0) 1 ++
        valBytes d.read 1 ++ valBytes d.write 1 ∧ t.objects = s.objects) ∧
      (Asks 1 i j m s → d.read = 255 ∨ level < d.read → gives (.capRead m) 3) ∧
      (Asks 1 i j m s → m.session = none → d.read ≠ 255 → d.read ≤ level → ∀ v, s.objVal i j = some v → d.type < 9 → capField m.bytes 8 4 = 0 →
        d.size ≤ capField m.bytes 12 2 → d.size ≤ 1024 → i < 0x3000 ∨ 0x6000 ≤ i → i ≠ 0x7030 → ∃ t, exec (.capRead m) s = .next t ∧
          t = { s with mgmt := t.mgmt } ∧ Answers m t 0 false (valBytes v d.size)) ∧
      (Asks 2 i j m s → i ≠ 0x5012 → d.write = 255 → gives (.capWrite m) 4) ∧
      (Asks 2 i j m s → i ≠ 0x5012 → d.write ≠ 255 → s.mayWrite level m.via i d = false → gives (.capWrite m) 3) ∧
      (Asks 2 i j m s → i ≠ 0x5012 → d.write ≠ 255 → s.mayWrite level m.via i d = true → d.type < 9 → (capData m).length ≠ d.size → gives (.capWrite m) 6) ∧
      (Asks 2 i j m s → i ≠ 0x5012 → d.write ≠ 255 → s.mayWrite level m.via i d = true → d.type < 9 → (capData m).length = d.size →
        s.objRange d i j (bytesVal (capData m) d.size) = false → gives (.capWrite m) 5) ∧
      (Asks 2 i j m s → s.mayWrite level m.via i d = true → i = 0x6000 ∨ i = 0x7006 ∨ i = 0x2012 ∨ i = 0x2022 → (capData m).length = d.size →
        s.objRange d i j (bytesVal (capData m) d.size) = true → ∃ t, exec (.capWrite m) s = .next t ∧ Answers m t 0 false [] ∧ t.obj i j = bytesVal (capData m) d.size ∧
          t.mgmt.nvQueue = s.mgmt.nvQueue ++ [⟨2, 256 * i + j, valBytes (bytesVal (capData m) d.size) d.size⟩] ∧ t.cells = s.cells))) ∧
  (∀ (s : State) (m : CapMsg),
    (∀ p, Grants 0x2020 m s → (capData m) = valBytes p 1 → p ≤ 2 →
      (p ≠ s.rd PWR_STATUS_PROFILE → s.profileRefused p = none → ∃ t, exec (.profileWrite m) s = .next t ∧ Answers m t 0 false [] ∧ t.rd PWR_STATUS_TARGET = p ∧
        t.mgmt.goal = some p ∧ t.rd PWR_STATUS_CHANGING = 1 ∧ t.rd PWR_STATUS_PROFILE = s.rd PWR_STATUS_PROFILE) ∧
      (∀ r n, p ≠ s.rd PWR_STATUS_PROFILE → s.profileRefused p = some (r, n) → ∃ t, exec (.profileWrite m) s = .next t ∧
        Answers m t 7 false (valBytes r 1 ++ valBytes (n.getD 0) 1 ++ valBytes 0 2) ∧ t.rd PWR_STATUS_TARGET = s.rd PWR_STATUS_TARGET ∧ t.mgmt.goal = s.mgmt.goal) ∧
      (p = s.rd PWR_STATUS_PROFILE → ∃ t, exec (.profileWrite m) s = .next t ∧ Answers m t 0 false [] ∧ t.rd PWR_STATUS_TARGET = p ∧ t.mgmt.goal = none)) ∧
    (∀ f, Grants 0x4020 m s → (capData m).length = 16 → f = flawOf (capData m) → f.kind ≤ 7 → f.die ≤ 3 → capField m.bytes 8 4 < 2048 →
      (f.kind ≠ 0 → capField m.bytes 8 4 = s.flaws.length → s.flaws.length < 1800 → ∃ t, exec (.flawMapWrite m) s = .next t ∧ Answers m t 0 false [] ∧
        t.flaws = s.flaws ++ [f] ∧ t.rd RES_PKG_STATUS_FLAW_USED = s.flaws.length + 1 ∧ t.cells = s.cells) ∧
      (f.kind = 0 → capField m.bytes 8 4 < s.flaws.length → s.flaws.length ≤ 2048 → ∃ t, exec (.flawMapWrite m) s = .next t ∧ Answers m t 0 false [] ∧
        t.flaws = s.flaws.eraseIdx (capField m.bytes 8 4) ∧ t.rd RES_PKG_STATUS_FLAW_USED = s.flaws.length - 1)) ∧
    (∀ v, Grants 0x3800 m s → (capData m) = valBytes v 2 → 1 ≤ v → v < 0xFFF → ∃ t, exec (.deviceIdWrite m) s = .next t ∧ Answers m t 0 false [] ∧
      t.obj 0x3800 0 = v ∧ t.cells = s.cells ∧ (s.inService = false → t.links = s.links)) ∧
    (Grants 0x5012 m s → (capData m).length = 64 → capField m.bytes 8 4 = 0 → bytesVal (capData m) 1 = 0 → sqClean 0 (capData m) = true → s.capHeld m m.bytes = false →
      ∃ t x, exec (.capCommand m) s = .next t ∧ Answers m t 0 false x ∧ x.length = 16 ∧ x.take 2 = ((capData m).drop 2).take 2 ∧ t.cells = s.cells ∧ t.hbm = s.hbm ∧
        t.hostMem = s.hostMem ∧ t.free = s.free + 5) ∧
    (∀ i j, Asks 0x10 i j m s → ∃ t, exec (.capTunnel m) s = .next t ∧ Answers m t 0 false (m.facts.spdm.resp.take 1024) ∧ t.objects = s.objects) ∧
    (let f := m.facts.spdm
     let on := m.via ≤ 3 ∧ s.capServed = true ∧ s.romServes = false ∧ s.transportOn m = true ∧ s.rd SEC_STATUS_SPDM_READY = 1 ∧ m.session = none
     let ss := s.mgmt.sessions
     (on → f.op = 1 → ss.length < 8 → (∀ x ∈ ss, x.id ≠ f.sid) → s.rd SEC_STATUS_KEYS_VALID = 1 → ∃ t x, exec (.spdmMessage m) s = .next t ∧
        t.mgmt.answer = f.resp ∧ t.mgmt.sessions = ss ++ [x] ∧ x.id = f.sid ∧ x.who = capKey m ∧ x.tick = s.tick ∧ t.rd SEC_STATUS_SESSIONS = ss.length + 1 ∧
        (f.anchor = 2 → x.level = 3) ∧ (f.anchor = 1 → s.rd SEC_STATUS_ANCHOR_SET = 1 → x.level = 2) ∧ (f.anchor = 0 → x.level = 1)) ∧
     (on → f.op = 2 → ∃ t, exec (.spdmMessage m) s = .next t ∧ t.mgmt.answer = f.resp ∧ t.mgmt.sessions = ss.filter (fun x => x.id != f.sid)) ∧
     (on → f.op = 0 → exec (.spdmMessage m) s = .next { s with mgmt := { s.mgmt with answer := f.resp } }))) ∧
  (∀ (s : State) (id : Nat), ∃ t, exec (.spdmHeartbeatExpiry id) s = .next t ∧ t = { s with pkgRegs := t.pkgRegs, mgmt := t.mgmt } ∧
    (∀ x, x ∈ t.mgmt.sessions ↔ x ∈ s.mgmt.sessions ∧ (x.id ≠ id ∨ s.tick < x.tick + 81000000000)) ∧
    (s.mgmt.sessions.length ≤ 8 → t.rd SEC_STATUS_SESSIONS = t.mgmt.sessions.length)) ∧
  (∀ s : State, ∃ t, exec .mgmtPhyLinkUp s = .next t ∧ t = { s with mgmt := { s.mgmt with net := t.mgmt.net } } ∧ t.mgmt.net.mode = s.obj 0x7050 1 ∧
    t.mgmt.net.plen = s.obj 0x7050 3 ∧ t.mgmt.net.port = s.obj 0x7050 5 ∧ t.mgmt.net.addr = padBytes (s.blob 0x7050 2) 0 16 ∧
    t.mgmt.net.gateway = padBytes (s.blob 0x7050 4) 0 16)

/-- O27. A granted FW_DATA with room writes its bytes into the target role's inactive slot and puts its dies in RECEIVING;
FW_VERIFY leaves them VERIFIED for a good image at or above SVN_MIN, else FAILED; FW_ACTIVATE of a VERIFIED die runs
the other slot in TRIAL, FW_COMMIT of a TRIAL keeps it as COMMITTED and journals it; each answers STATE where its
state does not allow it. COMMIT_T after its start returns a TRIAL to the old slot. SVN_RAISE below SVN_MIN answers
RANGE and above raises it where every die's image allows. A good token unlocks its scope, scope 2 clears the keys and
scope 3 opens the gate as well; a bad one counts, the third locks; the nonce changes. Opening the gate zeroises the
keys and ends every session. (R507, R536, R545, R547, R548, R549, R550, R551) -/
def Obligations.FirmwareAndTokensActAsRuled : Prop :=
  (∀ (s : State) (m : CapMsg),
    let r := s.mgmt.fwTarget
    let bs := capData m
    let off := capField m.bytes 8 4
    let v := bytesVal bs 1
    let state7 := fun (i : Instr) (reason : Nat) => ∃ t, exec i s = .next t ∧ Answers m t 7 false (valBytes reason 1 ++ valBytes 0 1 ++ valBytes 0 2) ∧
      t.mgmt.fwState = s.mgmt.fwState ∧ t.mgmt.fwSlot = s.mgmt.fwSlot ∧ t.mgmt.fwImages = s.mgmt.fwImages
    let done := fun (i : Instr) (st : Nat) (P : State → Prop) => ∃ t, exec i s = .next t ∧ Answers m t st false [] ∧ t.cells = s.cells ∧ t.hbm = s.hbm ∧ P t
    let roleIs := fun (t : State) (x : Nat) => ∀ d < 4, t.fwState d = if d ∈ roleDies r then x else s.fwState d
    (s.capServed = false ∨ s.transportOn m = false → m.via < 5 → exec (.fwData m) s = .next s ∧ exec (.fwVerify m) s = .next s ∧
      exec (.fwActivate m) s = .next s ∧ exec (.fwCommit m) s = .next s ∧ exec (.svnRaise m) s = .next s ∧ exec (.debugToken m) s = .next s) ∧
    (Grants 0x7002 m s → bs ≠ [] →
      (s.fwBusy r = true → state7 (.fwData m) 3) ∧
      (s.fwBusy r = false → s.rd PWR_STATUS_NV_OK = 0 → done (.fwData m) 8 (fun t => t.mgmt.fwImages = s.mgmt.fwImages)) ∧
      (s.fwBusy r = false → s.rd PWR_STATUS_NV_OK = 1 → 12582912 < off + bs.length → done (.fwData m) 5 (fun t => t.mgmt.fwImages = s.mgmt.fwImages)) ∧
      (∀ a, s.fwBusy r = false → s.rd PWR_STATUS_NV_OK = 1 → off + bs.length ≤ 12582912 → s.inactiveSlot r = some a → done (.fwData m) 0 (fun t =>
        roleIs t 1 ∧ (fget fw0 t.mgmt.fwImages (2 * a + r)).good = false ∧
        (∀ j < bs.length, memByte (fget fw0 t.mgmt.fwImages (2 * a + r)).bytes (off + j) = bs.getD j 0) ∧
        SameBytes off bs.length (fget fw0 s.mgmt.fwImages (2 * a + r)).bytes (fget fw0 t.mgmt.fwImages (2 * a + r)).bytes))) ∧
    (Grants 0x7003 m s → bs.length = 1 → v = 1 →
      ((∃ d ∈ roleDies r, s.fwState d = 3 ∨ s.fwState d = 4) → state7 (.fwVerify m) 3) ∧
      (∀ a, (∀ d ∈ roleDies r, s.fwState d ≠ 3 ∧ s.fwState d ≠ 4) → s.inactiveSlot r = some a → done (.fwVerify m) 0 (fun t =>
        let ok := m.facts.good = true ∧ s.svnMin ≤ m.facts.svn
        (ok → roleIs t 2 ∧ (fget fw0 t.mgmt.fwImages (2 * a + r)).good = true ∧ (fget fw0 t.mgmt.fwImages (2 * a + r)).svn = m.facts.svn) ∧
        (¬ ok → roleIs t 6)))) ∧
    (Grants 0x7004 m s → bs.length = 1 → v < 4 →
      (s.fwState v ≠ 2 → state7 (.fwActivate m) 3) ∧
      (s.fwState v = 2 → (∀ d < 4, d ≠ v → s.fwState d ≠ 3 ∧ s.fwState d ≠ 4) → done (.fwActivate m) 0 (fun t => t.fwState v = 4 ∧
        fget z0 t.mgmt.fwRuns v = (fget z0 s.mgmt.fwSlot v + 1) % 2 ∧ t.mgmt.fwSlot = s.mgmt.fwSlot ∧ (v = s.primary → t.mgmt.sessions = []) ∧
        ∀ d, d ≠ v → t.fwState d = s.fwState d))) ∧
    (Grants 0x7005 m s → bs.length = 1 → v < 4 →
      (s.fwState v ≠ 4 → state7 (.fwCommit m) 3) ∧
      (s.fwState v = 4 → done (.fwCommit m) 0 (fun t => t.fwState v = 5 ∧ fget z0 t.mgmt.fwSlot v = fget z0 s.mgmt.fwRuns v ∧
        t.mgmt.nvQueue = s.mgmt.nvQueue ++ [⟨4, v, valBytes (fget z0 s.mgmt.fwRuns v) 1⟩]))) ∧
    (Grants 0x7007 m s → bs.length = 4 →
      let n := bytesVal bs 4
      (n < s.svnMin → done (.svnRaise m) 5 (fun t => t.mgmt.svn = s.mgmt.svn)) ∧
      (s.svnMin ≤ n → (∀ d < 4, fget z0 s.mgmt.fwRuns d = fget z0 s.mgmt.fwSlot d ∧ s.fwState d ≠ 4 ∧
        n ≤ (fget fw0 s.mgmt.fwImages (2 * fget z0 s.mgmt.fwSlot d + dieRole d)).svn) → done (.svnRaise m) 0 (fun t => t.svnMin = n)) ∧
      (s.svnMin ≤ n → (∃ d < 4, s.fwState d = 4) → ∃ t, exec (.svnRaise m) s = .next t ∧ t.mgmt.svn = s.mgmt.svn)) ∧
    (∀ P : Prop, (P ↔ (s.tokenOk bs m.facts.sigBy = true ∧ s.rd SEC_STATUS_DEBUG_LOCKOUT = 0)) →
      let scope := bytesVal (bs.drop 1) 1
      let unlocked := fun (t : State) => t.mgmt.nonces = s.mgmt.nonces + 1 ∧ t.rd MGT_ALERT_DEBUG_UNLOCKED = 1 ∧
        (s.rd SEC_STATUS_DEBUG_SCOPE ≤ scope → t.rd SEC_STATUS_DEBUG_SCOPE = scope) ∧ (scope = 3 → t.mgmt.gate = true) ∧
        (2 ≤ scope → t.rd SEC_STATUS_KEYS_CLEARED = 1 ∧ t.rd SEC_STATUS_KEYS_VALID = 0 ∧ t.mgmt.sessions = []) ∧ (scope < 3 → t.mgmt.gate = s.mgmt.gate)
      let counted := fun (t : State) => t.mgmt.nonces = s.mgmt.nonces + 1 ∧ t.rd SEC_STATUS_DEBUG_FAILS = min 3 (s.rd SEC_STATUS_DEBUG_FAILS + 1) ∧
        (2 ≤ s.rd SEC_STATUS_DEBUG_FAILS → t.rd SEC_STATUS_DEBUG_LOCKOUT = 1) ∧ t.mgmt.gate = s.mgmt.gate ∧ t.free = s.free + 1
      (Grants 0x7042 m s → off = 0 → bs.length = 256 →
        (P → scope ≠ 1 ∨ s.scopeOne = true → done (.debugToken m) 0 unlocked) ∧ (P → scope = 1 → s.scopeOne = false → state7 (.debugToken m) 4) ∧
        (¬ P → ∃ t st, exec (.debugToken m) s = .next t ∧ Answers m t st false [] ∧ 1 ≤ st ∧ st ≤ 8 ∧ counted t))) ∧
    (m.via = 6 →
      (s.tapOn = false ∨ m.bytes.length ≠ 256 → exec (.debugToken m) s = .next s) ∧
      (s.tapOn = true → m.bytes.length = 256 → s.tokenOk m.bytes m.facts.sigBy = false → ∃ t, exec (.debugToken m) s = .next t ∧
        t = { s with pkgRegs := t.pkgRegs, mgmt := { s.mgmt with nonces := s.mgmt.nonces + 1 }, free := s.free + 1 } ∧
        t.rd SEC_STATUS_DEBUG_FAILS = min 3 (s.rd SEC_STATUS_DEBUG_FAILS + 1)) ∧
      (s.tapOn = true → m.bytes.length = 256 → s.tokenOk m.bytes m.facts.sigBy = true → s.rd SEC_STATUS_DEBUG_LOCKOUT = 0 →
        bytesVal (m.bytes.drop 1) 1 = 3 → ∃ t, exec (.debugToken m) s = .next t ∧ t.rd SEC_STATUS_DEBUG_SCOPE = max 3 (s.rd SEC_STATUS_DEBUG_SCOPE) % 4 ∧
          t.mgmt.gate = true ∧ t.rd SEC_STATUS_KEYS_CLEARED = 1))) ∧
  (∀ s : State, ∃ t, exec .keyZeroise s = .next t ∧ t = { s with pkgRegs := t.pkgRegs, mgmt := { s.mgmt with gate := true, sessions := [] } } ∧
    PkgSets [(SEC_STATUS_KEYS_CLEARED, 1), (SEC_STATUS_KEYS_VALID, 0), (SEC_STATUS_SESSIONS, 0)] s t) ∧
  (∀ (s : State) (d : Nat), d < 4 → (let due := fget z0 s.mgmt.fwSince d + s.obj 0x7006 0 * 9 / 10
    (s.fwState d ≠ 4 ∨ s.tick < due → exec (.commitTExpiry d) s = .next s) ∧
    (s.fwState d = 4 → due ≤ s.tick → ∃ t, exec (.commitTExpiry d) s = .next t ∧ t.fwState d = 6 ∧ fget z0 t.mgmt.fwRuns d = fget z0 s.mgmt.fwSlot d ∧
      t.rd MGT_ALERT_FW_FAILED = 1 ∧ t.cells = s.cells ∧ ∀ e, e ≠ d → t.fwState e = s.fwState e)))

/-- O28. An event that one counter of a running bank counts adds its number; at the wrap COUNT goes on modulo 2^48, OVF is
set in both registers and INT_EN logs PMC_OVERFLOW; a sample source reloads and appends one record with the next SEQ.
PMC_SNAP_GO latches the eight counters, the tick and the next SNAP_SEQ; the global snapshot does so in every running
bank once its tick has come, and before changes nothing. A low read returns the low half and latches the high one for
the next high read. A sample read of word 0 latches its entry. The bandwidth window latches its counters at a multiple
of BW_WIN. (R380, R554, R557, R559, R560, R562, R563, R564, R566) -/
def Obligations.CountersSamplesAndSnapshotsLatch : Prop :=
  (∀ s : State,
    let same := fun (t u : State) => u.mgmt.lastCat = t.mgmt.lastCat
    (∃ t, exec (.tmbTickLowRead false) s = .next t ∧ t = { s with readVal := s.tick % 2 ^ 32, readStat := 0, mgmt := { s.mgmt with lastCat := t.mgmt.lastCat } } ∧
      ∀ u, same t u → ∃ w, exec (.tmbTickLowRead true) u = .next w ∧ w.readVal = s.tick % 2 ^ 64 / 2 ^ 32) ∧
    (∀ kind unit k, kind < 3 → k < 8 → (kind = 0 → unit < cellCount ∧ s.powered unit = true) → (kind = 1 → CourtLive unit s) →
      (kind = 2 → unit < 4 ∧ fget noMark s.dieHalt unit = false) →
      let v := s.bankRd kind unit (PMC_CNT_OVF.up (0x10 * k)) * 2 ^ 63 + s.bankRd kind unit (PMC_CNT_COUNT.up (0x10 * k))
      (∃ t, exec (.pmcCntLowRead kind unit k false) s = .next t ∧ t.readVal = v % 2 ^ 32 ∧ t = { s with readVal := t.readVal, readStat := 0, mgmt := t.mgmt } ∧
        ∀ u, same t u → u.dieHalt = s.dieHalt → u.small = s.small → u.courts = s.courts → ∃ w, exec (.pmcCntLowRead kind unit k true) u = .next w ∧
          w.readVal = v / 2 ^ 32) ∧
      (kind = 0 → s.cellFenced unit = true → exec (.pmcSnapGo kind unit) s = .next s) ∧
      ((kind = 0 → s.cellFenced unit = false) → ∃ t, exec (.pmcSnapGo kind unit) s = .next t ∧
        (∀ j < 8, fget z0 (t.bankSnap kind unit) (viewKey 0 j 0) =
          (s.bankRd kind unit (PMC_CNT_OVF.up (0x10 * j)) * 2 ^ 63 + s.bankRd kind unit (PMC_CNT_COUNT.up (0x10 * j))) % 2 ^ 64) ∧
        t.bankRd kind unit PMC_SNAP_TICK = s.tick % 2 ^ PMC_SNAP_TICK.width ∧
        t.bankRd kind unit PMC_SNAP_SNAP_SEQ = (s.bankRd kind unit PMC_SNAP_SNAP_SEQ + 1) % 2 ^ PMC_SNAP_SNAP_SEQ.width ∧
        (kind ≠ 0 → t.cells = s.cells) ∧ (kind ≠ 1 → t.courts = s.courts) ∧ (kind ≠ 2 → t.dieRegs = s.dieRegs) ∧ t.hbm = s.hbm) ∧
      (∀ e : PmcEvent, e.kind = kind → e.unit = unit → (∀ j < 8, s.counts e j = (j == k)) →
        let f := PMC_CNT_COUNT.up (0x10 * k)
        let x := s.bankRd kind unit f + e.n
        let src := kind = 0 ∧ s.bankRd 0 unit PMC_SAMP_CTL_EN = 1 ∧ s.bankRd 0 unit PMC_SAMP_CTL_SRC = k
        ∃ t, exec (.pmcOverflow e) s = .next t ∧ (kind = 0 → exec (.pmcSample e) s = .next t) ∧
          (x < 2 ^ 48 → t.bankRd kind unit f = x ∧ t.events = s.events ∧ t.bankRd kind unit (PMC_CTL_OVF.up (0x10 * k)) = s.bankRd kind unit (PMC_CTL_OVF.up (0x10 * k))) ∧
          (2 ^ 48 ≤ x → t.bankRd kind unit (PMC_CTL_OVF.up (0x10 * k)) = 1 ∧ t.bankRd kind unit (PMC_CNT_OVF.up (0x10 * k)) = 1 ∧
            (¬ src → t.bankRd kind unit f = x % 2 ^ 48) ∧
            (s.bankRd kind unit (PMC_CTL_INT_EN.up (0x10 * k)) = 0 → t.events = s.events) ∧
            (s.bankRd kind unit (PMC_CTL_INT_EN.up (0x10 * k)) = 1 → ∃ d y, fget nil0 t.events d = fget nil0 s.events d ++ [y] ∧ y.code = 0x30 ∧ y.space = 3) ∧
            (src → t.bankRd 0 unit f = (2 ^ 48 - s.bankRd 0 unit PMC_SAMP_CTL_PERIOD) % 2 ^ 48 ∧
              ((s.cell unit).samples.length < 64 → (t.cell unit).samples = (s.cell unit).samples ++ [s.sampleOf e (s.cell unit).sampSeq] ∧
                (t.cell unit).sampSeq = ((s.cell unit).sampSeq + 1) % 2 ^ 32) ∧
              (64 ≤ (s.cell unit).samples.length → s.bankRd 0 unit PMC_SAMP_CTL_MODE = 0 → (t.cell unit).samples = (s.cell unit).samples))) ∧
          ∀ j < 8, j ≠ k → t.bankRd kind unit (PMC_CNT_COUNT.up (0x10 * j)) = s.bankRd kind unit (PMC_CNT_COUNT.up (0x10 * j)))) ∧
    (s.mgmt.gsnap = false ∨ s.tick < s.rd PMC_GSNAP_AT → exec .pmcGsnapLatch s = .next s) ∧
    (s.mgmt.gsnap = true → s.rd PMC_GSNAP_AT ≤ s.tick → ∃ t, exec .pmcGsnapLatch s = .next t ∧ t.mgmt = { s.mgmt with gsnap := false } ∧
      (∀ d < 4, fget noMark s.dieHalt d = false → t.bankRd 2 d PMC_SNAP_TICK = s.tick % 2 ^ PMC_SNAP_TICK.width) ∧
      (∀ n < cellCount, s.powered n = true → t.bankRd 0 n PMC_SNAP_TICK = s.tick % 2 ^ PMC_SNAP_TICK.width) ∧
      ∀ q, CourtLive q s → t.bankRd 1 q PMC_SNAP_TICK = s.tick % 2 ^ PMC_SNAP_TICK.width) ∧
    (∀ l, s.obj 0x6000 0 = 0 ∨ s.tick % (s.obj 0x6000 0 * 9 / 10) ≠ 0 → exec (.bwWindowLatch l) s = .next s) ∧
    (∀ i j v, s.obj 0x6000 0 ≠ 0 → s.tick % (s.obj 0x6000 0 * 9 / 10) = 0 → ∃ t, exec (.bwWindowLatch [(i, j, v)]) s = .next t ∧
      t.mgmt = { s.mgmt with bwPrev := s.mgmt.bwNow, bwTick := s.tick, bwNow := t.mgmt.bwNow } ∧ fget z0 t.mgmt.bwNow (256 * i + j) = v % 2 ^ 48)) ∧
  (∀ (s : State) (n : Nat) (fn : Option Nat), n < cellCount → s.powered n = true →
    let c := s.cell n
    let w := c.rd (PMC_SAMP_CTL_RD_WORD.up 0xE00)
    let e := if w = 0 then c.samples.getD (c.rd (PMC_SAMP_CTL_RD_ENTRY.up 0xE00)) [] else c.sampLatch
    let vf := ∃ f, fn = some f ∧ f % 17 ≠ 0
    ∃ t, exec (.pmcSampDataRead n fn) s = .next t ∧ (t.cell n).sampLatch = e ∧ t.readStat = 0 ∧ (t.cell n).samples = c.samples ∧
      (¬ vf ∨ bits (e.getD 1 0) 20 19 = 0 → t.readVal = e.getD w 0) ∧ (vf → bits (e.getD 1 0) 20 19 ≠ 0 → t.readVal = 0) ∧
      ∀ m, m ≠ n → t.cell m = s.cell m)

/-- O29. A write of a package register by its Atelier puts an RW field at the written bits, clears the written ones of
RW1C, sets those of RW1S and leaves RO, RC and WO fields and every other register alone; reserved bits and values keep
their field. An access of 8 or 16 bits, or a misaligned one, changes nothing and is answered with Unsupported Request.
An offset without a register, a host write of an Atelier's register, or a cell window that the fence shuts, changes
nothing; SYN_CFG of an object with waiters sets CFG_ERR only. A queue enabled in service is enabled, before it sets
ERR. A write of GPIO_FUNC puts each pin whose code changes to an allowed one in a hold of four always-on cycles at the
level it last drove. (R10, R11, R13, R14, R77, R416, R422, R582, R583, R588) -/
def Obligations.RegisterWritesFollowTheirCodes : Prop :=
  (∀ (s : State) (off : Nat) (v : W64),
    let a : RegAcc := { space := 0, unit := 0, off := off, v := v }
    let aligned := off % 8 = 0
    (∀ space unit who, ({ a with space := space, unit := unit, who := who } : RegAcc).ok = true →
      exec (.regWrite { a with space := space, unit := unit, who := who, odd := true }) s = .next { s with readVal := 0, readStat := 2 } ∧
      (¬ aligned → exec (.regWrite { a with space := space, unit := unit, who := who }) s = .next { s with readVal := 0, readStat := 2 })) ∧
    (aligned → (∀ r ∈ Machine.pkgRegs, r.at off = false) → exec (.regWrite a) s = .next s) ∧
    (∀ r f, r ∈ Machine.pkgRegs → r.at off = true → f ∈ r.fields → aligned → off < 0x3100 ∨ 0x3200 ≤ off → off ≠ 0x7A00 → off ≠ 0x7010 →
      let g : Fld := ⟨off, f.lsb, f.width⟩
      let x := v.toNat / 2 ^ f.lsb % 2 ^ f.width
      s.rd g < 2 ^ f.width → ∃ t, exec (.regWrite a) s = .next t ∧ t = { s with pkgRegs := t.pkgRegs } ∧
        (f.acc = .rw → keepPkg g x = false → t.rd g = x) ∧ (f.acc = .rw → keepPkg g x = true → t.rd g = s.rd g) ∧
        (f.acc = .rw1c → t.rd g = s.rd g - (s.rd g &&& x)) ∧ (f.acc = .rw1s → t.rd g = s.rd g ||| x) ∧
        (f.acc = .ro ∨ f.acc = .rc ∨ f.acc = .wo → t.rd g = s.rd g) ∧ ∀ h : Fld, h.lsb < 64 → h.off ≠ off → t.rd h = s.rd h) ∧
    (∀ fn < 34, aligned → ownerAt Machine.pkgRegs off = some .atelier → exec (.regWrite { a with who := some fn }) s = .next s) ∧
    (v.toNat ≤ s.tick → exec (.regWrite { a with off := 0x7A00 }) s = .next s) ∧
    (s.tick < v.toNat → ∃ t, exec (.regWrite { a with off := 0x7A00 }) s = .next t ∧ t.mgmt.gsnap = true ∧ t.rd PMC_GSNAP_AT = v.toNat)) ∧
  (∀ (s : State) (n off : Nat) (v : W64), n < cellCount → off % 8 = 0 →
    let a : RegAcc := { space := 3, unit := n, off := off, v := v }
    let w := fun (fn : Nat) => { a with who := some fn }
    (fget noMark s.dieHalt (cellDie n) = true → exec (.regWrite a) s = .next s ∧ ∀ fn < 34, exec (.regWrite (w fn)) s = .next s) ∧
    (s.cellFenced n = true → (off ∉ [0x8, 0x28, 0x30] → exec (.regWrite a) s = .next s) ∧ ∀ fn < 34, exec (.regWrite (w fn)) s = .next s) ∧
    (∀ fn < 34, s.viewHolds (w fn) fn = false → exec (.regWrite (w fn)) s = .next s) ∧
    (∀ k < 4, off = 0x410 + 0x100 * k → s.powered n = true → s.cellFenced n = false → let x := (s.cell n).ctx k
      (x.state = .off ∨ x.state = .halted → ∃ t, exec (.regWrite a) s = .next t ∧ OnlyCell n s t ∧ (t.cell n).ctx k = { x with pc := BitVec.ofNat 10 v.toNat }) ∧
      (x.state ≠ .off → x.state ≠ .halted → ∃ t, exec (.regWrite a) s = .next t ∧ OnlyCell n s t ∧ (t.cell n).ctx k = x))) ∧
  (∀ (s : State) (q k : Nat) (v : W64), CourtLive q s → k < 128 → (∃ w ∈ (s.court q).waiters, w.obj = k) →
    ∃ t, exec (.regWrite { space := 2, unit := q, off := 0x1000 + 16 * k, v := v }) s = .next t ∧
      CourtIs q s t ((s.court q).wr (SYN_CFG_CFG_ERR.up (16 * k)) 1)) ∧
  (∀ (s : State) (d off : Nat) (v : W64), d < 4 → off % 8 = 0 →
    let a : RegAcc := { space := 1, unit := d, off := off, v := v }
    (fget noMark s.dieHalt d = true → exec (.regWrite a) s = .next s) ∧
    (∀ fn < 34, ownerAt Machine.dieRegs off = some .atelier → exec (.regWrite { a with who := some fn }) s = .next s)) ∧
  (∀ (s : State) (fn q : Nat) (v : W64), fn < 34 → q < 8 → s.portOn (fn / 17) = true → s.rd (qf HST_SQB_ENABLE fn q) = 0 → bits v.toNat 3 0 < 9 →
    v.getLsbD 4 = false → v.getLsbD 5 = true →
    let a : RegAcc := { space := 4, unit := fn, off := 8 * q, v := v, who := some fn }
    ∃ t, exec (.regWrite a) s = .next t ∧ t = { s with pkgRegs := t.pkgRegs } ∧ t.rd (qf HST_SQB_SIZE fn q) = bits v.toNat 3 0 ∧
      (s.inService = true → t.rd (qf HST_SQB_ENABLE fn q) = 1) ∧
      (s.inService = false → t.rd (qf HST_SQB_ENABLE fn q) = 0 ∧ t.rd (qf HST_SQB_ERR fn q) = 1)) ∧
  (∀ (s : State) (v : W64), ∃ t, exec (.gpioFuncWrite v) s = .next t ∧ t = { s with pkgRegs := t.pkgRegs, mgmt := { s.mgmt with holds := t.mgmt.holds } } ∧
    ∀ p < 16, let c := bits v.toNat (4 * p + 2) (4 * p)
      let bad := c = 7 ∨ c = 6 ∧ 2 ≤ p ∨ c = s.pinCode p
      (bad → t.pinCode p = s.pinCode p ∧ fget hold0 t.mgmt.holds p = fget hold0 s.mgmt.holds p) ∧
      (¬ bad → t.pinCode p = c ∧ fget hold0 t.mgmt.holds p = { level := s.pinLevel p, code := c, left := 144 } ∧ bit (t.rd MGT_GPIO_DATA_HOLD) p = true ∧
        t.pinLevel p = s.pinLevel p))

/-- O30. For every floating-point target format, with and without saturation and at every output exponent: the conversion
of an integer zero, of an LX128 value of zero and of an accumulated sum that has cancelled to zero, at every window,
is +0; a floating-point +0 converts to +0, and a −0 element of every floating-point source format converts to −0 of
the target. (R35) -/
def Obligations.ZerosConvertWithTheirSigns : Prop :=
  ∀ (dst : Nat) (sat : Bool) (o : Int), 6 ≤ dst → dst ≤ 14 →
    (∀ src, src ≤ 5 → (convert dst true sat o (unpack src 0)).out = 0) ∧
    (∀ (a : Acc) (w : Int), a.special = .finite → a.leave.1 = 0 → (convert dst false sat o (a.value w)).out = 0) ∧
    (∀ (a : Acc) (w S g : Int), a.special = .finite → w ≤ g → a.wovf = false → a.n.toInt = -(S * 2 ^ (g - w).toNat) →
      -2 ^ 127 ≤ S * 2 ^ (g - w).toNat → S * 2 ^ (g - w).toNat < 2 ^ 127 →
      (convert dst false sat o ((a.merge w S g).value w)).out = 0) ∧
    ∀ src x, 6 ≤ src → src ≤ 14 →
      (x % 2 ^ fmtBits src = 0 → (convert dst false sat o (unpack src x)).out = 0) ∧
      (x % 2 ^ fmtBits src = 2 ^ (fmtBits src - 1) → (convert dst false sat o (unpack src x)).out = 2 ^ (fmtBits dst - 1))

/-- O31. The cells of a mask are its set bits, ascending. Line l of dealt row i lies in the logical cell at the port of
the (i mod m)th of them, at the descriptor's base plus ((i div m) × ROWLINES + l) × 64, and GATHER, SCADD and SEGRED
take their rows there. The prologue of the oldest held operation that deals rows, with an aligned, good descriptor
whose mask is 0, ends it with RIF_DESC. (R283) -/
def Obligations.DealtRowsGoRoundTheMask : Prop :=
  (∀ m, (maskCells m).Pairwise (fun a b => a < b) ∧ ∀ k, k ∈ maskCells m ↔ k < 64 ∧ m.testBit k = true) ∧
  (∀ (s : State) (q : Nat) (d : List Nat) (i l k : Nat), (maskCells (dw d 3))[i % (maskCells (dw d 3)).length]? = some k →
    dealt s q d i l = (s.phys (mkId (8 * (q % 12) + k % 8) (8 * (q / 12) + k / 8)),
      bits (dw d 4) 17 0 + (i / (maskCells (dw d 3)).length * rifRowLines d + l) * 64)) ∧
  (∀ (q : Nat) (s : State) (a b : List RifOp) (o : RifOp), CourtLive q s →
    let c := s.court q
    let d := (List.range 8).map (fun i => memRead c.plinth (o.aD + 8 * i) 4 + 2 ^ 32 * memRead c.plinth (o.aD + 8 * i + 4) 4)
    c.rif = a ++ o :: b → (∀ p ∈ a, p.phase ≠ .held) → o.phase = .held → o.code = 0 → c.flag CRT_STATUS_CLEARING = false →
    o.op = 0 ∨ o.op = 1 ∨ o.op = 4 → o.aD % 64 = 0 → o.aD < plnBytes → c.good o.aD 16 →
    (∀ i < 16, fget noMark c.plnPoison (o.aD / 4 + i) = false) → dw d 3 = 0 →
    ∃ t o' w, exec (.rifPrologue q) s = .next t ∧ w ≤ 3 ∧ CourtIs q s t { c with regs := (t.court q).regs, rif := a ++ o' :: b } ∧
      o'.phase = .done ∧ o'.code = 0xC1 ∧ o'.detail = w)

/-- O32. With command c at the front of its queue, a step is exec of c on the state with the queue's rest, whatever the
outcome. On an empty queue it answers the state after one clock of the timebase; that a step on an empty queue is a
clock is the model's choice (log 21). (R379) -/
def Obligations.StepTakesTheFrontCommand : Prop :=
  (∀ (c : Instr) (r : List Instr) (s : State), step { s with pending := c :: r } = exec c { s with pending := r }) ∧
  ∀ s : State, step { s with pending := [] } = .next (State.idle { s with pending := [] })

/-- O33. The state after power-on reset meets the invariant of the stores, has an empty queue, SYS_RST# asserted and every
die without clocks; every context is OFF with its timeout at 2^16 cycles, no link is enabled or up, no niche is valid,
and no fault is logged. What the memories and the registers without a stated reset value read as is the model's choice
(logs 1 and 2). (R15, R65, R500, R501) -/
def Obligations.ResetIsCanonicalAndUnpowered : Prop :=
  State.reset.Canonical ∧ State.reset.pending = [] ∧ State.reset.mgmt.sysRst = true ∧
  (∀ d < 4, fget noMark State.reset.dieHalt d = true) ∧
  (∀ n k, n < cellCount → k < 4 → ((State.reset.cell n).ctx k).state = .off ∧ (State.reset.cell n).rd (CTX_TIMEOUT_EXP.ctx k) = 16) ∧
  (∀ l < 96, State.reset.lstate l = 0 ∧ State.reset.lrd l LNK_CTRL_ENABLE = 0) ∧
  (∀ i < 16, State.reset.nicheState i = 0 ∧ State.reset.rd (NCH_CFG_VALID.niche i) = 0) ∧
  ∀ k, fget flog0 State.reset.flog k = 0

/-- O34. Whatever the state, a command that names only units of the package is answered with a next state whose queue is
the one it found, and a command that names a unit that no package has is answered with the fault noSuchUnit: no data,
no register value and no mode stops the machine. (R2, R7, R57, R247, R379) -/
def Obligations.CommandsCompleteAndKeepTheQueue : Prop :=
  ∀ (c : Instr) (s : State),
    (c.wf = true → ∃ t, exec c s = .next t ∧ t.pending = s.pending) ∧ (c.wf = false → exec c s = .fault .noSuchUnit)

/-- O35. From every state whose unit tables, register banks, logs, queues and memories are in canonical form and whose
part is of one variant, a step that answers a next state, be it any command or a clock on an empty queue, answers one
of the same kind; so packages that read alike are equal data after any run. The canonical form is the model's
representation (log 1). (R2, R10, R175, R319, R379) -/
def Obligations.StepsKeepTheStoresCanonical : Prop :=
  ∀ s t : State, s.Canonical → step s = .next t → t.Canonical

/-- O36. A ready VALU, VFP, PERM, BCAST or SLIDE on a format of its operation completes and writes vd: an active lane
takes the operation's result on its own elements, an inactive lane keeps its element under pm 0b01 and is zero under
0b10; without poison in the sources and the mask vd holds none; VFP gathers the flags of its active lanes, the PC goes
one word on where no loop ends, and nothing else changes. On another format the context stops with FORMAT_INVALID.
(R58, R91, R105, R106, R108, R31) -/
def Obligations.VectorLaneResults : Prop :=
  ∀ (x : CtxRef) (s : State),
    let y := s.ctxOf x
    let w := s.wordOf x
    let c := s.cell x.cell
    let f := fFmt w
    let n := fmtBits f
    let a := y.vReg (fVa w)
    let b := y.vReg (fVb w)
    let old := y.vReg (fVd w)
    let bad := fun (t : State) => (t.ctxOf x).state = .faulted ∧ OnlyCell x.cell s t ∧
      ∃ r, (t.cell x.cell).faults = c.faults ++ [r] ∧ r.code = 0x02
    let lanes := fun (t : State) (c' : Cell) (m : PP) (clean : Prop) (g : Nat → Nat) => ∃ v, Issued x s t c' ((y.past 1).setV (fVd w) v) ∧
      (∀ i, i * n + n ≤ 512 →
        (fPm w = 0 ∨ m.v.getLsbD (i * laneBytes f) = true → v.elem n i = g i % 2 ^ n) ∧
        (fPm w ≠ 0 → m.v.getLsbD (i * laneBytes f) = false → v.elem n i = if fPm w = 1 then old.elem n i else 0)) ∧
      (clean → old.p = 0 → (fPm w ≠ 0 → m.p = false) → v.p = 0)
    let m := y.pReg (fP w)
    (Ready .valu x s → ∃ t, exec (.valu x) s = .next t ∧
      (¬ (1 ≤ f ∧ f ≤ 5) → bad t) ∧
      (1 ≤ f → f ≤ 5 → NoReturn 1 x s →
        lanes t c m (a.p = 0 ∧ b.p = 0) (fun i => valuLane (minor w) n (f == 2) (a.elem n i) (b.elem n i)) ∧
        (minor w = 0x00 → lanes t c m False (fun i => a.elem n i + b.elem n i)) ∧
        (minor w = 0x01 → lanes t c m False (fun i => a.elem n i + 2 ^ n - b.elem n i)) ∧
        (minor w = 0x0E → lanes t c m False (fun i => a.elem n i * b.elem n i)))) ∧
    (Ready .vfp x s → ∃ t, exec (.vfp x) s = .next t ∧
      (¬ (11 ≤ f ∧ f ≤ 13) → bad t) ∧
      (11 ≤ f → f ≤ 13 → NoReturn 1 x s →
        let r := fun i => if 6 ≤ minor w then (signOp f (minor w) (a.elem n i), ({} : FpFlags))
          else fpArith f (minor w) (unpack f (old.elem n i)) (unpack f (a.elem n i)) (unpack f (b.elem n i))
        lanes t (c.gather x.ctx (laneFlags w m (laneBytes f) (fun i => (r i).2))) m (a.p = 0 ∧ b.p = 0) (fun i => (r i).1))) ∧
    (Ready .perm x s → ∃ t, exec (.perm x) s = .next t ∧ (vecFmt f = false → bad t) ∧
      (vecFmt f = true → NoReturn 1 x s →
        lanes t c m (a.p = 0 ∧ b.p = 0) (fun i => a.elem n (b.elem n i % (512 / n))))) ∧
    (Ready .bcast x s → ∃ t, exec (.bcast x) s = .next t ∧ (vecFmt f = false → bad t) ∧
      (vecFmt f = true → NoReturn 1 x s →
        lanes t c (y.pReg 0) ((y.sReg (bits w 16 12)).p = false ∧ (y.sReg (bits w 16 12 + 1)).p = false)
          (fun _ => if n = 64 then y.pair (bits w 16 12) else (y.sReg (bits w 16 12)).v.toNat))) ∧
    (Ready .slide x s → ∃ t, exec (.slide x) s = .next t ∧ (vecFmt f = false → bad t) ∧
      (vecFmt f = true → NoReturn 1 x s →
        lanes t c m (a.p = 0) (fun i => a.v.toNat / 2 ^ (32 * fVb w + n * i))))

/-- O37. A ready VCMP, VSEL or EXTRACT on a format of its operation, and every ready PRED, completes. VCMP sets every bit
of an active lane's byte group to the lane's comparison and, of an inactive lane, keeps it under pm 0b01 and clears it
under 0b10; VSEL takes each element from va where its mask bit is set and from vb elsewhere; EXTRACT copies one
element to a register or pair; PRED applies its mask operation. Nothing else changes but the PC and the gathered
flags. (R58, R105, R107, R108, R111) -/
def Obligations.ComparesSelectsAndMasks : Prop :=
  ∀ (x : CtxRef) (s : State), NoReturn 1 x s →
    let y := s.ctxOf x
    let w := s.wordOf x
    let c := s.cell x.cell
    let f := fFmt w
    let n := fmtBits f
    let a := y.vReg (fVa w)
    let b := y.vReg (fVb w)
    let m := y.pReg (fP w)
    (Ready .vcmp x s → (if minor w ≤ 5 then 1 ≤ f ∧ f ≤ 5 else 11 ≤ f ∧ f ≤ 13) → ∃ t, exec (.vcmp x) s = .next t ∧
      ∃ v, (Issued x s t (c.gather x.ctx (laneFlags w m (laneBytes f)
          (fun i => { invalid := (vcmpLane f (minor w) (a.elem n i) (b.elem n i)).2 }))) ((y.past 1).setP (fVd w % 8) v)) ∧
        ∀ j < 64,
          let i := j / laneBytes f
          (fPm w = 0 ∨ m.v.getLsbD (i * laneBytes f) = true →
            v.v.getLsbD j = (vcmpLane f (minor w) (a.elem n i) (b.elem n i)).1) ∧
          (fPm w ≠ 0 → m.v.getLsbD (i * laneBytes f) = false →
            v.v.getLsbD j = (decide (fPm w = 1) && (y.pReg (fVd w % 8)).v.getLsbD j))) ∧
    (Ready .vsel x s → vecFmt f = true → ∃ t, exec (.vsel x) s = .next t ∧
      ∃ v, Issued x s t c ((y.past 1).setV (fVd w) v) ∧
        ∀ i, i * n + n ≤ 512 → v.elem n i = if m.v.getLsbD (i * laneBytes f) then a.elem n i else b.elem n i) ∧
    (Ready .extract x s → vecFmt f = true → ∃ t, exec (.extract x) s = .next t ∧
      (let e := y.vReg (bits w 15 12)
       let l := bits w 11 6
       (n = 64 → Issued x s t c ((y.past 1).setPairW (fRd w) (e.elem 64 l)
         ((e.elemM 64 l).testBit 0) ((e.elemM 64 l).testBit 1))) ∧
       (n ≠ 64 → Issued x s t c ((y.past 1).setS (fRd w) ⟨BitVec.ofNat 32 (e.elem n l), e.elemP n l⟩)))) ∧
    (Ready .pred x s → ∃ t, exec (.pred x) s = .next t ∧
      (let d := bits w 20 18
       let p := y.pReg (bits w 17 15)
       let q := y.pReg (bits w 14 12)
       let i := bits w 11 7
       (minor w = 0 → Issued x s t c ((y.past 1).setP d ⟨p.v &&& q.v, p.p || q.p⟩)) ∧
       (minor w = 1 → Issued x s t c ((y.past 1).setP d ⟨p.v ||| q.v, p.p || q.p⟩)) ∧
       (minor w = 2 → Issued x s t c ((y.past 1).setP d ⟨p.v ^^^ q.v, p.p || q.p⟩)) ∧
       (minor w = 3 → Issued x s t c ((y.past 1).setP d ⟨p.v &&& ~~~q.v, p.p || q.p⟩)) ∧
       (minor w = 4 → Issued x s t c ((y.past 1).setP d ⟨~~~p.v, p.p⟩)) ∧
       (minor w = 5 → Issued x s t c ((y.past 1).setP d ⟨BitVec.allOnes 64, false⟩)) ∧
       (minor w = 6 → Issued x s t c ((y.past 1).setP d ⟨0, false⟩)) ∧
       (minor w = 7 → Issued x s t c ((y.past 1).setP d ⟨BitVec.ofNat 64 (y.pair i), y.pairP i⟩)) ∧
       (minor w = 8 → Issued x s t c ((y.past 1).setPair i p.v.toNat p.p)) ∧
       (minor w = 9 → Issued x s t c ((y.past 1).setS i ⟨BitVec.ofNat 32 ((List.range 64).countP (fun j => p.v.getLsbD j)), p.p⟩)) ∧
       (minor w = 10 → ∃ r, Issued x s t c ((y.past 1).setS i ⟨r, p.p⟩) ∧ r.toNat ≤ 64 ∧
         (∀ j < r.toNat, p.v.getLsbD j = false) ∧ (r.toNat < 64 → p.v.getLsbD r.toNat = true))))

/-- O38. A ready LX or VCVT instruction on a format of its operation completes. LXADD's active lanes are the exact sums
where no sum leaves 128 bits; LXSHR's active lanes are the source shifted right and rounded to nearest even; LXOUT's
four elements are one rounding of the exact lane at window W; LXSUM adds the exact sum of the active lanes' elements
on the grid of W to lane 0 where it stays in 128 bits, and keeps lanes 1 to 3; VCVT converts each element, and with MX
writes the block's scale to the last byte. LX flags gather in the register after W's, conversion flags in CTX_FPFLAGS,
and nothing else changes but the PC. (R24, R32, R33, R35, R40, R91, R109, R110) -/
def Obligations.ExactLanesAndConversions : Prop :=
  ∀ (x : CtxRef) (s : State), NoReturn 1 x s →
    let y := s.ctxOf x
    let w := s.wordOf x
    let c := s.cell x.cell
    let f := fFmt w
    let a := y.vReg (fVa w)
    let d := y.vReg (fVd w)
    let m := y.pReg (fP w)
    let win := signed 11 (bits (y.sReg (2 * fVb w)).v.toNat 10 0)
    let fl := 2 * fVb w + 1
    let fits := fun z : Int => -2 ^ 127 ≤ z ∧ z < 2 ^ 127
    let on := fun j => fPm w = 0 ∨ m.v.getLsbD (16 * j) = true
    let writes := fun (t : State) (c' : Cell) (p : VR → Ctx → Prop) => ∃ v z, Issued x s t c' z ∧ p v z ∧
      z = { (y.past 1).setV (fVd w) v with s := z.s, regUe := z.regUe } ∧ ∀ i, i ≠ fl → z.sReg i = y.sReg i
    (Ready .lxadd x s → f = 15 → ∃ t, exec (.lxadd x) s = .next t ∧
      writes t c (fun v _ => ∀ j < 4, on j → fits (lxLane d j + lxLane a j) → lxLane v j = lxLane d j + lxLane a j)) ∧
    (Ready .lxshr x s → f = 15 → ∃ t, exec (.lxshr x) s = .next t ∧
      writes t c (fun v _ => ∀ j < 4, on j →
        lxLane v j = (rneInt (lxLane a j) (-(bits (y.sReg fl).v.toNat 14 8 : Int))).1)) ∧
    (Ready .lxout x s → lxoutFmt f = true → f ≠ 15 → ∃ t, exec (.lxout x) s = .next t ∧ ∃ c', c'.noCtxs = { c with regs := c'.regs }.noCtxs ∧
      writes t c' (fun v _ => ∀ j < 4, v.elem (fmtBits f) j =
        (convert f false (bit w 0) 0 (.fin (decide (lxLane a j < 0)) (lxLane a j).natAbs win)).out % 2 ^ fmtBits f)) ∧
    (Ready .lxsum x s → (1 ≤ f ∧ f ≤ 5 ∨ 11 ≤ f ∧ f ≤ 13) → ∃ t, exec (.lxsum x) s = .next t ∧
      writes t c (fun v _ => (∀ j < 4, j ≠ 0 → v.elem 128 j = d.elem 128 j) ∧
        (∀ g : Nat → Int, (∀ i < 512 / fmtBits f, laneOn w m (laneBytes f) i = true →
            unpack f (a.elem (fmtBits f) i) = .fin (decide (g i < 0)) (g i).natAbs win) →
          (∀ k ≤ 512 / fmtBits f, fits (lxLane d 0 + ((List.range k).map (fun i => if laneOn w m (laneBytes f) i then g i else 0)).sum)) →
          lxLane v 0 = lxLane d 0 + ((List.range (512 / fmtBits f)).map (fun i => if laneOn w m (laneBytes f) i then g i else 0)).sum))) ∧
    (Ready .vcvt x s → bit w 3 = false → vcvtFmt (bits w 12 9) = true → vcvtFmt (bits w 8 5) = true →
      ∃ t, exec (.vcvt x) s = .next t ∧ ∃ c' v, c'.noCtxs = { c with regs := c'.regs }.noCtxs ∧ Issued x s t c' ((y.past 1).setV (fVd w) v) ∧
        ∀ i, (i + 1) * max (fmtBits (bits w 12 9)) (fmtBits (bits w 8 5)) ≤
            (if max (fmtBits (bits w 12 9)) (fmtBits (bits w 8 5)) = 6 then 504 else 512) →
          v.elem (fmtBits (bits w 8 5)) i = (convert (bits w 8 5) (fmtIsInt (bits w 12 9)) (bit w 4) 0
            (unpack (bits w 12 9) (a.elem (fmtBits (bits w 12 9)) i))).out % 2 ^ fmtBits (bits w 8 5)) ∧
    (Ready .vcvt x s → bit w 3 = true → vcvtFmt (bits w 12 9) = true → mxOk (bits w 8 5) true = true → vcvtFmt (bits w 8 5) = true →
      fmtBits (bits w 12 9) ≤ 16 → ∃ t, exec (.vcvt x) s = .next t ∧ ∃ c' v, c'.noCtxs = { c with regs := c'.regs }.noCtxs ∧
        Issued x s t c' ((y.past 1).setV (fVd w) v) ∧ v.v.toNat / 2 ^ 504 = (mxBlock (bits w 8 5) ((List.range 32).map (fun i =>
          unpack (bits w 12 9) (a.elem (fmtBits (bits w 12 9)) i)))).1 % 256)

/-- O39. A ready RECV on an Armature port takes the oldest word into a v register, and on an empty one stops the context
with RECV_EMPTY. On a request port, for contexts 0 to 2, and on port RSP for the context that owns the tag, it takes
the oldest entry whose port and masked tag match, writes payload, tag, source and length, and removes that entry only,
freeing the tag of a response; without a match the context blocks with the port, tag and mask it waits for and nothing
else changes. (R62, R63, R64, R91, R112, R115) -/
def Obligations.ReceivesTakeTheOldestMatch : Prop :=
  ∀ (x : CtxRef) (s : State), Ready .recv x s →
    let y := s.ctxOf x
    let w := s.wordOf x
    let c := s.cell x.cell
    let port := bits w 20 15
    let tv := (y.sReg (bits w 9 5)).v.toNat
    let hit := fun en : RecvEntry => entryMatches x.ctx port (bits tv 11 0) (bits tv 27 16) en
    (portArm port = true → fget nil0 c.ports port = [] → ∃ t, exec (.recv x) s = .next t ∧ OnlyCell x.cell s t ∧
      (t.ctxOf x).state = .faulted ∧ ∃ r, (t.cell x.cell).faults = c.faults ++ [r] ∧ r.code = 0x05 ∧ r.detail = port) ∧
    (portArm port = true → NoReturn 1 x s → ∀ a l, fget nil0 c.ports port = a :: l → ∃ t, exec (.recv x) s = .next t ∧
      Issued x s t { c with ports := (t.cell x.cell).ports }
        ((((y.past 1).setV (bits w 13 10) ⟨a.v, if a.p then BitVec.allOnes 16 else 0⟩).setS (bits w 9 5) ⟨0, false⟩).setS
          (bits w 9 5 + 1) ⟨64, false⟩) ∧
      ∀ p, fget nil0 (t.cell x.cell).ports p = if p = port then l else fget nil0 c.ports p) ∧
    (portArm port = false → (∀ en ∈ if port = 0x30 then c.recvRsp else c.recvReq, hit en = false) → ∃ t, exec (.recv x) s = .next t ∧
      Issued x s t c { y.issuing with state := .blocked, wait := .recv, waitElapsed := 0
                                      waitObj := BitVec.ofNat 32 (port * 65536 + bits tv 11 0)
                                      waitMatch := (port, bits tv 11 0, bits tv 27 16) }) ∧
    (portArm port = false → port ≠ 0x30 → NoReturn 1 x s → ∀ l en l', c.recvReq = l ++ en :: l' → (∀ e ∈ l, hit e = false) →
      hit en = true → ∃ t, exec (.recv x) s = .next t ∧ Issued x s t { c with recvReq := l ++ l' } (recvInto w en (y.past 1))) ∧
    (portArm port = false → port = 0x30 → NoReturn 1 x s → ∀ l en l', c.recvRsp = l ++ en :: l' → (∀ e ∈ l, hit e = false) →
      hit en = true → ∃ t, exec (.recv x) s = .next t ∧ t.ctxOf x = recvInto w en (y.past 1) ∧
        (t.cell x.cell).recvRsp = l ++ l' ∧ (t.cell x.cell).recvReq = c.recvReq ∧ (t.cell x.cell).spd = c.spd ∧
        (t.cell x.cell).regs = c.regs ∧ (t.cell x.cell).tags = c.tags.filter (fun r => r.tag != en.tag) ∧ OnlyCell x.cell s t)

/-- O40. A ready SEND whose destination word is not poisoned and names a valid cell, with room in the injection queue,
appends one message: its kind, length, context, tag, destination and payload as the registers say. A POSTED takes its
tag from s(D + 1); a REQUEST allocates one of the context's own tags that is not in use, records it as outstanding and
writes it to s(D + 1)[11:0]; a RESPONSE goes to the source of the received request at port RSP. The PC goes one word
on where no loop ends. A POSTED or RESPONSE with a full queue waits with nothing changed, and a REQUEST with 8 tags
outstanding blocks. (R113, R114, R115, R232) -/
def Obligations.SendsQueueOneMessage : Prop :=
  ∀ (x : CtxRef) (s : State),
    let y := s.ctxOf x
    let w := s.wordOf x
    let c := s.cell x.cell
    let D := bits w 20 16
    let dv := (y.sReg D).v.toNat
    let from' := (s.logical x.cell).getD (Config.unmappedId x.cell % 16384)
    let queued := fun (d : Cell) (m : Msg) => d.inj = c.inj ++ [m] ∧ m.len = bits w 10 4 ∧ m.srcCtx = x.ctx ∧ m.src = from' ∧
      m.payload = (sendPayload w y).1 ∧ m.poison = (sendPayload w y).2
    (Ready .sendPosted x s → (y.sReg D).p = false → validId s.small (bits dv 13 0) = true → c.injFull = false →
      NoReturn 1 x s → ∃ t, exec (.sendPosted x) s = .next t ∧ ∃ m, queued (t.cell x.cell) m ∧ m.kind = .posted ∧
        m.tag = bits (y.sReg (D + 1)).v.toNat 11 0 ∧ m.port = bits dv 19 14 ∧ m.dest = bits dv 13 0 ∧
        Issued x s t { c with inj := c.inj ++ [m] } (y.past 1)) ∧
    (Ready .sendPosted x s → (y.sReg D).p = false → validId s.small (bits dv 13 0) = true → c.injFull = true →
      ∃ t, exec (.sendPosted x) s = .next t ∧ Issued x s t c y.issuing) ∧
    (Ready .sendRequest x s → (y.sReg D).p = false → validId s.small (bits dv 13 0) = true → c.tagsFull x.ctx = true →
      ∃ t, exec (.sendRequest x) s = .next t ∧ OnlyCell x.cell s t ∧ (t.ctxOf x).state = .blocked ∧ (t.ctxOf x).pc = y.pc ∧
        (t.cell x.cell).inj = c.inj ∧ (t.cell x.cell).tags = c.tags) ∧
    (Ready .sendRequest x s → (y.sReg D).p = false → validId s.small (bits dv 13 0) = true → c.tagsFull x.ctx = false →
      c.injFull = false → NoReturn 1 x s →
      ∃ t, exec (.sendRequest x) s = .next t ∧ ∃ m, queued (t.cell x.cell) m ∧ m.kind = .request ∧ m.port = bits dv 19 14 ∧
        m.dest = bits dv 13 0 ∧ m.tag / 1024 = x.ctx ∧ (∀ r ∈ c.tags, r.tag ≠ m.tag) ∧ m.tag ∉ c.quar ∧
        (t.cell x.cell).tags = c.tags ++ [{ tag := m.tag, ctx := x.ctx, kind := .send, pc := y.pc.toNat }] ∧
        Issued x s t { c with inj := c.inj ++ [m], tags := (t.cell x.cell).tags }
          { (y.past 1).setS (D + 1) ⟨BitVec.ofNat 32 ((y.sReg (D + 1)).v.toNat / 4096 * 4096 + m.tag), (y.sReg (D + 1)).p⟩ with
            tagCtr := (m.tag % 1024 + 1) % 1024 }) ∧
    (Ready .sendResponse x s → (y.sReg D).p = false → validId s.small (bits dv 25 12) = true → c.injFull = false →
      NoReturn 1 x s → ∃ t, exec (.sendResponse x) s = .next t ∧ ∃ m, queued (t.cell x.cell) m ∧ m.kind = .response ∧
        m.tag = bits dv 11 0 ∧ m.port = 0x30 ∧ m.dest = bits dv 25 12 ∧ Issued x s t { c with inj := c.inj ++ [m] } (y.past 1))

/-- O41. A ready SYNC on a valid object, RIF or DMA with an admitted, 64-byte aligned descriptor, its operands not
poisoned and room for a message and a tag, appends one message to the hub cell of the object's court, or of the cell's
own court. A posted SYNC or DMA goes on with no tag; a SYNC that returns a value records its tag and blocks on it with
the PC unchanged; RIF and a DMA with response record their tag, write it to their register and go on. The scratchpad
is unchanged. (R116, R117, R118, R237, R255, R333) -/
def Obligations.CourtRequestsLeaveTheCell : Prop :=
  ∀ (x : CtxRef) (s : State), NoReturn 1 x s →
    let y := s.ctxOf x
    let w := s.wordOf x
    let c := s.cell x.cell
    let id := (s.logical x.cell).getD (Config.unmappedId x.cell % 16384)
    let own := hubId (idX id / 8) (idY id / 8)
    let room := c.injFull = false ∧ c.tagsFull x.ctx = false
    let o := (y.sReg (bits w 20 16)).v.toNat
    let held := (c.locks.filter (fun h => h.ctx == x.ctx)).length
    let sent := fun (t : State) (m : Msg) (k : Nat) => OnlyCell x.cell s t ∧ (t.cell x.cell).inj = c.inj ++ [m] ∧ m.unit = k ∧
      m.srcCtx = x.ctx ∧ m.src = id ∧ (t.cell x.cell).spd = c.spd ∧ (t.cell x.cell).recvReq = c.recvReq ∧ (t.cell x.cell).recvRsp = c.recvRsp
    let tagged := fun (t : State) (m : Msg) (k : TagKind) => m.tag / 1024 = x.ctx ∧
      ∃ r, (t.cell x.cell).tags = c.tags ++ [r] ∧ r.tag = m.tag ∧ r.ctx = x.ctx ∧ r.kind = k ∧ r.pc = y.pc.toNat
    (Ready .sync x s → (y.sReg (bits w 20 16)).p = false → y.pairP (bits w 15 11) = false → syncObjOk s.small o = true →
      (bits w 24 21 = 6 → held < 8) → room →
      ∃ t, exec (.sync x) s = .next t ∧ ∃ m, sent t m 1 ∧ m.dest = hubId (bits o 10 7) (bits o 14 11) ∧ m.info = [bits w 24 21, o] ∧
        m.payload = valBytes (y.pair (bits w 15 11)) 8 ∧
        (bit w 25 = true → m.kind = .posted ∧ (t.cell x.cell).tags = c.tags ∧ t.ctxOf x = y.past 1) ∧
        (bit w 25 = false → m.kind = .request ∧ tagged t m .sync ∧ (t.ctxOf x).state = .blocked ∧ (t.ctxOf x).wait = .sync ∧
          (t.ctxOf x).waitTag = m.tag ∧ (t.ctxOf x).pc = y.pc ∧ ∀ i, (t.ctxOf x).sReg i = y.sReg i)) ∧
    (Ready .sync x s → (y.sReg (bits w 20 16)).p = false → y.pairP (bits w 15 11) = false → syncObjOk s.small o = true →
      bits w 24 21 = 6 → 8 ≤ held → ∃ t v, exec (.sync x) s = .next t ∧
        Issued x s t c (((y.past 1).setS (bits w 10 6) v).setS (bits w 10 6 + 1) ⟨7, false⟩)) ∧
    (Ready .rif x s → (y.aReg (bits w 16 14)).p = false → room →
      ∃ t, exec (.rif x) s = .next t ∧ ∃ m, sent t m 2 ∧ m.kind = .request ∧ m.port = minor w ∧ m.dest = own ∧
        m.info = [(y.aReg (bits w 16 14)).v.toNat, bits w 20 17 + 1] ∧ tagged t m .rif ∧ (t.ctxOf x).pc = y.pc + 1 ∧
        ∀ i, (t.ctxOf x).sReg i = if i = bits w 13 9 then ⟨BitVec.ofNat 32 m.tag, false⟩ else y.sReg i) ∧
    (Ready .dma x s → (y.aReg (bits w 20 18)).p = false → room →
      c.spdCheck 1 ((y.aReg (bits w 20 18)).v.toNat % 64 == 0) ((viewMap false 0 (y.aReg (bits w 20 18)).v.toNat).map (·.1)) = none →
      ∃ t, exec (.dma x) s = .next t ∧ ∃ m, sent t m 3 ∧ m.port = bits w 24 21 ∧ m.dest = own ∧ (t.ctxOf x).pc = y.pc + 1 ∧
        m.payload = valBytes (c.viewLoad (viewMap false 0 (y.aReg (bits w 20 18)).v.toNat)).1.v.toNat 64 ∧
        (bit w 25 = false → m.kind = .posted ∧ (t.cell x.cell).tags = c.tags ∧ ∀ i, (t.ctxOf x).sReg i = y.sReg i) ∧
        (bit w 25 = true → m.kind = .request ∧ tagged t m .dma ∧
          ∀ i, (t.ctxOf x).sReg i = if i = bits w 17 13 then ⟨BitVec.ofNat 32 m.tag, false⟩ else y.sReg i))

/-- O42. A ready TMAC on a cell outside a slab whose block is free, without INTERRUPTED against it, that passes its checks
goes two words on where no loop ends, marks the block busy with the context's operation, opens the accumulation with
its window and cleared entries at START, and leaves the entries otherwise and the scratchpad as they are; no other
cell changes. MAC_OP_COMPLETE of an operation of one iteration without drain on such a cell, whose operands can all be
read, completes: the block is free, every block's products have been added to each of its rows' entries, the entries
of other rows and the scratchpad are as before, and no other cell changes. On a cell with no operation, or held by
FREEZE, it changes nothing. (R41, R47, R119, R120, R122, R123, R128, R130, R135, R587) -/
def Obligations.TileMultiplyAccumulates : Prop :=
  (∀ (x : CtxRef) (s : State), Ready .tmac x s → NoReturn 2 x s →
    let y := s.ctxOf x
    let w := s.wordOf x
    let ext := s.extOf x
    let n := x.cell
    let c := s.cell n
    let win := bits (y.sReg (bits ext 6 2)).v.toNat 10 0
    let op : MacOp := { w := w, ext := ext, ctx := x.ctx, pc := y.pc.toNat, aA := (y.aReg (bits w 10 8)).v.toNat
                        aB := (y.aReg (bits w 7 5)).v.toNat, a6 := (y.aReg 6).v.toNat, a7 := (y.aReg 7).v.toNat
                        strides := (y.sReg (bits ext 11 7)).v.toNat, slab := false, logical := (s.env n).logical
                        start := s.cycle + 1 }
    c.flag CELL_SLAB_CFG_ENABLE = false →
    (c.flag CELL_MAC_STATUS_INTERRUPTED = true → tmStart w = true ∨ c.rd CELL_MAC_ACC_SEL_OWNER ≠ x.ctx) → c.macHeld = false →
    tmacCheck (s.env n) x.ctx w ext (c.take x.ctx) = none →
    ∃ t, exec (.tmac x) s = .next t ∧ OnlyCell n s t ∧
      (let d := t.cell n
       (t.ctxOf x).pc = y.pc + 2 ∧ (t.ctxOf x).state = .running ∧ d.macOp = some (op.withLag (soloSlab n) n) ∧
       d.flag CELL_MAC_STATUS_BUSY = true ∧ d.rd CELL_MAC_STATUS_CTX = x.ctx ∧ d.spd = c.spd ∧
       d.rd CELL_MAC_STATUS_PHASE = (if tmOs w then 2 else 1) ∧
       (tmStart w = true → d.flag CELL_MAC_ACC_SEL_OPEN = true ∧ d.rd CELL_MAC_ACC_SEL_OWNER = x.ctx ∧ d.rd CELL_MAC_ACC_SEL_W = win ∧
         d.openCfg = some ⟨tmOs w, tmFa w, tmFb w, tmMxa w, tmMxb w⟩) ∧
       (∀ m i, d.entry m i = if tmStart w then Acc.clear else c.entry m i))) ∧
  (∀ (n : Nat) (s : State), n < cellCount → s.powered n = true →
    let c := s.cell n
    (c.flag CELL_CTRL_FREEZE = true ∨ c.macOp = none → exec (.macOpComplete n) s = .next s) ∧
    (∀ op, c.macOp = some op → c.flag CELL_CTRL_FREEZE = false → c.flag CELL_SLAB_CFG_ENABLE = false → c.arbWait = false →
      c.drain = [] → op.ended = false → op.left = false → op.iter = 0 → tmBatch op.ext = 1 → tmDrain op.w = false →
      (let tau := op.arrayEnd (soloSlab n)
       let d0 := (c.claim none (fun r => r.origin == n && decide (r.off ≤ tau))).consume op n tau
       let A := readA op n 0 d0
       let B := readB op n 0 d0
       let rows := tmRows op.w
       let nb := tmNb op.ext
       d0.macStuck op n = false →
       opFail A nb rows (fun j m _ => idxA (idxBase op.w nb) rows j m) = none → opFail B nb 16 (idxOfB op.w nb) = none →
       ∃ t, exec (.macOpComplete n) s = .next t ∧ OnlyCell n s t ∧
         (let d := t.cell n
          d.macOp = none ∧ d.flag CELL_MAC_STATUS_BUSY = false ∧ d.rd CELL_MAC_STATUS_PHASE = 0 ∧ d.spd = c.spd ∧
          (∀ m i, m < rows → i < 16 → d.entry m i = accEntry op.w d0.win none rows nb A B m i (c.entry m i)) ∧
          (∀ m i, rows ≤ m → i < 16 → d.entry m i = c.entry m i)))))

/-- O43. A ready MWAIT blocks at the origin of an operation of its context until that operation is over, its verdict and
arbitration included, and in another cell of a slab, or after its own operation left rows to drain, while the block is
busy or draining; else it goes on; a ready PCFG with a good source on an idle block writes the parameter that its
minor and index name and goes on, and blocks while the block is busy; after a slab was broken under its accumulation
the owner gets MAC_INTERRUPTED in place of either. Nothing else changes. (R71, R123, R124, R149, R173) -/
def Obligations.MacWaitsAndParameters : Prop :=
  ∀ (x : CtxRef) (s : State),
    let y := s.ctxOf x
    let w := s.wordOf x
    let c := s.cell x.cell
    let intr := c.flag CELL_MAC_STATUS_INTERRUPTED && c.rd CELL_MAC_ACC_SEL_OWNER == x.ctx
    let busy := c.flag CELL_MAC_STATUS_BUSY || c.flag CELL_MAC_STATUS_DRAINING
    let waits := match c.macOp with
      | some op => op.ctx == x.ctx
      | none => busy && (c.flag CELL_SLAB_CFG_ENABLE || c.rd CELL_MAC_STATUS_CTX == x.ctx)
    let blocks := fun t => Issued x s t c { y.issuing with state := .blocked, wait := .mac, waitObj := 0, waitElapsed := 0 }
    let bad := fun (t : State) => (t.ctxOf x).state = .faulted ∧ OnlyCell x.cell s t ∧
      ∃ r, (t.cell x.cell).faults = c.faults ++ [r] ∧ r.code = 0x60
    (Ready .mwait x s → ∃ t, exec (.mwait x) s = .next t ∧ (intr = true → bad t) ∧
      (intr = false → waits = true → blocks t) ∧
      (intr = false → waits = false → NoReturn 1 x s → Issued x s t c (y.past 1))) ∧
    (Ready .pcfg x s → ∃ t, exec (.pcfg x) s = .next t ∧ (intr = true → bad t) ∧
      (intr = false → busy = true → blocks t) ∧
      (intr = false → busy = false → NoReturn 1 x s →
        (bit w 20 = false → (y.sReg (bits w 19 15)).p = false →
          Issued x s t (c.pcfgWrite (minor w) (bits w 14 11) (y.sReg (bits w 19 15)).v.toNat) (y.past 1)) ∧
        (bit w 20 = true → (y.vReg (bits w 18 15)).p = 0 →
          Issued x s t (c.pcfgWrite (minor w) (bits w 14 11) (y.vReg (bits w 18 15)).v.toNat) (y.past 1))))

/-- O44. Each ready control instruction completes where no loop ends at it: NOP only advances the PC; HALT and BRK leave
the context HALTED at the next instruction, BRK with STEP_DONE; YIELD leaves it out of the selection of the next mesh
cycle; FENCE waits with its PC unchanged while a message of the context is in the injection queue; WAITT blocks until
a later target tick and goes on at once otherwise; WAITF blocks until an edge; RDTICK writes the timebase to a pair
and RDCTX the context's place to a register. Nothing else changes. (R69, R87, R125) -/
def Obligations.ControlInstructions : Prop :=
  ∀ (x : CtxRef) (s : State), NoReturn 1 x s →
    let y := s.ctxOf x
    let w := s.wordOf x
    let c := s.cell x.cell
    let does := fun (i : Instr) (z : Ctx) => ∃ t, exec i s = .next t ∧ Issued x s t c z
    let r := fRd w
    let own := fun m : Msg => m.srcCtx = x.ctx ∧ m.kind ≠ .nack ∧ m.priv = false
    (Ready .nop x s → does (.nop x) (y.past 1)) ∧
    (Ready .halt x s → does (.halt x) { y.past 1 with state := .halted }) ∧
    (Ready .brk x s → does (.brk x) { y.past 1 with state := .halted, stepDone := true }) ∧
    (Ready .yield x s → does (.yield x) { y.past 1 with yielded := 2 }) ∧
    (Ready .fence x s → (∀ m ∈ c.inj, ¬own m) → does (.fence x) (y.past 1)) ∧
    (Ready .fence x s → (∃ m ∈ c.inj, own m) → does (.fence x) y.issuing) ∧
    (Ready .waitt x s → y.pairP r = false → y.pair r ≤ s.tick → does (.waitt x) (y.past 1)) ∧
    (Ready .waitt x s → y.pairP r = false → s.tick < y.pair r → does (.waitt x)
      { y.past 1 with state := .blocked, wait := .time, waitObj := BitVec.ofNat 32 (y.pair r), waitElapsed := 0
                      waitTick := y.pair r, waitEdge := false }) ∧
    (Ready .waitf x s → does (.waitf x)
      { y.past 1 with state := .blocked, wait := .time, waitObj := BitVec.ofNat 32 (s.edgeObj x.cell)
                      waitElapsed := 0, waitEdge := true }) ∧
    (Ready .rdtick x s → does (.rdtick x) ((y.past 1).setPair r s.tick false)) ∧
    (Ready .rdctx x s → ∀ id, s.logical x.cell = some id → does (.rdctx x) ((y.past 1).setS r
      ⟨BitVec.ofNat 32 (x.ctx + 4 * c.rd (CTX_CONFIG_NICHE.ctx x.ctx) + 64 * c.rd (CTX_CONFIG_BOUND.ctx x.ctx) + 65536 * id), false⟩))

/-- O45. A ready RSIG or RASPEND of a context that is not the Restorer's raises PRIV_VIOLATION with opcode bits [31:21].
In the Restorer's context RSIG rotates the court's signature left by 5, folds the register in and goes one word on;
RASPEND ends the cell's pass, counting its steps while the test of the cell is not complete, and outside a pass only
goes one word on. (R126, R477, R479) -/
def Obligations.PrivilegedInstructions : Prop :=
  ∀ (x : CtxRef) (s : State), NoReturn 1 x s →
    let y := s.ctxOf x
    let w := s.wordOf x
    let c := s.cell x.cell
    let q := cellCourt x.cell
    let bad := fun (t : State) => (t.ctxOf x).state = .faulted ∧ OnlyCell x.cell s t ∧
      ∃ r, (t.cell x.cell).faults = c.faults ++ [r] ∧ r.code = 0x0A ∧ r.detail = bits w 31 21
    (Ready .rsig x s → ∃ t, exec (.rsig x) s = .next t ∧
      (c.privOk x.ctx = false → bad t) ∧
      (c.privOk x.ctx = true → (s.court q).rd RES_RASP_SIG_SIG < 2 ^ 64 →
        t = { s with cells := t.cells, courts := t.courts } ∧ t.ctxOf x = y.past 1 ∧ (t.cell x.cell).noCtxs = c.noCtxs ∧
        (∀ n, n ≠ x.cell → t.cell n = s.cell n) ∧ (∀ p, p ≠ q → t.court p = s.court p) ∧
        BitVec.ofNat 64 ((t.court q).rd RES_RASP_SIG_SIG) =
          (BitVec.ofNat 64 ((s.court q).rd RES_RASP_SIG_SIG)).rotateLeft 5 ^^^ ((y.sReg (fRd w)).v.setWidth 64))) ∧
    (Ready .raspend x s → ∃ t, exec (.raspend x) s = .next t ∧
      (c.privOk x.ctx = false → bad t) ∧
      (c.privOk x.ctx = true → c.rasp = false → Issued x s t c (y.past 1)) ∧
      (c.privOk x.ctx = true → c.rasp = true →
        s.raspCell q = x.cell → (s.court q).rd RES_RASP_CTRL_STEP + c.raspSteps < raspTotal (s.court q).raspBanks →
        (t.cell x.cell).rasp = false ∧ (t.cell x.cell).raspSteps = 0 ∧ (t.cell x.cell).rd (CTX_CONFIG_RESTORER.ctx 3) = 0 ∧
        (t.court q).rd RES_RASP_CTRL_STEP = ((s.court q).rd RES_RASP_CTRL_STEP + c.raspSteps) % 2 ^ RES_RASP_CTRL_STEP.width))

/-- O46. On a cell with clocks that is not fenced: START makes a HALTED context READY (context 3 only where it is no
maquette), HALT stops a READY or RUNNING one and abandons a blocked one, a context reset with none due for it clears
its registers, leaves it RESETTING for 10 mesh cycles with its PC at ENTRY, and returns it to HALTED or OFF,
PROG_VALID moves it between OFF and HALTED, STEP issues one instruction where the context is selected and else leaves
it READY and stepping, a slot or receive timeout faults a context that still waits once it has waited 2^EXP mesh
cycles, unless EXP is 31, and a timed wait ends once the timebase has reached its target. In every other state the
commands change nothing. (R66, R69, R70, R72, R104, R125, R65) -/
def Obligations.ContextCommands : Prop :=
  ∀ (x : CtxRef) (s : State), x.ctx < 4 → Live x.cell s →
    let k := x.ctx
    let n := x.cell
    let c := s.cell n
    let y := s.ctxOf x
    let goes := fun (i : Instr) (c' : Cell) => ∃ t, exec i s = .next t ∧ CellIs n s t c'
    let state := fun (st : CtxState) => c.modCtx k (fun z => { z with state := st })
    let expired := c.rd (CTX_TIMEOUT_EXP.ctx k) ≠ 31 ∧ 2 ^ c.rd (CTX_TIMEOUT_EXP.ctx k) ≤ y.waitElapsed
    let mq := k = 3 ∧ c.rd CELL_CTRL_CTX3_ROLE = 1
    (¬ mq → y.state = .halted → goes (.ctxStart x) (c.modCtx k (fun z => { z with state := .ready, stepping := false }))) ∧
    ((mq ∨ y.state ≠ .halted) → goes (.ctxStart x) c) ∧
    (y.state = .ready ∨ y.state = .running → goes (.ctxHalt x) (state .halted)) ∧
    (y.state = .blocked → y.wait ≠ .sync → goes (.ctxHalt x) (c.modCtx k (fun z => { z with state := .halted, wait := .none, stepping := false }))) ∧
    (y.state = .blocked → y.wait = .sync → ∃ t, exec (.ctxHalt x) s = .next t ∧ (t.ctxOf x).state = .halted ∧
      y.waitTag ∈ (t.cell n).quar ∧ (∀ r ∈ (t.cell n).tags, r.tag ≠ y.waitTag) ∧ OnlyCell n s t) ∧
    (y.state = .off ∨ y.state = .halted ∨ y.state = .faulted ∨ y.state = .resetting → goes (.ctxHalt x) c) ∧
    (∀ (now : Nat) (d : Cell), (d.ctx k).state = .resetting → (d.ctx k).resetDue ≤ now + 1 →
      ((d.ctxCycle now k).ctx k).state = if d.rd (CTX_CONFIG_PROG_VALID.ctx k) = 1 then .halted else .off) ∧
    ((s.resets.all (fun r => !(r.level == 1 && r.unit == 4 * n + k))) = true → y.state = .resetting → goes (.ctxReset x) c) ∧
    ((s.resets.all (fun r => !(r.level == 1 && r.unit == 4 * n + k))) = true → y.state ≠ .resetting →
      ∃ t, exec (.ctxReset x) s = .next t ∧ OnlyCell n s t ∧
        t.ctxOf x = { pc := BitVec.ofNat 10 (c.rd (CTX_PC_ENTRY.ctx k)), tagCtr := y.tagCtr
                      state := .resetting, resetDue := s.cycle + 10 } ∧
        (∀ j, j ≠ k → (t.cell n).ctx j = c.ctx j) ∧ (∀ h ∈ (t.cell n).locks, h.ctx ≠ k) ∧ (∀ r ∈ (t.cell n).tags, r.ctx ≠ k) ∧
        (t.cell n).istore = c.istore ∧ (t.cell n).spd = c.spd ∧ (t.cell n).ports = c.ports ∧ (t.cell n).recvReq = c.recvReq) ∧
    (y.state = .off → goes (.progValidWrite x true) ((c.wr (CTX_CONFIG_PROG_VALID.ctx k) 1).modCtx k (fun z => { z with state := .halted }))) ∧
    (y.state = .halted → goes (.progValidWrite x false) ((c.wr (CTX_CONFIG_PROG_VALID.ctx k) 0).modCtx k (fun z => { z with state := .off }))) ∧
    (y.state ≠ .off → y.state ≠ .halted → goes (.progValidWrite x false) c) ∧
    (¬ mq → y.state = .halted →
      let s' := s.modCell n (fun c => c.modCtx k (fun z => { z with state := .ready, stepping := true, stepDone := false }))
      (s'.mayIssue n k = false → exec (.ctxStep x) s = .next s') ∧
      (∀ r, s'.mayIssue n k = true → rowOf (c.word0 k) (c.word1 k) = some r → exec (.ctxStep x) s = .next (s'.issueAt r (rowBody r) n k))) ∧
    (y.state ≠ .halted → goes (.ctxStep x) c) ∧
    (y.state = .blocked → y.wait = .recv → expired →
      ∃ t, exec (.recvTimeout x) s = .next t ∧ OnlyCell n s t ∧ (t.ctxOf x).state = .faulted ∧
        ∃ r, (t.cell n).faults = c.faults ++ [r] ∧ r.code = 0x07 ∧ r.detail = y.waitMatch.1 ∧ r.pc = y.pc.toNat) ∧
    (y.wait ≠ .recv ∨ ¬ expired → goes (.recvTimeout x) c) ∧
    (y.state = .blocked → y.wait = .slot → expired →
      ∃ t, exec (.slotTimeout x) s = .next t ∧ OnlyCell n s t ∧ (t.ctxOf x).state = .faulted ∧ (t.cell n).spd = c.spd ∧
        ∃ r, (t.cell n).faults = c.faults ++ [r] ∧
          r.code = if bit (c.fetchWord k y.pc.toNat) 25 then 0x44 else 0x43) ∧
    (y.state = .blocked → y.wait = .time → y.waitEdge = false → y.waitTick ≤ s.tick → y.stepping = false →
      goes (.waittWake x) (c.modCtx k (fun z => { z with state := .ready, wait := .none }))) ∧
    (s.tick < y.waitTick → goes (.waittWake x) c)

/-- O47. On a cell with clocks that is not fenced, CELL_IS_DATA writes an instruction word of an OFF or HALTED context and
sets BUSY_ERR for any other, CELL_REG_DATA reaches the registers of a HALTED or FAULTED context only, SPD_HOST_DATA
reaches an admitted scratchpad word where the host window is open and answers Unsupported Request where it is closed,
and ARM_RS_DATA reaches entries of an IDLE schedule; a read answers what is stored, an address register with AUTOINC
steps on, and no other cell changes. (R57, R59, R197, R213, R415) -/
def Obligations.DebugWindows : Prop :=
  ∀ (n : Nat) (s : State), Live n s →
    let c := s.cell n
    let ctx := c.rd CELL_IS_ADDR_CTX
    let i := c.rd CELL_IS_ADDR_WORD
    let st := (c.ctx ctx).state
    let k := c.rd CELL_REG_SEL_CTX
    let open' := (c.ctx k).state = .halted ∨ (c.ctx k).state = .faulted
    let a := 4 * c.rd SPD_HOST_ADDR_ADDR
    let rk := c.rd ARM_RS_ADDR_CTX
    let re := c.rd ARM_RS_ADDR_ENTRY
    let only := fun (t : State) => t = { s with cells := t.cells, readVal := t.readVal, readStat := 0 } ∧ ∀ m, m ≠ n → t.cell m = s.cell m
    (∃ t, exec (.cellIsDataAccess n none) s = .next t ∧ only t ∧ t.readVal = (fget w0 c.istore (ctx * 1024 + i)).toNat ∧
      (t.cell n).istore = c.istore) ∧
    (∀ v : W64, ∃ t, exec (.cellIsDataAccess n (some v)) s = .next t ∧ only t ∧
      (t.cell n).rd CELL_IS_ADDR_WORD = (if c.rd CELL_IS_ADDR_AUTOINC = 1 then (i + 1) % 1024 else c.rd CELL_IS_ADDR_WORD) ∧
      (st = .off ∨ st = .halted → ∀ j, fget w0 (t.cell n).istore j =
        if j = ctx * 1024 + i then v.setWidth 32 else fget w0 c.istore j) ∧
      (st ≠ .off → st ≠ .halted → (t.cell n).istore = c.istore ∧ (t.cell n).rd CELL_IS_ADDR_BUSY_ERR = 1)) ∧
    (open' → c.rd CELL_REG_SEL_FILE = 0 → c.rd CELL_REG_SEL_INDEX < 32 →
      (∃ t, exec (.cellRegDataAccess n none) s = .next t ∧ only t ∧ t.readVal = ((c.ctx k).sReg (c.rd CELL_REG_SEL_INDEX)).v.toNat) ∧
      (∀ v : W64, ∃ t, exec (.cellRegDataAccess n (some v)) s = .next t ∧ only t ∧
        (t.cell n).ctx k = (c.ctx k).setS (c.rd CELL_REG_SEL_INDEX) ⟨v.setWidth 32, false⟩)) ∧
    (¬ open' → ∀ w, ∃ t, exec (.cellRegDataAccess n w) s = .next t ∧ only t ∧ (t.cell n).ctxs = c.ctxs ∧
      (t.cell n).rd CELL_REG_SEL_ACC_ERR = 1) ∧
    (s.cellWin n = false → ∀ w, exec (.spdHostDataAccess n w) s = .next { s with readVal := 0, readStat := 2 }) ∧
    (s.cellWin n = true → a < spdBytes → ownAdmits (c.ownState (abank a)) 7 = true → fget ecc0 c.spdEcc (a / 4) = .ok →
      (∃ t, exec (.spdHostDataAccess n none) s = .next t ∧ only t ∧ t.readVal = memRead c.spd a 4 ∧ (t.cell n).spd = c.spd) ∧
      (∀ v : W64, ∃ t, exec (.spdHostDataAccess n (some v)) s = .next t ∧ only t ∧ SameBytes a 4 c.spd (t.cell n).spd ∧
        memRead (t.cell n).spd a 4 = v.toNat % 2 ^ 32 ∧ (t.cell n).wordP a = false)) ∧
    (∃ t, exec (.armRsDataAccess n none) s = .next t ∧ only t ∧ t.readVal = c.route rk re ∧ (t.cell n).routes = c.routes) ∧
    (∀ v : W64, ∃ t, exec (.armRsDataAccess n (some v)) s = .next t ∧ only t ∧
      (c.sched rk = 0 → (t.cell n).route rk re = v.toNat) ∧
      (c.sched rk ≠ 0 → (t.cell n).routes = c.routes ∧ (t.cell n).rd ARM_RS_ADDR_BUSY_ERR = 1))

/-- O48. On a cell whose die has clocks: a write of FREEZE completes and sets or clears it, clearing it unfreezes, and
with no slab to break nothing else changes; FREEZE_COMPLETE completes and, only while FREEZE is set, sets FROZEN and
gives each late context back the registers it held before its instruction, with ABANDONED; a write of CELL_SCAN_CTRL
with GO completes, starts a scan with its direction and, outward, its image where R81 admits it, and is REFUSED
elsewhere; SCAN_DONE completes, does nothing without a scan or while its rounds are held, and else sets DONE, clears
BUSY and ends the scan, having restored an image read in, or the east neighbour's. On a cell with clocks outside the
fences RESTART sets TRAIL to 0xFF and HEADROOM to 0x7F; MAC_OP_COMPLETE of an operation that has ended on one cell
with no row to drain makes the block idle, keeps its entries and wakes the contexts that wait for it. (R79, R80, R81,
R82, R83, R123, R145) -/
def Obligations.FreezeScanAndMacEnd : Prop :=
  ∀ (n : Nat) (s : State), n < cellCount → fget noMark s.dieHalt (cellDie n) = false →
    let c := s.cell n
    (∀ v, ∃ t, exec (.freezeWrite n v) s = .next t ∧ (t.cell n).rd CELL_CTRL_FREEZE = b2n v ∧
      (v = true → c.flag CELL_MAC_STATUS_SLAB_HELD = false → CellIs n s t (c.wr CELL_CTRL_FREEZE 1)) ∧
      (v = false → CellIs n s t { c.wr CELL_CTRL_FREEZE 0 with frozen := false })) ∧
    (∀ late : BitVec 4, ∃ t, exec (.freezeComplete n late) s = .next t ∧ OnlyCell n s t ∧
      (c.rd CELL_CTRL_FREEZE ≠ 1 → t.cell n = c) ∧
      (c.rd CELL_CTRL_FREEZE = 1 → (t.cell n).frozen = true ∧ (t.cell n).spd = c.spd ∧
        ∀ j < 4, (t.cell n).ctx j = if late.getLsbD j then Ctx.abandon (fget c.ctx c.undo j) (c.ctx j) else c.ctx j)) ∧
    (∀ v : W64,
      let sel := bits v.toNat 27 16
      let dest := bits v.toNat 3 2
      let quiet := fun k => (c.ctx k).state = .off ∨ (c.ctx k).state = .halted ∨ (c.ctx k).state = .faulted
      let both := fun d : Cell => d.frozen = true ∧ d.flag CELL_CTRL_ISOLATE = true
      let admitted := c.scanning = false ∧ dest ≠ 3 ∧
        (if bit v.toNat 1 then both c
         else if dest = 2 then both c ∧ both (if cellCol n < 8 then s.cell (n + 1) else {})
         else if [0, 9, 10, 11].any (fun i => bit sel i) then c.frozen = true
         else ∀ i < 8, bit sel (i + 1) = true → quiet (i % 4))
      bit v.toNat 0 = true → ∃ t, exec (.scanGo n v) s = .next t ∧ OnlyCell n s t ∧ (t.cell n).ctxs = c.ctxs ∧ (t.cell n).spd = c.spd ∧
        (admitted → (t.cell n).scanning = true ∧ (t.cell n).scanIn = bit v.toNat 1 ∧ (t.cell n).rd CELL_SCAN_STATUS_BUSY = 1 ∧
          (t.cell n).scanImg = if bit v.toNat 1 then [] else
            ((c.wr CELL_SCAN_CTRL_SECTIONS sel).wr CELL_SCAN_CTRL_DEST dest |>.wr CELL_SCAN_CTRL_DIR 0).image (s.env n) sel) ∧
        (¬ admitted → (t.cell n).scanning = c.scanning ∧ (t.cell n).rd CELL_SCAN_STATUS_REFUSED = 1) ∧
        (c.scanning = true → t.cell n = c.wr CELL_SCAN_STATUS_REFUSED 1)) ∧
    (c.scanning = false ∨ s.scanHeld n = true → exec (.scanDone n) s = .next s) ∧
    (c.scanning = true → s.scanHeld n = false → ∃ t, exec (.scanDone n) s = .next t ∧ (t.cell n).scanning = false ∧
      (t.cell n).rd CELL_SCAN_STATUS_DONE = 1 ∧ (t.cell n).rd CELL_SCAN_STATUS_BUSY = 0 ∧
      (c.scanLeft 0 = false → c.scanLeft 1 = false →
        let sel := c.rd CELL_SCAN_CTRL_SECTIONS
        let east := c.scanIn = false ∧ c.rd CELL_SCAN_CTRL_DEST = 2 ∧ cellCol n < 8
        t = { s with cells := t.cells } ∧
        t.cell n = (if c.scanIn then c.restore (some c) s.tick sel c.scanImg else c).scanEnd (imageLines sel) ∧
        (east → t.cell (n + 1) = (s.cell (n + 1)).restore none s.tick sel c.scanImg) ∧
        ∀ m, m ≠ n → (m ≠ n + 1 ∨ ¬ east) → t.cell m = s.cell m)) ∧
    (s.fused n = false → s.cellFenced n = false → ∃ t, exec (.macFlagsRestart n) s = .next t ∧
      CellIs n s t ((c.wr CELL_MAC_FLAGS_TRAIL 0xFF).wr CELL_MAC_FLAGS_HEADROOM 0x7F)) ∧
    (s.fused n = true ∨ s.cellFenced n = true → exec (.macFlagsRestart n) s = .next s) ∧
    (∀ op, s.fused n = false → c.macOp = some op → op.ended = true → op.left = false → c.drain = [] → c.flag CELL_CTRL_FREEZE = false →
      c.flag CELL_SLAB_CFG_ENABLE = false → c.arbWait = false →
      ∃ t, exec (.macOpComplete n) s = .next t ∧ OnlyCell n s t ∧ (t.cell n).macOp = none ∧ (t.cell n).acc = c.acc ∧
        (t.cell n).rd CELL_MAC_STATUS_BUSY = 0 ∧ (t.cell n).spd = c.spd ∧
        ∀ j < 4, (c.ctx j).state = .blocked → (c.ctx j).wait = .mac → (((t.cell n).ctx j).state = .ready ∧ ((t.cell n).ctx j).pc = (c.ctx j).pc))

/-- O49. On a cell with clocks that is not fenced: a write of SPD_OWN gives a bank with no pending hand-over its new state
in the register, which accesses see 2 cycles later or, from NONE, after a clear of 98 cycles, leaves a bank with a
reserved code or its own, and sets OWN_ERR for a bank that is pending; a pending hand-over whose cycle has come, with
no clear to wait for, makes accesses see the register's state. BANK_CLEAR_END zeroes every bank that is being cleared
and no other byte; SPD_CLEAR starts the clear of banks in NONE and sets CLR_REFUSED for any other; a disabled ring is
enabled where it ends within line 3,071 and refused with CFG_ERR where it does not, an enabled one takes ENABLE alone,
and a ring is reset only while disabled; a write-back makes a correctable word's check bits good. (R187, R189, R191,
R195, R196, R198) -/
def Obligations.ScratchpadCommands : Prop :=
  (∀ (n : Nat) (s : State), Live n s →
    let c := s.cell n
    let pend := fun (d : Cell) b => bit (d.rd SPD_STATUS_PENDING) b
    let clr := fun (d : Cell) b => bit (d.rd SPD_STATUS_CLEARING) b
    (∀ v : W64, c.rd SPD_OWN_STATE < 2 ^ 48 → ∃ t, exec (.spdOwnWrite n v) s = .next t ∧ (t.cell n).spd = c.spd ∧ (∀ m, m ≠ n → t.cell m = s.cell m) ∧
      ∀ b < 16,
        let d := t.cell n
        let old := c.ownField b
        let new := bits v.toNat (3 * b + 2) (3 * b)
        (fget z0 c.ownOld b ≠ 0 → d.ownField b = old ∧ d.ownState b = c.ownState b ∧ d.rd SPD_STATUS_OWN_ERR = 1) ∧
        (fget z0 c.ownOld b = 0 → (5 ≤ new ∨ new = old) → d.ownField b = old ∧ d.ownState b = old ∧ pend d b = pend c b) ∧
        (fget z0 c.ownOld b = 0 → new < 5 → new ≠ old → d.ownField b = new ∧ d.ownState b = old ∧ pend d b = true ∧
          fget z0 d.ownDue b = s.cycle + (if old = 0 then 98 else 2) ∧
          fget z0 d.clears b = if old = 0 then s.cycle + 1 else fget z0 c.clears b)) ∧
    (∃ t, exec (.bankClearEnd n) s = .next t ∧ OnlyCell n s t ∧ ∀ b < 16, ∀ a, abank a = b →
      (fget z0 c.clears b ≠ 0 → memByte (t.cell n).spd a = 0 ∧ (t.cell n).wordP a = false ∧ clr (t.cell n) b = false ∧
        (fget z0 c.ownOld b < 2 → (t.cell n).ownState b = c.ownField b)) ∧
      (fget z0 c.clears b = 0 → memByte (t.cell n).spd a = memByte c.spd a ∧ (t.cell n).wordP a = c.wordP a)) ∧
    (∀ v : W64, ∃ t, exec (.spdClearWrite n v) s = .next t ∧ OnlyCell n s t ∧ (t.cell n).spd = c.spd ∧
      (t.cell n).rd SPD_CLEAR_CLR_REFUSED = (if (List.range 16).any (fun b => bit v.toNat b && c.ownState b != 0) then 1
        else if bit v.toNat 16 then 0 else c.rd SPD_CLEAR_CLR_REFUSED) ∧
      ∀ b < 16, fget z0 (t.cell n).clears b = if bit v.toNat b = true ∧ c.ownState b = 0 ∧ fget z0 c.clears b = 0 then s.cycle + 1
        else fget z0 c.clears b) ∧
    (∀ r < 16, ∀ v : W64, c.rd (SPD_RING_CFG_ENABLE.ring r) = 0 → bits v.toNat 63 63 = 1 →
      ∃ t, exec (.spdRingCfgWrite n r v) s = .next t ∧ OnlyCell n s t ∧ (t.cell n).spd = c.spd ∧
        (let fits := bits v.toNat 11 0 + (bits v.toNat 36 32 + 1) * (bits v.toNat 47 40 + 1) ≤ 3072
         (fits → (t.cell n).rd (SPD_RING_CFG_ENABLE.ring r) = 1 ∧ (t.cell n).rd (SPD_RING_CFG_BASE.ring r) = bits v.toNat 11 0 ∧
           (t.cell n).rd (SPD_RING_CFG_COUNT.ring r) = bits v.toNat 36 32 ∧
           (t.cell n).rd (SPD_RING_CFG_CFG_ERR.ring r) = if bit v.toNat 60 then 0 else c.rd (SPD_RING_CFG_CFG_ERR.ring r)) ∧
         (¬ fits → (t.cell n).rd (SPD_RING_CFG_ENABLE.ring r) = 0 ∧ (t.cell n).rd (SPD_RING_CFG_CFG_ERR.ring r) = 1))) ∧
    (∀ r < 16, ∀ v : W64, bit v.toNat 60 = false → c.rd (SPD_RING_CFG_ENABLE.ring r) = 1 →
      ∃ t, exec (.spdRingCfgWrite n r v) s = .next t ∧ CellIs n s t (c.wr (SPD_RING_CFG_ENABLE.ring r) (bits v.toNat 63 63))) ∧
    (∀ r < 16, c.rd (SPD_RING_CFG_ENABLE.ring r) ≠ 1 → ∃ t, exec (.spdRingReset n r) s = .next t ∧ OnlyCell n s t ∧
      (t.cell n).rd (SPD_RING_ST_FE.ring r) = 0 ∧ (t.cell n).rd (SPD_RING_ST_TAKE.ring r) = 0 ∧ (t.cell n).rd (SPD_RING_ST_PUT.ring r) = 0 ∧
      (t.cell n).rd (SPD_RING_ST_FULL_CNT.ring r) = 0 ∧ (t.cell n).spd = c.spd) ∧
    (∀ r < 16, c.rd (SPD_RING_CFG_ENABLE.ring r) = 1 → ∃ t, exec (.spdRingReset n r) s = .next t ∧ CellIs n s t c) ∧
    (∀ wd < 49152, fget ecc0 c.spdEcc wd = .ce → ∃ t, exec (.spdEccWriteback n wd) s = .next t ∧
      CellIs n s t { c with spdEcc := (t.cell n).spdEcc } ∧ ∀ j, fget ecc0 (t.cell n).spdEcc j = if j = wd then .ok else fget ecc0 c.spdEcc j)) ∧
  (∀ (now b : Nat) (c : Cell), fget z0 c.ownOld b ≠ 0 → fget z0 c.clears b = 0 →
    (fget z0 c.ownDue b ≤ now → (c.ownCycle now b).ownState b = c.ownField b) ∧
    (now < fget z0 c.ownDue b → c.ownCycle now b = c))

/-- O50. For a router whose die has clocks: GO under MODE IMMEDIATE with ENABLE arms a schedule that starts 4 mesh cycles
on, and overruns one that runs; STOP returns it to IDLE, a running one at the end of the mesh cycle; ENABLE arms an
EVERY or ONCE schedule that does not run, and clearing it leaves a running one running; an armed schedule whose start
falls in this mesh cycle starts at entry 0 when entry 0 is valid. Shift mode completes and sets or clears SHIFT; set
outside the last column it moves scratchpad, route schedules, tags and locks to the east neighbour, and otherwise
nothing; a seam alarm sets ALARM in both dies of the seam and makes a niche reset due for every niche that spans it.
(R206, R210, R212, R219) -/
def Obligations.ArmatureCommands : Prop :=
  (∀ (x : CtxRef) (s : State), x.ctx < 4 → x.cell < cellCount → fget noMark s.dieHalt (cellDie x.cell) = false →
    let k := x.ctx
    let n := x.cell
    let c := s.cell n
    let mode := c.rd (ARM_SCHED_CTRL_MODE.arm k)
    (mode = 2 → c.rd (ARM_SCHED_CTRL_ENABLE.arm k) = 1 → c.sched k ≠ 2 → ∃ t, exec (.armGo x) s = .next t ∧ OnlyCell n s t ∧
      (t.cell n).sched k = 1 ∧ fget z0 (t.cell n).armGo k = s.cycle + 4 + 1 ∧ (t.cell n).ctxs = c.ctxs ∧ (t.cell n).spd = c.spd) ∧
    (mode = 2 → c.rd (ARM_SCHED_CTRL_ENABLE.arm k) = 1 → c.sched k = 2 → ∃ t, exec (.armGo x) s = .next t ∧ OnlyCell n s t ∧
      (t.cell n).sched k = 2 ∧ fget z0 (t.cell n).armEnd k = 3 + 1 ∧ ∃ r, (t.cell n).faults = c.faults ++ [r] ∧ r.code = 0x85 ∧ r.pc = 0) ∧
    (mode ≠ 2 → ∃ t, exec (.armGo x) s = .next t ∧ CellIs n s t c) ∧
    (∃ t, exec (.armStop x) s = .next t ∧ OnlyCell n s t ∧ (c.sched k ≠ 2 → (t.cell n).sched k = 0) ∧
      (c.sched k = 2 → (t.cell n).sched k = 2 ∧ fget z0 (t.cell n).armEnd k = 0 + 1) ∧ fget z0 (t.cell n).armGo k = 0 ∧
      fget z0 (t.cell n).armDue k = 0 ∧ (t.cell n).routes = c.routes) ∧
    (∀ (fused : Bool) (d : Cell) (st : Nat), st < 4 → d.sched k = 2 → fget z0 d.armEnd k = st + 1 →
      (d.armEnds (s.env n) fused [k]).sched k = st) ∧
    (mode < 2 → c.sched k ≠ 2 → ∃ t, exec (.armEnableWrite x true) s = .next t ∧ OnlyCell n s t ∧
      (t.cell n).rd (ARM_SCHED_CTRL_ENABLE.arm k) = 1 ∧ (t.cell n).sched k = 1) ∧
    ((2 ≤ mode ∨ c.sched k = 2) → ∃ t, exec (.armEnableWrite x true) s = .next t ∧ CellIs n s t (c.wr (ARM_SCHED_CTRL_ENABLE.arm k) 1)) ∧
    (c.sched k = 1 → ∃ t, exec (.armEnableWrite x false) s = .next t ∧ OnlyCell n s t ∧
      (t.cell n).rd (ARM_SCHED_CTRL_ENABLE.arm k) = 0 ∧ (t.cell n).sched k = 0 ∧ fget z0 (t.cell n).armDue k = 0) ∧
    (c.sched k ≠ 1 → ∃ t, exec (.armEnableWrite x false) s = .next t ∧ CellIs n s t (c.wr (ARM_SCHED_CTRL_ENABLE.arm k) 0)) ∧
    ((s.logical n).isSome = true → s.fused n = false → c.flag ARM_CTRL_SHIFT = false → c.sched k = 1 →
      c.rd (ARM_SCHED_CTRL_ENABLE.arm k) = 1 → fget z0 c.armDue k = s.cycle + 1 → entryBad (c.route k 0) 0 false = false →
      ∃ t, exec (.schedStart x) s = .next t ∧ OnlyCell n s t ∧ (t.cell n).sched k = 2 ∧ fget z0 (t.cell n).armDue k = 0 ∧
        (t.cell n).rd (ARM_SCHED_STATUS_ENTRY.arm k) = 0 ∧ (t.cell n).rd (ARM_SCHED_STATUS_CYCLE.arm k) = 0 ∧
        (t.cell n).rd (ARM_SCHED_STATUS_REP_LEFT.arm k) = reRep (c.route k 0) ∧ (t.cell n).faults = c.faults) ∧
    ((s.logical n).isSome = false → ∃ t, exec (.schedStart x) s = .next t ∧ CellIs n s t c)) ∧
  (∀ (n : Nat) (s : State) (v : Bool), n < cellCount → s.powered n = true →
    let c := s.cell n
    ∃ t, exec (.armShift n v) s = .next t ∧ (t.cell n).rd ARM_CTRL_SHIFT = b2n v ∧ (t.cell n).spd = c.spd ∧
      (v = false ∨ cellCol n = 8 → CellIs n s t (c.wr ARM_CTRL_SHIFT (b2n v))) ∧
      (v = true → cellCol n ≠ 8 → t = { s with cells := t.cells } ∧ (∀ m, m ≠ n → m ≠ n + 1 → t.cell m = s.cell m) ∧
        (t.cell (n + 1)).spd = c.spd ∧ (t.cell (n + 1)).spdEcc = [] ∧ (t.cell (n + 1)).routes = c.routes ∧
        (t.cell (n + 1)).tags = c.tags ∧ (t.cell (n + 1)).quar = c.quar ∧ (t.cell (n + 1)).locks = c.locks)) ∧
  (∀ (seam : Nat) (s : State), seam < 4 → (∀ r ∈ s.resets, 1 ≤ r.level) → ∃ t, exec (.seamAlarm seam) s = .next t ∧ t.cells = s.cells ∧ t.courts = s.courts ∧
    (∀ d, d = (seamDies seam).1 ∨ d = (seamDies seam).2 →
      t.dieRd d (if seam < 2 then ARM_SEAM_STATUS_H_ALARM else ARM_SEAM_STATUS_V_ALARM) = 1) ∧
    ∀ i < 16, (∃ q ∈ s.nicheCourts i, courtDie q = (seamDies seam).1) → (∃ q ∈ s.nicheCourts i, courtDie q = (seamDies seam).2) →
      ∃ r ∈ t.resets, s.covers r { level := 3, unit := i, trigger := 6 } = true)

/-- O51. At a stop whose die has clocks and whose cell carries a logical cell, a message with a good header whose head
flit has arrived at a mesh input channel leaves that input and goes whole to the neighbour its move names, to be due
there after the hop's 2 or 8 cycles, where that port is neither EDGE nor DOWN, the next buffer has room and the output
serves this input; without room, or while the output serves another input, nothing changes; an EDGE port refuses it,
with a NACK for a request. A message that ends there and has arrived with its last flit is written to the cell's
receive buffer (a request), the sync store's, the Riffler's or the DMA port of its court, or stays while the cell
holds deliveries. A NACK faults the context that owns its tag and frees the tag; a response to a SYNC writes its value
and result, frees the tag and moves the context on; a response to a SEND is received and its tag stays. (R238, R239,
R241, R242, R243, R251) -/
def Obligations.StopsMoveMessages : Prop :=
  ∀ (n input vc id : Nat) (s : State) (m : Msg) (l : List Msg), n < cellCount → input < 4 → vc < 2 →
    fget noMark s.dieHalt (cellDie n) = false → s.logical n = some id → fget nil0 (s.cell n).stop (2 * input + vc) = m :: l →
    m.badHdr = false → m.unit < 4 → validId false m.dest = true → m.due ≤ s.cycle →
    let c := s.cell n
    let serves := fun (o : Nat) => s.granted n id input vc o = true
    let arrived := m.due + m.flits - 1 ≤ s.cycle
    let goes := fun (t : State) => exec (.sprueMessageArrive n input vc 0) s = .next t
    let left := fun (d : Cell) => { d with stop := fset nil0 d.stop (2 * input + vc) l }
    let turned := fun (o : Nat) (d : Cell) =>
      { d with sprTurn := fset z0 (fset z0 d.sprTurn (2 * o + vc) (input + 1)) (16 + o) (s.cycle + 1) }
    let took := fun (t : State) => t = { s with cells := t.cells, courts := t.courts } ∧ ∀ k, k ≠ n → t.cell k = s.cell k
    let home := m.dest = id ∧ destRefusal id m = none
    (∀ d m' b, hopOf id false m = .go d m' → neighbour id d = some b → s.phys b ≠ n →
      let inp := (d + 2) % 4
      let key := 2 * inp + m'.vc
      let r := s.cell (s.phys b)
      (bit (c.rd SPR_CTRL_EDGE) d = false → bit (c.rd SPR_CTRL_DOWN) d = false → s.roomAt (s.phys b) inp m' = true → serves d →
        ∃ t, goes t ∧ t = { s with cells := t.cells } ∧ t.cell n = turned d (left c) ∧
          t.cell (s.phys b) = { r with stop := fset nil0 r.stop key (fget nil0 r.stop key ++
            [{ m' with entered := idCourt b != idCourt id, due := s.cycle + sprueLatency id b }]) } ∧
          ∀ k, k ≠ n → k ≠ s.phys b → t.cell k = s.cell k) ∧
      (bit (c.rd SPR_CTRL_EDGE) d = false → bit (c.rd SPR_CTRL_DOWN) d = false → s.roomAt (s.phys b) inp m' = false → goes s) ∧
      (bit (c.rd SPR_CTRL_EDGE) d = false → bit (c.rd SPR_CTRL_DOWN) d = false → s.granted n id input vc d = false → goes s) ∧
      (bit (c.rd SPR_CTRL_EDGE) d = true → m.kind = .request → ∃ t, goes t ∧ OnlyCell n s t ∧
        (t.cell n).stop = (left c).stop ∧ (t.cell n).rd SPR_ERR_REFUSED = 1 ∧ ∃ r, (t.cell n).inj = c.inj ++ [r] ∧ r.kind = .nack ∧
          r.dest = m.src ∧ r.tag = m.tag ∧ (r.payload.headD 0).toNat = 4)) ∧
    (home → c.holdsDelivery m = true ∨ ¬ arrived ∨ s.granted n id input vc 4 = false → goes s) ∧
    (home → arrived → serves 4 → c.holdsDelivery m = false → m.unit = 0 → m.kind = .posted ∨ m.kind = .request → ∃ t, goes t ∧ took t ∧ t.courts = s.courts ∧
      (t.cell n).recvReq = c.recvReq ++ [⟨m.payload, m.len, m.port, m.tag, m.src, m.poison⟩] ∧ (t.cell n).recvRsp = c.recvRsp ∧
      (t.cell n).spd = c.spd ∧ (t.cell n).stop = (left c).stop) ∧
    (home → arrived → serves 4 → m.unit = 1 → m.poison = false → ∃ t, goes t ∧ took t ∧ t.cell n = turned 4 (left c) ∧
      CourtIs (cellCourt n) { s with cells := t.cells } t { s.court (cellCourt n) with syncIn := (s.court (cellCourt n)).syncIn ++ [m] }) ∧
    (home → arrived → serves 4 → m.unit = 2 → ∃ t, goes t ∧ took t ∧ t.cell n = turned 4 (left c) ∧
      CourtIs (cellCourt n) { s with cells := t.cells } t { s.court (cellCourt n) with rifIn := (s.court (cellCourt n)).rifIn ++ [m] }) ∧
    (home → arrived → serves 4 → m.unit = 3 → ∃ t, goes t ∧ took t ∧ t.cell n = turned 4 (left c) ∧
      CourtIs (cellCourt n) { s with cells := t.cells } t { s.court (cellCourt n) with dmaIn := (s.court (cellCourt n)).dmaIn ++ [m] }) ∧
    (∀ a b r, c.tags = a ++ r :: b → (∀ e ∈ a, e.tag ≠ m.tag) → r.tag = m.tag → r.ctx < 4 → home → arrived → serves 4 → m.unit = 0 →
      c.holdsDelivery m = false →
      let y := c.ctx r.ctx
      (m.kind = .nack → ∃ t, exec (.nackReceive n input vc) s = .next t ∧ took t ∧ (t.cell n).tags = a ++ b ∧
        ((t.cell n).ctx r.ctx).state = .faulted ∧ (t.cell n).stop = (left c).stop ∧
        ∃ f, (t.cell n).faults = c.faults ++ [f] ∧ f.code = 0xA0 ∧ f.ctx = r.ctx ∧ f.pc = r.pc ∧ f.detail = (m.payload.headD 0).toNat % 16) ∧
      (m.kind = .response → r.kind = .sync → y.state = .blocked → y.wait = .sync → y.waitTag = r.tag → y.stepping = false →
        (∀ i < 4, y.lReg i = 0) → ∃ t, exec (.responseReceive n input vc) s = .next t ∧ took t ∧ (t.cell n).tags = a ++ b ∧
        (t.cell n).ctx r.ctx = { (y.setS r.rd ⟨BitVec.ofNat 32 (bytesVal m.payload 8), m.poison⟩).setS (r.rd + 1)
          ⟨BitVec.ofNat 32 (bytesVal m.payload 8 / 2 ^ 32), m.poison⟩ with state := .ready, wait := .none, pc := y.pc + 1 } ∧
        (t.cell n).recvRsp = c.recvRsp) ∧
      (m.kind = .response → r.kind = .send → c.scanning = false → ∃ t, exec (.responseReceive n input vc) s = .next t ∧ took t ∧
        (t.cell n).tags = c.tags ∧ (t.cell n).recvRsp = c.recvRsp ++ [⟨m.payload, m.len, 0x30, m.tag, m.src, m.poison⟩] ∧
        (t.cell n).spd = c.spd))

/-- O52. SPR_RT_DATA writes the entry its address names in a table that is not active, and sets BUSY_ERR with nothing
written in the active one or while messages of the old one remain; PRIV_HOLD is written as given; ACTIVE switches
while the hold is set and no privileged message is in the niche, and else sets SWITCH_ERR and leaves ACTIVE.
SPR_RSP_TIMEOUT of a tag without a received response quarantines it and faults its context with SPR_TIMEOUT; a tag
that is not outstanding changes nothing. (R247, R248, R249, R250, R252, R253) -/
def Obligations.RouteTablesEpochsAndTimeouts : Prop :=
  (∀ (q : Nat) (v : W64) (s : State), CourtLive q s →
    let c := s.court q
    let ver := c.rd SPR_RT_ADDR_VER
    let k := ver * 144 + c.rd SPR_RT_ADDR_INDEX
    (s.nicheAt q = none → ∃ t, exec (.sprRtDataWrite q v) s = .next t ∧ CourtIs q s t { c with rt := (t.court q).rt } ∧
      ∀ j, fget r0 (t.court q).rt j = if j = k then v else fget r0 c.rt j) ∧
    (∀ i, s.nicheAt q = some i → ver ≠ s.dieRd 0 (SPR_NICHE_EPOCH_ACTIVE.epoch i) → s.oldBusy i = false →
      ∃ t, exec (.sprRtDataWrite q v) s = .next t ∧ CourtIs q s t { c with rt := (t.court q).rt } ∧
        ∀ j, fget r0 (t.court q).rt j = if j = k then v else fget r0 c.rt j) ∧
    (∀ i, s.nicheAt q = some i → ver = s.dieRd 0 (SPR_NICHE_EPOCH_ACTIVE.epoch i) ∨ s.oldBusy i = true →
      ∃ t, exec (.sprRtDataWrite q v) s = .next t ∧ CourtIs q s t (c.wr SPR_RT_ADDR_BUSY_ERR 1))) ∧
  (∀ (i : Nat) (v : Bool) (s : State), i < 16 →
    (∃ t, exec (.privHoldWrite i v) s = .next t ∧ DieSets 0 [(SPR_NICHE_EPOCH_PRIV_HOLD.epoch i, if v then 1 else 0)] s t) ∧
    (s.dieRd 0 (SPR_NICHE_EPOCH_PRIV_HOLD.epoch i) ≠ 0 → s.privBusy i = false →
      ∃ t, exec (.epochActiveWrite i v) s = .next t ∧ DieSets 0 [(SPR_NICHE_EPOCH_ACTIVE.epoch i, if v then 1 else 0)] s t) ∧
    (s.dieRd 0 (SPR_NICHE_EPOCH_PRIV_HOLD.epoch i) = 0 ∨ s.privBusy i = true →
      ∃ t, exec (.epochActiveWrite i v) s = .next t ∧ DieSets 0 [(SPR_NICHE_EPOCH_SWITCH_ERR.epoch i, 1)] s t)) ∧
  (∀ (n tag : Nat) (s : State), n < cellCount → s.powered n = true → tag < 4096 →
    let c := s.cell n
    ((∀ r ∈ c.tags, r.tag ≠ tag) → ∃ t, exec (.sprRspTimeout n tag) s = .next t ∧ CellIs n s t c) ∧
    (∀ a r b, c.tags = a ++ r :: b → (∀ e ∈ a, e.tag ≠ tag) → r.tag = tag → (∀ e ∈ c.recvRsp, e.tag ≠ tag) →
      ∃ t, exec (.sprRspTimeout n tag) s = .next t ∧ OnlyCell n s t ∧ (t.cell n).tags = a ++ b ∧ (t.cell n).quar = c.quar ++ [tag] ∧
        ((t.cell n).ctx r.ctx).state = .faulted ∧ (t.cell n).spd = c.spd ∧
        ∃ f, (t.cell n).faults = c.faults ++ [f] ∧ f.code = 0xA1 ∧ f.ctx = r.ctx ∧ f.pc = r.pc ∧ f.detail = tag % 1024))

/-- O53. At a court with clocks, the operation at the front of the sync port, on an object no waiter waits on: READ
answers VALUE, or a lock's state and owner; ADD, SET, CAS, FLAG_SET and FLAG_CLEAR write the new VALUE and answer the
old; WAIT_GE and FLAG_WAIT answer a satisfied condition and else take a waiter entry; ARRIVE counts, waits, and with
the last arrival steps the phase; ACQUIRE takes a FREE or ORPHANED lock and waits on a HELD one; RELEASE by the owner
frees it and by another is NOT_OWNER, counted and logged. A FREE-typed object answers TYPE_MISMATCH unchanged. A
posted operation gets no answer. No other court or unit changes. (R256, R257, R258, R259, R260, R263) -/
def Obligations.SyncObjectsAnswer : Prop :=
  ∀ (q : Nat) (s : State) (m : Msg) (l : List Msg), CourtLive q s → (s.court q).syncIn = m :: l → m.port = 0 →
    let c := s.court q
    let op := m.info.getD 0 0
    let k := m.info.getD 1 0 % 128
    let ty := c.rd (SYN_CFG_TYPE.syn k)
    let old := c.rd (SYN_STATE_VALUE.syn k)
    let lst := c.rd (SYN_STATE_LSTATE.syn k)
    let arr := c.rd (SYN_STATE_ARRIVED.syn k) + 1
    let a := bytesVal m.payload 8 % 2 ^ 32
    let b := bytesVal m.payload 8 / 2 ^ 32
    let ge := fun x : Nat => (old + 2 ^ 32 - x) % 2 ^ 32 < 2 ^ 31
    let set := fun (d : Court) v => d.wr (SYN_STATE_VALUE.syn k) v
    let replies := fun (i : Instr) (d : Court) (value result : Nat) => ∃ t, exec i s = .next t ∧ CourtIs q s t
      { d with syncIn := l, out := if m.kind = .posted then c.out else c.out ++ [syncAnswer q m.src m.tag value result] }
    let waits := fun (i : Instr) (d : Court) (phase : Nat) => m.kind ≠ .posted → c.waiters.length < 64 →
      ∃ t, exec i s = .next t ∧ CourtIs q s t { d with syncIn := l, waiters := c.waiters ++ [⟨k, op, m.src, m.srcCtx, m.tag, a, b, phase⟩] }
    let mine := lst ≠ 0 ∧ c.rd (SYN_STATE_OWNER_CELL.syn k) = m.src ∧ c.rd (SYN_STATE_OWNER_CTX.syn k) = m.srcCtx
    (∀ w ∈ c.waiters, w.obj ≠ k) → old < 2 ^ 32 →
    (op = 0 → ty = 1 ∨ ty = 2 ∨ ty = 4 → replies (.syncRead q) c old 0) ∧
    (op = 0 → ty = 3 → replies (.syncRead q) c (lst * 65536 + c.rd (SYN_STATE_OWNER_CELL.syn k) * 4 + c.rd (SYN_STATE_OWNER_CTX.syn k)) 0) ∧
    (op = 1 → ty = 1 → replies (.syncAdd q) (set c ((old + a) % 2 ^ 32)) old 0) ∧
    (op = 2 → ty = 1 ∨ ty = 4 → replies (.syncSet q) (set c a) old 0) ∧
    (op = 3 → ty = 1 ∨ ty = 4 → (old = a → replies (.syncCas q) (set c b) old 0) ∧ (old ≠ a → replies (.syncCas q) c old 3)) ∧
    (op = 4 → ty = 1 ∨ ty = 2 → (ge a → replies (.syncWaitGe q) c old 0) ∧ (¬ ge a → waits (.syncWaitGe q) c 0)) ∧
    (op = 5 → ty = 2 → arr = c.rd (SYN_CFG_TARGET.syn k) →
      replies (.syncArrive q) (set (c.wr (SYN_STATE_ARRIVED.syn k) 0) ((old + 1) % 2 ^ 32)) old 0) ∧
    (op = 5 → ty = 2 → arr ≠ c.rd (SYN_CFG_TARGET.syn k) → waits (.syncArrive q) (c.wr (SYN_STATE_ARRIVED.syn k) arr) old) ∧
    (op = 6 → ty = 3 → lst ≠ 1 → replies (.syncAcquire q) (set (((c.wr (SYN_STATE_LSTATE.syn k) 1).wr (SYN_STATE_OWNER_CELL.syn k) m.src).wr
      (SYN_STATE_OWNER_CTX.syn k) m.srcCtx) ((old + 1) % 2 ^ 32)) ((old + 1) % 2 ^ 32) (if lst = 2 then 1 else 0)) ∧
    (op = 6 → ty = 3 → lst = 1 → waits (.syncAcquire q) c 0) ∧
    (op = 7 → ty = 3 → mine → replies (.syncRelease q) (c.wr (SYN_STATE_LSTATE.syn k) 0) 0 (if lst = 2 then 1 else 0)) ∧
    (op = 7 → ty = 3 → ¬ mine → ∃ t, exec (.syncRelease q) s = .next t ∧
      t.court q = { c.addSat SYN_STATUS_NOT_OWNER_CNT 1 with syncIn := l
                                                             out := if m.kind = .posted then c.out else c.out ++ [syncAnswer q m.src m.tag 0 2] } ∧
      (∃ r, fget nil0 t.events (courtDie q) = fget nil0 s.events (courtDie q) ++ [r] ∧ r.code = 0xA0 ∧ r.detail = 8 ∧ r.ctx = m.srcCtx) ∧
      t = { s with courts := t.courts, events := t.events } ∧ ∀ p, p ≠ q → t.court p = s.court p) ∧
    (op = 8 → ty = 4 → replies (.syncFlagSet q) (set c (old ||| a)) old 0) ∧
    (op = 9 → ty = 4 → replies (.syncFlagClear q) (set c (old &&& (a ^^^ (2 ^ 32 - 1)))) old 0) ∧
    (op = 10 → ty = 4 → (old &&& a = b → replies (.syncFlagWait q) c old 0) ∧ (old &&& a ≠ b → waits (.syncFlagWait q) c 0)) ∧
    (op = 1 → ty = 0 → ∃ v, replies (.syncAdd q) c v 4) ∧
    (∀ i ∈ [(.syncRead q, 0), (.syncAdd q, 1), (.syncSet q, 2), (.syncCas q, 3), (.syncWaitGe q, 4), (.syncArrive q, 5),
      (.syncAcquire q, 6), (.syncRelease q, 7), (.syncFlagSet q, 8), (.syncFlagClear q, 9), (.syncFlagWait q, 10)],
      i.2 ≠ op → op < 0xB → exec i.1 s = .next s)

/-- O54. At a court with clocks: SYN_STATE_WRITE writes the object's fields, a reserved lock state kept, and answers
exactly the waiters of that object that the written VALUE satisfies, oldest first; SYNC_WAIT_TIMEOUT takes one waiter
away and answers it TIMEOUT with nothing else changed; RELEASE by the owner of a lock that an ACQUIRE waits on hands
it to the oldest; an orphan notice takes the context's waiters away, and a HELD lock of it that no ACQUIRE waits on
becomes ORPHANED. (R257, R258, R260, R261) -/
def Obligations.WaitersEndAsRuled : Prop :=
  ∀ (q : Nat) (s : State), CourtLive q s →
    let c := s.court q
    (∀ k < 128, ∀ v : W64,
      let n := v.toNat
      let x := bits n 31 0
      let ok := fun w : Waiter => w.obj == k && (w.op == 4 && decide ((x + 2 ^ 32 - w.op1 % 2 ^ 32) % 2 ^ 32 < 2 ^ 31) ||
        w.op == 5 && decide ((x + 2 ^ 32 - (w.phase + 1) % 2 ^ 32) % 2 ^ 32 < 2 ^ 31) || w.op == 10 && (x &&& w.op1) == w.op2)
      ∃ t, exec (.synStateWrite q k v) s = .next t ∧ CourtIs q s t { c with regs := (t.court q).regs, waiters := c.waiters.filter (fun w => !ok w)
                                                                            out := c.out ++ (c.waiters.filter ok).map (fun w =>
                                                                              syncAnswer q w.src w.tag (if w.op = 5 then w.phase else x) 0) } ∧
        ∀ g, (t.court q).rd g = newest [(SYN_STATE_VALUE.syn k, x), (SYN_STATE_ARRIVED.syn k, bits n 45 32),
          (SYN_STATE_OWNER_CELL.syn k, bits n 59 46), (SYN_STATE_OWNER_CTX.syn k, bits n 61 60),
          (SYN_STATE_LSTATE.syn k, if bits n 63 62 = 3 then c.rd (SYN_STATE_LSTATE.syn k) % 4 else bits n 63 62)] g (c.rd g)) ∧
    (∀ a w b, c.waiters = a ++ w :: b → w.obj < 128 → ∃ t, exec (.syncWaitTimeout q a.length) s = .next t ∧
      CourtIs q s t { c.addSat SYN_STATUS_TIMEOUT_CNT 1 with waiters := a ++ b
                                                             out := c.out ++ [syncAnswer q w.src w.tag
                                                               (if w.op = 5 then w.phase else c.rd (SYN_STATE_VALUE.syn w.obj)) 6] }) ∧
    (∀ i, c.waiters.length ≤ i → exec (.syncWaitTimeout q i) s = .next s) ∧
    (∀ m l a w b, c.syncIn = m :: l → m.port = 0 →
      let k := m.info.getD 1 0 % 128
      let won := (c.rd (SYN_STATE_VALUE.syn k) + 1) % 2 ^ 32
      m.info.getD 0 0 = 7 → c.rd (SYN_CFG_TYPE.syn k) = 3 → c.rd (SYN_STATE_LSTATE.syn k) = 1 →
      c.rd (SYN_STATE_OWNER_CELL.syn k) = m.src → c.rd (SYN_STATE_OWNER_CTX.syn k) = m.srcCtx → m.kind ≠ .posted →
      c.waiters = a ++ w :: b → (∀ e ∈ a, e.obj = k → e.op ≠ 6) → w.obj = k → w.op = 6 →
      ∃ t, exec (.syncRelease q) s = .next t ∧ CourtIs q s t
        { (((c.wr (SYN_STATE_LSTATE.syn k) 1).wr (SYN_STATE_OWNER_CELL.syn k) w.src).wr (SYN_STATE_OWNER_CTX.syn k) w.ctx).wr
            (SYN_STATE_VALUE.syn k) won with
          syncIn := l, waiters := a ++ b
          out := c.out ++ [syncAnswer q w.src w.tag won 0, syncAnswer q m.src m.tag 0 0] }) ∧
    (∀ m l, c.syncIn = m :: l → m.port = 1 →
      let stay := c.waiters.filter (fun w => !(w.src == m.src && w.ctx == m.srcCtx))
      let held := fun k => c.rd (SYN_CFG_TYPE.syn k) = 3 ∧ c.rd (SYN_STATE_LSTATE.syn k) = 1 ∧
        c.rd (SYN_STATE_OWNER_CELL.syn k) = m.src ∧ c.rd (SYN_STATE_OWNER_CTX.syn k) = m.srcCtx
      (∀ w ∈ stay, w.op ≠ 6) → ∃ t, exec (.orphanNotice q) s = .next t ∧
        CourtIs q s t { c with regs := (t.court q).regs, syncIn := l, waiters := stay } ∧
        ∀ k < 128, (held k → (t.court q).rd (SYN_STATE_LSTATE.syn k) = 2) ∧
          (¬ held k → (t.court q).rd (SYN_STATE_LSTATE.syn k) = c.rd (SYN_STATE_LSTATE.syn k)) ∧
          (t.court q).rd (SYN_STATE_VALUE.syn k) = c.rd (SYN_STATE_VALUE.syn k) ∧
          (t.court q).rd (SYN_STATE_OWNER_CELL.syn k) = c.rd (SYN_STATE_OWNER_CELL.syn k))

/-- O55. At a court with clocks: a request is accepted, oldest first, while fewer than 4 operations are held, and answered
RIF_QFULL otherwise. The prologue of the oldest held operation ends a misaligned descriptor with RIF_ADDR 8, and with
a descriptor and list that pass every check starts it at its launch cycle, on the court's grid without T and at the
cycle it names with T unless that is too early, which ends it with RIF_LATE; the completion is due one cycle after the
launch of an operation that the prologue ends, after the running time of one it starts, and 13 cycles after the
request at the earliest of one that is late. RIF_COMPLETE sends the due completion of the oldest ended operation, with
its code, to its requester under its tag, and none before its cycle. (R276, R277, R278, R279, R280, R290) -/
def Obligations.RifflerAcceptsAndCompletes : Prop :=
  ∀ (q : Nat) (s : State), CourtLive q s →
    let c := s.court q
    (∀ m l, c.rifIn = m :: l → c.rif.length < 4 → ∃ t, exec (.rifRequestArrive q) s = .next t ∧
      CourtIs q s t { c with rifIn := l
                             rif := c.rif ++ [{ src := m.src, ctx := m.srcCtx, tag := m.tag, op := m.port, aD := m.info.getD 0 0
                                                fan := m.info.getD 1 0, arrive := s.cycle, edge := c.edge.getD (s.runStart q) }] }) ∧
    (∀ m l, c.rifIn = m :: l → 4 ≤ c.rif.length → m.port < 256 → ∃ t, exec (.rifRequestArrive q) s = .next t ∧
      (∃ r, CourtIs q s t { c with regs := (t.court q).regs, rifIn := l, out := c.out ++ [r] } ∧ r.kind = .response ∧ r.dest = m.src ∧
        r.tag = m.tag ∧ (r.payload.getD 1 0).toNat = 0xC5) ∧
      (c.rd RIF_FAULT_VALID = 0 → (t.court q).rd RIF_FAULT_CODE = 0xC5 ∧ (t.court q).rd RIF_FAULT_VALID = 1)) ∧
    (∀ a o b, c.rif = a ++ o :: b → (∀ p ∈ a, p.phase ≠ .held) → o.phase = .held → o.code = 0 → c.flag CRT_STATUS_CLEARING = false →
      let ends := fun (late : Prop) (code detail : Nat) => ∃ t o', exec (.rifPrologue q) s = .next t ∧
        CourtIs q s t { c with regs := (t.court q).regs, rif := a ++ o' :: b } ∧ o'.phase = .done ∧ o'.code = code ∧ o'.detail = detail ∧
        o'.src = o.src ∧ o'.tag = o.tag ∧ (late → o'.due = max (o.arrive + 13) (s.cycle + 1)) ∧ (¬ late → o'.due = o'.launch + 1)
      let d := (List.range 8).map (fun i => memRead c.plinth (o.aD + 8 * i) 4 + 2 ^ 32 * memRead c.plinth (o.aD + 8 * i + 4) 4)
      let ls := (c.rifList o.op d).1
      let lst := ls.map (fun e => e.1)
      let e := c.edge.getD (s.runStart q)
      let l := if bit (dw d 0) 55 then o.edge + 12 * bits (dw d 0) 54 32 else boundary e (max (o.arrive + 12) c.rifEnd)
      let late := bit (dw d 0) 55 = true ∧ (l < o.arrive + 12 ∨ l < c.rifEnd)
      (o.aD % 64 ≠ 0 → ends False 0xC2 8) ∧
      (o.aD % 64 = 0 → o.aD < plnBytes → c.good o.aD 16 → (∀ i < 16, fget noMark c.plnPoison (o.aD / 4 + i) = false) →
        (∀ w, rifDescBad o.op d = some w → ends late 0xC1 w) ∧
        (∀ w, rifDescBad o.op d = none → rifAddrBad o.op d = some w → ends late 0xC2 w) ∧
        (rifDescBad o.op d = none → rifAddrBad o.op d = none → (c.rifList o.op d).2 = c → rifListBad o.op o.fan d ls = none →
          (late → ends late 0xC4 0) ∧
          (¬ late → ∃ t, exec (.rifPrologue q) s = .next t ∧
            CourtIs q s t { c with
              rifEnd := l + rifTime o.op o.fan d
              rif := a ++ { o with phase := .running, launch := l, due := l + rifTime o.op o.fan d + 1, edge := if bit (dw d 0) 55 then o.edge else e
                                   desc := d, list := lst, fact := rifFanin o.op d lst } :: b })))) ∧
    (∀ a o b, c.rif = a ++ o :: b → (∀ p ∈ a, p.phase = .held ∨ p.phase = .running ∨ s.cycle < p.due) → o.phase = .moved ∨ o.phase = .done → o.due ≤ s.cycle →
      ∃ t r, exec (.rifComplete q) s = .next t ∧ CourtIs q s t { c with rif := a ++ b, out := c.out ++ [r] } ∧ r.kind = .response ∧
        r.dest = o.src ∧ r.tag = o.tag ∧ r.port = 0x30 ∧ (o.op < 256 → o.code < 256 → (r.payload.getD 1 0).toNat = o.code)) ∧
    ((∀ o ∈ c.rif, o.phase = .held ∨ o.phase = .running ∨ s.cycle < o.due) → ∃ t, exec (.rifComplete q) s = .next t ∧ CourtIs q s t c)

/-- O56. At a court with clocks, for the running operation from its launch cycle on, with its lines admitted and good:
after GATHER every line of dealt row i reads as the line of the table row that index i names, zeros for index
0xFFFF_FFFF, and no other scratchpad byte and no plinth byte differs. After SCADD every line of a named table row
reads as the row with every source row of that index added to it, saturating, in row order, rows of index 0xFFFF_FFFF
skipped; no other plinth byte and of no cell more than the port's latest claims differ. The operation is then ended
and waits for its completion. (R274, R282, R283, R284, R285) -/
def Obligations.GatherAndScaddMoveRows : Prop :=
  ∀ (q : Nat) (s : State) (a b : List RifOp) (o : RifOp), CourtLive q s → (s.court q).rif = a ++ o :: b →
    (∀ p ∈ a, p.phase = .moved ∨ p.phase = .done) → o.phase = .running → o.launch ≤ s.cycle → (s.court q).flag CRT_STATUS_CLEARING = false →
    maskCells (dw o.desc 3) ≠ [] →
    let c := s.court q
    let n := rifRowLines o.desc
    let at' := fun i l => dealt s q o.desc i l
    let src := fun i l => (s.cell (at' i l).1).line (at' i l).2
    let rows := o.list.zipIdx
    let used := rows.filter (fun r => r.1 != 0xFFFFFFFF)
    let fmt := bits (dw o.desc 4) 35 32
    let ended := fun (t : State) (f : Nat) => t = { s with cells := t.cells, courts := t.courts } ∧ bit f 6 = false ∧
      (∀ p, p ≠ q → t.court p = s.court p) ∧ (t.court q).rif = a ++ { o with phase := .moved, flags := f, inline := [] } :: b ∧
      (t.court q).out = c.out
    (o.op = 0 → (∀ r ∈ rows, ∀ l < n, (s.cell (at' r.2 l).1).admits 4 (at' r.2 l).2) →
      (∀ r ∈ used, ∀ l < n, tableLine o.desc r.1 l % 64 = 0 ∧ c.good (tableLine o.desc r.1 l) 16) →
      ∃ t f, exec (.gather q) s = .next t ∧ ended t f ∧ (t.court q).plinth = c.plinth ∧ (t.court q).plnPoison = c.plnPoison ∧
        (∀ r ∈ rows, ∀ l < n, (t.cell (at' r.2 l).1).line (at' r.2 l).2 =
          if r.1 = 0xFFFFFFFF then ⟨0, 0⟩ else c.line (tableLine o.desc r.1 l)) ∧
        (∀ k, (s.cell k).spdOnly (t.cell k)) ∧
        (∀ k e, (∀ r ∈ rows, ∀ l < n, (at' r.2 l).1 = k → e < (at' r.2 l).2 ∨ (at' r.2 l).2 + 64 ≤ e) →
          memByte (t.cell k).spd e = memByte (s.cell k).spd e)) ∧
    (o.op = 1 → (∀ r ∈ used, ∀ l < n, (s.cell (at' r.2 l).1).admits 4 (at' r.2 l).2 ∧ (s.cell (at' r.2 l).1).lineGood (at' r.2 l).2 ∧
        tableLine o.desc r.1 l % 64 = 0 ∧ c.good (tableLine o.desc r.1 l) 16 ∧ s.fullSlot q (tableLine o.desc r.1 l) = none) →
      ∃ t f, exec (.scadd q) s = .next t ∧ ended t f ∧ (∀ k, (s.cell k).claimOnly (t.cell k)) ∧
        (∀ x l, l < n → (∃ r ∈ used, r.1 = x) → (t.court q).line (tableLine o.desc x l) =
          (used.filter (fun r => r.1 == x)).foldl (fun v r => (scaddLine fmt v (src r.2 l)).1) (c.line (tableLine o.desc x l))) ∧
        (∀ e, (∀ r ∈ used, ∀ l < n, e < tableLine o.desc r.1 l ∨ tableLine o.desc r.1 l + 64 ≤ e) →
          memByte (t.court q).plinth e = memByte c.plinth e))

/-- O57. At a court with clocks, for the running operation from its launch cycle on, with its lines admitted and good and
no full egress slot in its way: after SEGRED output row j holds, packed in the output format, the reduction of the
rows of segment j element by element, zeros and EMPTY_SEG for an empty segment, and of no cell more than the port's
latest claims differ. SORT and TOPK write the first n or K pairs of the list that holds the input pairs in the order
of their keys, equal keys in input order, keys and values to their areas; TOPK with INLINE carries them in the
completion; no cell differs. (R286, R287, R288) -/
def Obligations.SegredSortAndTopk : Prop :=
  ∀ (q : Nat) (s : State) (a b : List RifOp) (o : RifOp), CourtLive q s → (s.court q).rif = a ++ o :: b →
    (∀ p ∈ a, p.phase = .moved ∨ p.phase = .done) → o.phase = .running → o.launch ≤ s.cycle → (s.court q).flag CRT_STATUS_CLEARING = false →
    let c := s.court q
    let d := o.desc
    let at' := fun i l => dealt s q d i l
    let ended := fun (t : State) (f : Nat) (i : List Nat) => t = { s with cells := t.cells, courts := t.courts } ∧
      (∀ p, p ≠ q → t.court p = s.court p) ∧ (t.court q).rif = a ++ { o with phase := .moved, flags := f, inline := i } :: b ∧
      (t.court q).out = c.out
    let w := fmtBits (rifIfmt d)
    let row := fun i => (List.range (rifRowLines d)).flatMap (fun l => (List.range (512 / w)).map (fun j =>
      let v := (s.cell (at' i l).1).line (at' i l).2
      some (v.elem w j, v.elemP w j)))
    let start := fun j => (o.list.take j).sum
    let seg := fun j => if o.list.getD j 0 = 0 then (List.range (rifElems d)).map (fun _ => (0, false))
      else (segOut d ((List.range (o.list.getD j 0)).map (fun k => row (start j + k)))).1
    let dst := fun j l => bits (dw d 1) 21 0 + (j * rifOutLines d + l) * 64
    let ka := bits (dw d 1) 21 0
    let va := bits (dw d 2) 21 0
    let ko := bits (dw d 3) 21 0
    let vo := bits (dw d 4) 21 0
    let pairs := (List.range (rifN d)).map (fun i => (memRead c.plinth (ka + 4 * i) 4, memRead c.plinth (va + 4 * i) 4))
    let rank := fun e : Nat × Nat => keyRank (bits (dw d 1) 33 32) e.1
    let sorts := fun (i : Instr) (k : Nat) (inl : List (Nat × Nat) → List Nat) =>
      c.good ka (rifN d) → c.good va (rifN d) → ko % 64 = 0 → vo % 64 = 0 → (ko + 4 * k ≤ vo ∨ vo + 4 * k ≤ ko) →
      (∀ j < k, s.fullSlot q (ko + 4 * j) = none ∧ s.fullSlot q (vo + 4 * j) = none) →
      ∃ (t : State) (f : Nat) (all : List (Nat × Nat)), exec i s = .next t ∧ ended t f (inl (all.take k)) ∧ (∀ k, t.cell k = s.cell k) ∧
        (∀ r, all.filter (fun e => rank e == r) = pairs.filter (fun e => rank e == r)) ∧
        all.Pairwise (fun x y => if bit (dw d 1) 34 then rank y ≤ rank x else rank x ≤ rank y) ∧
        (∀ j < min k (rifN d), memRead (t.court q).plinth (ko + 4 * j) 4 = (all.getD j (0, 0)).1 ∧
          memRead (t.court q).plinth (vo + 4 * j) 4 = (all.getD j (0, 0)).2) ∧
        (∀ e, (e < ko ∨ ko + 4 * k ≤ e) → (e < vo ∨ vo + 4 * k ≤ e) → memByte (t.court q).plinth e = memByte c.plinth e)
    (o.op = 4 → maskCells (dw d 3) ≠ [] → bits (dw d 1) 21 0 % 64 = 0 →
      (∀ i < o.list.sum, ∀ l < rifRowLines d, (s.cell (at' i l).1).admits 4 (at' i l).2 ∧ (s.cell (at' i l).1).lineGood (at' i l).2) →
      (∀ j < o.list.length, ∀ l < rifOutLines d, s.fullSlot q (dst j l) = none) →
      ∃ t f, exec (.segred q) s = .next t ∧ ended t f [] ∧ (∀ k, (s.cell k).claimOnly (t.cell k)) ∧ bit f 6 = false ∧ (bit f 5 = true ↔ 0 ∈ o.list) ∧
        (∀ j < o.list.length, ∀ l < rifOutLines d, (t.court q).line (dst j l) =
          (packLines (fmtBits (rifOfmt d)) (seg j)).getD l ⟨0, 0⟩) ∧
        (∀ e, (e < dst 0 0 ∨ dst o.list.length 0 ≤ e) → memByte (t.court q).plinth e = memByte c.plinth e)) ∧
    (o.op = 2 → sorts (.sort q) (rifN d) (fun _ => [])) ∧
    (o.op = 3 → sorts (.topk q) (rifK d) (fun l => if bit (dw d 3) 44 then l.map (fun e => e.1 + 2 ^ 32 * e.2) else []))

/-- O58. At a court with clocks: a descriptor for an enabled queue with fewer than 32 waiting goes to its end and POSTED
counts it; one for a full or disabled queue ends with QUEUE_FULL or DISABLED, answered to a requester that awaits a
response. The command of the head descriptor's kind ends it with the code and DETAIL of its first failed check, or
takes it up: kinds 0x01 and 0x02 become active. DMA_COMPLETE removes an ended head, COMPLETED counts it, its status
leaves as the response, and with NOTIFY and no error one posted ADD leaves too. A head that has not ended stays.
(R333, R334, R337, R338, R339, R340) -/
def Obligations.DmaQueuesAndCompletions : Prop :=
  ∀ (q : Nat) (s : State), CourtLive q s →
    let c := s.court q
    (∀ m l, c.dmaIn = m :: l →
      let n := m.port % 16
      let words := (List.range 8).map (fun i => bytesVal (m.payload.drop (8 * i)) 8)
      (c.rd (DMA_QCFG_ENABLE.queue n) = 1 → c.rd (DMA_QST_QUEUED.queue n) < 32 → ∃ t o, exec (.dmaDescArrive q) s = .next t ∧
        CourtIs q s t { c with regs := (t.court q).regs, dmaIn := l, dma := (t.court q).dma } ∧
        (∀ j, (t.court q).queue j = if j = n then c.queue n ++ [o] else c.queue j) ∧ o.words = words ∧ o.src = m.src ∧ o.ctx = m.srcCtx ∧
        o.tag = m.tag ∧ o.active = false ∧ o.ended = false ∧
        (t.court q).rd (DMA_QST_POSTED.queue n) = (c.rd (DMA_QST_POSTED.queue n) + 1) % 65536) ∧
      (∀ code, (c.rd (DMA_QCFG_ENABLE.queue n) = 0 ∧ code = 0xD4 ∨
          c.rd (DMA_QCFG_ENABLE.queue n) = 1 ∧ 32 ≤ c.rd (DMA_QST_QUEUED.queue n) ∧ code = 0xD3) → m.kind = .request →
        ∃ t r, exec (.dmaDescArrive q) s = .next t ∧ CourtIs q s t { c with regs := (t.court q).regs, dmaIn := l, out := c.out ++ [r] } ∧
          r.kind = .response ∧ r.dest = m.src ∧ r.tag = m.tag ∧ bytesVal r.payload 8 / 256 % 256 = code)) ∧
    (∀ n < 16, ∀ o l, c.queue n = o :: l → o.active = false → o.ended = false →
      let head := fun (t : State) (o' : DmaOp) => CourtIs q s t { c with regs := (t.court q).regs, dma := (t.court q).dma } ∧
        ∀ j, (t.court q).queue j = if j = n then o' :: l else c.queue j
      ∀ i ∈ [(Instr.dmaSpdToPln q n, 1), (.dmaPlnToSpd q n, 2), (.dmaPlnToHbm q n, 3), (.dmaHbmToPln q n, 4), (.dmaSpdToHbm q n, 5),
          (.dmaHbmToSpd q n, 6), (.zeroH q n, 7)],
        (o.kind ≠ i.2 → 1 ≤ o.kind → o.kind ≤ 7 → exec i.1 s = .next s) ∧
        (∀ code detail, (o.kind = i.2 ∨ o.kind = 0 ∨ 7 < o.kind) → s.dmaBad q (c.flag (DMA_QCFG_FIXED.queue n)) o = some (code, detail) →
          ∃ t, exec i.1 s = .next t ∧ head t { o with code := code, detail := detail, ended := true }) ∧
        (o.kind = i.2 → i.2 ≤ 2 → s.dmaBad q (c.flag (DMA_QCFG_FIXED.queue n)) o = none →
          ∃ t, exec i.1 s = .next t ∧ head t { o with active := true })) ∧
    (∀ n < 16, ∀ o l, c.queue n = o :: l →
      (o.ended = false → exec (.dmaComplete q n) s = .next s) ∧
      (o.ended = true → o.resp = true → ∃ t r, exec (.dmaComplete q n) s = .next t ∧
        (∀ j, (t.court q).queue j = if j = n then l else c.queue j) ∧
        (t.court q).rd (DMA_QST_COMPLETED.queue n) = (c.rd (DMA_QST_COMPLETED.queue n) + 1) % 65536 ∧
        CourtIs q s t { c with regs := (t.court q).regs, dma := (t.court q).dma, out := (t.court q).out } ∧
        r.kind = .response ∧ r.dest = o.src ∧ r.tag = o.tag ∧
        (o.code < 256 → bytesVal r.payload 8 / 256 % 256 = o.code ∧ bytesVal r.payload 8 / 2 ^ 32 % 2 ^ 24 = o.written % 2 ^ 24) ∧
        ((o.notify = false ∨ o.code ≠ 0) → (t.court q).out = c.out ++ [r]) ∧
        (o.notify = true → o.code = 0 → ∃ p, (t.court q).out = c.out ++ [r, p] ∧ p.kind = .posted ∧ p.unit = 1 ∧ p.info = [1, o.nobj] ∧
          p.payload = valBytes (bits (dw o.words 4) 63 32) 8)))

/-- O59. At a court with clocks, for the head descriptor of kind 0x03 to 0x07 that passes its checks, with no clear
running, source words good, HBM source blocks that match their checks, scratchpad lines admitted, no full egress slot
in its way, the crossbar and the cell's port free for a kind that passes them, and destination lines that do not
overlap: the command of its kind moves everything. Each destination line then holds the bytes of its source line,
zeros for ZERO_H, the descriptor is ended without error and LINES_DONE is the number of lines, and no other HBM byte
and no other scratchpad byte differs. (R322, R324, R329, R335, R336, R338) -/
def Obligations.DmaMovesLines : Prop :=
  ∀ (q n : Nat) (s : State) (o : DmaOp) (l : List DmaOp), CourtLive q s → n < 16 → (s.court q).queue n = o :: l →
    o.active = false → o.ended = false → o.code = 0 → o.written = 0 → (s.court q).flag CRT_STATUS_CLEARING = false →
    let c := s.court q
    let cell := s.portCell q o.cell
    let sa := fun i => (o.lineAddr false i).toNat
    let da := fun i => (o.lineAddr true i).toNat
    let hbmGood := fun a => fget ecc0 s.hbmEcc (2 * (a / 64)) = .ok ∧ fget ecc0 s.hbmEcc (2 * (a / 64) + 1) = .ok
    s.dmaBad q (c.flag (DMA_QCFG_FIXED.queue n)) o = none →
    (∀ i < o.total, ∀ j < o.total, i ≠ j → da i + 64 ≤ da j ∨ da j + 64 ≤ da i) →
    ∀ i ∈ [(Instr.dmaPlnToHbm q n, 3), (.dmaHbmToPln q n, 4), (.dmaSpdToHbm q n, 5), (.dmaHbmToSpd q n, 6), (.zeroH q n, 7)],
      o.kind = i.2 →
      (i.2 = 3 → ∀ j < o.total, c.good (sa j) 16) →
      (i.2 = 4 ∨ i.2 = 6 → (∀ j < o.total, hbmGood (sa j)) ∧ ∀ b, s.dataCheck b = s.storedCheck b) →
      (i.2 = 4 → ∀ j < o.total, s.fullSlot q (da j) = none) →
      (i.2 = 5 → ∀ j < o.total, (s.cell cell).admits 5 (sa j) ∧ (s.cell cell).lineGood (sa j)) →
      (i.2 = 6 → ∀ j < o.total, (s.cell cell).admits 5 (da j)) →
      (i.2 = 5 ∨ i.2 = 6 → c.rifHolds s.cycle = false ∧ s.moving cell = false) →
      ∃ t o', exec i.1 s = .next t ∧
        t = { s with cells := t.cells, courts := t.courts, hbm := t.hbm, hbmPoison := t.hbmPoison, hbmEcc := t.hbmEcc
                     hbmCheck := t.hbmCheck } ∧
        (t.court q).queue n = o' :: l ∧ o'.ended = true ∧ o'.code = 0 ∧ o'.written = o.total ∧ o'.words = o.words ∧ o'.tag = o.tag ∧
        (∀ p, p ≠ q → t.court p = s.court p) ∧ (∀ k, k ≠ cell → t.cell k = s.cell k) ∧
        (i.2 = 3 → ∀ j < o.total, t.hbmWord (da j) = memRead c.plinth (sa j) 64) ∧
        (i.2 = 4 → ∀ j < o.total, memRead (t.court q).plinth (da j) 64 = s.hbmWord (sa j)) ∧
        (i.2 = 5 → ∀ j < o.total, t.hbmWord (da j) = memRead (s.cell cell).spd (sa j) 64) ∧
        (i.2 = 6 → ∀ j < o.total, memRead (t.cell cell).spd (da j) 64 = s.hbmWord (sa j)) ∧
        (i.2 = 7 → ∀ j < o.total, t.hbmWord (da j) = 0) ∧
        (i.2 = 4 ∨ i.2 = 6 → t.hbm = s.hbm) ∧ (i.2 ≠ 6 → (t.cell cell).spd = (s.cell cell).spd) ∧
        (∀ e, (∀ j < o.total, e < da j ∨ da j + 64 ≤ e) →
          memByte t.hbm e = memByte s.hbm e ∧ (i.2 = 6 → memByte (t.cell cell).spd e = memByte (s.cell cell).spd e) ∧
          (i.2 = 4 → memByte (t.court q).plinth e = memByte c.plinth e))

/-- O60. CRT_CLEAR starts a clear of an idle court, after which every plinth byte reads zero and poison is gone, sets
CLR_REFUSED while an operation is held, a round is in progress or its niche runs, and changes nothing in a clear; the
end of the clear clears CLEARING. Host data accesses by a function that reaches the court read or write the word at
CRT_HOST_ADDR, step it with AUTOINC, and set ERR from a function that does not reach it. A write-back makes a
correctable word's check bits good. A round carries moves with distinct cell ports and distinct banks; one that offers
one line of a kind 0x01 descriptor writes it to the plinth; with nothing to carry, off the court's grid, during
another round, with a frame edge less than 12 cycles away, while an operation holds the crossbar or during a clear, it
changes nothing. The patrol scrub corrects and counts a correctable half-line and changes no data. (R265, R268, R269,
R270, R273, R275, R291, R325, R326) -/
def Obligations.PlinthRoundsAndScrub : Prop :=
  (∀ (q : Nat) (s : State), CourtLive q s →
    let c := s.court q
    let clearing := c.flag CRT_STATUS_CLEARING
    let a := 4 * c.rd CRT_HOST_ADDR_ADDR
    let e := c.edge.getD (s.runStart q)
    (clearing = false → c.rif = [] → c.inRound s.cycle = false → s.courtRuns q = false → ∃ t, exec (.crtClear q) s = .next t ∧
      CourtIs q s t { c.wr CRT_STATUS_CLEARING 1 with plinth := (t.court q).plinth, plnPoison := (t.court q).plnPoison, plnEcc := (t.court q).plnEcc } ∧
      (∀ b, memByte (t.court q).plinth b = 0) ∧ ∀ w, fget noMark (t.court q).plnPoison w = false ∧ fget ecc0 (t.court q).plnEcc w = .ok) ∧
    (clearing = false → (c.rif ≠ [] ∨ c.inRound s.cycle = true ∨ s.courtRuns q = true) → ∃ t, exec (.crtClear q) s = .next t ∧
      CourtIs q s t (c.wr CRT_CTRL_CLR_REFUSED 1)) ∧
    (clearing = true → ∃ t, exec (.crtClear q) s = .next t ∧ CourtIs q s t c) ∧
    (∃ t, exec (.plinthClearEnd q) s = .next t ∧ CourtIs q s t (c.wr CRT_STATUS_CLEARING 0)) ∧
    (∀ w < 1048576, ∃ t, exec (.plinthEccWriteback q w) s = .next t ∧ CourtIs q s t { c with plnEcc := (t.court q).plnEcc } ∧
      ∀ j, fget ecc0 (t.court q).plnEcc j = if j = w ∧ fget ecc0 c.plnEcc w = .ce then .ok else fget ecc0 c.plnEcc j) ∧
    (∀ fn < 34, s.fnReaches fn q = true → fget ecc0 c.plnEcc (a / 4) = .ok →
      (∃ t, exec (.crtHostDataAccess q fn none) s = .next t ∧ t.readVal = memRead c.plinth a 4 ∧ (t.court q).plinth = c.plinth ∧
        (t.court q).rd CRT_HOST_DATA_POISON = (if fget noMark c.plnPoison (a / 4) then 1 else 0) ∧ t.cells = s.cells ∧
        (t.court q).rd CRT_HOST_ADDR_ADDR = if c.rd CRT_HOST_ADDR_AUTOINC = 1 then (c.rd CRT_HOST_ADDR_ADDR + 1) % 2 ^ 20 else c.rd CRT_HOST_ADDR_ADDR) ∧
      (∀ v : W64, ∃ t, exec (.crtHostDataAccess q fn (some v)) s = .next t ∧ SameBytes a 4 c.plinth (t.court q).plinth ∧
        memRead (t.court q).plinth a 4 = v.toNat % 2 ^ 32 ∧ fget noMark (t.court q).plnPoison (a / 4) = false ∧ t.cells = s.cells)) ∧
    (∀ fn < 34, s.fnReaches fn q = false → ∀ w, ∃ t, exec (.crtHostDataAccess q fn w) s = .next t ∧
      CourtIs q { s with readVal := 0 } t (c.wr CRT_HOST_ADDR_ERR 1)) ∧
    (s.roundMoves q).Pairwise (fun x y => x.port ≠ y.port ∧ x.bank ≠ y.bank) ∧
    (s.roundMoves q = [] ∨ clearing = true ∨ c.inRound s.cycle = true ∨ s.cycle < e ∨ (s.cycle - e) % 12 ≠ 0 ∨ s.edgeSoon q = true ∨
        c.rifHolds s.cycle = true → exec (.xbarRound q) s = .next s) ∧
    (∀ n m o l, n < 16 → s.roundMoves q = [m] → m.queue = some n → c.queue n = o :: l → s.roundOk q = true →
      o.kind = 1 →
      let src := s.cell (s.portCell q o.cell)
      let sa := (o.lineAddr false o.line).toNat
      let da := (o.lineAddr true o.line).toNat
      src.admits (if c.flag (DMA_QCFG_FIXED.queue n) then 4 else 5) sa → src.lineGood sa → da % 64 = 0 → s.fullSlot q da = none →
      ∃ t o', exec (.xbarRound q) s = .next t ∧ (t.court q).queue n = o' :: l ∧ o'.line = o.line + 1 ∧ o'.written = o.written + 1 ∧
        (o'.ended = true ↔ o.total ≤ o.line + 1) ∧ (t.court q).line da = src.line sa ∧ SameBytes da 64 c.plinth (t.court q).plinth ∧
        (∀ k, (s.cell k).claimOnly (t.cell k)) ∧ (∀ p, p ≠ q → t.court p = s.court p) ∧ (t.court q).round = s.cycle + 1 ∧
        (t.court q).rd CRT_XBAR_CNT_OTHER_ROUNDS = min (c.rd CRT_XBAR_CNT_OTHER_ROUNDS + 1) (2 ^ 32 - 1))) ∧
  (∀ (line : Nat) (s : State),
    let k := s.hbmStack (64 * line)
    let f := HBM_ECC_CE_CNT.hbm (k % 2)
    let ecc := fun h => fget ecc0 s.hbmEcc h
    line < 3221225472 → 64 * line < s.hbmC → fget noMark s.dieHalt (k / 2) = false → s.dieRd (k / 2) (HBM_CTRL_SCRUB_H.hbm (k % 2)) ≠ 0 →
    s.hbmStack (32 * (2 * line)) = k → s.hbmStack (32 * (2 * line + 1)) = k → ecc (2 * line) = .ce → ecc (2 * line + 1) = .ok →
    ∃ t, exec (.hbmPatrolScrub line) s = .next t ∧ t = { s with dieRegs := t.dieRegs, hbmEcc := t.hbmEcc, hbmErrs := s.hbmErrs ++ [⟨5, 2 * line, false⟩] } ∧
      t.dieRd (k / 2) f = min (s.dieRd (k / 2) f + 1) (2 ^ f.width - 1) ∧ ∀ h, fget ecc0 t.hbmEcc h = if h = 2 * line then .ok else ecc h)
end

