-- ==== Sys2Proof/Laws/Stores.lean ====
section
/-! SUPPORT. Sparse stores: what a key reads after each operation, and that every operation keeps the canonical form. -/

namespace Sys2Proof.Machine
open Sys2Proof

variable {α : Type}

/-! ### Reading after writing -/

theorem fget_filter (d : Nat → α) (p : Nat → Bool) (m : FMap α) (k : Nat) :
    fget d (m.filter (fun e => p e.1)) k = if p k then fget d m k else d k := by
  induction m with
  | nil => simp [fget]
  | cons e m ih =>
    obtain ⟨j, v⟩ := e
    by_cases hp : p j = true
    · rw [List.filter_cons_of_pos (by simpa using hp)]
      by_cases hj : j = k
      · subst hj; simp [fget, hp]
      · simp [fget, hj, ih]
    · rw [List.filter_cons_of_neg (by simpa using hp)]
      by_cases hj : j = k
      · subst hj; rw [ih]; simp [hp]
      · rw [ih]; simp [fget, hj]

/-- An erased key reads as the default, every other as before. -/
theorem fget_ferase (d : Nat → α) (m : FMap α) (k j : Nat) :
    fget d (ferase m k) j = if j = k then d j else fget d m j := by
  unfold ferase
  rw [fget_filter d (fun i => i != k)]
  by_cases h : j = k <;> simp [h]

/-- A dropped key reads as the default, every other as before. -/
theorem fget_fdrop (d : Nat → α) (p : Nat → Bool) (m : FMap α) (j : Nat) :
    fget d (fdrop p m) j = if p j then d j else fget d m j := by
  unfold fdrop
  rw [fget_filter d (fun i => !p i)]
  by_cases h : p j = true <;> simp [h]

theorem fget_finsert (d : Nat → α) (k : Nat) (v : α) (m : FMap α) (j : Nat) (hk : ∀ e ∈ m, e.1 ≠ k) :
    fget d (finsert k v m) j = if j = k then v else fget d m j := by
  induction m with
  | nil => by_cases h : k = j <;> simp [finsert, fget, h, eq_comm]
  | cons e m ih =>
    obtain ⟨i, w⟩ := e
    have hi : i ≠ k := hk (i, w) (by simp)
    have ih := ih (fun e he => hk e (by simp [he]))
    simp only [finsert]
    split
    · by_cases h : j = k
      · subst h; simp [fget]
      · simp [fget, h, Ne.symm h]
    · simp only [fget]
      by_cases h : i = j
      · subst h; simp [hi]
      · simp [h, ih]

theorem ferase_no_key (m : FMap α) (k : Nat) : ∀ e ∈ ferase m k, e.1 ≠ k := by
  intro e he
  simpa using (List.mem_filter.mp he).2

/-- A written key reads what was written, every other as before. -/
theorem fget_fset [DecidableEq α] (d : Nat → α) (m : FMap α) (k : Nat) (v : α) (j : Nat) :
    fget d (fset d m k v) j = if j = k then v else fget d m j := by
  unfold fset
  split
  · rename_i h
    rw [fget_ferase]
    by_cases hj : j = k
    · subst hj; simp [h]
    · simp [hj]
  · rw [fget_finsert d k v _ j (ferase_no_key m k), fget_ferase]
    by_cases hj : j = k <;> simp [hj]

@[simp] theorem fget_fset_same [DecidableEq α] (d : Nat → α) (m : FMap α) (k : Nat) (v : α) : fget d (fset d m k v) k = v := by
  simp [fget_fset]

theorem fget_fset_ne [DecidableEq α] (d : Nat → α) (m : FMap α) {k j : Nat} (v : α) (h : j ≠ k) :
    fget d (fset d m k v) j = fget d m j := by simp [fget_fset, h]

@[simp] theorem fget_fmod_same [DecidableEq α] (d : Nat → α) (m : FMap α) (k : Nat) (f : α → α) :
    fget d (fmod d m k f) k = f (fget d m k) := by simp [fmod]

theorem fget_fmod_ne [DecidableEq α] (d : Nat → α) (m : FMap α) {k j : Nat} (f : α → α) (h : j ≠ k) :
    fget d (fmod d m k f) j = fget d m j := by simp [fmod, fget_fset, h]

/-! ### The canonical form is kept -/

variable [DecidableEq α]

theorem canon_nil (d : Nat → α) : canon d [] := ⟨List.Pairwise.nil, by simp⟩

theorem canon_filter {d : Nat → α} {m : FMap α} (p : Nat × α → Bool) (h : canon d m) : canon d (m.filter p) :=
  ⟨h.1.filter _, fun e he => h.2 e (List.mem_filter.mp he).1⟩

theorem canon_ferase {d : Nat → α} {m : FMap α} (k : Nat) (h : canon d m) : canon d (ferase m k) := canon_filter _ h

theorem canon_fdrop {d : Nat → α} {m : FMap α} (p : Nat → Bool) (h : canon d m) : canon d (fdrop p m) := canon_filter _ h

omit [DecidableEq α] in
theorem mem_finsert (k : Nat) (v : α) (m : FMap α) (e : Nat × α) (he : e ∈ finsert k v m) : e = (k, v) ∨ e ∈ m := by
  induction m with
  | nil => simpa [finsert] using he
  | cons x m ih =>
    obtain ⟨j, w⟩ := x
    simp only [finsert] at he
    split at he
    · simpa using he
    · rcases List.mem_cons.mp he with h | h
      · exact .inr (by simp [h])
      · rcases ih h with h | h
        · exact .inl h
        · exact .inr (by simp [h])

theorem canon_finsert {d : Nat → α} {m : FMap α} (k : Nat) (v : α) (hv : v ≠ d k) (hk : ∀ e ∈ m, e.1 ≠ k) (h : canon d m) :
    canon d (finsert k v m) := by
  induction m with
  | nil => exact ⟨by simp [finsert], by simpa [finsert] using hv⟩
  | cons x m ih =>
    obtain ⟨j, w⟩ := x
    have hj : j ≠ k := hk (j, w) (by simp)
    have hp := List.pairwise_cons.mp h.1
    have ht : canon d m := ⟨hp.2, fun e he => h.2 e (by simp [he])⟩
    simp only [finsert]
    split
    · rename_i hlt
      refine ⟨List.pairwise_cons.mpr ⟨?_, h.1⟩, ?_⟩
      · intro e he
        rcases List.mem_cons.mp he with h1 | h1
        · subst h1; exact hlt
        · exact Nat.lt_trans hlt (hp.1 e h1)
      · intro e he
        rcases List.mem_cons.mp he with h1 | h1
        · subst h1; exact hv
        · exact h.2 e h1
    · rename_i hge
      have ih := ih (fun e he => hk e (by simp [he])) ht
      refine ⟨List.pairwise_cons.mpr ⟨?_, ih.1⟩, ?_⟩
      · intro e he
        rcases mem_finsert k v m e he with h1 | h1
        · subst h1; show j < k; omega
        · exact hp.1 e h1
      · intro e he
        rcases List.mem_cons.mp he with h1 | h1
        · subst h1; exact h.2 (j, w) (by simp)
        · exact ih.2 e h1

theorem canon_fset {d : Nat → α} {m : FMap α} (k : Nat) (v : α) (h : canon d m) : canon d (fset d m k v) := by
  unfold fset
  split
  · exact canon_ferase k h
  · rename_i hv
    exact canon_finsert k v hv (ferase_no_key m k) (canon_ferase k h)

theorem canon_fmod {d : Nat → α} {m : FMap α} (k : Nat) (f : α → α) (h : canon d m) : canon d (fmod d m k f) := canon_fset k _ h

theorem canon_foldl {d : Nat → α} {β : Type} (l : List β) (g : FMap α → β → FMap α) {m : FMap α} (h : canon d m)
    (hg : ∀ n x, canon d n → canon d (g n x)) : canon d (l.foldl g m) := by
  induction l generalizing m with
  | nil => exact h
  | cons x l ih => exact ih (hg m x h)

theorem canon_fmodAll {d : Nat → α} {m : FMap α} (ks : List Nat) (f : Nat → α → α) (h : canon d m) : canon d (fmodAll d m ks f) :=
  canon_foldl ks _ h (fun _ _ hn => canon_fmod _ _ hn)

omit [DecidableEq α] in
theorem canon_markRange {m : FMap Bool} (a : Nat) (v : Bool) (n : Nat) (h : canon noMark m) : canon noMark (markRange m a v n) := by
  induction n generalizing m a with
  | zero => exact h
  | succ n ih => exact ih (a + 1) (canon_fset a v h)

omit [DecidableEq α] in
theorem canon_memSetByte {m : Memory} (a : Nat) (b : BitVec 8) (h : canon byteDefault m) : canon byteDefault (memSetByte m a b) :=
  canon_fset a b h

omit [DecidableEq α] in
theorem canon_memWrite {m : Memory} (a n v : Nat) (h : canon byteDefault m) : canon byteDefault (memWrite m a n v) := by
  induction n generalizing m a v with
  | zero => exact h
  | succ n ih => exact ih (a + 1) (v / 256) (canon_memSetByte a _ h)

omit [DecidableEq α] in
theorem canon_memPut {m : Memory} (a : Nat) (bs : List (BitVec 8)) (h : canon byteDefault m) : canon byteDefault (memPut m a bs) := by
  induction bs generalizing m a with
  | nil => exact h
  | cons b bs ih => exact ih (a + 1) (canon_memSetByte a b h)

omit [DecidableEq α] in
theorem canon_memZero {m : Memory} (a n : Nat) (h : canon byteDefault m) : canon byteDefault (memZero m a n) := canon_fdrop _ h

omit [DecidableEq α] in
theorem canon_rset {d : Nat → Nat} {m : Regs} (f : Fld) (v : Nat) (h : canon d m) : canon d (rset d m f v) := canon_fset _ _ h

omit [DecidableEq α] in
theorem canon_regWrite {d : Nat → Nat} {m : Regs} (tbl : List RegDef) (keep : Fld → Nat → Bool) (off lo hi v : Nat) (h : canon d m) :
    canon d (regWrite d tbl keep m off lo hi v) := by
  unfold regWrite
  refine canon_foldl _ _ h (fun n r hn => canon_foldl _ _ hn (fun k f hk => ?_))
  dsimp only
  split
  · exact hk
  · exact canon_rset _ _ hk

omit [DecidableEq α] in
theorem canon_regsReset {d : Nat → Nat} {m : Regs} (tbl : List RegDef) (k : Nat) (h : canon d m) : canon d (regsReset tbl k m) :=
  canon_fdrop _ h

/-! ### Memory as bytes -/

/-- The memory operations keep the canonical form (`Memory.wf`). -/
theorem memory_ops_wf {m : Memory} (h : m.wf) (a n v : Nat) (b : BitVec 8) (bs : List (BitVec 8)) :
    (memSetByte m a b).wf ∧ (memWrite m a n v).wf ∧ (memPut m a bs).wf ∧ (memZero m a n).wf :=
  ⟨canon_memSetByte a b h, canon_memWrite a n v h, canon_memPut a bs h, canon_memZero a n h⟩

/-- A written byte reads what was written, every other as before. -/
theorem memByte_memSetByte (m : Memory) (a : Nat) (b : BitVec 8) (j : Nat) :
    memByte (memSetByte m a b) j = if j = a then b else memByte m j := fget_fset _ m a b j

/-- A write of `n` bytes leaves every other byte alone. -/
theorem memByte_memWrite_out (m : Memory) (a n v j : Nat) (h : j < a ∨ a + n ≤ j) : memByte (memWrite m a n v) j = memByte m j := by
  induction n generalizing m a v with
  | zero => rfl
  | succ n ih =>
    rw [memWrite, ih _ _ _ (by omega), memByte_memSetByte, if_neg (by omega)]

/-- What is written reads back. -/
theorem memRead_memWrite (m : Memory) (a n v : Nat) : memRead (memWrite m a n v) a n = v % 256 ^ n := by
  induction n generalizing m a v with
  | zero => simp [memRead, Nat.mod_one]
  | succ n ih =>
    rw [memRead, memWrite, ih, memByte_memWrite_out _ _ _ _ _ (by omega), memByte_memSetByte, if_pos rfl,
      BitVec.toNat_ofNat]
    have : v % 256 ^ (n + 1) = v % 256 + 256 * (v / 256 % 256 ^ n) := by
      rw [Nat.pow_succ, Nat.mul_comm, Nat.mod_mul]
    omega

end Sys2Proof.Machine
end

