-- ==== Sys2Proof/Laws/State.lean ====
section
/-! SUPPORT. What each part of the state reads after each of the small updates: of a context, a cell, a court, a die's
block, the package. -/

namespace Sys2Proof.Machine
open Sys2Proof

/-! ### Contexts -/

@[simp] theorem Ctx.setS_a (x : Ctx) (i : Nat) (w : PW) : (x.setS i w).a = x.a := rfl
@[simp] theorem Ctx.setS_vr (x : Ctx) (i : Nat) (w : PW) : (x.setS i w).vr = x.vr := rfl
@[simp] theorem Ctx.setS_p (x : Ctx) (i : Nat) (w : PW) : (x.setS i w).p = x.p := rfl
@[simp] theorem Ctx.setS_l (x : Ctx) (i : Nat) (w : PW) : (x.setS i w).l = x.l := rfl
@[simp] theorem Ctx.setS_pc (x : Ctx) (i : Nat) (w : PW) : (x.setS i w).pc = x.pc := rfl
@[simp] theorem Ctx.setS_state (x : Ctx) (i : Nat) (w : PW) : (x.setS i w).state = x.state := rfl
@[simp] theorem Ctx.setS_wait (x : Ctx) (i : Nat) (w : PW) : (x.setS i w).wait = x.wait := rfl
@[simp] theorem Ctx.setS_waitObj (x : Ctx) (i : Nat) (w : PW) : (x.setS i w).waitObj = x.waitObj := rfl
@[simp] theorem Ctx.setS_waitElapsed (x : Ctx) (i : Nat) (w : PW) : (x.setS i w).waitElapsed = x.waitElapsed := rfl
@[simp] theorem Ctx.setS_waitMatch (x : Ctx) (i : Nat) (w : PW) : (x.setS i w).waitMatch = x.waitMatch := rfl
@[simp] theorem Ctx.setS_waitTick (x : Ctx) (i : Nat) (w : PW) : (x.setS i w).waitTick = x.waitTick := rfl
@[simp] theorem Ctx.setS_waitEdge (x : Ctx) (i : Nat) (w : PW) : (x.setS i w).waitEdge = x.waitEdge := rfl
@[simp] theorem Ctx.setS_waitTag (x : Ctx) (i : Nat) (w : PW) : (x.setS i w).waitTag = x.waitTag := rfl
@[simp] theorem Ctx.setS_stepping (x : Ctx) (i : Nat) (w : PW) : (x.setS i w).stepping = x.stepping := rfl
@[simp] theorem Ctx.setS_stepDone (x : Ctx) (i : Nat) (w : PW) : (x.setS i w).stepDone = x.stepDone := rfl
@[simp] theorem Ctx.setS_abandoned (x : Ctx) (i : Nat) (w : PW) : (x.setS i w).abandoned = x.abandoned := rfl
@[simp] theorem Ctx.setS_yielded (x : Ctx) (i : Nat) (w : PW) : (x.setS i w).yielded = x.yielded := rfl
@[simp] theorem Ctx.setS_watch (x : Ctx) (i : Nat) (w : PW) : (x.setS i w).watch = x.watch := rfl
@[simp] theorem Ctx.setS_tagCtr (x : Ctx) (i : Nat) (w : PW) : (x.setS i w).tagCtr = x.tagCtr := rfl
@[simp] theorem Ctx.setS_resetDue (x : Ctx) (i : Nat) (w : PW) : (x.setS i w).resetDue = x.resetDue := rfl
@[simp] theorem Ctx.setA_s (x : Ctx) (i : Nat) (w : PW) : (x.setA i w).s = x.s := rfl
@[simp] theorem Ctx.setA_vr (x : Ctx) (i : Nat) (w : PW) : (x.setA i w).vr = x.vr := rfl
@[simp] theorem Ctx.setA_p (x : Ctx) (i : Nat) (w : PW) : (x.setA i w).p = x.p := rfl
@[simp] theorem Ctx.setA_l (x : Ctx) (i : Nat) (w : PW) : (x.setA i w).l = x.l := rfl
@[simp] theorem Ctx.setA_pc (x : Ctx) (i : Nat) (w : PW) : (x.setA i w).pc = x.pc := rfl
@[simp] theorem Ctx.setA_state (x : Ctx) (i : Nat) (w : PW) : (x.setA i w).state = x.state := rfl
@[simp] theorem Ctx.setA_wait (x : Ctx) (i : Nat) (w : PW) : (x.setA i w).wait = x.wait := rfl
@[simp] theorem Ctx.setA_waitObj (x : Ctx) (i : Nat) (w : PW) : (x.setA i w).waitObj = x.waitObj := rfl
@[simp] theorem Ctx.setA_waitElapsed (x : Ctx) (i : Nat) (w : PW) : (x.setA i w).waitElapsed = x.waitElapsed := rfl
@[simp] theorem Ctx.setA_waitMatch (x : Ctx) (i : Nat) (w : PW) : (x.setA i w).waitMatch = x.waitMatch := rfl
@[simp] theorem Ctx.setA_waitTick (x : Ctx) (i : Nat) (w : PW) : (x.setA i w).waitTick = x.waitTick := rfl
@[simp] theorem Ctx.setA_waitEdge (x : Ctx) (i : Nat) (w : PW) : (x.setA i w).waitEdge = x.waitEdge := rfl
@[simp] theorem Ctx.setA_waitTag (x : Ctx) (i : Nat) (w : PW) : (x.setA i w).waitTag = x.waitTag := rfl
@[simp] theorem Ctx.setA_stepping (x : Ctx) (i : Nat) (w : PW) : (x.setA i w).stepping = x.stepping := rfl
@[simp] theorem Ctx.setA_stepDone (x : Ctx) (i : Nat) (w : PW) : (x.setA i w).stepDone = x.stepDone := rfl
@[simp] theorem Ctx.setA_abandoned (x : Ctx) (i : Nat) (w : PW) : (x.setA i w).abandoned = x.abandoned := rfl
@[simp] theorem Ctx.setA_yielded (x : Ctx) (i : Nat) (w : PW) : (x.setA i w).yielded = x.yielded := rfl
@[simp] theorem Ctx.setA_watch (x : Ctx) (i : Nat) (w : PW) : (x.setA i w).watch = x.watch := rfl
@[simp] theorem Ctx.setA_tagCtr (x : Ctx) (i : Nat) (w : PW) : (x.setA i w).tagCtr = x.tagCtr := rfl
@[simp] theorem Ctx.setA_resetDue (x : Ctx) (i : Nat) (w : PW) : (x.setA i w).resetDue = x.resetDue := rfl
@[simp] theorem Ctx.setV_s (x : Ctx) (i : Nat) (w : VR) : (x.setV i w).s = x.s := rfl
@[simp] theorem Ctx.setV_a (x : Ctx) (i : Nat) (w : VR) : (x.setV i w).a = x.a := rfl
@[simp] theorem Ctx.setV_p (x : Ctx) (i : Nat) (w : VR) : (x.setV i w).p = x.p := rfl
@[simp] theorem Ctx.setV_l (x : Ctx) (i : Nat) (w : VR) : (x.setV i w).l = x.l := rfl
@[simp] theorem Ctx.setV_pc (x : Ctx) (i : Nat) (w : VR) : (x.setV i w).pc = x.pc := rfl
@[simp] theorem Ctx.setV_state (x : Ctx) (i : Nat) (w : VR) : (x.setV i w).state = x.state := rfl
@[simp] theorem Ctx.setV_wait (x : Ctx) (i : Nat) (w : VR) : (x.setV i w).wait = x.wait := rfl
@[simp] theorem Ctx.setV_waitObj (x : Ctx) (i : Nat) (w : VR) : (x.setV i w).waitObj = x.waitObj := rfl
@[simp] theorem Ctx.setV_waitElapsed (x : Ctx) (i : Nat) (w : VR) : (x.setV i w).waitElapsed = x.waitElapsed := rfl
@[simp] theorem Ctx.setV_waitMatch (x : Ctx) (i : Nat) (w : VR) : (x.setV i w).waitMatch = x.waitMatch := rfl
@[simp] theorem Ctx.setV_waitTick (x : Ctx) (i : Nat) (w : VR) : (x.setV i w).waitTick = x.waitTick := rfl
@[simp] theorem Ctx.setV_waitEdge (x : Ctx) (i : Nat) (w : VR) : (x.setV i w).waitEdge = x.waitEdge := rfl
@[simp] theorem Ctx.setV_waitTag (x : Ctx) (i : Nat) (w : VR) : (x.setV i w).waitTag = x.waitTag := rfl
@[simp] theorem Ctx.setV_stepping (x : Ctx) (i : Nat) (w : VR) : (x.setV i w).stepping = x.stepping := rfl
@[simp] theorem Ctx.setV_stepDone (x : Ctx) (i : Nat) (w : VR) : (x.setV i w).stepDone = x.stepDone := rfl
@[simp] theorem Ctx.setV_abandoned (x : Ctx) (i : Nat) (w : VR) : (x.setV i w).abandoned = x.abandoned := rfl
@[simp] theorem Ctx.setV_yielded (x : Ctx) (i : Nat) (w : VR) : (x.setV i w).yielded = x.yielded := rfl
@[simp] theorem Ctx.setV_watch (x : Ctx) (i : Nat) (w : VR) : (x.setV i w).watch = x.watch := rfl
@[simp] theorem Ctx.setV_tagCtr (x : Ctx) (i : Nat) (w : VR) : (x.setV i w).tagCtr = x.tagCtr := rfl
@[simp] theorem Ctx.setV_resetDue (x : Ctx) (i : Nat) (w : VR) : (x.setV i w).resetDue = x.resetDue := rfl
@[simp] theorem Ctx.setP_s (x : Ctx) (i : Nat) (w : PP) : (x.setP i w).s = x.s := rfl
@[simp] theorem Ctx.setP_a (x : Ctx) (i : Nat) (w : PP) : (x.setP i w).a = x.a := rfl
@[simp] theorem Ctx.setP_vr (x : Ctx) (i : Nat) (w : PP) : (x.setP i w).vr = x.vr := rfl
@[simp] theorem Ctx.setP_l (x : Ctx) (i : Nat) (w : PP) : (x.setP i w).l = x.l := rfl
@[simp] theorem Ctx.setP_pc (x : Ctx) (i : Nat) (w : PP) : (x.setP i w).pc = x.pc := rfl
@[simp] theorem Ctx.setP_state (x : Ctx) (i : Nat) (w : PP) : (x.setP i w).state = x.state := rfl
@[simp] theorem Ctx.setP_wait (x : Ctx) (i : Nat) (w : PP) : (x.setP i w).wait = x.wait := rfl
@[simp] theorem Ctx.setP_waitObj (x : Ctx) (i : Nat) (w : PP) : (x.setP i w).waitObj = x.waitObj := rfl
@[simp] theorem Ctx.setP_waitElapsed (x : Ctx) (i : Nat) (w : PP) : (x.setP i w).waitElapsed = x.waitElapsed := rfl
@[simp] theorem Ctx.setP_waitMatch (x : Ctx) (i : Nat) (w : PP) : (x.setP i w).waitMatch = x.waitMatch := rfl
@[simp] theorem Ctx.setP_waitTick (x : Ctx) (i : Nat) (w : PP) : (x.setP i w).waitTick = x.waitTick := rfl
@[simp] theorem Ctx.setP_waitEdge (x : Ctx) (i : Nat) (w : PP) : (x.setP i w).waitEdge = x.waitEdge := rfl
@[simp] theorem Ctx.setP_waitTag (x : Ctx) (i : Nat) (w : PP) : (x.setP i w).waitTag = x.waitTag := rfl
@[simp] theorem Ctx.setP_stepping (x : Ctx) (i : Nat) (w : PP) : (x.setP i w).stepping = x.stepping := rfl
@[simp] theorem Ctx.setP_stepDone (x : Ctx) (i : Nat) (w : PP) : (x.setP i w).stepDone = x.stepDone := rfl
@[simp] theorem Ctx.setP_abandoned (x : Ctx) (i : Nat) (w : PP) : (x.setP i w).abandoned = x.abandoned := rfl
@[simp] theorem Ctx.setP_yielded (x : Ctx) (i : Nat) (w : PP) : (x.setP i w).yielded = x.yielded := rfl
@[simp] theorem Ctx.setP_watch (x : Ctx) (i : Nat) (w : PP) : (x.setP i w).watch = x.watch := rfl
@[simp] theorem Ctx.setP_tagCtr (x : Ctx) (i : Nat) (w : PP) : (x.setP i w).tagCtr = x.tagCtr := rfl
@[simp] theorem Ctx.setP_resetDue (x : Ctx) (i : Nat) (w : PP) : (x.setP i w).resetDue = x.resetDue := rfl
@[simp] theorem Ctx.setL_s (x : Ctx) (i : Nat) (w : BitVec 32) : (x.setL i w).s = x.s := rfl
@[simp] theorem Ctx.setL_a (x : Ctx) (i : Nat) (w : BitVec 32) : (x.setL i w).a = x.a := rfl
@[simp] theorem Ctx.setL_vr (x : Ctx) (i : Nat) (w : BitVec 32) : (x.setL i w).vr = x.vr := rfl
@[simp] theorem Ctx.setL_p (x : Ctx) (i : Nat) (w : BitVec 32) : (x.setL i w).p = x.p := rfl
@[simp] theorem Ctx.setL_pc (x : Ctx) (i : Nat) (w : BitVec 32) : (x.setL i w).pc = x.pc := rfl
@[simp] theorem Ctx.setL_state (x : Ctx) (i : Nat) (w : BitVec 32) : (x.setL i w).state = x.state := rfl
@[simp] theorem Ctx.setL_wait (x : Ctx) (i : Nat) (w : BitVec 32) : (x.setL i w).wait = x.wait := rfl
@[simp] theorem Ctx.setL_waitObj (x : Ctx) (i : Nat) (w : BitVec 32) : (x.setL i w).waitObj = x.waitObj := rfl
@[simp] theorem Ctx.setL_waitElapsed (x : Ctx) (i : Nat) (w : BitVec 32) : (x.setL i w).waitElapsed = x.waitElapsed := rfl
@[simp] theorem Ctx.setL_waitMatch (x : Ctx) (i : Nat) (w : BitVec 32) : (x.setL i w).waitMatch = x.waitMatch := rfl
@[simp] theorem Ctx.setL_waitTick (x : Ctx) (i : Nat) (w : BitVec 32) : (x.setL i w).waitTick = x.waitTick := rfl
@[simp] theorem Ctx.setL_waitEdge (x : Ctx) (i : Nat) (w : BitVec 32) : (x.setL i w).waitEdge = x.waitEdge := rfl
@[simp] theorem Ctx.setL_waitTag (x : Ctx) (i : Nat) (w : BitVec 32) : (x.setL i w).waitTag = x.waitTag := rfl
@[simp] theorem Ctx.setL_stepping (x : Ctx) (i : Nat) (w : BitVec 32) : (x.setL i w).stepping = x.stepping := rfl
@[simp] theorem Ctx.setL_stepDone (x : Ctx) (i : Nat) (w : BitVec 32) : (x.setL i w).stepDone = x.stepDone := rfl
@[simp] theorem Ctx.setL_abandoned (x : Ctx) (i : Nat) (w : BitVec 32) : (x.setL i w).abandoned = x.abandoned := rfl
@[simp] theorem Ctx.setL_yielded (x : Ctx) (i : Nat) (w : BitVec 32) : (x.setL i w).yielded = x.yielded := rfl
@[simp] theorem Ctx.setL_watch (x : Ctx) (i : Nat) (w : BitVec 32) : (x.setL i w).watch = x.watch := rfl
@[simp] theorem Ctx.setL_tagCtr (x : Ctx) (i : Nat) (w : BitVec 32) : (x.setL i w).tagCtr = x.tagCtr := rfl
@[simp] theorem Ctx.setL_resetDue (x : Ctx) (i : Nat) (w : BitVec 32) : (x.setL i w).resetDue = x.resetDue := rfl
@[simp] theorem Ctx.setPair_a (x : Ctx) (i : Nat) (v : Nat) (p : Bool) : (x.setPair i v p).a = x.a := rfl
@[simp] theorem Ctx.setPair_vr (x : Ctx) (i : Nat) (v : Nat) (p : Bool) : (x.setPair i v p).vr = x.vr := rfl
@[simp] theorem Ctx.setPair_p (x : Ctx) (i : Nat) (v : Nat) (p : Bool) : (x.setPair i v p).p = x.p := rfl
@[simp] theorem Ctx.setPair_l (x : Ctx) (i : Nat) (v : Nat) (p : Bool) : (x.setPair i v p).l = x.l := rfl
@[simp] theorem Ctx.setPair_pc (x : Ctx) (i : Nat) (v : Nat) (p : Bool) : (x.setPair i v p).pc = x.pc := rfl
@[simp] theorem Ctx.setPair_state (x : Ctx) (i : Nat) (v : Nat) (p : Bool) : (x.setPair i v p).state = x.state := rfl
@[simp] theorem Ctx.setPair_wait (x : Ctx) (i : Nat) (v : Nat) (p : Bool) : (x.setPair i v p).wait = x.wait := rfl
@[simp] theorem Ctx.setPair_waitObj (x : Ctx) (i : Nat) (v : Nat) (p : Bool) : (x.setPair i v p).waitObj = x.waitObj := rfl
@[simp] theorem Ctx.setPair_waitElapsed (x : Ctx) (i : Nat) (v : Nat) (p : Bool) : (x.setPair i v p).waitElapsed = x.waitElapsed := rfl
@[simp] theorem Ctx.setPair_waitMatch (x : Ctx) (i : Nat) (v : Nat) (p : Bool) : (x.setPair i v p).waitMatch = x.waitMatch := rfl
@[simp] theorem Ctx.setPair_waitTick (x : Ctx) (i : Nat) (v : Nat) (p : Bool) : (x.setPair i v p).waitTick = x.waitTick := rfl
@[simp] theorem Ctx.setPair_waitEdge (x : Ctx) (i : Nat) (v : Nat) (p : Bool) : (x.setPair i v p).waitEdge = x.waitEdge := rfl
@[simp] theorem Ctx.setPair_waitTag (x : Ctx) (i : Nat) (v : Nat) (p : Bool) : (x.setPair i v p).waitTag = x.waitTag := rfl
@[simp] theorem Ctx.setPair_stepping (x : Ctx) (i : Nat) (v : Nat) (p : Bool) : (x.setPair i v p).stepping = x.stepping := rfl
@[simp] theorem Ctx.setPair_stepDone (x : Ctx) (i : Nat) (v : Nat) (p : Bool) : (x.setPair i v p).stepDone = x.stepDone := rfl
@[simp] theorem Ctx.setPair_abandoned (x : Ctx) (i : Nat) (v : Nat) (p : Bool) : (x.setPair i v p).abandoned = x.abandoned := rfl
@[simp] theorem Ctx.setPair_yielded (x : Ctx) (i : Nat) (v : Nat) (p : Bool) : (x.setPair i v p).yielded = x.yielded := rfl
@[simp] theorem Ctx.setPair_watch (x : Ctx) (i : Nat) (v : Nat) (p : Bool) : (x.setPair i v p).watch = x.watch := rfl
@[simp] theorem Ctx.setPair_tagCtr (x : Ctx) (i : Nat) (v : Nat) (p : Bool) : (x.setPair i v p).tagCtr = x.tagCtr := rfl
@[simp] theorem Ctx.setPair_resetDue (x : Ctx) (i : Nat) (v : Nat) (p : Bool) : (x.setPair i v p).resetDue = x.resetDue := rfl
@[simp] theorem Ctx.setPairW_a (x : Ctx) (i : Nat) (v : Nat) (pl : Bool) (ph : Bool) : (x.setPairW i v pl ph).a = x.a := rfl
@[simp] theorem Ctx.setPairW_vr (x : Ctx) (i : Nat) (v : Nat) (pl : Bool) (ph : Bool) : (x.setPairW i v pl ph).vr = x.vr := rfl
@[simp] theorem Ctx.setPairW_p (x : Ctx) (i : Nat) (v : Nat) (pl : Bool) (ph : Bool) : (x.setPairW i v pl ph).p = x.p := rfl
@[simp] theorem Ctx.setPairW_l (x : Ctx) (i : Nat) (v : Nat) (pl : Bool) (ph : Bool) : (x.setPairW i v pl ph).l = x.l := rfl
@[simp] theorem Ctx.setPairW_pc (x : Ctx) (i : Nat) (v : Nat) (pl : Bool) (ph : Bool) : (x.setPairW i v pl ph).pc = x.pc := rfl
@[simp] theorem Ctx.setPairW_state (x : Ctx) (i : Nat) (v : Nat) (pl : Bool) (ph : Bool) : (x.setPairW i v pl ph).state = x.state := rfl
@[simp] theorem Ctx.setPairW_wait (x : Ctx) (i : Nat) (v : Nat) (pl : Bool) (ph : Bool) : (x.setPairW i v pl ph).wait = x.wait := rfl
@[simp] theorem Ctx.setPairW_waitObj (x : Ctx) (i : Nat) (v : Nat) (pl : Bool) (ph : Bool) : (x.setPairW i v pl ph).waitObj = x.waitObj := rfl
@[simp] theorem Ctx.setPairW_waitElapsed (x : Ctx) (i : Nat) (v : Nat) (pl : Bool) (ph : Bool) : (x.setPairW i v pl ph).waitElapsed = x.waitElapsed := rfl
@[simp] theorem Ctx.setPairW_waitMatch (x : Ctx) (i : Nat) (v : Nat) (pl : Bool) (ph : Bool) : (x.setPairW i v pl ph).waitMatch = x.waitMatch := rfl
@[simp] theorem Ctx.setPairW_waitTick (x : Ctx) (i : Nat) (v : Nat) (pl : Bool) (ph : Bool) : (x.setPairW i v pl ph).waitTick = x.waitTick := rfl
@[simp] theorem Ctx.setPairW_waitEdge (x : Ctx) (i : Nat) (v : Nat) (pl : Bool) (ph : Bool) : (x.setPairW i v pl ph).waitEdge = x.waitEdge := rfl
@[simp] theorem Ctx.setPairW_waitTag (x : Ctx) (i : Nat) (v : Nat) (pl : Bool) (ph : Bool) : (x.setPairW i v pl ph).waitTag = x.waitTag := rfl
@[simp] theorem Ctx.setPairW_stepping (x : Ctx) (i : Nat) (v : Nat) (pl : Bool) (ph : Bool) : (x.setPairW i v pl ph).stepping = x.stepping := rfl
@[simp] theorem Ctx.setPairW_stepDone (x : Ctx) (i : Nat) (v : Nat) (pl : Bool) (ph : Bool) : (x.setPairW i v pl ph).stepDone = x.stepDone := rfl
@[simp] theorem Ctx.setPairW_abandoned (x : Ctx) (i : Nat) (v : Nat) (pl : Bool) (ph : Bool) : (x.setPairW i v pl ph).abandoned = x.abandoned := rfl
@[simp] theorem Ctx.setPairW_yielded (x : Ctx) (i : Nat) (v : Nat) (pl : Bool) (ph : Bool) : (x.setPairW i v pl ph).yielded = x.yielded := rfl
@[simp] theorem Ctx.setPairW_watch (x : Ctx) (i : Nat) (v : Nat) (pl : Bool) (ph : Bool) : (x.setPairW i v pl ph).watch = x.watch := rfl
@[simp] theorem Ctx.setPairW_tagCtr (x : Ctx) (i : Nat) (v : Nat) (pl : Bool) (ph : Bool) : (x.setPairW i v pl ph).tagCtr = x.tagCtr := rfl
@[simp] theorem Ctx.setPairW_resetDue (x : Ctx) (i : Nat) (v : Nat) (pl : Bool) (ph : Bool) : (x.setPairW i v pl ph).resetDue = x.resetDue := rfl
@[simp] theorem Ctx.setS_regUe (x : Ctx) (i : Nat) (w : PW) : (x.setS i w).regUe = x.regUe.filter (fun u => u.1 != i) := rfl
@[simp] theorem Ctx.setA_regUe (x : Ctx) (i : Nat) (w : PW) : (x.setA i w).regUe = x.regUe.filter (fun u => u.1 != 32 + i) := rfl
@[simp] theorem Ctx.setV_regUe (x : Ctx) (i : Nat) (w : VR) : (x.setV i w).regUe = x.regUe.filter (fun u => u.1 != 64 + i) := rfl
@[simp] theorem Ctx.setP_regUe (x : Ctx) (i : Nat) (w : PP) : (x.setP i w).regUe = x.regUe.filter (fun u => u.1 != 96 + i) := rfl
@[simp] theorem Ctx.setL_regUe (x : Ctx) (i : Nat) (w : BitVec 32) : (x.setL i w).regUe = x.regUe.filter (fun u => u.1 != 128 + i) := rfl
@[simp] theorem Ctx.sReg_setS (x : Ctx) (i : Nat) (w : PW) (j : Nat) : (x.setS i w).sReg j = if j = i then w else x.sReg j :=
  fget_fset ..
@[simp] theorem Ctx.sReg_setA (x : Ctx) (i : Nat) (w : PW) (j : Nat) : (x.setA i w).sReg j = x.sReg j := rfl
@[simp] theorem Ctx.sReg_setV (x : Ctx) (i : Nat) (w : VR) (j : Nat) : (x.setV i w).sReg j = x.sReg j := rfl
@[simp] theorem Ctx.sReg_setP (x : Ctx) (i : Nat) (w : PP) (j : Nat) : (x.setP i w).sReg j = x.sReg j := rfl
@[simp] theorem Ctx.sReg_setL (x : Ctx) (i : Nat) (w : BitVec 32) (j : Nat) : (x.setL i w).sReg j = x.sReg j := rfl
@[simp] theorem Ctx.aReg_setA (x : Ctx) (i : Nat) (w : PW) (j : Nat) : (x.setA i w).aReg j = if j = i then w else x.aReg j :=
  fget_fset ..
@[simp] theorem Ctx.aReg_setS (x : Ctx) (i : Nat) (w : PW) (j : Nat) : (x.setS i w).aReg j = x.aReg j := rfl
@[simp] theorem Ctx.aReg_setV (x : Ctx) (i : Nat) (w : VR) (j : Nat) : (x.setV i w).aReg j = x.aReg j := rfl
@[simp] theorem Ctx.aReg_setP (x : Ctx) (i : Nat) (w : PP) (j : Nat) : (x.setP i w).aReg j = x.aReg j := rfl
@[simp] theorem Ctx.aReg_setL (x : Ctx) (i : Nat) (w : BitVec 32) (j : Nat) : (x.setL i w).aReg j = x.aReg j := rfl
@[simp] theorem Ctx.vReg_setV (x : Ctx) (i : Nat) (w : VR) (j : Nat) : (x.setV i w).vReg j = if j = i then w else x.vReg j :=
  fget_fset ..
@[simp] theorem Ctx.vReg_setS (x : Ctx) (i : Nat) (w : PW) (j : Nat) : (x.setS i w).vReg j = x.vReg j := rfl
@[simp] theorem Ctx.vReg_setA (x : Ctx) (i : Nat) (w : PW) (j : Nat) : (x.setA i w).vReg j = x.vReg j := rfl
@[simp] theorem Ctx.vReg_setP (x : Ctx) (i : Nat) (w : PP) (j : Nat) : (x.setP i w).vReg j = x.vReg j := rfl
@[simp] theorem Ctx.vReg_setL (x : Ctx) (i : Nat) (w : BitVec 32) (j : Nat) : (x.setL i w).vReg j = x.vReg j := rfl
@[simp] theorem Ctx.pReg_setP (x : Ctx) (i : Nat) (w : PP) (j : Nat) : (x.setP i w).pReg j = if j = i then w else x.pReg j :=
  fget_fset ..
@[simp] theorem Ctx.pReg_setS (x : Ctx) (i : Nat) (w : PW) (j : Nat) : (x.setS i w).pReg j = x.pReg j := rfl
@[simp] theorem Ctx.pReg_setA (x : Ctx) (i : Nat) (w : PW) (j : Nat) : (x.setA i w).pReg j = x.pReg j := rfl
@[simp] theorem Ctx.pReg_setV (x : Ctx) (i : Nat) (w : VR) (j : Nat) : (x.setV i w).pReg j = x.pReg j := rfl
@[simp] theorem Ctx.pReg_setL (x : Ctx) (i : Nat) (w : BitVec 32) (j : Nat) : (x.setL i w).pReg j = x.pReg j := rfl
@[simp] theorem Ctx.lReg_setL (x : Ctx) (i : Nat) (w : BitVec 32) (j : Nat) : (x.setL i w).lReg j = if j = i then w else x.lReg j :=
  fget_fset ..
@[simp] theorem Ctx.lReg_setS (x : Ctx) (i : Nat) (w : PW) (j : Nat) : (x.setS i w).lReg j = x.lReg j := rfl
@[simp] theorem Ctx.lReg_setA (x : Ctx) (i : Nat) (w : PW) (j : Nat) : (x.setA i w).lReg j = x.lReg j := rfl
@[simp] theorem Ctx.lReg_setV (x : Ctx) (i : Nat) (w : VR) (j : Nat) : (x.setV i w).lReg j = x.lReg j := rfl
@[simp] theorem Ctx.lReg_setP (x : Ctx) (i : Nat) (w : PP) (j : Nat) : (x.setP i w).lReg j = x.lReg j := rfl

/-! ### Cells -/

@[simp] theorem Cell.wr_ctxs (c : Cell) (f : Fld) (v : Nat) : (c.wr f v).ctxs = c.ctxs := rfl
@[simp] theorem Cell.wr_istore (c : Cell) (f : Fld) (v : Nat) : (c.wr f v).istore = c.istore := rfl
@[simp] theorem Cell.wr_istoreEcc (c : Cell) (f : Fld) (v : Nat) : (c.wr f v).istoreEcc = c.istoreEcc := rfl
@[simp] theorem Cell.wr_istoreTold (c : Cell) (f : Fld) (v : Nat) : (c.wr f v).istoreTold = c.istoreTold := rfl
@[simp] theorem Cell.wr_errs (c : Cell) (f : Fld) (v : Nat) : (c.wr f v).errs = c.errs := rfl
@[simp] theorem Cell.wr_ports (c : Cell) (f : Fld) (v : Nat) : (c.wr f v).ports = c.ports := rfl
@[simp] theorem Cell.wr_recvReq (c : Cell) (f : Fld) (v : Nat) : (c.wr f v).recvReq = c.recvReq := rfl
@[simp] theorem Cell.wr_recvRsp (c : Cell) (f : Fld) (v : Nat) : (c.wr f v).recvRsp = c.recvRsp := rfl
@[simp] theorem Cell.wr_tags (c : Cell) (f : Fld) (v : Nat) : (c.wr f v).tags = c.tags := rfl
@[simp] theorem Cell.wr_quar (c : Cell) (f : Fld) (v : Nat) : (c.wr f v).quar = c.quar := rfl
@[simp] theorem Cell.wr_quarEnd (c : Cell) (f : Fld) (v : Nat) : (c.wr f v).quarEnd = c.quarEnd := rfl
@[simp] theorem Cell.wr_undo (c : Cell) (f : Fld) (v : Nat) : (c.wr f v).undo = c.undo := rfl
@[simp] theorem Cell.wr_locks (c : Cell) (f : Fld) (v : Nat) : (c.wr f v).locks = c.locks := rfl
@[simp] theorem Cell.wr_inj (c : Cell) (f : Fld) (v : Nat) : (c.wr f v).inj = c.inj := rfl
@[simp] theorem Cell.wr_stop (c : Cell) (f : Fld) (v : Nat) : (c.wr f v).stop = c.stop := rfl
@[simp] theorem Cell.wr_sprTurn (c : Cell) (f : Fld) (v : Nat) : (c.wr f v).sprTurn = c.sprTurn := rfl
@[simp] theorem Cell.wr_frozen (c : Cell) (f : Fld) (v : Nat) : (c.wr f v).frozen = c.frozen := rfl
@[simp] theorem Cell.wr_scanning (c : Cell) (f : Fld) (v : Nat) : (c.wr f v).scanning = c.scanning := rfl
@[simp] theorem Cell.wr_scanImg (c : Cell) (f : Fld) (v : Nat) : (c.wr f v).scanImg = c.scanImg := rfl
@[simp] theorem Cell.wr_scanIn (c : Cell) (f : Fld) (v : Nat) : (c.wr f v).scanIn = c.scanIn := rfl
@[simp] theorem Cell.wr_scanStart (c : Cell) (f : Fld) (v : Nat) : (c.wr f v).scanStart = c.scanStart := rfl
@[simp] theorem Cell.wr_rasp (c : Cell) (f : Fld) (v : Nat) : (c.wr f v).rasp = c.rasp := rfl
@[simp] theorem Cell.wr_raspSr (c : Cell) (f : Fld) (v : Nat) : (c.wr f v).raspSr = c.raspSr := rfl
@[simp] theorem Cell.wr_raspSteps (c : Cell) (f : Fld) (v : Nat) : (c.wr f v).raspSteps = c.raspSteps := rfl
@[simp] theorem Cell.wr_raspOpen (c : Cell) (f : Fld) (v : Nat) : (c.wr f v).raspOpen = c.raspOpen := rfl
@[simp] theorem Cell.wr_spd (c : Cell) (f : Fld) (v : Nat) : (c.wr f v).spd = c.spd := rfl
@[simp] theorem Cell.wr_spdPoison (c : Cell) (f : Fld) (v : Nat) : (c.wr f v).spdPoison = c.spdPoison := rfl
@[simp] theorem Cell.wr_spdEcc (c : Cell) (f : Fld) (v : Nat) : (c.wr f v).spdEcc = c.spdEcc := rfl
@[simp] theorem Cell.wr_ownOld (c : Cell) (f : Fld) (v : Nat) : (c.wr f v).ownOld = c.ownOld := rfl
@[simp] theorem Cell.wr_ownDue (c : Cell) (f : Fld) (v : Nat) : (c.wr f v).ownDue = c.ownDue := rfl
@[simp] theorem Cell.wr_clears (c : Cell) (f : Fld) (v : Nat) : (c.wr f v).clears = c.clears := rfl
@[simp] theorem Cell.wr_rdClaim (c : Cell) (f : Fld) (v : Nat) : (c.wr f v).rdClaim = c.rdClaim := rfl
@[simp] theorem Cell.wr_wrClaim (c : Cell) (f : Fld) (v : Nat) : (c.wr f v).wrClaim = c.wrClaim := rfl
@[simp] theorem Cell.wr_acc (c : Cell) (f : Fld) (v : Nat) : (c.wr f v).acc = c.acc := rfl
@[simp] theorem Cell.wr_openCfg (c : Cell) (f : Fld) (v : Nat) : (c.wr f v).openCfg = c.openCfg := rfl
@[simp] theorem Cell.wr_macOp (c : Cell) (f : Fld) (v : Nat) : (c.wr f v).macOp = c.macOp := rfl
@[simp] theorem Cell.wr_feeds (c : Cell) (f : Fld) (v : Nat) : (c.wr f v).feeds = c.feeds := rfl
@[simp] theorem Cell.wr_reads (c : Cell) (f : Fld) (v : Nat) : (c.wr f v).reads = c.reads := rfl
@[simp] theorem Cell.wr_opBuf (c : Cell) (f : Fld) (v : Nat) : (c.wr f v).opBuf = c.opBuf := rfl
@[simp] theorem Cell.wr_drain (c : Cell) (f : Fld) (v : Nat) : (c.wr f v).drain = c.drain := rfl
@[simp] theorem Cell.wr_offer (c : Cell) (f : Fld) (v : Nat) : (c.wr f v).offer = c.offer := rfl
@[simp] theorem Cell.wr_verdict (c : Cell) (f : Fld) (v : Nat) : (c.wr f v).verdict = c.verdict := rfl
@[simp] theorem Cell.wr_ckFails (c : Cell) (f : Fld) (v : Nat) : (c.wr f v).ckFails = c.ckFails := rfl
@[simp] theorem Cell.wr_nbc (c : Cell) (f : Fld) (v : Nat) : (c.wr f v).nbc = c.nbc := rfl
@[simp] theorem Cell.wr_ckQ (c : Cell) (f : Fld) (v : Nat) : (c.wr f v).ckQ = c.ckQ := rfl
@[simp] theorem Cell.wr_hist (c : Cell) (f : Fld) (v : Nat) : (c.wr f v).hist = c.hist := rfl
@[simp] theorem Cell.wr_arbWait (c : Cell) (f : Fld) (v : Nat) : (c.wr f v).arbWait = c.arbWait := rfl
@[simp] theorem Cell.wr_routes (c : Cell) (f : Fld) (v : Nat) : (c.wr f v).routes = c.routes := rfl
@[simp] theorem Cell.wr_armRead (c : Cell) (f : Fld) (v : Nat) : (c.wr f v).armRead = c.armRead := rfl
@[simp] theorem Cell.wr_armStore (c : Cell) (f : Fld) (v : Nat) : (c.wr f v).armStore = c.armStore := rfl
@[simp] theorem Cell.wr_armEnd (c : Cell) (f : Fld) (v : Nat) : (c.wr f v).armEnd = c.armEnd := rfl
@[simp] theorem Cell.wr_ringEnd (c : Cell) (f : Fld) (v : Nat) : (c.wr f v).ringEnd = c.ringEnd := rfl
@[simp] theorem Cell.wr_armComb (c : Cell) (f : Fld) (v : Nat) : (c.wr f v).armComb = c.armComb := rfl
@[simp] theorem Cell.wr_ringPos (c : Cell) (f : Fld) (v : Nat) : (c.wr f v).ringPos = c.ringPos := rfl
@[simp] theorem Cell.wr_armGo (c : Cell) (f : Fld) (v : Nat) : (c.wr f v).armGo = c.armGo := rfl
@[simp] theorem Cell.wr_armDue (c : Cell) (f : Fld) (v : Nat) : (c.wr f v).armDue = c.armDue := rfl
@[simp] theorem Cell.wr_bkt (c : Cell) (f : Fld) (v : Nat) : (c.wr f v).bkt = c.bkt := rfl
@[simp] theorem Cell.wr_bktBad (c : Cell) (f : Fld) (v : Nat) : (c.wr f v).bktBad = c.bktBad := rfl
@[simp] theorem Cell.wr_recAt (c : Cell) (f : Fld) (v : Nat) : (c.wr f v).recAt = c.recAt := rfl
@[simp] theorem Cell.wr_faults (c : Cell) (f : Fld) (v : Nat) : (c.wr f v).faults = c.faults := rfl
@[simp] theorem Cell.wr_samples (c : Cell) (f : Fld) (v : Nat) : (c.wr f v).samples = c.samples := rfl
@[simp] theorem Cell.wr_sampSeq (c : Cell) (f : Fld) (v : Nat) : (c.wr f v).sampSeq = c.sampSeq := rfl
@[simp] theorem Cell.wr_sampLatch (c : Cell) (f : Fld) (v : Nat) : (c.wr f v).sampLatch = c.sampLatch := rfl
@[simp] theorem Cell.wr_snap (c : Cell) (f : Fld) (v : Nat) : (c.wr f v).snap = c.snap := rfl
@[simp] theorem Cell.setCtx_regs (c : Cell) (k : Nat) (x : Ctx) : (c.setCtx k x).regs = c.regs := rfl
@[simp] theorem Cell.setCtx_istore (c : Cell) (k : Nat) (x : Ctx) : (c.setCtx k x).istore = c.istore := rfl
@[simp] theorem Cell.setCtx_istoreEcc (c : Cell) (k : Nat) (x : Ctx) : (c.setCtx k x).istoreEcc = c.istoreEcc := rfl
@[simp] theorem Cell.setCtx_istoreTold (c : Cell) (k : Nat) (x : Ctx) : (c.setCtx k x).istoreTold = c.istoreTold := rfl
@[simp] theorem Cell.setCtx_errs (c : Cell) (k : Nat) (x : Ctx) : (c.setCtx k x).errs = c.errs := rfl
@[simp] theorem Cell.setCtx_ports (c : Cell) (k : Nat) (x : Ctx) : (c.setCtx k x).ports = c.ports := rfl
@[simp] theorem Cell.setCtx_recvReq (c : Cell) (k : Nat) (x : Ctx) : (c.setCtx k x).recvReq = c.recvReq := rfl
@[simp] theorem Cell.setCtx_recvRsp (c : Cell) (k : Nat) (x : Ctx) : (c.setCtx k x).recvRsp = c.recvRsp := rfl
@[simp] theorem Cell.setCtx_tags (c : Cell) (k : Nat) (x : Ctx) : (c.setCtx k x).tags = c.tags := rfl
@[simp] theorem Cell.setCtx_quar (c : Cell) (k : Nat) (x : Ctx) : (c.setCtx k x).quar = c.quar := rfl
@[simp] theorem Cell.setCtx_quarEnd (c : Cell) (k : Nat) (x : Ctx) : (c.setCtx k x).quarEnd = c.quarEnd := rfl
@[simp] theorem Cell.setCtx_undo (c : Cell) (k : Nat) (x : Ctx) : (c.setCtx k x).undo = c.undo := rfl
@[simp] theorem Cell.setCtx_locks (c : Cell) (k : Nat) (x : Ctx) : (c.setCtx k x).locks = c.locks := rfl
@[simp] theorem Cell.setCtx_inj (c : Cell) (k : Nat) (x : Ctx) : (c.setCtx k x).inj = c.inj := rfl
@[simp] theorem Cell.setCtx_stop (c : Cell) (k : Nat) (x : Ctx) : (c.setCtx k x).stop = c.stop := rfl
@[simp] theorem Cell.setCtx_sprTurn (c : Cell) (k : Nat) (x : Ctx) : (c.setCtx k x).sprTurn = c.sprTurn := rfl
@[simp] theorem Cell.setCtx_frozen (c : Cell) (k : Nat) (x : Ctx) : (c.setCtx k x).frozen = c.frozen := rfl
@[simp] theorem Cell.setCtx_scanning (c : Cell) (k : Nat) (x : Ctx) : (c.setCtx k x).scanning = c.scanning := rfl
@[simp] theorem Cell.setCtx_scanImg (c : Cell) (k : Nat) (x : Ctx) : (c.setCtx k x).scanImg = c.scanImg := rfl
@[simp] theorem Cell.setCtx_scanIn (c : Cell) (k : Nat) (x : Ctx) : (c.setCtx k x).scanIn = c.scanIn := rfl
@[simp] theorem Cell.setCtx_scanStart (c : Cell) (k : Nat) (x : Ctx) : (c.setCtx k x).scanStart = c.scanStart := rfl
@[simp] theorem Cell.setCtx_rasp (c : Cell) (k : Nat) (x : Ctx) : (c.setCtx k x).rasp = c.rasp := rfl
@[simp] theorem Cell.setCtx_raspSr (c : Cell) (k : Nat) (x : Ctx) : (c.setCtx k x).raspSr = c.raspSr := rfl
@[simp] theorem Cell.setCtx_raspSteps (c : Cell) (k : Nat) (x : Ctx) : (c.setCtx k x).raspSteps = c.raspSteps := rfl
@[simp] theorem Cell.setCtx_raspOpen (c : Cell) (k : Nat) (x : Ctx) : (c.setCtx k x).raspOpen = c.raspOpen := rfl
@[simp] theorem Cell.setCtx_spd (c : Cell) (k : Nat) (x : Ctx) : (c.setCtx k x).spd = c.spd := rfl
@[simp] theorem Cell.setCtx_spdPoison (c : Cell) (k : Nat) (x : Ctx) : (c.setCtx k x).spdPoison = c.spdPoison := rfl
@[simp] theorem Cell.setCtx_spdEcc (c : Cell) (k : Nat) (x : Ctx) : (c.setCtx k x).spdEcc = c.spdEcc := rfl
@[simp] theorem Cell.setCtx_ownOld (c : Cell) (k : Nat) (x : Ctx) : (c.setCtx k x).ownOld = c.ownOld := rfl
@[simp] theorem Cell.setCtx_ownDue (c : Cell) (k : Nat) (x : Ctx) : (c.setCtx k x).ownDue = c.ownDue := rfl
@[simp] theorem Cell.setCtx_clears (c : Cell) (k : Nat) (x : Ctx) : (c.setCtx k x).clears = c.clears := rfl
@[simp] theorem Cell.setCtx_rdClaim (c : Cell) (k : Nat) (x : Ctx) : (c.setCtx k x).rdClaim = c.rdClaim := rfl
@[simp] theorem Cell.setCtx_wrClaim (c : Cell) (k : Nat) (x : Ctx) : (c.setCtx k x).wrClaim = c.wrClaim := rfl
@[simp] theorem Cell.setCtx_acc (c : Cell) (k : Nat) (x : Ctx) : (c.setCtx k x).acc = c.acc := rfl
@[simp] theorem Cell.setCtx_openCfg (c : Cell) (k : Nat) (x : Ctx) : (c.setCtx k x).openCfg = c.openCfg := rfl
@[simp] theorem Cell.setCtx_macOp (c : Cell) (k : Nat) (x : Ctx) : (c.setCtx k x).macOp = c.macOp := rfl
@[simp] theorem Cell.setCtx_feeds (c : Cell) (k : Nat) (x : Ctx) : (c.setCtx k x).feeds = c.feeds := rfl
@[simp] theorem Cell.setCtx_reads (c : Cell) (k : Nat) (x : Ctx) : (c.setCtx k x).reads = c.reads := rfl
@[simp] theorem Cell.setCtx_opBuf (c : Cell) (k : Nat) (x : Ctx) : (c.setCtx k x).opBuf = c.opBuf := rfl
@[simp] theorem Cell.setCtx_drain (c : Cell) (k : Nat) (x : Ctx) : (c.setCtx k x).drain = c.drain := rfl
@[simp] theorem Cell.setCtx_offer (c : Cell) (k : Nat) (x : Ctx) : (c.setCtx k x).offer = c.offer := rfl
@[simp] theorem Cell.setCtx_verdict (c : Cell) (k : Nat) (x : Ctx) : (c.setCtx k x).verdict = c.verdict := rfl
@[simp] theorem Cell.setCtx_ckFails (c : Cell) (k : Nat) (x : Ctx) : (c.setCtx k x).ckFails = c.ckFails := rfl
@[simp] theorem Cell.setCtx_nbc (c : Cell) (k : Nat) (x : Ctx) : (c.setCtx k x).nbc = c.nbc := rfl
@[simp] theorem Cell.setCtx_ckQ (c : Cell) (k : Nat) (x : Ctx) : (c.setCtx k x).ckQ = c.ckQ := rfl
@[simp] theorem Cell.setCtx_hist (c : Cell) (k : Nat) (x : Ctx) : (c.setCtx k x).hist = c.hist := rfl
@[simp] theorem Cell.setCtx_arbWait (c : Cell) (k : Nat) (x : Ctx) : (c.setCtx k x).arbWait = c.arbWait := rfl
@[simp] theorem Cell.setCtx_routes (c : Cell) (k : Nat) (x : Ctx) : (c.setCtx k x).routes = c.routes := rfl
@[simp] theorem Cell.setCtx_armRead (c : Cell) (k : Nat) (x : Ctx) : (c.setCtx k x).armRead = c.armRead := rfl
@[simp] theorem Cell.setCtx_armStore (c : Cell) (k : Nat) (x : Ctx) : (c.setCtx k x).armStore = c.armStore := rfl
@[simp] theorem Cell.setCtx_armEnd (c : Cell) (k : Nat) (x : Ctx) : (c.setCtx k x).armEnd = c.armEnd := rfl
@[simp] theorem Cell.setCtx_ringEnd (c : Cell) (k : Nat) (x : Ctx) : (c.setCtx k x).ringEnd = c.ringEnd := rfl
@[simp] theorem Cell.setCtx_armComb (c : Cell) (k : Nat) (x : Ctx) : (c.setCtx k x).armComb = c.armComb := rfl
@[simp] theorem Cell.setCtx_ringPos (c : Cell) (k : Nat) (x : Ctx) : (c.setCtx k x).ringPos = c.ringPos := rfl
@[simp] theorem Cell.setCtx_armGo (c : Cell) (k : Nat) (x : Ctx) : (c.setCtx k x).armGo = c.armGo := rfl
@[simp] theorem Cell.setCtx_armDue (c : Cell) (k : Nat) (x : Ctx) : (c.setCtx k x).armDue = c.armDue := rfl
@[simp] theorem Cell.setCtx_bkt (c : Cell) (k : Nat) (x : Ctx) : (c.setCtx k x).bkt = c.bkt := rfl
@[simp] theorem Cell.setCtx_bktBad (c : Cell) (k : Nat) (x : Ctx) : (c.setCtx k x).bktBad = c.bktBad := rfl
@[simp] theorem Cell.setCtx_recAt (c : Cell) (k : Nat) (x : Ctx) : (c.setCtx k x).recAt = c.recAt := rfl
@[simp] theorem Cell.setCtx_faults (c : Cell) (k : Nat) (x : Ctx) : (c.setCtx k x).faults = c.faults := rfl
@[simp] theorem Cell.setCtx_samples (c : Cell) (k : Nat) (x : Ctx) : (c.setCtx k x).samples = c.samples := rfl
@[simp] theorem Cell.setCtx_sampSeq (c : Cell) (k : Nat) (x : Ctx) : (c.setCtx k x).sampSeq = c.sampSeq := rfl
@[simp] theorem Cell.setCtx_sampLatch (c : Cell) (k : Nat) (x : Ctx) : (c.setCtx k x).sampLatch = c.sampLatch := rfl
@[simp] theorem Cell.setCtx_snap (c : Cell) (k : Nat) (x : Ctx) : (c.setCtx k x).snap = c.snap := rfl
@[simp] theorem Cell.modCtx_regs (c : Cell) (k : Nat) (f : Ctx → Ctx) : (c.modCtx k f).regs = c.regs := rfl
@[simp] theorem Cell.modCtx_istore (c : Cell) (k : Nat) (f : Ctx → Ctx) : (c.modCtx k f).istore = c.istore := rfl
@[simp] theorem Cell.modCtx_istoreEcc (c : Cell) (k : Nat) (f : Ctx → Ctx) : (c.modCtx k f).istoreEcc = c.istoreEcc := rfl
@[simp] theorem Cell.modCtx_istoreTold (c : Cell) (k : Nat) (f : Ctx → Ctx) : (c.modCtx k f).istoreTold = c.istoreTold := rfl
@[simp] theorem Cell.modCtx_errs (c : Cell) (k : Nat) (f : Ctx → Ctx) : (c.modCtx k f).errs = c.errs := rfl
@[simp] theorem Cell.modCtx_ports (c : Cell) (k : Nat) (f : Ctx → Ctx) : (c.modCtx k f).ports = c.ports := rfl
@[simp] theorem Cell.modCtx_recvReq (c : Cell) (k : Nat) (f : Ctx → Ctx) : (c.modCtx k f).recvReq = c.recvReq := rfl
@[simp] theorem Cell.modCtx_recvRsp (c : Cell) (k : Nat) (f : Ctx → Ctx) : (c.modCtx k f).recvRsp = c.recvRsp := rfl
@[simp] theorem Cell.modCtx_tags (c : Cell) (k : Nat) (f : Ctx → Ctx) : (c.modCtx k f).tags = c.tags := rfl
@[simp] theorem Cell.modCtx_quar (c : Cell) (k : Nat) (f : Ctx → Ctx) : (c.modCtx k f).quar = c.quar := rfl
@[simp] theorem Cell.modCtx_quarEnd (c : Cell) (k : Nat) (f : Ctx → Ctx) : (c.modCtx k f).quarEnd = c.quarEnd := rfl
@[simp] theorem Cell.modCtx_undo (c : Cell) (k : Nat) (f : Ctx → Ctx) : (c.modCtx k f).undo = c.undo := rfl
@[simp] theorem Cell.modCtx_locks (c : Cell) (k : Nat) (f : Ctx → Ctx) : (c.modCtx k f).locks = c.locks := rfl
@[simp] theorem Cell.modCtx_inj (c : Cell) (k : Nat) (f : Ctx → Ctx) : (c.modCtx k f).inj = c.inj := rfl
@[simp] theorem Cell.modCtx_stop (c : Cell) (k : Nat) (f : Ctx → Ctx) : (c.modCtx k f).stop = c.stop := rfl
@[simp] theorem Cell.modCtx_sprTurn (c : Cell) (k : Nat) (f : Ctx → Ctx) : (c.modCtx k f).sprTurn = c.sprTurn := rfl
@[simp] theorem Cell.modCtx_frozen (c : Cell) (k : Nat) (f : Ctx → Ctx) : (c.modCtx k f).frozen = c.frozen := rfl
@[simp] theorem Cell.modCtx_scanning (c : Cell) (k : Nat) (f : Ctx → Ctx) : (c.modCtx k f).scanning = c.scanning := rfl
@[simp] theorem Cell.modCtx_scanImg (c : Cell) (k : Nat) (f : Ctx → Ctx) : (c.modCtx k f).scanImg = c.scanImg := rfl
@[simp] theorem Cell.modCtx_scanIn (c : Cell) (k : Nat) (f : Ctx → Ctx) : (c.modCtx k f).scanIn = c.scanIn := rfl
@[simp] theorem Cell.modCtx_scanStart (c : Cell) (k : Nat) (f : Ctx → Ctx) : (c.modCtx k f).scanStart = c.scanStart := rfl
@[simp] theorem Cell.modCtx_rasp (c : Cell) (k : Nat) (f : Ctx → Ctx) : (c.modCtx k f).rasp = c.rasp := rfl
@[simp] theorem Cell.modCtx_raspSr (c : Cell) (k : Nat) (f : Ctx → Ctx) : (c.modCtx k f).raspSr = c.raspSr := rfl
@[simp] theorem Cell.modCtx_raspSteps (c : Cell) (k : Nat) (f : Ctx → Ctx) : (c.modCtx k f).raspSteps = c.raspSteps := rfl
@[simp] theorem Cell.modCtx_raspOpen (c : Cell) (k : Nat) (f : Ctx → Ctx) : (c.modCtx k f).raspOpen = c.raspOpen := rfl
@[simp] theorem Cell.modCtx_spd (c : Cell) (k : Nat) (f : Ctx → Ctx) : (c.modCtx k f).spd = c.spd := rfl
@[simp] theorem Cell.modCtx_spdPoison (c : Cell) (k : Nat) (f : Ctx → Ctx) : (c.modCtx k f).spdPoison = c.spdPoison := rfl
@[simp] theorem Cell.modCtx_spdEcc (c : Cell) (k : Nat) (f : Ctx → Ctx) : (c.modCtx k f).spdEcc = c.spdEcc := rfl
@[simp] theorem Cell.modCtx_ownOld (c : Cell) (k : Nat) (f : Ctx → Ctx) : (c.modCtx k f).ownOld = c.ownOld := rfl
@[simp] theorem Cell.modCtx_ownDue (c : Cell) (k : Nat) (f : Ctx → Ctx) : (c.modCtx k f).ownDue = c.ownDue := rfl
@[simp] theorem Cell.modCtx_clears (c : Cell) (k : Nat) (f : Ctx → Ctx) : (c.modCtx k f).clears = c.clears := rfl
@[simp] theorem Cell.modCtx_rdClaim (c : Cell) (k : Nat) (f : Ctx → Ctx) : (c.modCtx k f).rdClaim = c.rdClaim := rfl
@[simp] theorem Cell.modCtx_wrClaim (c : Cell) (k : Nat) (f : Ctx → Ctx) : (c.modCtx k f).wrClaim = c.wrClaim := rfl
@[simp] theorem Cell.modCtx_acc (c : Cell) (k : Nat) (f : Ctx → Ctx) : (c.modCtx k f).acc = c.acc := rfl
@[simp] theorem Cell.modCtx_openCfg (c : Cell) (k : Nat) (f : Ctx → Ctx) : (c.modCtx k f).openCfg = c.openCfg := rfl
@[simp] theorem Cell.modCtx_macOp (c : Cell) (k : Nat) (f : Ctx → Ctx) : (c.modCtx k f).macOp = c.macOp := rfl
@[simp] theorem Cell.modCtx_feeds (c : Cell) (k : Nat) (f : Ctx → Ctx) : (c.modCtx k f).feeds = c.feeds := rfl
@[simp] theorem Cell.modCtx_reads (c : Cell) (k : Nat) (f : Ctx → Ctx) : (c.modCtx k f).reads = c.reads := rfl
@[simp] theorem Cell.modCtx_opBuf (c : Cell) (k : Nat) (f : Ctx → Ctx) : (c.modCtx k f).opBuf = c.opBuf := rfl
@[simp] theorem Cell.modCtx_drain (c : Cell) (k : Nat) (f : Ctx → Ctx) : (c.modCtx k f).drain = c.drain := rfl
@[simp] theorem Cell.modCtx_offer (c : Cell) (k : Nat) (f : Ctx → Ctx) : (c.modCtx k f).offer = c.offer := rfl
@[simp] theorem Cell.modCtx_verdict (c : Cell) (k : Nat) (f : Ctx → Ctx) : (c.modCtx k f).verdict = c.verdict := rfl
@[simp] theorem Cell.modCtx_ckFails (c : Cell) (k : Nat) (f : Ctx → Ctx) : (c.modCtx k f).ckFails = c.ckFails := rfl
@[simp] theorem Cell.modCtx_nbc (c : Cell) (k : Nat) (f : Ctx → Ctx) : (c.modCtx k f).nbc = c.nbc := rfl
@[simp] theorem Cell.modCtx_ckQ (c : Cell) (k : Nat) (f : Ctx → Ctx) : (c.modCtx k f).ckQ = c.ckQ := rfl
@[simp] theorem Cell.modCtx_hist (c : Cell) (k : Nat) (f : Ctx → Ctx) : (c.modCtx k f).hist = c.hist := rfl
@[simp] theorem Cell.modCtx_arbWait (c : Cell) (k : Nat) (f : Ctx → Ctx) : (c.modCtx k f).arbWait = c.arbWait := rfl
@[simp] theorem Cell.modCtx_routes (c : Cell) (k : Nat) (f : Ctx → Ctx) : (c.modCtx k f).routes = c.routes := rfl
@[simp] theorem Cell.modCtx_armRead (c : Cell) (k : Nat) (f : Ctx → Ctx) : (c.modCtx k f).armRead = c.armRead := rfl
@[simp] theorem Cell.modCtx_armStore (c : Cell) (k : Nat) (f : Ctx → Ctx) : (c.modCtx k f).armStore = c.armStore := rfl
@[simp] theorem Cell.modCtx_armEnd (c : Cell) (k : Nat) (f : Ctx → Ctx) : (c.modCtx k f).armEnd = c.armEnd := rfl
@[simp] theorem Cell.modCtx_ringEnd (c : Cell) (k : Nat) (f : Ctx → Ctx) : (c.modCtx k f).ringEnd = c.ringEnd := rfl
@[simp] theorem Cell.modCtx_armComb (c : Cell) (k : Nat) (f : Ctx → Ctx) : (c.modCtx k f).armComb = c.armComb := rfl
@[simp] theorem Cell.modCtx_ringPos (c : Cell) (k : Nat) (f : Ctx → Ctx) : (c.modCtx k f).ringPos = c.ringPos := rfl
@[simp] theorem Cell.modCtx_armGo (c : Cell) (k : Nat) (f : Ctx → Ctx) : (c.modCtx k f).armGo = c.armGo := rfl
@[simp] theorem Cell.modCtx_armDue (c : Cell) (k : Nat) (f : Ctx → Ctx) : (c.modCtx k f).armDue = c.armDue := rfl
@[simp] theorem Cell.modCtx_bkt (c : Cell) (k : Nat) (f : Ctx → Ctx) : (c.modCtx k f).bkt = c.bkt := rfl
@[simp] theorem Cell.modCtx_bktBad (c : Cell) (k : Nat) (f : Ctx → Ctx) : (c.modCtx k f).bktBad = c.bktBad := rfl
@[simp] theorem Cell.modCtx_recAt (c : Cell) (k : Nat) (f : Ctx → Ctx) : (c.modCtx k f).recAt = c.recAt := rfl
@[simp] theorem Cell.modCtx_faults (c : Cell) (k : Nat) (f : Ctx → Ctx) : (c.modCtx k f).faults = c.faults := rfl
@[simp] theorem Cell.modCtx_samples (c : Cell) (k : Nat) (f : Ctx → Ctx) : (c.modCtx k f).samples = c.samples := rfl
@[simp] theorem Cell.modCtx_sampSeq (c : Cell) (k : Nat) (f : Ctx → Ctx) : (c.modCtx k f).sampSeq = c.sampSeq := rfl
@[simp] theorem Cell.modCtx_sampLatch (c : Cell) (k : Nat) (f : Ctx → Ctx) : (c.modCtx k f).sampLatch = c.sampLatch := rfl
@[simp] theorem Cell.modCtx_snap (c : Cell) (k : Nat) (f : Ctx → Ctx) : (c.modCtx k f).snap = c.snap := rfl
@[simp] theorem Cell.inject_ctxs (c : Cell) (m : Msg) : (c.inject m).ctxs = c.ctxs := rfl
@[simp] theorem Cell.inject_regs (c : Cell) (m : Msg) : (c.inject m).regs = c.regs := rfl
@[simp] theorem Cell.inject_istore (c : Cell) (m : Msg) : (c.inject m).istore = c.istore := rfl
@[simp] theorem Cell.inject_istoreEcc (c : Cell) (m : Msg) : (c.inject m).istoreEcc = c.istoreEcc := rfl
@[simp] theorem Cell.inject_istoreTold (c : Cell) (m : Msg) : (c.inject m).istoreTold = c.istoreTold := rfl
@[simp] theorem Cell.inject_errs (c : Cell) (m : Msg) : (c.inject m).errs = c.errs := rfl
@[simp] theorem Cell.inject_ports (c : Cell) (m : Msg) : (c.inject m).ports = c.ports := rfl
@[simp] theorem Cell.inject_recvReq (c : Cell) (m : Msg) : (c.inject m).recvReq = c.recvReq := rfl
@[simp] theorem Cell.inject_recvRsp (c : Cell) (m : Msg) : (c.inject m).recvRsp = c.recvRsp := rfl
@[simp] theorem Cell.inject_tags (c : Cell) (m : Msg) : (c.inject m).tags = c.tags := rfl
@[simp] theorem Cell.inject_quar (c : Cell) (m : Msg) : (c.inject m).quar = c.quar := rfl
@[simp] theorem Cell.inject_quarEnd (c : Cell) (m : Msg) : (c.inject m).quarEnd = c.quarEnd := rfl
@[simp] theorem Cell.inject_undo (c : Cell) (m : Msg) : (c.inject m).undo = c.undo := rfl
@[simp] theorem Cell.inject_locks (c : Cell) (m : Msg) : (c.inject m).locks = c.locks := rfl
@[simp] theorem Cell.inject_stop (c : Cell) (m : Msg) : (c.inject m).stop = c.stop := rfl
@[simp] theorem Cell.inject_sprTurn (c : Cell) (m : Msg) : (c.inject m).sprTurn = c.sprTurn := rfl
@[simp] theorem Cell.inject_frozen (c : Cell) (m : Msg) : (c.inject m).frozen = c.frozen := rfl
@[simp] theorem Cell.inject_scanning (c : Cell) (m : Msg) : (c.inject m).scanning = c.scanning := rfl
@[simp] theorem Cell.inject_scanImg (c : Cell) (m : Msg) : (c.inject m).scanImg = c.scanImg := rfl
@[simp] theorem Cell.inject_scanIn (c : Cell) (m : Msg) : (c.inject m).scanIn = c.scanIn := rfl
@[simp] theorem Cell.inject_scanStart (c : Cell) (m : Msg) : (c.inject m).scanStart = c.scanStart := rfl
@[simp] theorem Cell.inject_rasp (c : Cell) (m : Msg) : (c.inject m).rasp = c.rasp := rfl
@[simp] theorem Cell.inject_raspSr (c : Cell) (m : Msg) : (c.inject m).raspSr = c.raspSr := rfl
@[simp] theorem Cell.inject_raspSteps (c : Cell) (m : Msg) : (c.inject m).raspSteps = c.raspSteps := rfl
@[simp] theorem Cell.inject_raspOpen (c : Cell) (m : Msg) : (c.inject m).raspOpen = c.raspOpen := rfl
@[simp] theorem Cell.inject_spd (c : Cell) (m : Msg) : (c.inject m).spd = c.spd := rfl
@[simp] theorem Cell.inject_spdPoison (c : Cell) (m : Msg) : (c.inject m).spdPoison = c.spdPoison := rfl
@[simp] theorem Cell.inject_spdEcc (c : Cell) (m : Msg) : (c.inject m).spdEcc = c.spdEcc := rfl
@[simp] theorem Cell.inject_ownOld (c : Cell) (m : Msg) : (c.inject m).ownOld = c.ownOld := rfl
@[simp] theorem Cell.inject_ownDue (c : Cell) (m : Msg) : (c.inject m).ownDue = c.ownDue := rfl
@[simp] theorem Cell.inject_clears (c : Cell) (m : Msg) : (c.inject m).clears = c.clears := rfl
@[simp] theorem Cell.inject_rdClaim (c : Cell) (m : Msg) : (c.inject m).rdClaim = c.rdClaim := rfl
@[simp] theorem Cell.inject_wrClaim (c : Cell) (m : Msg) : (c.inject m).wrClaim = c.wrClaim := rfl
@[simp] theorem Cell.inject_acc (c : Cell) (m : Msg) : (c.inject m).acc = c.acc := rfl
@[simp] theorem Cell.inject_openCfg (c : Cell) (m : Msg) : (c.inject m).openCfg = c.openCfg := rfl
@[simp] theorem Cell.inject_macOp (c : Cell) (m : Msg) : (c.inject m).macOp = c.macOp := rfl
@[simp] theorem Cell.inject_feeds (c : Cell) (m : Msg) : (c.inject m).feeds = c.feeds := rfl
@[simp] theorem Cell.inject_reads (c : Cell) (m : Msg) : (c.inject m).reads = c.reads := rfl
@[simp] theorem Cell.inject_opBuf (c : Cell) (m : Msg) : (c.inject m).opBuf = c.opBuf := rfl
@[simp] theorem Cell.inject_drain (c : Cell) (m : Msg) : (c.inject m).drain = c.drain := rfl
@[simp] theorem Cell.inject_offer (c : Cell) (m : Msg) : (c.inject m).offer = c.offer := rfl
@[simp] theorem Cell.inject_verdict (c : Cell) (m : Msg) : (c.inject m).verdict = c.verdict := rfl
@[simp] theorem Cell.inject_ckFails (c : Cell) (m : Msg) : (c.inject m).ckFails = c.ckFails := rfl
@[simp] theorem Cell.inject_nbc (c : Cell) (m : Msg) : (c.inject m).nbc = c.nbc := rfl
@[simp] theorem Cell.inject_ckQ (c : Cell) (m : Msg) : (c.inject m).ckQ = c.ckQ := rfl
@[simp] theorem Cell.inject_hist (c : Cell) (m : Msg) : (c.inject m).hist = c.hist := rfl
@[simp] theorem Cell.inject_arbWait (c : Cell) (m : Msg) : (c.inject m).arbWait = c.arbWait := rfl
@[simp] theorem Cell.inject_routes (c : Cell) (m : Msg) : (c.inject m).routes = c.routes := rfl
@[simp] theorem Cell.inject_armRead (c : Cell) (m : Msg) : (c.inject m).armRead = c.armRead := rfl
@[simp] theorem Cell.inject_armStore (c : Cell) (m : Msg) : (c.inject m).armStore = c.armStore := rfl
@[simp] theorem Cell.inject_armEnd (c : Cell) (m : Msg) : (c.inject m).armEnd = c.armEnd := rfl
@[simp] theorem Cell.inject_ringEnd (c : Cell) (m : Msg) : (c.inject m).ringEnd = c.ringEnd := rfl
@[simp] theorem Cell.inject_armComb (c : Cell) (m : Msg) : (c.inject m).armComb = c.armComb := rfl
@[simp] theorem Cell.inject_ringPos (c : Cell) (m : Msg) : (c.inject m).ringPos = c.ringPos := rfl
@[simp] theorem Cell.inject_armGo (c : Cell) (m : Msg) : (c.inject m).armGo = c.armGo := rfl
@[simp] theorem Cell.inject_armDue (c : Cell) (m : Msg) : (c.inject m).armDue = c.armDue := rfl
@[simp] theorem Cell.inject_bkt (c : Cell) (m : Msg) : (c.inject m).bkt = c.bkt := rfl
@[simp] theorem Cell.inject_bktBad (c : Cell) (m : Msg) : (c.inject m).bktBad = c.bktBad := rfl
@[simp] theorem Cell.inject_recAt (c : Cell) (m : Msg) : (c.inject m).recAt = c.recAt := rfl
@[simp] theorem Cell.inject_faults (c : Cell) (m : Msg) : (c.inject m).faults = c.faults := rfl
@[simp] theorem Cell.inject_samples (c : Cell) (m : Msg) : (c.inject m).samples = c.samples := rfl
@[simp] theorem Cell.inject_sampSeq (c : Cell) (m : Msg) : (c.inject m).sampSeq = c.sampSeq := rfl
@[simp] theorem Cell.inject_sampLatch (c : Cell) (m : Msg) : (c.inject m).sampLatch = c.sampLatch := rfl
@[simp] theorem Cell.inject_snap (c : Cell) (m : Msg) : (c.inject m).snap = c.snap := rfl
@[simp] theorem Ctx.sReg_setPairW (x : Ctx) (i v : Nat) (pl ph : Bool) (j : Nat) :
    (x.setPairW i v pl ph).sReg j = if j = i + 1 then ⟨BitVec.ofNat 32 (v / 2 ^ 32), ph⟩
      else if j = i then ⟨BitVec.ofNat 32 v, pl⟩ else x.sReg j := by
  unfold Ctx.setPairW; rw [Ctx.sReg_setS, Ctx.sReg_setS]
@[simp] theorem Ctx.aReg_setPairW (x : Ctx) (i v : Nat) (pl ph : Bool) (j : Nat) : (x.setPairW i v pl ph).aReg j = x.aReg j := rfl
@[simp] theorem Ctx.vReg_setPairW (x : Ctx) (i v : Nat) (pl ph : Bool) (j : Nat) : (x.setPairW i v pl ph).vReg j = x.vReg j := rfl
@[simp] theorem Ctx.pReg_setPairW (x : Ctx) (i v : Nat) (pl ph : Bool) (j : Nat) : (x.setPairW i v pl ph).pReg j = x.pReg j := rfl
@[simp] theorem Ctx.lReg_setPairW (x : Ctx) (i v : Nat) (pl ph : Bool) (j : Nat) : (x.setPairW i v pl ph).lReg j = x.lReg j := rfl
@[simp] theorem Ctx.aReg_setPair (x : Ctx) (i v : Nat) (p : Bool) (j : Nat) : (x.setPair i v p).aReg j = x.aReg j := rfl
@[simp] theorem Ctx.vReg_setPair (x : Ctx) (i v : Nat) (p : Bool) (j : Nat) : (x.setPair i v p).vReg j = x.vReg j := rfl
@[simp] theorem Ctx.pReg_setPair (x : Ctx) (i v : Nat) (p : Bool) (j : Nat) : (x.setPair i v p).pReg j = x.pReg j := rfl
@[simp] theorem Ctx.lReg_setPair (x : Ctx) (i v : Nat) (p : Bool) (j : Nat) : (x.setPair i v p).lReg j = x.lReg j := rfl
@[simp] theorem Cell.ctx_setCtx (c : Cell) (k : Nat) (x : Ctx) (j : Nat) : (c.setCtx k x).ctx j = if j = k then x else c.ctx j :=
  fget_fset ..
@[simp] theorem Cell.ctx_modCtx (c : Cell) (k : Nat) (f : Ctx → Ctx) (j : Nat) :
    (c.modCtx k f).ctx j = if j = k then f (c.ctx k) else c.ctx j := Cell.ctx_setCtx ..
@[simp] theorem Cell.ctx_wr (c : Cell) (f : Fld) (v k : Nat) : (c.wr f v).ctx k = c.ctx k := rfl
@[simp] theorem Cell.ctx_inject (c : Cell) (m : Msg) (k : Nat) : (c.inject m).ctx k = c.ctx k := rfl
@[simp] theorem Cell.rd_setCtx (c : Cell) (k : Nat) (x : Ctx) (f : Fld) : (c.setCtx k x).rd f = c.rd f := rfl
@[simp] theorem Cell.rd_modCtx (c : Cell) (k : Nat) (g : Ctx → Ctx) (f : Fld) : (c.modCtx k g).rd f = c.rd f := rfl
@[simp] theorem Cell.rd_inject (c : Cell) (m : Msg) (f : Fld) : (c.inject m).rd f = c.rd f := rfl
/-- A field reads what was written, cut to its width; another field reads as before. -/
theorem Cell.rd_wr (c : Cell) (f g : Fld) (v : Nat) : (c.wr f v).rd g = if g.key = f.key then v % 2 ^ f.width else c.rd g :=
  fget_fset ..
@[simp] theorem Cell.rd_wr_self (c : Cell) (f : Fld) (v : Nat) : (c.wr f v).rd f = v % 2 ^ f.width := by simp [Cell.rd_wr]
theorem Cell.rd_wr_ne (c : Cell) {f g : Fld} (v : Nat) (h : g.key ≠ f.key) : (c.wr f v).rd g = c.rd g := by simp [Cell.rd_wr, h]

/-! ### Courts -/

@[simp] theorem Court.wr_rt (c : Court) (f : Fld) (v : Nat) : (c.wr f v).rt = c.rt := rfl
@[simp] theorem Court.wr_syncIn (c : Court) (f : Fld) (v : Nat) : (c.wr f v).syncIn = c.syncIn := rfl
@[simp] theorem Court.wr_rifIn (c : Court) (f : Fld) (v : Nat) : (c.wr f v).rifIn = c.rifIn := rfl
@[simp] theorem Court.wr_dmaIn (c : Court) (f : Fld) (v : Nat) : (c.wr f v).dmaIn = c.dmaIn := rfl
@[simp] theorem Court.wr_out (c : Court) (f : Fld) (v : Nat) : (c.wr f v).out = c.out := rfl
@[simp] theorem Court.wr_waiters (c : Court) (f : Fld) (v : Nat) : (c.wr f v).waiters = c.waiters := rfl
@[simp] theorem Court.wr_plinth (c : Court) (f : Fld) (v : Nat) : (c.wr f v).plinth = c.plinth := rfl
@[simp] theorem Court.wr_plnPoison (c : Court) (f : Fld) (v : Nat) : (c.wr f v).plnPoison = c.plnPoison := rfl
@[simp] theorem Court.wr_plnEcc (c : Court) (f : Fld) (v : Nat) : (c.wr f v).plnEcc = c.plnEcc := rfl
@[simp] theorem Court.wr_edge (c : Court) (f : Fld) (v : Nat) : (c.wr f v).edge = c.edge := rfl
@[simp] theorem Court.wr_round (c : Court) (f : Fld) (v : Nat) : (c.wr f v).round = c.round := rfl
@[simp] theorem Court.wr_rif (c : Court) (f : Fld) (v : Nat) : (c.wr f v).rif = c.rif := rfl
@[simp] theorem Court.wr_rifEnd (c : Court) (f : Fld) (v : Nat) : (c.wr f v).rifEnd = c.rifEnd := rfl
@[simp] theorem Court.wr_dma (c : Court) (f : Fld) (v : Nat) : (c.wr f v).dma = c.dma := rfl
@[simp] theorem Court.wr_raspBanks (c : Court) (f : Fld) (v : Nat) : (c.wr f v).raspBanks = c.raspBanks := rfl
@[simp] theorem Court.wr_raspGone (c : Court) (f : Fld) (v : Nat) : (c.wr f v).raspGone = c.raspGone := rfl
@[simp] theorem Court.wr_raspKept (c : Court) (f : Fld) (v : Nat) : (c.wr f v).raspKept = c.raspKept := rfl
@[simp] theorem Court.wr_errs (c : Court) (f : Fld) (v : Nat) : (c.wr f v).errs = c.errs := rfl
@[simp] theorem Court.wr_raspMiss (c : Court) (f : Fld) (v : Nat) : (c.wr f v).raspMiss = c.raspMiss := rfl
@[simp] theorem Court.wr_faults (c : Court) (f : Fld) (v : Nat) : (c.wr f v).faults = c.faults := rfl
@[simp] theorem Court.wr_snap (c : Court) (f : Fld) (v : Nat) : (c.wr f v).snap = c.snap := rfl
theorem Court.rd_wr (c : Court) (f g : Fld) (v : Nat) : (c.wr f v).rd g = if g.key = f.key then v % 2 ^ f.width else c.rd g :=
  fget_fset ..
@[simp] theorem Court.rd_wr_self (c : Court) (f : Fld) (v : Nat) : (c.wr f v).rd f = v % 2 ^ f.width := by simp [Court.rd_wr]
theorem Court.rd_wr_ne (c : Court) {f g : Fld} (v : Nat) (h : g.key ≠ f.key) : (c.wr f v).rd g = c.rd g := by simp [Court.rd_wr, h]

/-! ### The package -/

@[simp] theorem State.modCell_small (s : State) (n : Nat) (f : Cell → Cell) : (s.modCell n f).small = s.small := rfl
@[simp] theorem State.modCell_lite (s : State) (n : Nat) (f : Cell → Cell) : (s.modCell n f).lite = s.lite := rfl
@[simp] theorem State.modCell_cycle (s : State) (n : Nat) (f : Cell → Cell) : (s.modCell n f).cycle = s.cycle := rfl
@[simp] theorem State.modCell_courts (s : State) (n : Nat) (f : Cell → Cell) : (s.modCell n f).courts = s.courts := rfl
@[simp] theorem State.modCell_dieRegs (s : State) (n : Nat) (f : Cell → Cell) : (s.modCell n f).dieRegs = s.dieRegs := rfl
@[simp] theorem State.modCell_events (s : State) (n : Nat) (f : Cell → Cell) : (s.modCell n f).events = s.events := rfl
@[simp] theorem State.modCell_flog (s : State) (n : Nat) (f : Cell → Cell) : (s.modCell n f).flog = s.flog := rfl
@[simp] theorem State.modCell_flogSeq (s : State) (n : Nat) (f : Cell → Cell) : (s.modCell n f).flogSeq = s.flogSeq := rfl
@[simp] theorem State.modCell_fuses (s : State) (n : Nat) (f : Cell → Cell) : (s.modCell n f).fuses = s.fuses := rfl
@[simp] theorem State.modCell_flaws (s : State) (n : Nat) (f : Cell → Cell) : (s.modCell n f).flaws = s.flaws := rfl
@[simp] theorem State.modCell_hbmErrs (s : State) (n : Nat) (f : Cell → Cell) : (s.modCell n f).hbmErrs = s.hbmErrs := rfl
@[simp] theorem State.modCell_errLog (s : State) (n : Nat) (f : Cell → Cell) : (s.modCell n f).errLog = s.errLog := rfl
@[simp] theorem State.modCell_decided (s : State) (n : Nat) (f : Cell → Cell) : (s.modCell n f).decided = s.decided := rfl
@[simp] theorem State.modCell_unexplained (s : State) (n : Nat) (f : Cell → Cell) : (s.modCell n f).unexplained = s.unexplained := rfl
@[simp] theorem State.modCell_doubts (s : State) (n : Nat) (f : Cell → Cell) : (s.modCell n f).doubts = s.doubts := rfl
@[simp] theorem State.modCell_pendDoubt (s : State) (n : Nat) (f : Cell → Cell) : (s.modCell n f).pendDoubt = s.pendDoubt := rfl
@[simp] theorem State.modCell_irq (s : State) (n : Nat) (f : Cell → Cell) : (s.modCell n f).irq = s.irq := rfl
@[simp] theorem State.modCell_dieHalt (s : State) (n : Nat) (f : Cell → Cell) : (s.modCell n f).dieHalt = s.dieHalt := rfl
@[simp] theorem State.modCell_dieStart (s : State) (n : Nat) (f : Cell → Cell) : (s.modCell n f).dieStart = s.dieStart := rfl
@[simp] theorem State.modCell_regions (s : State) (n : Nat) (f : Cell → Cell) : (s.modCell n f).regions = s.regions := rfl
@[simp] theorem State.modCell_mgmt (s : State) (n : Nat) (f : Cell → Cell) : (s.modCell n f).mgmt = s.mgmt := rfl
@[simp] theorem State.modCell_pkgRegs (s : State) (n : Nat) (f : Cell → Cell) : (s.modCell n f).pkgRegs = s.pkgRegs := rfl
@[simp] theorem State.modCell_niches (s : State) (n : Nat) (f : Cell → Cell) : (s.modCell n f).niches = s.niches := rfl
@[simp] theorem State.modCell_rings (s : State) (n : Nat) (f : Cell → Cell) : (s.modCell n f).rings = s.rings := rfl
@[simp] theorem State.modCell_pends (s : State) (n : Nat) (f : Cell → Cell) : (s.modCell n f).pends = s.pends := rfl
@[simp] theorem State.modCell_hostQs (s : State) (n : Nat) (f : Cell → Cell) : (s.modCell n f).hostQs = s.hostQs := rfl
@[simp] theorem State.modCell_hostRings (s : State) (n : Nat) (f : Cell → Cell) : (s.modCell n f).hostRings = s.hostRings := rfl
@[simp] theorem State.modCell_hostMem (s : State) (n : Nat) (f : Cell → Cell) : (s.modCell n f).hostMem = s.hostMem := rfl
@[simp] theorem State.modCell_hostEp (s : State) (n : Nat) (f : Cell → Cell) : (s.modCell n f).hostEp = s.hostEp := rfl
@[simp] theorem State.modCell_stepping (s : State) (n : Nat) (f : Cell → Cell) : (s.modCell n f).stepping = s.stepping := rfl
@[simp] theorem State.modCell_links (s : State) (n : Nat) (f : Cell → Cell) : (s.modCell n f).links = s.links := rfl
@[simp] theorem State.modCell_pod (s : State) (n : Nat) (f : Cell → Cell) : (s.modCell n f).pod = s.pod := rfl
@[simp] theorem State.modCell_dirty (s : State) (n : Nat) (f : Cell → Cell) : (s.modCell n f).dirty = s.dirty := rfl
@[simp] theorem State.modCell_lastReset (s : State) (n : Nat) (f : Cell → Cell) : (s.modCell n f).lastReset = s.lastReset := rfl
@[simp] theorem State.modCell_pkgResets (s : State) (n : Nat) (f : Cell → Cell) : (s.modCell n f).pkgResets = s.pkgResets := rfl
@[simp] theorem State.modCell_crashSeq (s : State) (n : Nat) (f : Cell → Cell) : (s.modCell n f).crashSeq = s.crashSeq := rfl
@[simp] theorem State.modCell_crashOpen (s : State) (n : Nat) (f : Cell → Cell) : (s.modCell n f).crashOpen = s.crashOpen := rfl
@[simp] theorem State.modCell_crashFrozen (s : State) (n : Nat) (f : Cell → Cell) : (s.modCell n f).crashFrozen = s.crashFrozen := rfl
@[simp] theorem State.modCell_dieSnap (s : State) (n : Nat) (f : Cell → Cell) : (s.modCell n f).dieSnap = s.dieSnap := rfl
@[simp] theorem State.modCell_objects (s : State) (n : Nat) (f : Cell → Cell) : (s.modCell n f).objects = s.objects := rfl
@[simp] theorem State.modCell_hbm (s : State) (n : Nat) (f : Cell → Cell) : (s.modCell n f).hbm = s.hbm := rfl
@[simp] theorem State.modCell_hbmPoison (s : State) (n : Nat) (f : Cell → Cell) : (s.modCell n f).hbmPoison = s.hbmPoison := rfl
@[simp] theorem State.modCell_hbmEcc (s : State) (n : Nat) (f : Cell → Cell) : (s.modCell n f).hbmEcc = s.hbmEcc := rfl
@[simp] theorem State.modCell_hbmCheck (s : State) (n : Nat) (f : Cell → Cell) : (s.modCell n f).hbmCheck = s.hbmCheck := rfl
@[simp] theorem State.modCell_mailbox (s : State) (n : Nat) (f : Cell → Cell) : (s.modCell n f).mailbox = s.mailbox := rfl
@[simp] theorem State.modCell_resets (s : State) (n : Nat) (f : Cell → Cell) : (s.modCell n f).resets = s.resets := rfl
@[simp] theorem State.modCell_tickFrac (s : State) (n : Nat) (f : Cell → Cell) : (s.modCell n f).tickFrac = s.tickFrac := rfl
@[simp] theorem State.modCell_meshAcc (s : State) (n : Nat) (f : Cell → Cell) : (s.modCell n f).meshAcc = s.meshAcc := rfl
@[simp] theorem State.modCell_flights (s : State) (n : Nat) (f : Cell → Cell) : (s.modCell n f).flights = s.flights := rfl
@[simp] theorem State.modCell_free (s : State) (n : Nat) (f : Cell → Cell) : (s.modCell n f).free = s.free := rfl
@[simp] theorem State.modCell_readVal (s : State) (n : Nat) (f : Cell → Cell) : (s.modCell n f).readVal = s.readVal := rfl
@[simp] theorem State.modCell_readStat (s : State) (n : Nat) (f : Cell → Cell) : (s.modCell n f).readStat = s.readStat := rfl
@[simp] theorem State.modCell_pending (s : State) (n : Nat) (f : Cell → Cell) : (s.modCell n f).pending = s.pending := rfl
@[simp] theorem State.modCourt_small (s : State) (q : Nat) (f : Court → Court) : (s.modCourt q f).small = s.small := rfl
@[simp] theorem State.modCourt_lite (s : State) (q : Nat) (f : Court → Court) : (s.modCourt q f).lite = s.lite := rfl
@[simp] theorem State.modCourt_cycle (s : State) (q : Nat) (f : Court → Court) : (s.modCourt q f).cycle = s.cycle := rfl
@[simp] theorem State.modCourt_cells (s : State) (q : Nat) (f : Court → Court) : (s.modCourt q f).cells = s.cells := rfl
@[simp] theorem State.modCourt_dieRegs (s : State) (q : Nat) (f : Court → Court) : (s.modCourt q f).dieRegs = s.dieRegs := rfl
@[simp] theorem State.modCourt_events (s : State) (q : Nat) (f : Court → Court) : (s.modCourt q f).events = s.events := rfl
@[simp] theorem State.modCourt_flog (s : State) (q : Nat) (f : Court → Court) : (s.modCourt q f).flog = s.flog := rfl
@[simp] theorem State.modCourt_flogSeq (s : State) (q : Nat) (f : Court → Court) : (s.modCourt q f).flogSeq = s.flogSeq := rfl
@[simp] theorem State.modCourt_fuses (s : State) (q : Nat) (f : Court → Court) : (s.modCourt q f).fuses = s.fuses := rfl
@[simp] theorem State.modCourt_flaws (s : State) (q : Nat) (f : Court → Court) : (s.modCourt q f).flaws = s.flaws := rfl
@[simp] theorem State.modCourt_hbmErrs (s : State) (q : Nat) (f : Court → Court) : (s.modCourt q f).hbmErrs = s.hbmErrs := rfl
@[simp] theorem State.modCourt_errLog (s : State) (q : Nat) (f : Court → Court) : (s.modCourt q f).errLog = s.errLog := rfl
@[simp] theorem State.modCourt_decided (s : State) (q : Nat) (f : Court → Court) : (s.modCourt q f).decided = s.decided := rfl
@[simp] theorem State.modCourt_unexplained (s : State) (q : Nat) (f : Court → Court) : (s.modCourt q f).unexplained = s.unexplained := rfl
@[simp] theorem State.modCourt_doubts (s : State) (q : Nat) (f : Court → Court) : (s.modCourt q f).doubts = s.doubts := rfl
@[simp] theorem State.modCourt_pendDoubt (s : State) (q : Nat) (f : Court → Court) : (s.modCourt q f).pendDoubt = s.pendDoubt := rfl
@[simp] theorem State.modCourt_irq (s : State) (q : Nat) (f : Court → Court) : (s.modCourt q f).irq = s.irq := rfl
@[simp] theorem State.modCourt_dieHalt (s : State) (q : Nat) (f : Court → Court) : (s.modCourt q f).dieHalt = s.dieHalt := rfl
@[simp] theorem State.modCourt_dieStart (s : State) (q : Nat) (f : Court → Court) : (s.modCourt q f).dieStart = s.dieStart := rfl
@[simp] theorem State.modCourt_regions (s : State) (q : Nat) (f : Court → Court) : (s.modCourt q f).regions = s.regions := rfl
@[simp] theorem State.modCourt_mgmt (s : State) (q : Nat) (f : Court → Court) : (s.modCourt q f).mgmt = s.mgmt := rfl
@[simp] theorem State.modCourt_pkgRegs (s : State) (q : Nat) (f : Court → Court) : (s.modCourt q f).pkgRegs = s.pkgRegs := rfl
@[simp] theorem State.modCourt_niches (s : State) (q : Nat) (f : Court → Court) : (s.modCourt q f).niches = s.niches := rfl
@[simp] theorem State.modCourt_rings (s : State) (q : Nat) (f : Court → Court) : (s.modCourt q f).rings = s.rings := rfl
@[simp] theorem State.modCourt_pends (s : State) (q : Nat) (f : Court → Court) : (s.modCourt q f).pends = s.pends := rfl
@[simp] theorem State.modCourt_hostQs (s : State) (q : Nat) (f : Court → Court) : (s.modCourt q f).hostQs = s.hostQs := rfl
@[simp] theorem State.modCourt_hostRings (s : State) (q : Nat) (f : Court → Court) : (s.modCourt q f).hostRings = s.hostRings := rfl
@[simp] theorem State.modCourt_hostMem (s : State) (q : Nat) (f : Court → Court) : (s.modCourt q f).hostMem = s.hostMem := rfl
@[simp] theorem State.modCourt_hostEp (s : State) (q : Nat) (f : Court → Court) : (s.modCourt q f).hostEp = s.hostEp := rfl
@[simp] theorem State.modCourt_stepping (s : State) (q : Nat) (f : Court → Court) : (s.modCourt q f).stepping = s.stepping := rfl
@[simp] theorem State.modCourt_links (s : State) (q : Nat) (f : Court → Court) : (s.modCourt q f).links = s.links := rfl
@[simp] theorem State.modCourt_pod (s : State) (q : Nat) (f : Court → Court) : (s.modCourt q f).pod = s.pod := rfl
@[simp] theorem State.modCourt_dirty (s : State) (q : Nat) (f : Court → Court) : (s.modCourt q f).dirty = s.dirty := rfl
@[simp] theorem State.modCourt_lastReset (s : State) (q : Nat) (f : Court → Court) : (s.modCourt q f).lastReset = s.lastReset := rfl
@[simp] theorem State.modCourt_pkgResets (s : State) (q : Nat) (f : Court → Court) : (s.modCourt q f).pkgResets = s.pkgResets := rfl
@[simp] theorem State.modCourt_crashSeq (s : State) (q : Nat) (f : Court → Court) : (s.modCourt q f).crashSeq = s.crashSeq := rfl
@[simp] theorem State.modCourt_crashOpen (s : State) (q : Nat) (f : Court → Court) : (s.modCourt q f).crashOpen = s.crashOpen := rfl
@[simp] theorem State.modCourt_crashFrozen (s : State) (q : Nat) (f : Court → Court) : (s.modCourt q f).crashFrozen = s.crashFrozen := rfl
@[simp] theorem State.modCourt_dieSnap (s : State) (q : Nat) (f : Court → Court) : (s.modCourt q f).dieSnap = s.dieSnap := rfl
@[simp] theorem State.modCourt_objects (s : State) (q : Nat) (f : Court → Court) : (s.modCourt q f).objects = s.objects := rfl
@[simp] theorem State.modCourt_hbm (s : State) (q : Nat) (f : Court → Court) : (s.modCourt q f).hbm = s.hbm := rfl
@[simp] theorem State.modCourt_hbmPoison (s : State) (q : Nat) (f : Court → Court) : (s.modCourt q f).hbmPoison = s.hbmPoison := rfl
@[simp] theorem State.modCourt_hbmEcc (s : State) (q : Nat) (f : Court → Court) : (s.modCourt q f).hbmEcc = s.hbmEcc := rfl
@[simp] theorem State.modCourt_hbmCheck (s : State) (q : Nat) (f : Court → Court) : (s.modCourt q f).hbmCheck = s.hbmCheck := rfl
@[simp] theorem State.modCourt_mailbox (s : State) (q : Nat) (f : Court → Court) : (s.modCourt q f).mailbox = s.mailbox := rfl
@[simp] theorem State.modCourt_resets (s : State) (q : Nat) (f : Court → Court) : (s.modCourt q f).resets = s.resets := rfl
@[simp] theorem State.modCourt_tickFrac (s : State) (q : Nat) (f : Court → Court) : (s.modCourt q f).tickFrac = s.tickFrac := rfl
@[simp] theorem State.modCourt_meshAcc (s : State) (q : Nat) (f : Court → Court) : (s.modCourt q f).meshAcc = s.meshAcc := rfl
@[simp] theorem State.modCourt_flights (s : State) (q : Nat) (f : Court → Court) : (s.modCourt q f).flights = s.flights := rfl
@[simp] theorem State.modCourt_free (s : State) (q : Nat) (f : Court → Court) : (s.modCourt q f).free = s.free := rfl
@[simp] theorem State.modCourt_readVal (s : State) (q : Nat) (f : Court → Court) : (s.modCourt q f).readVal = s.readVal := rfl
@[simp] theorem State.modCourt_readStat (s : State) (q : Nat) (f : Court → Court) : (s.modCourt q f).readStat = s.readStat := rfl
@[simp] theorem State.modCourt_pending (s : State) (q : Nat) (f : Court → Court) : (s.modCourt q f).pending = s.pending := rfl
@[simp] theorem State.dieWr_small (s : State) (d : Nat) (f : Fld) (v : Nat) : (s.dieWr d f v).small = s.small := rfl
@[simp] theorem State.dieWr_lite (s : State) (d : Nat) (f : Fld) (v : Nat) : (s.dieWr d f v).lite = s.lite := rfl
@[simp] theorem State.dieWr_cycle (s : State) (d : Nat) (f : Fld) (v : Nat) : (s.dieWr d f v).cycle = s.cycle := rfl
@[simp] theorem State.dieWr_cells (s : State) (d : Nat) (f : Fld) (v : Nat) : (s.dieWr d f v).cells = s.cells := rfl
@[simp] theorem State.dieWr_courts (s : State) (d : Nat) (f : Fld) (v : Nat) : (s.dieWr d f v).courts = s.courts := rfl
@[simp] theorem State.dieWr_events (s : State) (d : Nat) (f : Fld) (v : Nat) : (s.dieWr d f v).events = s.events := rfl
@[simp] theorem State.dieWr_flog (s : State) (d : Nat) (f : Fld) (v : Nat) : (s.dieWr d f v).flog = s.flog := rfl
@[simp] theorem State.dieWr_flogSeq (s : State) (d : Nat) (f : Fld) (v : Nat) : (s.dieWr d f v).flogSeq = s.flogSeq := rfl
@[simp] theorem State.dieWr_fuses (s : State) (d : Nat) (f : Fld) (v : Nat) : (s.dieWr d f v).fuses = s.fuses := rfl
@[simp] theorem State.dieWr_flaws (s : State) (d : Nat) (f : Fld) (v : Nat) : (s.dieWr d f v).flaws = s.flaws := rfl
@[simp] theorem State.dieWr_hbmErrs (s : State) (d : Nat) (f : Fld) (v : Nat) : (s.dieWr d f v).hbmErrs = s.hbmErrs := rfl
@[simp] theorem State.dieWr_errLog (s : State) (d : Nat) (f : Fld) (v : Nat) : (s.dieWr d f v).errLog = s.errLog := rfl
@[simp] theorem State.dieWr_decided (s : State) (d : Nat) (f : Fld) (v : Nat) : (s.dieWr d f v).decided = s.decided := rfl
@[simp] theorem State.dieWr_unexplained (s : State) (d : Nat) (f : Fld) (v : Nat) : (s.dieWr d f v).unexplained = s.unexplained := rfl
@[simp] theorem State.dieWr_doubts (s : State) (d : Nat) (f : Fld) (v : Nat) : (s.dieWr d f v).doubts = s.doubts := rfl
@[simp] theorem State.dieWr_pendDoubt (s : State) (d : Nat) (f : Fld) (v : Nat) : (s.dieWr d f v).pendDoubt = s.pendDoubt := rfl
@[simp] theorem State.dieWr_irq (s : State) (d : Nat) (f : Fld) (v : Nat) : (s.dieWr d f v).irq = s.irq := rfl
@[simp] theorem State.dieWr_dieHalt (s : State) (d : Nat) (f : Fld) (v : Nat) : (s.dieWr d f v).dieHalt = s.dieHalt := rfl
@[simp] theorem State.dieWr_dieStart (s : State) (d : Nat) (f : Fld) (v : Nat) : (s.dieWr d f v).dieStart = s.dieStart := rfl
@[simp] theorem State.dieWr_regions (s : State) (d : Nat) (f : Fld) (v : Nat) : (s.dieWr d f v).regions = s.regions := rfl
@[simp] theorem State.dieWr_mgmt (s : State) (d : Nat) (f : Fld) (v : Nat) : (s.dieWr d f v).mgmt = s.mgmt := rfl
@[simp] theorem State.dieWr_pkgRegs (s : State) (d : Nat) (f : Fld) (v : Nat) : (s.dieWr d f v).pkgRegs = s.pkgRegs := rfl
@[simp] theorem State.dieWr_niches (s : State) (d : Nat) (f : Fld) (v : Nat) : (s.dieWr d f v).niches = s.niches := rfl
@[simp] theorem State.dieWr_rings (s : State) (d : Nat) (f : Fld) (v : Nat) : (s.dieWr d f v).rings = s.rings := rfl
@[simp] theorem State.dieWr_pends (s : State) (d : Nat) (f : Fld) (v : Nat) : (s.dieWr d f v).pends = s.pends := rfl
@[simp] theorem State.dieWr_hostQs (s : State) (d : Nat) (f : Fld) (v : Nat) : (s.dieWr d f v).hostQs = s.hostQs := rfl
@[simp] theorem State.dieWr_hostRings (s : State) (d : Nat) (f : Fld) (v : Nat) : (s.dieWr d f v).hostRings = s.hostRings := rfl
@[simp] theorem State.dieWr_hostMem (s : State) (d : Nat) (f : Fld) (v : Nat) : (s.dieWr d f v).hostMem = s.hostMem := rfl
@[simp] theorem State.dieWr_hostEp (s : State) (d : Nat) (f : Fld) (v : Nat) : (s.dieWr d f v).hostEp = s.hostEp := rfl
@[simp] theorem State.dieWr_stepping (s : State) (d : Nat) (f : Fld) (v : Nat) : (s.dieWr d f v).stepping = s.stepping := rfl
@[simp] theorem State.dieWr_links (s : State) (d : Nat) (f : Fld) (v : Nat) : (s.dieWr d f v).links = s.links := rfl
@[simp] theorem State.dieWr_pod (s : State) (d : Nat) (f : Fld) (v : Nat) : (s.dieWr d f v).pod = s.pod := rfl
@[simp] theorem State.dieWr_dirty (s : State) (d : Nat) (f : Fld) (v : Nat) : (s.dieWr d f v).dirty = s.dirty := rfl
@[simp] theorem State.dieWr_lastReset (s : State) (d : Nat) (f : Fld) (v : Nat) : (s.dieWr d f v).lastReset = s.lastReset := rfl
@[simp] theorem State.dieWr_pkgResets (s : State) (d : Nat) (f : Fld) (v : Nat) : (s.dieWr d f v).pkgResets = s.pkgResets := rfl
@[simp] theorem State.dieWr_crashSeq (s : State) (d : Nat) (f : Fld) (v : Nat) : (s.dieWr d f v).crashSeq = s.crashSeq := rfl
@[simp] theorem State.dieWr_crashOpen (s : State) (d : Nat) (f : Fld) (v : Nat) : (s.dieWr d f v).crashOpen = s.crashOpen := rfl
@[simp] theorem State.dieWr_crashFrozen (s : State) (d : Nat) (f : Fld) (v : Nat) : (s.dieWr d f v).crashFrozen = s.crashFrozen := rfl
@[simp] theorem State.dieWr_dieSnap (s : State) (d : Nat) (f : Fld) (v : Nat) : (s.dieWr d f v).dieSnap = s.dieSnap := rfl
@[simp] theorem State.dieWr_objects (s : State) (d : Nat) (f : Fld) (v : Nat) : (s.dieWr d f v).objects = s.objects := rfl
@[simp] theorem State.dieWr_hbm (s : State) (d : Nat) (f : Fld) (v : Nat) : (s.dieWr d f v).hbm = s.hbm := rfl
@[simp] theorem State.dieWr_hbmPoison (s : State) (d : Nat) (f : Fld) (v : Nat) : (s.dieWr d f v).hbmPoison = s.hbmPoison := rfl
@[simp] theorem State.dieWr_hbmEcc (s : State) (d : Nat) (f : Fld) (v : Nat) : (s.dieWr d f v).hbmEcc = s.hbmEcc := rfl
@[simp] theorem State.dieWr_hbmCheck (s : State) (d : Nat) (f : Fld) (v : Nat) : (s.dieWr d f v).hbmCheck = s.hbmCheck := rfl
@[simp] theorem State.dieWr_mailbox (s : State) (d : Nat) (f : Fld) (v : Nat) : (s.dieWr d f v).mailbox = s.mailbox := rfl
@[simp] theorem State.dieWr_resets (s : State) (d : Nat) (f : Fld) (v : Nat) : (s.dieWr d f v).resets = s.resets := rfl
@[simp] theorem State.dieWr_tickFrac (s : State) (d : Nat) (f : Fld) (v : Nat) : (s.dieWr d f v).tickFrac = s.tickFrac := rfl
@[simp] theorem State.dieWr_meshAcc (s : State) (d : Nat) (f : Fld) (v : Nat) : (s.dieWr d f v).meshAcc = s.meshAcc := rfl
@[simp] theorem State.dieWr_flights (s : State) (d : Nat) (f : Fld) (v : Nat) : (s.dieWr d f v).flights = s.flights := rfl
@[simp] theorem State.dieWr_free (s : State) (d : Nat) (f : Fld) (v : Nat) : (s.dieWr d f v).free = s.free := rfl
@[simp] theorem State.dieWr_readVal (s : State) (d : Nat) (f : Fld) (v : Nat) : (s.dieWr d f v).readVal = s.readVal := rfl
@[simp] theorem State.dieWr_readStat (s : State) (d : Nat) (f : Fld) (v : Nat) : (s.dieWr d f v).readStat = s.readStat := rfl
@[simp] theorem State.dieWr_pending (s : State) (d : Nat) (f : Fld) (v : Nat) : (s.dieWr d f v).pending = s.pending := rfl
@[simp] theorem State.wr_small (s : State) (f : Fld) (v : Nat) : (s.wr f v).small = s.small := rfl
@[simp] theorem State.wr_lite (s : State) (f : Fld) (v : Nat) : (s.wr f v).lite = s.lite := rfl
@[simp] theorem State.wr_cycle (s : State) (f : Fld) (v : Nat) : (s.wr f v).cycle = s.cycle := rfl
@[simp] theorem State.wr_cells (s : State) (f : Fld) (v : Nat) : (s.wr f v).cells = s.cells := rfl
@[simp] theorem State.wr_courts (s : State) (f : Fld) (v : Nat) : (s.wr f v).courts = s.courts := rfl
@[simp] theorem State.wr_dieRegs (s : State) (f : Fld) (v : Nat) : (s.wr f v).dieRegs = s.dieRegs := rfl
@[simp] theorem State.wr_events (s : State) (f : Fld) (v : Nat) : (s.wr f v).events = s.events := rfl
@[simp] theorem State.wr_flog (s : State) (f : Fld) (v : Nat) : (s.wr f v).flog = s.flog := rfl
@[simp] theorem State.wr_flogSeq (s : State) (f : Fld) (v : Nat) : (s.wr f v).flogSeq = s.flogSeq := rfl
@[simp] theorem State.wr_fuses (s : State) (f : Fld) (v : Nat) : (s.wr f v).fuses = s.fuses := rfl
@[simp] theorem State.wr_flaws (s : State) (f : Fld) (v : Nat) : (s.wr f v).flaws = s.flaws := rfl
@[simp] theorem State.wr_hbmErrs (s : State) (f : Fld) (v : Nat) : (s.wr f v).hbmErrs = s.hbmErrs := rfl
@[simp] theorem State.wr_errLog (s : State) (f : Fld) (v : Nat) : (s.wr f v).errLog = s.errLog := rfl
@[simp] theorem State.wr_decided (s : State) (f : Fld) (v : Nat) : (s.wr f v).decided = s.decided := rfl
@[simp] theorem State.wr_unexplained (s : State) (f : Fld) (v : Nat) : (s.wr f v).unexplained = s.unexplained := rfl
@[simp] theorem State.wr_doubts (s : State) (f : Fld) (v : Nat) : (s.wr f v).doubts = s.doubts := rfl
@[simp] theorem State.wr_pendDoubt (s : State) (f : Fld) (v : Nat) : (s.wr f v).pendDoubt = s.pendDoubt := rfl
@[simp] theorem State.wr_irq (s : State) (f : Fld) (v : Nat) : (s.wr f v).irq = s.irq := rfl
@[simp] theorem State.wr_dieHalt (s : State) (f : Fld) (v : Nat) : (s.wr f v).dieHalt = s.dieHalt := rfl
@[simp] theorem State.wr_dieStart (s : State) (f : Fld) (v : Nat) : (s.wr f v).dieStart = s.dieStart := rfl
@[simp] theorem State.wr_regions (s : State) (f : Fld) (v : Nat) : (s.wr f v).regions = s.regions := rfl
@[simp] theorem State.wr_mgmt (s : State) (f : Fld) (v : Nat) : (s.wr f v).mgmt = s.mgmt := rfl
@[simp] theorem State.wr_niches (s : State) (f : Fld) (v : Nat) : (s.wr f v).niches = s.niches := rfl
@[simp] theorem State.wr_rings (s : State) (f : Fld) (v : Nat) : (s.wr f v).rings = s.rings := rfl
@[simp] theorem State.wr_pends (s : State) (f : Fld) (v : Nat) : (s.wr f v).pends = s.pends := rfl
@[simp] theorem State.wr_hostQs (s : State) (f : Fld) (v : Nat) : (s.wr f v).hostQs = s.hostQs := rfl
@[simp] theorem State.wr_hostRings (s : State) (f : Fld) (v : Nat) : (s.wr f v).hostRings = s.hostRings := rfl
@[simp] theorem State.wr_hostMem (s : State) (f : Fld) (v : Nat) : (s.wr f v).hostMem = s.hostMem := rfl
@[simp] theorem State.wr_hostEp (s : State) (f : Fld) (v : Nat) : (s.wr f v).hostEp = s.hostEp := rfl
@[simp] theorem State.wr_stepping (s : State) (f : Fld) (v : Nat) : (s.wr f v).stepping = s.stepping := rfl
@[simp] theorem State.wr_links (s : State) (f : Fld) (v : Nat) : (s.wr f v).links = s.links := rfl
@[simp] theorem State.wr_pod (s : State) (f : Fld) (v : Nat) : (s.wr f v).pod = s.pod := rfl
@[simp] theorem State.wr_dirty (s : State) (f : Fld) (v : Nat) : (s.wr f v).dirty = s.dirty := rfl
@[simp] theorem State.wr_lastReset (s : State) (f : Fld) (v : Nat) : (s.wr f v).lastReset = s.lastReset := rfl
@[simp] theorem State.wr_pkgResets (s : State) (f : Fld) (v : Nat) : (s.wr f v).pkgResets = s.pkgResets := rfl
@[simp] theorem State.wr_crashSeq (s : State) (f : Fld) (v : Nat) : (s.wr f v).crashSeq = s.crashSeq := rfl
@[simp] theorem State.wr_crashOpen (s : State) (f : Fld) (v : Nat) : (s.wr f v).crashOpen = s.crashOpen := rfl
@[simp] theorem State.wr_crashFrozen (s : State) (f : Fld) (v : Nat) : (s.wr f v).crashFrozen = s.crashFrozen := rfl
@[simp] theorem State.wr_dieSnap (s : State) (f : Fld) (v : Nat) : (s.wr f v).dieSnap = s.dieSnap := rfl
@[simp] theorem State.wr_objects (s : State) (f : Fld) (v : Nat) : (s.wr f v).objects = s.objects := rfl
@[simp] theorem State.wr_hbm (s : State) (f : Fld) (v : Nat) : (s.wr f v).hbm = s.hbm := rfl
@[simp] theorem State.wr_hbmPoison (s : State) (f : Fld) (v : Nat) : (s.wr f v).hbmPoison = s.hbmPoison := rfl
@[simp] theorem State.wr_hbmEcc (s : State) (f : Fld) (v : Nat) : (s.wr f v).hbmEcc = s.hbmEcc := rfl
@[simp] theorem State.wr_hbmCheck (s : State) (f : Fld) (v : Nat) : (s.wr f v).hbmCheck = s.hbmCheck := rfl
@[simp] theorem State.wr_mailbox (s : State) (f : Fld) (v : Nat) : (s.wr f v).mailbox = s.mailbox := rfl
@[simp] theorem State.wr_resets (s : State) (f : Fld) (v : Nat) : (s.wr f v).resets = s.resets := rfl
@[simp] theorem State.wr_tickFrac (s : State) (f : Fld) (v : Nat) : (s.wr f v).tickFrac = s.tickFrac := rfl
@[simp] theorem State.wr_meshAcc (s : State) (f : Fld) (v : Nat) : (s.wr f v).meshAcc = s.meshAcc := rfl
@[simp] theorem State.wr_flights (s : State) (f : Fld) (v : Nat) : (s.wr f v).flights = s.flights := rfl
@[simp] theorem State.wr_free (s : State) (f : Fld) (v : Nat) : (s.wr f v).free = s.free := rfl
@[simp] theorem State.wr_readVal (s : State) (f : Fld) (v : Nat) : (s.wr f v).readVal = s.readVal := rfl
@[simp] theorem State.wr_readStat (s : State) (f : Fld) (v : Nat) : (s.wr f v).readStat = s.readStat := rfl
@[simp] theorem State.wr_pending (s : State) (f : Fld) (v : Nat) : (s.wr f v).pending = s.pending := rfl
@[simp] theorem State.event_small (s : State) (d : Nat) (r : FaultRec) : (s.event d r).small = s.small := rfl
@[simp] theorem State.event_lite (s : State) (d : Nat) (r : FaultRec) : (s.event d r).lite = s.lite := rfl
@[simp] theorem State.event_cycle (s : State) (d : Nat) (r : FaultRec) : (s.event d r).cycle = s.cycle := rfl
@[simp] theorem State.event_cells (s : State) (d : Nat) (r : FaultRec) : (s.event d r).cells = s.cells := rfl
@[simp] theorem State.event_courts (s : State) (d : Nat) (r : FaultRec) : (s.event d r).courts = s.courts := rfl
@[simp] theorem State.event_dieRegs (s : State) (d : Nat) (r : FaultRec) : (s.event d r).dieRegs = s.dieRegs := rfl
@[simp] theorem State.event_flog (s : State) (d : Nat) (r : FaultRec) : (s.event d r).flog = s.flog := rfl
@[simp] theorem State.event_flogSeq (s : State) (d : Nat) (r : FaultRec) : (s.event d r).flogSeq = s.flogSeq := rfl
@[simp] theorem State.event_fuses (s : State) (d : Nat) (r : FaultRec) : (s.event d r).fuses = s.fuses := rfl
@[simp] theorem State.event_flaws (s : State) (d : Nat) (r : FaultRec) : (s.event d r).flaws = s.flaws := rfl
@[simp] theorem State.event_hbmErrs (s : State) (d : Nat) (r : FaultRec) : (s.event d r).hbmErrs = s.hbmErrs := rfl
@[simp] theorem State.event_errLog (s : State) (d : Nat) (r : FaultRec) : (s.event d r).errLog = s.errLog := rfl
@[simp] theorem State.event_decided (s : State) (d : Nat) (r : FaultRec) : (s.event d r).decided = s.decided := rfl
@[simp] theorem State.event_unexplained (s : State) (d : Nat) (r : FaultRec) : (s.event d r).unexplained = s.unexplained := rfl
@[simp] theorem State.event_doubts (s : State) (d : Nat) (r : FaultRec) : (s.event d r).doubts = s.doubts := rfl
@[simp] theorem State.event_pendDoubt (s : State) (d : Nat) (r : FaultRec) : (s.event d r).pendDoubt = s.pendDoubt := rfl
@[simp] theorem State.event_irq (s : State) (d : Nat) (r : FaultRec) : (s.event d r).irq = s.irq := rfl
@[simp] theorem State.event_dieHalt (s : State) (d : Nat) (r : FaultRec) : (s.event d r).dieHalt = s.dieHalt := rfl
@[simp] theorem State.event_dieStart (s : State) (d : Nat) (r : FaultRec) : (s.event d r).dieStart = s.dieStart := rfl
@[simp] theorem State.event_regions (s : State) (d : Nat) (r : FaultRec) : (s.event d r).regions = s.regions := rfl
@[simp] theorem State.event_mgmt (s : State) (d : Nat) (r : FaultRec) : (s.event d r).mgmt = s.mgmt := rfl
@[simp] theorem State.event_pkgRegs (s : State) (d : Nat) (r : FaultRec) : (s.event d r).pkgRegs = s.pkgRegs := rfl
@[simp] theorem State.event_niches (s : State) (d : Nat) (r : FaultRec) : (s.event d r).niches = s.niches := rfl
@[simp] theorem State.event_rings (s : State) (d : Nat) (r : FaultRec) : (s.event d r).rings = s.rings := rfl
@[simp] theorem State.event_pends (s : State) (d : Nat) (r : FaultRec) : (s.event d r).pends = s.pends := rfl
@[simp] theorem State.event_hostQs (s : State) (d : Nat) (r : FaultRec) : (s.event d r).hostQs = s.hostQs := rfl
@[simp] theorem State.event_hostRings (s : State) (d : Nat) (r : FaultRec) : (s.event d r).hostRings = s.hostRings := rfl
@[simp] theorem State.event_hostMem (s : State) (d : Nat) (r : FaultRec) : (s.event d r).hostMem = s.hostMem := rfl
@[simp] theorem State.event_hostEp (s : State) (d : Nat) (r : FaultRec) : (s.event d r).hostEp = s.hostEp := rfl
@[simp] theorem State.event_stepping (s : State) (d : Nat) (r : FaultRec) : (s.event d r).stepping = s.stepping := rfl
@[simp] theorem State.event_links (s : State) (d : Nat) (r : FaultRec) : (s.event d r).links = s.links := rfl
@[simp] theorem State.event_pod (s : State) (d : Nat) (r : FaultRec) : (s.event d r).pod = s.pod := rfl
@[simp] theorem State.event_dirty (s : State) (d : Nat) (r : FaultRec) : (s.event d r).dirty = s.dirty := rfl
@[simp] theorem State.event_lastReset (s : State) (d : Nat) (r : FaultRec) : (s.event d r).lastReset = s.lastReset := rfl
@[simp] theorem State.event_pkgResets (s : State) (d : Nat) (r : FaultRec) : (s.event d r).pkgResets = s.pkgResets := rfl
@[simp] theorem State.event_crashSeq (s : State) (d : Nat) (r : FaultRec) : (s.event d r).crashSeq = s.crashSeq := rfl
@[simp] theorem State.event_crashOpen (s : State) (d : Nat) (r : FaultRec) : (s.event d r).crashOpen = s.crashOpen := rfl
@[simp] theorem State.event_crashFrozen (s : State) (d : Nat) (r : FaultRec) : (s.event d r).crashFrozen = s.crashFrozen := rfl
@[simp] theorem State.event_dieSnap (s : State) (d : Nat) (r : FaultRec) : (s.event d r).dieSnap = s.dieSnap := rfl
@[simp] theorem State.event_objects (s : State) (d : Nat) (r : FaultRec) : (s.event d r).objects = s.objects := rfl
@[simp] theorem State.event_hbm (s : State) (d : Nat) (r : FaultRec) : (s.event d r).hbm = s.hbm := rfl
@[simp] theorem State.event_hbmPoison (s : State) (d : Nat) (r : FaultRec) : (s.event d r).hbmPoison = s.hbmPoison := rfl
@[simp] theorem State.event_hbmEcc (s : State) (d : Nat) (r : FaultRec) : (s.event d r).hbmEcc = s.hbmEcc := rfl
@[simp] theorem State.event_hbmCheck (s : State) (d : Nat) (r : FaultRec) : (s.event d r).hbmCheck = s.hbmCheck := rfl
@[simp] theorem State.event_mailbox (s : State) (d : Nat) (r : FaultRec) : (s.event d r).mailbox = s.mailbox := rfl
@[simp] theorem State.event_resets (s : State) (d : Nat) (r : FaultRec) : (s.event d r).resets = s.resets := rfl
@[simp] theorem State.event_tickFrac (s : State) (d : Nat) (r : FaultRec) : (s.event d r).tickFrac = s.tickFrac := rfl
@[simp] theorem State.event_meshAcc (s : State) (d : Nat) (r : FaultRec) : (s.event d r).meshAcc = s.meshAcc := rfl
@[simp] theorem State.event_flights (s : State) (d : Nat) (r : FaultRec) : (s.event d r).flights = s.flights := rfl
@[simp] theorem State.event_free (s : State) (d : Nat) (r : FaultRec) : (s.event d r).free = s.free := rfl
@[simp] theorem State.event_readVal (s : State) (d : Nat) (r : FaultRec) : (s.event d r).readVal = s.readVal := rfl
@[simp] theorem State.event_readStat (s : State) (d : Nat) (r : FaultRec) : (s.event d r).readStat = s.readStat := rfl
@[simp] theorem State.event_pending (s : State) (d : Nat) (r : FaultRec) : (s.event d r).pending = s.pending := rfl
@[simp] theorem State.court_modCell (s : State) (n : Nat) (f : Cell → Cell) (i : Nat) : (s.modCell n f).court i = s.court i := rfl
@[simp] theorem State.logical_modCell (s : State) (n : Nat) (f : Cell → Cell) (i : Nat) : (s.modCell n f).logical i = s.logical i := rfl
@[simp] theorem State.fused_modCell (s : State) (n : Nat) (f : Cell → Cell) (i : Nat) : (s.modCell n f).fused i = s.fused i := rfl
@[simp] theorem State.powered_modCell (s : State) (n : Nat) (f : Cell → Cell) (i : Nat) : (s.modCell n f).powered i = s.powered i := rfl
@[simp] theorem State.phys_modCell (s : State) (n : Nat) (f : Cell → Cell) (i : Nat) : (s.modCell n f).phys i = s.phys i := rfl
@[simp] theorem State.dieRd_modCell (s : State) (n : Nat) (f : Cell → Cell) (i : Nat) (g : Fld) : (s.modCell n f).dieRd i g = s.dieRd i g := rfl
@[simp] theorem State.rd_modCell (s : State) (n : Nat) (f : Cell → Cell) (g : Fld) : (s.modCell n f).rd g = s.rd g := rfl
@[simp] theorem State.tick_modCell (s : State) (n : Nat) (f : Cell → Cell) : (s.modCell n f).tick = s.tick := rfl
@[simp] theorem State.env_modCell (s : State) (n : Nat) (f : Cell → Cell) (i : Nat) : (s.modCell n f).env i = s.env i := rfl
@[simp] theorem State.cell_modCourt (s : State) (q : Nat) (f : Court → Court) (i : Nat) : (s.modCourt q f).cell i = s.cell i := rfl
@[simp] theorem State.dieRd_modCourt (s : State) (q : Nat) (f : Court → Court) (i : Nat) (g : Fld) : (s.modCourt q f).dieRd i g = s.dieRd i g := rfl
@[simp] theorem State.rd_modCourt (s : State) (q : Nat) (f : Court → Court) (g : Fld) : (s.modCourt q f).rd g = s.rd g := rfl
@[simp] theorem State.tick_modCourt (s : State) (q : Nat) (f : Court → Court) : (s.modCourt q f).tick = s.tick := rfl
@[simp] theorem State.cell_dieWr (s : State) (d : Nat) (f : Fld) (v : Nat) (i : Nat) : (s.dieWr d f v).cell i = s.cell i := rfl
@[simp] theorem State.court_dieWr (s : State) (d : Nat) (f : Fld) (v : Nat) (i : Nat) : (s.dieWr d f v).court i = s.court i := rfl
@[simp] theorem State.logical_dieWr (s : State) (d : Nat) (f : Fld) (v : Nat) (i : Nat) : (s.dieWr d f v).logical i = s.logical i := rfl
@[simp] theorem State.fused_dieWr (s : State) (d : Nat) (f : Fld) (v : Nat) (i : Nat) : (s.dieWr d f v).fused i = s.fused i := rfl
@[simp] theorem State.powered_dieWr (s : State) (d : Nat) (f : Fld) (v : Nat) (i : Nat) : (s.dieWr d f v).powered i = s.powered i := rfl
@[simp] theorem State.phys_dieWr (s : State) (d : Nat) (f : Fld) (v : Nat) (i : Nat) : (s.dieWr d f v).phys i = s.phys i := rfl
@[simp] theorem State.rd_dieWr (s : State) (d : Nat) (f : Fld) (v : Nat) (g : Fld) : (s.dieWr d f v).rd g = s.rd g := rfl
@[simp] theorem State.tick_dieWr (s : State) (d : Nat) (f : Fld) (v : Nat) : (s.dieWr d f v).tick = s.tick := rfl
@[simp] theorem State.env_dieWr (s : State) (d : Nat) (f : Fld) (v : Nat) (i : Nat) : (s.dieWr d f v).env i = s.env i := rfl
@[simp] theorem State.cell_wr (s : State) (f : Fld) (v : Nat) (i : Nat) : (s.wr f v).cell i = s.cell i := rfl
@[simp] theorem State.court_wr (s : State) (f : Fld) (v : Nat) (i : Nat) : (s.wr f v).court i = s.court i := rfl
@[simp] theorem State.logical_wr (s : State) (f : Fld) (v : Nat) (i : Nat) : (s.wr f v).logical i = s.logical i := rfl
@[simp] theorem State.fused_wr (s : State) (f : Fld) (v : Nat) (i : Nat) : (s.wr f v).fused i = s.fused i := rfl
@[simp] theorem State.powered_wr (s : State) (f : Fld) (v : Nat) (i : Nat) : (s.wr f v).powered i = s.powered i := rfl
@[simp] theorem State.phys_wr (s : State) (f : Fld) (v : Nat) (i : Nat) : (s.wr f v).phys i = s.phys i := rfl
@[simp] theorem State.dieRd_wr (s : State) (f : Fld) (v : Nat) (i : Nat) (g : Fld) : (s.wr f v).dieRd i g = s.dieRd i g := rfl
@[simp] theorem State.cell_event (s : State) (d : Nat) (r : FaultRec) (i : Nat) : (s.event d r).cell i = s.cell i := rfl
@[simp] theorem State.court_event (s : State) (d : Nat) (r : FaultRec) (i : Nat) : (s.event d r).court i = s.court i := rfl
@[simp] theorem State.logical_event (s : State) (d : Nat) (r : FaultRec) (i : Nat) : (s.event d r).logical i = s.logical i := rfl
@[simp] theorem State.fused_event (s : State) (d : Nat) (r : FaultRec) (i : Nat) : (s.event d r).fused i = s.fused i := rfl
@[simp] theorem State.powered_event (s : State) (d : Nat) (r : FaultRec) (i : Nat) : (s.event d r).powered i = s.powered i := rfl
@[simp] theorem State.phys_event (s : State) (d : Nat) (r : FaultRec) (i : Nat) : (s.event d r).phys i = s.phys i := rfl
@[simp] theorem State.dieRd_event (s : State) (d : Nat) (r : FaultRec) (i : Nat) (g : Fld) : (s.event d r).dieRd i g = s.dieRd i g := rfl
@[simp] theorem State.rd_event (s : State) (d : Nat) (r : FaultRec) (g : Fld) : (s.event d r).rd g = s.rd g := rfl
@[simp] theorem State.tick_event (s : State) (d : Nat) (r : FaultRec) : (s.event d r).tick = s.tick := rfl
@[simp] theorem State.env_event (s : State) (d : Nat) (r : FaultRec) (i : Nat) : (s.event d r).env i = s.env i := rfl
@[simp] theorem State.cell_modCell (s : State) (n : Nat) (f : Cell → Cell) (m : Nat) :
    (s.modCell n f).cell m = if m = n then f (s.cell n) else s.cell m := fget_fset ..
@[simp] theorem State.court_modCourt (s : State) (q : Nat) (f : Court → Court) (p : Nat) :
    (s.modCourt q f).court p = if p = q then f (s.court q) else s.court p := fget_fset ..
/-- A field of the package block reads what was written, cut to its width; another reads as before. -/
theorem State.rd_wr (s : State) (f g : Fld) (v : Nat) : (s.wr f v).rd g = if g.key = f.key then v % 2 ^ f.width else s.rd g :=
  fget_fset ..
@[simp] theorem State.rd_wr_self (s : State) (f : Fld) (v : Nat) : (s.wr f v).rd f = v % 2 ^ f.width := by simp [State.rd_wr]
theorem State.rd_wr_ne (s : State) {f g : Fld} (v : Nat) (h : g.key ≠ f.key) : (s.wr f v).rd g = s.rd g := by simp [State.rd_wr, h]
/-- A field of a die's block reads what was written, cut to its width; another, or that of another die, as before. -/
theorem State.dieRd_dieWr (s : State) (d e : Nat) (f g : Fld) (v : Nat) :
    (s.dieWr d f v).dieRd e g = if e = d ∧ g.key = f.key then v % 2 ^ f.width else s.dieRd e g := by
  unfold State.dieWr State.dieRd
  dsimp only
  rw [fget_fset]
  by_cases h : e = d
  · subst h
    rw [if_pos rfl]
    unfold rget rset
    rw [fget_fset]
    by_cases k : g.key = f.key
    · rw [if_pos k, if_pos ⟨rfl, k⟩]
    · rw [if_neg k, if_neg (fun x => k x.2)]
  · rw [if_neg h, if_neg (fun x => h x.1)]

end Sys2Proof.Machine
end

