-- ==== Sys2Proof/Laws/Issue.lean ====
section
/-! SUPPORT. What the issue of an instruction does around the instruction's own effect. -/

namespace Sys2Proof.Machine
open Sys2Proof

/-! ### The issue stage -/

@[simp] theorem Ctx.sReg_issuing (x : Ctx) (i : Nat) : (x.issuing).sReg i = x.sReg i := rfl
@[simp] theorem Ctx.aReg_issuing (x : Ctx) (i : Nat) : (x.issuing).aReg i = x.aReg i := rfl
@[simp] theorem Ctx.vReg_issuing (x : Ctx) (i : Nat) : (x.issuing).vReg i = x.vReg i := rfl
@[simp] theorem Ctx.pReg_issuing (x : Ctx) (i : Nat) : (x.issuing).pReg i = x.pReg i := rfl
@[simp] theorem Ctx.lReg_issuing (x : Ctx) (i : Nat) : (x.issuing).lReg i = x.lReg i := rfl
@[simp] theorem Ctx.pair_issuing (x : Ctx) (i : Nat) : (x.issuing).pair i = x.pair i := rfl
@[simp] theorem Ctx.pairP_issuing (x : Ctx) (i : Nat) : (x.issuing).pairP i = x.pairP i := rfl
@[simp] theorem Ctx.sReg_past (x : Ctx) (n : Nat) (i : Nat) : (x.past n).sReg i = x.sReg i := rfl
@[simp] theorem Ctx.aReg_past (x : Ctx) (n : Nat) (i : Nat) : (x.past n).aReg i = x.aReg i := rfl
@[simp] theorem Ctx.vReg_past (x : Ctx) (n : Nat) (i : Nat) : (x.past n).vReg i = x.vReg i := rfl
@[simp] theorem Ctx.pReg_past (x : Ctx) (n : Nat) (i : Nat) : (x.past n).pReg i = x.pReg i := rfl
@[simp] theorem Ctx.lReg_past (x : Ctx) (n : Nat) (i : Nat) : (x.past n).lReg i = x.lReg i := rfl
@[simp] theorem Ctx.pair_past (x : Ctx) (n : Nat) (i : Nat) : (x.past n).pair i = x.pair i := rfl
@[simp] theorem Ctx.pairP_past (x : Ctx) (n : Nat) (i : Nat) : (x.past n).pairP i = x.pairP i := rfl

/-- Contexts after each of a list was changed once. -/
theorem Cell.ctx_foldl_modCtx (g : Nat → Ctx → Ctx) (l : List Nat) (hl : l.Nodup) (c : Cell) (j : Nat) :
    (l.foldl (fun c i => c.modCtx i (g i)) c).ctx j = if j ∈ l then g j (c.ctx j) else c.ctx j := by
  induction l generalizing c with
  | nil => simp
  | cons i l ih =>
    rw [List.foldl_cons, ih (List.nodup_cons.mp hl).2, Cell.ctx_modCtx]
    by_cases h : j = i
    · subst h; simp [(List.nodup_cons.mp hl).1]
    · simp [h]

/-- The issue stage takes a context: it is RUNNING, another that was RUNNING is READY. -/
theorem Cell.ctx_take (c : Cell) (k j : Nat) (hj : j < 4) :
    (c.take k).ctx j = if j = k then (c.ctx j).issuing
      else if (c.ctx j).state = .running then { c.ctx j with state := .ready, yielded := 0 }
      else { c.ctx j with yielded := 0 } := by
  unfold Cell.take
  rw [Cell.ctx_foldl_modCtx (fun j x => if j = k then { x with state := .running, yielded := 0 }
    else if x.state = .running then { x with state := .ready, yielded := 0 } else { x with yielded := 0 }) _ (by decide)]
  rw [if_pos (by simp; omega)]
  rfl

@[simp] theorem Cell.noCtxs_setCtx (c : Cell) (k : Nat) (x : Ctx) : (c.setCtx k x).noCtxs = c.noCtxs := rfl
@[simp] theorem Cell.noCtxs_modCtx (c : Cell) (k : Nat) (f : Ctx → Ctx) : (c.modCtx k f).noCtxs = c.noCtxs := rfl
@[simp] theorem Cell.noCtxs_advance (c : Cell) (k n : Nat) : (c.advance k n).noCtxs = c.noCtxs := rfl
@[simp] theorem Cell.noCtxs_jump (c : Cell) (k : Nat) (t : BitVec 10) : (c.jump k t).noCtxs = c.noCtxs := rfl
@[simp] theorem Cell.noCtxs_done (c : Cell) (k : Nat) (f : Ctx → Ctx) (n : Nat) : (c.done k f n).noCtxs = c.noCtxs :=
  (Cell.noCtxs_advance (c.modCtx k f) k n).trans (Cell.noCtxs_modCtx c k f)
@[simp] theorem Cell.noCtxs_take (c : Cell) (k : Nat) : (c.take k).noCtxs = c.noCtxs := rfl
@[simp] theorem Cell.noCtxs_stepEnd (c : Cell) (k : Nat) (r : Row) (pc : BitVec 10) : (c.stepEnd k r pc).noCtxs = c.noCtxs := rfl
@[simp] theorem Cell.rd_take (c : Cell) (k : Nat) (f : Fld) : (c.take k).rd f = c.rd f := rfl
@[simp] theorem Cell.fetchWord_take (c : Cell) (k j a : Nat) : (c.take k).fetchWord j a = c.fetchWord j a := rfl
@[simp] theorem Cell.fetchEcc_take (c : Cell) (k j a : Nat) : (c.take k).fetchEcc j a = c.fetchEcc j a := rfl

theorem Cell.ctx_take_self (c : Cell) (k : Nat) (hk : k < 4) : (c.take k).ctx k = (c.ctx k).issuing := by
  rw [Cell.ctx_take c k k hk, if_pos rfl]

theorem Cell.word0_take (c : Cell) (k : Nat) (hk : k < 4) : (c.take k).word0 k = c.word0 k := by
  simp only [Cell.word0, Cell.ctx_take_self c k hk, Cell.fetchWord_take, Ctx.issuing]
theorem Cell.word1_take (c : Cell) (k : Nat) (hk : k < 4) : (c.take k).word1 k = c.word1 k := by
  simp only [Cell.word1, Cell.ctx_take_self c k hk, Cell.fetchWord_take, Ctx.issuing]
theorem Cell.fetchAddrs_take (c : Cell) (k : Nat) (hk : k < 4) : (c.take k).fetchAddrs k = c.fetchAddrs k := by
  simp only [Cell.fetchAddrs, Cell.ctx_take_self c k hk, Cell.fetchWord_take, Ctx.issuing]
theorem Cell.badSources_take (c : Cell) (k : Nat) (r : Row) (hk : k < 4) : (c.take k).badSources k r = c.badSources k r := by
  simp only [Cell.badSources, Cell.word0_take c k hk, Cell.word1_take c k hk, Cell.ctx_take_self c k hk, Ctx.issuing]

/-- A ready context issues: the instruction acts on the package whose cell the issue stage has taken, then a STEP ends. -/
theorem issue_ready {r : Row} {x : CtxRef} {s : State} (b : Body) (h : Ready r x s) :
    s.issue r b x = .next ((b (s.env x.cell) x.ctx (s.wordOf x) (s.extOf x) (s.modCell x.cell (fun c => c.take x.ctx))).modCell
      x.cell (Cell.stepEnd x.ctx r (s.ctxOf x).pc)) := by
  obtain ⟨hk, hn, hp, hi, hf, hr, hu, hs⟩ := h
  unfold State.issue State.onCtx State.onCell
  rw [if_pos hk, if_pos hn, if_pos hp]
  dsimp only
  rw [if_pos hi]
  unfold State.issueAt
  have hc : (s.modCell x.cell (fun c => c.take x.ctx)).cell x.cell = (s.cell x.cell).take x.ctx := by simp
  simp only [hc, Cell.fetchAddrs_take _ _ hk, Cell.word0_take _ _ hk, Cell.word1_take _ _ hk, Cell.fetchEcc_take, hr]
  have h1 : ((s.cell x.cell).fetchAddrs x.ctx).any (fun a => (s.cell x.cell).fetchEcc x.ctx a == .ue) = false := by
    rw [List.any_eq_false]; intro a ha; simp [hf a ha]
  have h2 : ((s.cell x.cell).fetchAddrs x.ctx).filter (fun a => (s.cell x.cell).fetchEcc x.ctx a == .ce) = [] := by
    rw [List.filter_eq_nil_iff]; intro a ha; simp [hf a ha]
  simp only [h1, h2, Bool.false_eq_true, if_false, if_true, List.length_nil]
  unfold State.perform
  simp only [hc, Cell.badSources_take _ _ r hk, hu, Cell.word0_take _ _ hk, Cell.word1_take _ _ hk, Cell.ctx_take_self _ _ hk]
  simp [State.wordOf, State.extOf, State.ctxOf, Ctx.issuing]

/-- The end of a STEP changes nothing for a context that is not stepping. -/
theorem Cell.stepEnd_ctx (c : Cell) (k : Nat) (r : Row) (pc : BitVec 10) (h : (c.ctx k).stepping = false) (j : Nat) :
    (c.stepEnd k r pc).ctx j = c.ctx j := by
  unfold Cell.stepEnd
  simp only [Cell.ctx_modCtx, h]
  by_cases hj : j = k
  · subst hj; simp
  · simp [hj]

@[simp] theorem State.env_n (s : State) (n : Nat) : (s.env n).n = n := rfl

/-- An instruction that reaches its own cell only: what the cell and its context are afterwards follows from the effect of
the instruction on the taken cell. -/
theorem issued_of {r : Row} {x : CtxRef} {s : State} (b : Env → Nat → Nat → Nat → Cell → Cell) (h : Ready r x s) {c' c1 : Cell} {y : Ctx}
    (hb : b (s.env x.cell) x.ctx (s.wordOf x) (s.extOf x) ((s.cell x.cell).take x.ctx) = c1)
    (hc : c1.noCtxs = c'.noCtxs) (hy : c1.ctx x.ctx = y) (hs : y.stepping = false)
    (ho : ∀ j < 4, j ≠ x.ctx → c1.ctx j = ((s.cell x.cell).take x.ctx).ctx j) :
    ∃ t, s.issue r (cellBody b) x = .next t ∧ Issued x s t c' y := by
  refine ⟨_, issue_ready (cellBody b) h, ?_⟩
  have hcell : ((cellBody b (s.env x.cell) x.ctx (s.wordOf x) (s.extOf x) (s.modCell x.cell (fun c => c.take x.ctx))).modCell
      x.cell (Cell.stepEnd x.ctx r (s.ctxOf x).pc)).cell x.cell = Cell.stepEnd x.ctx r (s.ctxOf x).pc c1 := by
    simp [cellBody, ← hb]
  have hst : (c1.ctx x.ctx).stepping = false := by rw [hy]; exact hs
  refine ⟨⟨rfl, fun m hm => by simp [cellBody, hm]⟩, ?_, ?_, ?_⟩
  · rw [hcell, Cell.noCtxs_stepEnd, hc]
  · show Cell.ctx _ _ = y; rw [hcell, Cell.stepEnd_ctx _ _ _ _ hst, hy]
  · intro j hj hjk
    rw [hcell, Cell.stepEnd_ctx _ _ _ _ hst, ho j hj hjk, Cell.ctx_take _ _ _ hj, if_neg hjk]
    split
    · next hr => exact ⟨by cases hx : (s.cell x.cell).ctx j; rfl, .inr ⟨hr, rfl⟩⟩
    · exact ⟨rfl, .inl rfl⟩

/-- The loop return does not happen: the PC goes on. -/
theorem loopTest_none (c : Cell) (k : Nat) (last next : BitVec 10) (x : Ctx) (l : List Nat)
    (h : ∀ n ∈ l, x.lReg n = 0 ∨ c.rd ((loopEnd n).ctx k) ≠ last.toNat) : loopTest c k last next x l = { x with pc := next } := by
  induction l with
  | nil => rfl
  | cons n ns ih =>
    have hn := h n (by simp)
    unfold loopTest
    rw [if_neg (by rcases hn with h | h <;> simp [h])]
    exact ih (fun m hm => h m (by simp [hm]))

/-- The advance of a PC that no loop returns. -/
theorem Cell.advance_none (c : Cell) (k words : Nat)
    (h : ∀ n < 4, (c.ctx k).lReg n = 0 ∨ c.rd ((loopEnd n).ctx k) ≠ ((c.ctx k).pc + BitVec.ofNat 10 (words - 1)).toNat) :
    c.advance k words = c.modCtx k (fun x => { x with pc := x.pc + BitVec.ofNat 10 words }) := by
  unfold Cell.advance
  unfold Cell.modCtx
  dsimp only
  rw [loopTest_none _ _ _ _ _ _ (by intro n hn; exact h n (by simp at hn; omega))]

theorem Cell.done_ctx (c : Cell) (k words : Nat) (f : Ctx → Ctx)
    (h : ∀ n < 4, (f (c.ctx k)).lReg n = 0 ∨
      c.rd ((loopEnd n).ctx k) ≠ ((f (c.ctx k)).pc + BitVec.ofNat 10 (words - 1)).toNat) (j : Nat) :
    (c.done k f words).ctx j =
      if j = k then { f (c.ctx k) with pc := (f (c.ctx k)).pc + BitVec.ofNat 10 words } else c.ctx j := by
  unfold Cell.done
  rw [Cell.advance_none _ _ _ (by simpa using h), Cell.ctx_modCtx, Cell.ctx_modCtx]
  by_cases hj : j = k
  · subst hj; simp
  · simp [hj]

/-- An instruction of a ready context that ends with `done`: its cell was made `c'` on the way, its context by `f`. -/
theorem issued_done {r : Row} {x : CtxRef} {s : State} {b : Env → Nat → Nat → Nat → Cell → Cell} {words : Nat} (h : Ready r x s)
    (hn : NoReturn words x s) {c' c1 : Cell} {f : Ctx → Ctx}
    (hb : b (s.env x.cell) x.ctx (s.wordOf x) (s.extOf x) ((s.cell x.cell).take x.ctx) = c1.done x.ctx f words)
    (hc : c1.noCtxs = c'.noCtxs) (hx : ∀ j, c1.ctx j = ((s.cell x.cell).take x.ctx).ctx j)
    (hr : ∀ n < 4, c1.rd ((loopEnd n).ctx x.ctx) = (s.cell x.cell).rd ((loopEnd n).ctx x.ctx))
    (hp : (f (s.ctxOf x).issuing).pc = (s.ctxOf x).pc) (hl : ∀ n, (f (s.ctxOf x).issuing).lReg n = (s.ctxOf x).lReg n)
    (hs : (f (s.ctxOf x).issuing).stepping = false) :
    ∃ t, s.issue r (cellBody b) x = .next t ∧
      Issued x s t c' { f (s.ctxOf x).issuing with pc := (s.ctxOf x).pc + BitVec.ofNat 10 words } := by
  have hk : c1.ctx x.ctx = (s.ctxOf x).issuing := by rw [hx, Cell.ctx_take _ _ _ h.ctx, if_pos rfl]; rfl
  have hd := Cell.done_ctx c1 x.ctx words f (by
    intro n hn4
    rw [hk, hp, hl, hr n hn4]
    exact hn n hn4)
  refine issued_of b h hb (by rw [Cell.noCtxs_done, hc]) ?_ (by simpa using hs) ?_
  · rw [hd, if_pos rfl, hk, hp]
  · intro j hj hjk
    rw [hd, if_neg hjk, hx]

/-- Flags gathered into CTX_FPFLAGS change registers only, none of which a loop return reads. -/
@[simp] theorem Cell.ctx_orFlag (c : Cell) (f : Fld) (b : Bool) (j : Nat) : (c.orFlag f b).ctx j = c.ctx j := by
  unfold Cell.orFlag; split <;> rfl
@[simp] theorem Cell.ctx_gather (c : Cell) (k : Nat) (f : FpFlags) (j : Nat) : (c.gather k f).ctx j = c.ctx j := by
  simp [Cell.gather]
theorem Cell.rd_orFlag (c : Cell) (f g : Fld) (b : Bool) (h : g.key ≠ f.key) : (c.orFlag f b).rd g = c.rd g := by
  unfold Cell.orFlag; split
  · exact Cell.rd_wr_ne _ _ h
  · rfl

end Sys2Proof.Machine
end

