-- ==== Sys2Proof/Laws/Keeps.lean ====
section
/-! SUPPORT. What every command keeps: the queue behind it, the part's stepping, and the canonical form of every
store. One rule for each way in which states are built; the rules are stated for any operation built of them. -/

namespace Sys2Proof.Machine
open Sys2Proof

/-- From `u` to `t` the queue and the stepping stay, and the stores stay canonical. -/
def Keeps (u t : State) : Prop :=
  t.pending = u.pending ∧ t.stepping = u.stepping ∧ (u.Canonical → t.Canonical)

/-- An outcome is no next state, or a next state that keeps. -/
def KeepsOut (u : State) (o : Out) : Prop := ∀ t, o = .next t → Keeps u t

theorem Keeps.refl (u : State) : Keeps u u := ⟨rfl, rfl, fun h => h⟩

theorem Keeps.trans {u t v : State} (h : Keeps u t) (k : Keeps t v) : Keeps u v :=
  ⟨k.1.trans h.1, k.2.1.trans h.2.1, fun c => k.2.2 (h.2.2 c)⟩

/-- A record update of a state: each store of the new state is canonical where those of the old one are. -/
theorem Keeps.mk {u t : State} (h : Keeps u t) {small' lite' cycle' cells' courts' dieRegs' events' flog' flogSeq' fuses' flaws' hbmErrs' errLog' decided' unexplained' doubts' pendDoubt' irq' dieHalt' dieStart' regions' mgmt' pkgRegs' niches' rings' pends' hostQs' hostRings' hostMem' hostEp' links' pod' dirty' lastReset' pkgResets' crashSeq' crashOpen' crashFrozen' dieSnap' objects' hbm' hbmPoison' hbmEcc' hbmCheck' mailbox' resets' tickFrac' meshAcc' flights' free' readVal' readStat'}
    (h_cells : t.Canonical → canon cell0 cells')
    (h_courts : t.Canonical → canon court0 courts')
    (h_dieRegs : t.Canonical → canon regs0 dieRegs')
    (h_events : t.Canonical → canon nil0 events')
    (h_flog : t.Canonical → canon flog0 flog')
    (h_flogSeq : t.Canonical → canon z0 flogSeq')
    (h_irq : t.Canonical → canon noMark irq')
    (h_dieHalt : t.Canonical → canon noMark dieHalt')
    (h_dieStart : t.Canonical → canon z0 dieStart')
    (h_regions : t.Canonical → canon noMark regions')
    (h_pkgRegs : t.Canonical → canon pkgRst pkgRegs')
    (h_niches : t.Canonical → canon niche0 niches')
    (h_rings : t.Canonical → canon ring0 rings')
    (h_pends : t.Canonical → canon pend0 pends')
    (h_hostQs : t.Canonical → canon hostq0 hostQs')
    (h_hostRings : t.Canonical → canon hostring0 hostRings')
    (h_hostMem : t.Canonical → canon byteDefault hostMem')
    (h_hostEp : t.Canonical → canon noMark hostEp')
    (h_links : t.Canonical → canon link0 links')
    (h_dieSnap : t.Canonical → canon (fun _ => []) dieSnap')
    (h_objects : t.Canonical → canon objDefault objects')
    (h_hbm : t.Canonical → canon byteDefault hbm')
    (h_hbmPoison : t.Canonical → canon noMark hbmPoison')
    (h_hbmEcc : t.Canonical → canon ecc0 hbmEcc')
    (h_hbmCheck : t.Canonical → canon zeroCheck hbmCheck')
    (h_mailbox : t.Canonical → canon nil0 mailbox')
    (h_variant : t.Canonical → ¬(small' = true ∧ lite' = true)) :
    Keeps u (State.mk small' lite' cycle' cells' courts' dieRegs' events' flog' flogSeq' fuses' flaws' hbmErrs' errLog' decided' unexplained' doubts' pendDoubt' irq' dieHalt' dieStart' regions' mgmt' pkgRegs' niches' rings' pends' hostQs' hostRings' hostMem' hostEp' t.stepping links' pod' dirty' lastReset' pkgResets' crashSeq' crashOpen' crashFrozen' dieSnap' objects' hbm' hbmPoison' hbmEcc' hbmCheck' mailbox' resets' tickFrac' meshAcc' flights' free' readVal' readStat' t.pending) :=
  ⟨h.1, h.2.1, fun c => have k := h.2.2 c
    ⟨h_cells k, h_courts k, h_dieRegs k, h_events k, h_flog k, h_flogSeq k, h_irq k, h_dieHalt k, h_dieStart k, h_regions k, h_pkgRegs k, h_niches k, h_rings k, h_pends k, h_hostQs k, h_hostRings k, h_hostMem k, h_hostEp k, h_links k, h_dieSnap k, h_objects k, h_hbm k, h_hbmPoison k, h_hbmEcc k, h_hbmCheck k, h_mailbox k, h_variant k⟩⟩

/-! ### One store changed at a time -/

/-- No store changes. -/
theorem Keeps.other {u t : State} (h : Keeps u t) {cycle' fuses' flaws' hbmErrs' errLog' decided' unexplained' doubts' pendDoubt' mgmt' pod' dirty' lastReset' pkgResets' crashSeq' crashOpen' crashFrozen' resets' tickFrac' meshAcc' flights' free' readVal' readStat'} :
    Keeps u (State.mk t.small t.lite cycle' t.cells t.courts t.dieRegs t.events t.flog t.flogSeq fuses' flaws' hbmErrs' errLog' decided' unexplained' doubts' pendDoubt' t.irq t.dieHalt t.dieStart t.regions mgmt' t.pkgRegs t.niches t.rings t.pends t.hostQs t.hostRings t.hostMem t.hostEp t.stepping t.links pod' dirty' lastReset' pkgResets' crashSeq' crashOpen' crashFrozen' t.dieSnap t.objects t.hbm t.hbmPoison t.hbmEcc t.hbmCheck t.mailbox resets' tickFrac' meshAcc' flights' free' readVal' readStat' t.pending) :=
  Keeps.mk h (fun k => k.cells) (fun k => k.courts) (fun k => k.dieRegs) (fun k => k.events) (fun k => k.flog) (fun k => k.flogSeq) (fun k => k.irq) (fun k => k.dieHalt) (fun k => k.dieStart) (fun k => k.regions) (fun k => k.pkgRegs) (fun k => k.niches) (fun k => k.rings) (fun k => k.pends) (fun k => k.hostQs) (fun k => k.hostRings) (fun k => k.hostMem) (fun k => k.hostEp) (fun k => k.links) (fun k => k.dieSnap) (fun k => k.objects) (fun k => k.hbm) (fun k => k.hbmPoison) (fun k => k.hbmEcc) (fun k => k.hbmCheck) (fun k => k.mailbox) (fun k => k.variant)

/-- One store, `cells`, changes. -/
theorem Keeps.set_cells {u t : State} (h : Keeps u t) {cycle' fuses' flaws' hbmErrs' errLog' decided' unexplained' doubts' pendDoubt' mgmt' pod' dirty' lastReset' pkgResets' crashSeq' crashOpen' crashFrozen' resets' tickFrac' meshAcc' flights' free' readVal' readStat' cells'} (hx : t.Canonical → canon cell0 cells') :
    Keeps u (State.mk t.small t.lite cycle' cells' t.courts t.dieRegs t.events t.flog t.flogSeq fuses' flaws' hbmErrs' errLog' decided' unexplained' doubts' pendDoubt' t.irq t.dieHalt t.dieStart t.regions mgmt' t.pkgRegs t.niches t.rings t.pends t.hostQs t.hostRings t.hostMem t.hostEp t.stepping t.links pod' dirty' lastReset' pkgResets' crashSeq' crashOpen' crashFrozen' t.dieSnap t.objects t.hbm t.hbmPoison t.hbmEcc t.hbmCheck t.mailbox resets' tickFrac' meshAcc' flights' free' readVal' readStat' t.pending) :=
  Keeps.mk h hx (fun k => k.courts) (fun k => k.dieRegs) (fun k => k.events) (fun k => k.flog) (fun k => k.flogSeq) (fun k => k.irq) (fun k => k.dieHalt) (fun k => k.dieStart) (fun k => k.regions) (fun k => k.pkgRegs) (fun k => k.niches) (fun k => k.rings) (fun k => k.pends) (fun k => k.hostQs) (fun k => k.hostRings) (fun k => k.hostMem) (fun k => k.hostEp) (fun k => k.links) (fun k => k.dieSnap) (fun k => k.objects) (fun k => k.hbm) (fun k => k.hbmPoison) (fun k => k.hbmEcc) (fun k => k.hbmCheck) (fun k => k.mailbox) (fun k => k.variant)

/-- One store, `courts`, changes. -/
theorem Keeps.set_courts {u t : State} (h : Keeps u t) {cycle' fuses' flaws' hbmErrs' errLog' decided' unexplained' doubts' pendDoubt' mgmt' pod' dirty' lastReset' pkgResets' crashSeq' crashOpen' crashFrozen' resets' tickFrac' meshAcc' flights' free' readVal' readStat' courts'} (hx : t.Canonical → canon court0 courts') :
    Keeps u (State.mk t.small t.lite cycle' t.cells courts' t.dieRegs t.events t.flog t.flogSeq fuses' flaws' hbmErrs' errLog' decided' unexplained' doubts' pendDoubt' t.irq t.dieHalt t.dieStart t.regions mgmt' t.pkgRegs t.niches t.rings t.pends t.hostQs t.hostRings t.hostMem t.hostEp t.stepping t.links pod' dirty' lastReset' pkgResets' crashSeq' crashOpen' crashFrozen' t.dieSnap t.objects t.hbm t.hbmPoison t.hbmEcc t.hbmCheck t.mailbox resets' tickFrac' meshAcc' flights' free' readVal' readStat' t.pending) :=
  Keeps.mk h (fun k => k.cells) hx (fun k => k.dieRegs) (fun k => k.events) (fun k => k.flog) (fun k => k.flogSeq) (fun k => k.irq) (fun k => k.dieHalt) (fun k => k.dieStart) (fun k => k.regions) (fun k => k.pkgRegs) (fun k => k.niches) (fun k => k.rings) (fun k => k.pends) (fun k => k.hostQs) (fun k => k.hostRings) (fun k => k.hostMem) (fun k => k.hostEp) (fun k => k.links) (fun k => k.dieSnap) (fun k => k.objects) (fun k => k.hbm) (fun k => k.hbmPoison) (fun k => k.hbmEcc) (fun k => k.hbmCheck) (fun k => k.mailbox) (fun k => k.variant)

/-- One store, `dieRegs`, changes. -/
theorem Keeps.set_dieRegs {u t : State} (h : Keeps u t) {cycle' fuses' flaws' hbmErrs' errLog' decided' unexplained' doubts' pendDoubt' mgmt' pod' dirty' lastReset' pkgResets' crashSeq' crashOpen' crashFrozen' resets' tickFrac' meshAcc' flights' free' readVal' readStat' dieRegs'} (hx : t.Canonical → canon regs0 dieRegs') :
    Keeps u (State.mk t.small t.lite cycle' t.cells t.courts dieRegs' t.events t.flog t.flogSeq fuses' flaws' hbmErrs' errLog' decided' unexplained' doubts' pendDoubt' t.irq t.dieHalt t.dieStart t.regions mgmt' t.pkgRegs t.niches t.rings t.pends t.hostQs t.hostRings t.hostMem t.hostEp t.stepping t.links pod' dirty' lastReset' pkgResets' crashSeq' crashOpen' crashFrozen' t.dieSnap t.objects t.hbm t.hbmPoison t.hbmEcc t.hbmCheck t.mailbox resets' tickFrac' meshAcc' flights' free' readVal' readStat' t.pending) :=
  Keeps.mk h (fun k => k.cells) (fun k => k.courts) hx (fun k => k.events) (fun k => k.flog) (fun k => k.flogSeq) (fun k => k.irq) (fun k => k.dieHalt) (fun k => k.dieStart) (fun k => k.regions) (fun k => k.pkgRegs) (fun k => k.niches) (fun k => k.rings) (fun k => k.pends) (fun k => k.hostQs) (fun k => k.hostRings) (fun k => k.hostMem) (fun k => k.hostEp) (fun k => k.links) (fun k => k.dieSnap) (fun k => k.objects) (fun k => k.hbm) (fun k => k.hbmPoison) (fun k => k.hbmEcc) (fun k => k.hbmCheck) (fun k => k.mailbox) (fun k => k.variant)

/-- One store, `events`, changes. -/
theorem Keeps.set_events {u t : State} (h : Keeps u t) {cycle' fuses' flaws' hbmErrs' errLog' decided' unexplained' doubts' pendDoubt' mgmt' pod' dirty' lastReset' pkgResets' crashSeq' crashOpen' crashFrozen' resets' tickFrac' meshAcc' flights' free' readVal' readStat' events'} (hx : t.Canonical → canon nil0 events') :
    Keeps u (State.mk t.small t.lite cycle' t.cells t.courts t.dieRegs events' t.flog t.flogSeq fuses' flaws' hbmErrs' errLog' decided' unexplained' doubts' pendDoubt' t.irq t.dieHalt t.dieStart t.regions mgmt' t.pkgRegs t.niches t.rings t.pends t.hostQs t.hostRings t.hostMem t.hostEp t.stepping t.links pod' dirty' lastReset' pkgResets' crashSeq' crashOpen' crashFrozen' t.dieSnap t.objects t.hbm t.hbmPoison t.hbmEcc t.hbmCheck t.mailbox resets' tickFrac' meshAcc' flights' free' readVal' readStat' t.pending) :=
  Keeps.mk h (fun k => k.cells) (fun k => k.courts) (fun k => k.dieRegs) hx (fun k => k.flog) (fun k => k.flogSeq) (fun k => k.irq) (fun k => k.dieHalt) (fun k => k.dieStart) (fun k => k.regions) (fun k => k.pkgRegs) (fun k => k.niches) (fun k => k.rings) (fun k => k.pends) (fun k => k.hostQs) (fun k => k.hostRings) (fun k => k.hostMem) (fun k => k.hostEp) (fun k => k.links) (fun k => k.dieSnap) (fun k => k.objects) (fun k => k.hbm) (fun k => k.hbmPoison) (fun k => k.hbmEcc) (fun k => k.hbmCheck) (fun k => k.mailbox) (fun k => k.variant)

/-- One store, `flog`, changes. -/
theorem Keeps.set_flog {u t : State} (h : Keeps u t) {cycle' fuses' flaws' hbmErrs' errLog' decided' unexplained' doubts' pendDoubt' mgmt' pod' dirty' lastReset' pkgResets' crashSeq' crashOpen' crashFrozen' resets' tickFrac' meshAcc' flights' free' readVal' readStat' flog'} (hx : t.Canonical → canon flog0 flog') :
    Keeps u (State.mk t.small t.lite cycle' t.cells t.courts t.dieRegs t.events flog' t.flogSeq fuses' flaws' hbmErrs' errLog' decided' unexplained' doubts' pendDoubt' t.irq t.dieHalt t.dieStart t.regions mgmt' t.pkgRegs t.niches t.rings t.pends t.hostQs t.hostRings t.hostMem t.hostEp t.stepping t.links pod' dirty' lastReset' pkgResets' crashSeq' crashOpen' crashFrozen' t.dieSnap t.objects t.hbm t.hbmPoison t.hbmEcc t.hbmCheck t.mailbox resets' tickFrac' meshAcc' flights' free' readVal' readStat' t.pending) :=
  Keeps.mk h (fun k => k.cells) (fun k => k.courts) (fun k => k.dieRegs) (fun k => k.events) hx (fun k => k.flogSeq) (fun k => k.irq) (fun k => k.dieHalt) (fun k => k.dieStart) (fun k => k.regions) (fun k => k.pkgRegs) (fun k => k.niches) (fun k => k.rings) (fun k => k.pends) (fun k => k.hostQs) (fun k => k.hostRings) (fun k => k.hostMem) (fun k => k.hostEp) (fun k => k.links) (fun k => k.dieSnap) (fun k => k.objects) (fun k => k.hbm) (fun k => k.hbmPoison) (fun k => k.hbmEcc) (fun k => k.hbmCheck) (fun k => k.mailbox) (fun k => k.variant)

/-- One store, `flogSeq`, changes. -/
theorem Keeps.set_flogSeq {u t : State} (h : Keeps u t) {cycle' fuses' flaws' hbmErrs' errLog' decided' unexplained' doubts' pendDoubt' mgmt' pod' dirty' lastReset' pkgResets' crashSeq' crashOpen' crashFrozen' resets' tickFrac' meshAcc' flights' free' readVal' readStat' flogSeq'} (hx : t.Canonical → canon z0 flogSeq') :
    Keeps u (State.mk t.small t.lite cycle' t.cells t.courts t.dieRegs t.events t.flog flogSeq' fuses' flaws' hbmErrs' errLog' decided' unexplained' doubts' pendDoubt' t.irq t.dieHalt t.dieStart t.regions mgmt' t.pkgRegs t.niches t.rings t.pends t.hostQs t.hostRings t.hostMem t.hostEp t.stepping t.links pod' dirty' lastReset' pkgResets' crashSeq' crashOpen' crashFrozen' t.dieSnap t.objects t.hbm t.hbmPoison t.hbmEcc t.hbmCheck t.mailbox resets' tickFrac' meshAcc' flights' free' readVal' readStat' t.pending) :=
  Keeps.mk h (fun k => k.cells) (fun k => k.courts) (fun k => k.dieRegs) (fun k => k.events) (fun k => k.flog) hx (fun k => k.irq) (fun k => k.dieHalt) (fun k => k.dieStart) (fun k => k.regions) (fun k => k.pkgRegs) (fun k => k.niches) (fun k => k.rings) (fun k => k.pends) (fun k => k.hostQs) (fun k => k.hostRings) (fun k => k.hostMem) (fun k => k.hostEp) (fun k => k.links) (fun k => k.dieSnap) (fun k => k.objects) (fun k => k.hbm) (fun k => k.hbmPoison) (fun k => k.hbmEcc) (fun k => k.hbmCheck) (fun k => k.mailbox) (fun k => k.variant)

/-- One store, `irq`, changes. -/
theorem Keeps.set_irq {u t : State} (h : Keeps u t) {cycle' fuses' flaws' hbmErrs' errLog' decided' unexplained' doubts' pendDoubt' mgmt' pod' dirty' lastReset' pkgResets' crashSeq' crashOpen' crashFrozen' resets' tickFrac' meshAcc' flights' free' readVal' readStat' irq'} (hx : t.Canonical → canon noMark irq') :
    Keeps u (State.mk t.small t.lite cycle' t.cells t.courts t.dieRegs t.events t.flog t.flogSeq fuses' flaws' hbmErrs' errLog' decided' unexplained' doubts' pendDoubt' irq' t.dieHalt t.dieStart t.regions mgmt' t.pkgRegs t.niches t.rings t.pends t.hostQs t.hostRings t.hostMem t.hostEp t.stepping t.links pod' dirty' lastReset' pkgResets' crashSeq' crashOpen' crashFrozen' t.dieSnap t.objects t.hbm t.hbmPoison t.hbmEcc t.hbmCheck t.mailbox resets' tickFrac' meshAcc' flights' free' readVal' readStat' t.pending) :=
  Keeps.mk h (fun k => k.cells) (fun k => k.courts) (fun k => k.dieRegs) (fun k => k.events) (fun k => k.flog) (fun k => k.flogSeq) hx (fun k => k.dieHalt) (fun k => k.dieStart) (fun k => k.regions) (fun k => k.pkgRegs) (fun k => k.niches) (fun k => k.rings) (fun k => k.pends) (fun k => k.hostQs) (fun k => k.hostRings) (fun k => k.hostMem) (fun k => k.hostEp) (fun k => k.links) (fun k => k.dieSnap) (fun k => k.objects) (fun k => k.hbm) (fun k => k.hbmPoison) (fun k => k.hbmEcc) (fun k => k.hbmCheck) (fun k => k.mailbox) (fun k => k.variant)

/-- One store, `dieHalt`, changes. -/
theorem Keeps.set_dieHalt {u t : State} (h : Keeps u t) {cycle' fuses' flaws' hbmErrs' errLog' decided' unexplained' doubts' pendDoubt' mgmt' pod' dirty' lastReset' pkgResets' crashSeq' crashOpen' crashFrozen' resets' tickFrac' meshAcc' flights' free' readVal' readStat' dieHalt'} (hx : t.Canonical → canon noMark dieHalt') :
    Keeps u (State.mk t.small t.lite cycle' t.cells t.courts t.dieRegs t.events t.flog t.flogSeq fuses' flaws' hbmErrs' errLog' decided' unexplained' doubts' pendDoubt' t.irq dieHalt' t.dieStart t.regions mgmt' t.pkgRegs t.niches t.rings t.pends t.hostQs t.hostRings t.hostMem t.hostEp t.stepping t.links pod' dirty' lastReset' pkgResets' crashSeq' crashOpen' crashFrozen' t.dieSnap t.objects t.hbm t.hbmPoison t.hbmEcc t.hbmCheck t.mailbox resets' tickFrac' meshAcc' flights' free' readVal' readStat' t.pending) :=
  Keeps.mk h (fun k => k.cells) (fun k => k.courts) (fun k => k.dieRegs) (fun k => k.events) (fun k => k.flog) (fun k => k.flogSeq) (fun k => k.irq) hx (fun k => k.dieStart) (fun k => k.regions) (fun k => k.pkgRegs) (fun k => k.niches) (fun k => k.rings) (fun k => k.pends) (fun k => k.hostQs) (fun k => k.hostRings) (fun k => k.hostMem) (fun k => k.hostEp) (fun k => k.links) (fun k => k.dieSnap) (fun k => k.objects) (fun k => k.hbm) (fun k => k.hbmPoison) (fun k => k.hbmEcc) (fun k => k.hbmCheck) (fun k => k.mailbox) (fun k => k.variant)

/-- One store, `dieStart`, changes. -/
theorem Keeps.set_dieStart {u t : State} (h : Keeps u t) {cycle' fuses' flaws' hbmErrs' errLog' decided' unexplained' doubts' pendDoubt' mgmt' pod' dirty' lastReset' pkgResets' crashSeq' crashOpen' crashFrozen' resets' tickFrac' meshAcc' flights' free' readVal' readStat' dieStart'} (hx : t.Canonical → canon z0 dieStart') :
    Keeps u (State.mk t.small t.lite cycle' t.cells t.courts t.dieRegs t.events t.flog t.flogSeq fuses' flaws' hbmErrs' errLog' decided' unexplained' doubts' pendDoubt' t.irq t.dieHalt dieStart' t.regions mgmt' t.pkgRegs t.niches t.rings t.pends t.hostQs t.hostRings t.hostMem t.hostEp t.stepping t.links pod' dirty' lastReset' pkgResets' crashSeq' crashOpen' crashFrozen' t.dieSnap t.objects t.hbm t.hbmPoison t.hbmEcc t.hbmCheck t.mailbox resets' tickFrac' meshAcc' flights' free' readVal' readStat' t.pending) :=
  Keeps.mk h (fun k => k.cells) (fun k => k.courts) (fun k => k.dieRegs) (fun k => k.events) (fun k => k.flog) (fun k => k.flogSeq) (fun k => k.irq) (fun k => k.dieHalt) hx (fun k => k.regions) (fun k => k.pkgRegs) (fun k => k.niches) (fun k => k.rings) (fun k => k.pends) (fun k => k.hostQs) (fun k => k.hostRings) (fun k => k.hostMem) (fun k => k.hostEp) (fun k => k.links) (fun k => k.dieSnap) (fun k => k.objects) (fun k => k.hbm) (fun k => k.hbmPoison) (fun k => k.hbmEcc) (fun k => k.hbmCheck) (fun k => k.mailbox) (fun k => k.variant)

/-- One store, `regions`, changes. -/
theorem Keeps.set_regions {u t : State} (h : Keeps u t) {cycle' fuses' flaws' hbmErrs' errLog' decided' unexplained' doubts' pendDoubt' mgmt' pod' dirty' lastReset' pkgResets' crashSeq' crashOpen' crashFrozen' resets' tickFrac' meshAcc' flights' free' readVal' readStat' regions'} (hx : t.Canonical → canon noMark regions') :
    Keeps u (State.mk t.small t.lite cycle' t.cells t.courts t.dieRegs t.events t.flog t.flogSeq fuses' flaws' hbmErrs' errLog' decided' unexplained' doubts' pendDoubt' t.irq t.dieHalt t.dieStart regions' mgmt' t.pkgRegs t.niches t.rings t.pends t.hostQs t.hostRings t.hostMem t.hostEp t.stepping t.links pod' dirty' lastReset' pkgResets' crashSeq' crashOpen' crashFrozen' t.dieSnap t.objects t.hbm t.hbmPoison t.hbmEcc t.hbmCheck t.mailbox resets' tickFrac' meshAcc' flights' free' readVal' readStat' t.pending) :=
  Keeps.mk h (fun k => k.cells) (fun k => k.courts) (fun k => k.dieRegs) (fun k => k.events) (fun k => k.flog) (fun k => k.flogSeq) (fun k => k.irq) (fun k => k.dieHalt) (fun k => k.dieStart) hx (fun k => k.pkgRegs) (fun k => k.niches) (fun k => k.rings) (fun k => k.pends) (fun k => k.hostQs) (fun k => k.hostRings) (fun k => k.hostMem) (fun k => k.hostEp) (fun k => k.links) (fun k => k.dieSnap) (fun k => k.objects) (fun k => k.hbm) (fun k => k.hbmPoison) (fun k => k.hbmEcc) (fun k => k.hbmCheck) (fun k => k.mailbox) (fun k => k.variant)

/-- One store, `pkgRegs`, changes. -/
theorem Keeps.set_pkgRegs {u t : State} (h : Keeps u t) {cycle' fuses' flaws' hbmErrs' errLog' decided' unexplained' doubts' pendDoubt' mgmt' pod' dirty' lastReset' pkgResets' crashSeq' crashOpen' crashFrozen' resets' tickFrac' meshAcc' flights' free' readVal' readStat' pkgRegs'} (hx : t.Canonical → canon pkgRst pkgRegs') :
    Keeps u (State.mk t.small t.lite cycle' t.cells t.courts t.dieRegs t.events t.flog t.flogSeq fuses' flaws' hbmErrs' errLog' decided' unexplained' doubts' pendDoubt' t.irq t.dieHalt t.dieStart t.regions mgmt' pkgRegs' t.niches t.rings t.pends t.hostQs t.hostRings t.hostMem t.hostEp t.stepping t.links pod' dirty' lastReset' pkgResets' crashSeq' crashOpen' crashFrozen' t.dieSnap t.objects t.hbm t.hbmPoison t.hbmEcc t.hbmCheck t.mailbox resets' tickFrac' meshAcc' flights' free' readVal' readStat' t.pending) :=
  Keeps.mk h (fun k => k.cells) (fun k => k.courts) (fun k => k.dieRegs) (fun k => k.events) (fun k => k.flog) (fun k => k.flogSeq) (fun k => k.irq) (fun k => k.dieHalt) (fun k => k.dieStart) (fun k => k.regions) hx (fun k => k.niches) (fun k => k.rings) (fun k => k.pends) (fun k => k.hostQs) (fun k => k.hostRings) (fun k => k.hostMem) (fun k => k.hostEp) (fun k => k.links) (fun k => k.dieSnap) (fun k => k.objects) (fun k => k.hbm) (fun k => k.hbmPoison) (fun k => k.hbmEcc) (fun k => k.hbmCheck) (fun k => k.mailbox) (fun k => k.variant)

/-- One store, `niches`, changes. -/
theorem Keeps.set_niches {u t : State} (h : Keeps u t) {cycle' fuses' flaws' hbmErrs' errLog' decided' unexplained' doubts' pendDoubt' mgmt' pod' dirty' lastReset' pkgResets' crashSeq' crashOpen' crashFrozen' resets' tickFrac' meshAcc' flights' free' readVal' readStat' niches'} (hx : t.Canonical → canon niche0 niches') :
    Keeps u (State.mk t.small t.lite cycle' t.cells t.courts t.dieRegs t.events t.flog t.flogSeq fuses' flaws' hbmErrs' errLog' decided' unexplained' doubts' pendDoubt' t.irq t.dieHalt t.dieStart t.regions mgmt' t.pkgRegs niches' t.rings t.pends t.hostQs t.hostRings t.hostMem t.hostEp t.stepping t.links pod' dirty' lastReset' pkgResets' crashSeq' crashOpen' crashFrozen' t.dieSnap t.objects t.hbm t.hbmPoison t.hbmEcc t.hbmCheck t.mailbox resets' tickFrac' meshAcc' flights' free' readVal' readStat' t.pending) :=
  Keeps.mk h (fun k => k.cells) (fun k => k.courts) (fun k => k.dieRegs) (fun k => k.events) (fun k => k.flog) (fun k => k.flogSeq) (fun k => k.irq) (fun k => k.dieHalt) (fun k => k.dieStart) (fun k => k.regions) (fun k => k.pkgRegs) hx (fun k => k.rings) (fun k => k.pends) (fun k => k.hostQs) (fun k => k.hostRings) (fun k => k.hostMem) (fun k => k.hostEp) (fun k => k.links) (fun k => k.dieSnap) (fun k => k.objects) (fun k => k.hbm) (fun k => k.hbmPoison) (fun k => k.hbmEcc) (fun k => k.hbmCheck) (fun k => k.mailbox) (fun k => k.variant)

/-- One store, `rings`, changes. -/
theorem Keeps.set_rings {u t : State} (h : Keeps u t) {cycle' fuses' flaws' hbmErrs' errLog' decided' unexplained' doubts' pendDoubt' mgmt' pod' dirty' lastReset' pkgResets' crashSeq' crashOpen' crashFrozen' resets' tickFrac' meshAcc' flights' free' readVal' readStat' rings'} (hx : t.Canonical → canon ring0 rings') :
    Keeps u (State.mk t.small t.lite cycle' t.cells t.courts t.dieRegs t.events t.flog t.flogSeq fuses' flaws' hbmErrs' errLog' decided' unexplained' doubts' pendDoubt' t.irq t.dieHalt t.dieStart t.regions mgmt' t.pkgRegs t.niches rings' t.pends t.hostQs t.hostRings t.hostMem t.hostEp t.stepping t.links pod' dirty' lastReset' pkgResets' crashSeq' crashOpen' crashFrozen' t.dieSnap t.objects t.hbm t.hbmPoison t.hbmEcc t.hbmCheck t.mailbox resets' tickFrac' meshAcc' flights' free' readVal' readStat' t.pending) :=
  Keeps.mk h (fun k => k.cells) (fun k => k.courts) (fun k => k.dieRegs) (fun k => k.events) (fun k => k.flog) (fun k => k.flogSeq) (fun k => k.irq) (fun k => k.dieHalt) (fun k => k.dieStart) (fun k => k.regions) (fun k => k.pkgRegs) (fun k => k.niches) hx (fun k => k.pends) (fun k => k.hostQs) (fun k => k.hostRings) (fun k => k.hostMem) (fun k => k.hostEp) (fun k => k.links) (fun k => k.dieSnap) (fun k => k.objects) (fun k => k.hbm) (fun k => k.hbmPoison) (fun k => k.hbmEcc) (fun k => k.hbmCheck) (fun k => k.mailbox) (fun k => k.variant)

/-- One store, `pends`, changes. -/
theorem Keeps.set_pends {u t : State} (h : Keeps u t) {cycle' fuses' flaws' hbmErrs' errLog' decided' unexplained' doubts' pendDoubt' mgmt' pod' dirty' lastReset' pkgResets' crashSeq' crashOpen' crashFrozen' resets' tickFrac' meshAcc' flights' free' readVal' readStat' pends'} (hx : t.Canonical → canon pend0 pends') :
    Keeps u (State.mk t.small t.lite cycle' t.cells t.courts t.dieRegs t.events t.flog t.flogSeq fuses' flaws' hbmErrs' errLog' decided' unexplained' doubts' pendDoubt' t.irq t.dieHalt t.dieStart t.regions mgmt' t.pkgRegs t.niches t.rings pends' t.hostQs t.hostRings t.hostMem t.hostEp t.stepping t.links pod' dirty' lastReset' pkgResets' crashSeq' crashOpen' crashFrozen' t.dieSnap t.objects t.hbm t.hbmPoison t.hbmEcc t.hbmCheck t.mailbox resets' tickFrac' meshAcc' flights' free' readVal' readStat' t.pending) :=
  Keeps.mk h (fun k => k.cells) (fun k => k.courts) (fun k => k.dieRegs) (fun k => k.events) (fun k => k.flog) (fun k => k.flogSeq) (fun k => k.irq) (fun k => k.dieHalt) (fun k => k.dieStart) (fun k => k.regions) (fun k => k.pkgRegs) (fun k => k.niches) (fun k => k.rings) hx (fun k => k.hostQs) (fun k => k.hostRings) (fun k => k.hostMem) (fun k => k.hostEp) (fun k => k.links) (fun k => k.dieSnap) (fun k => k.objects) (fun k => k.hbm) (fun k => k.hbmPoison) (fun k => k.hbmEcc) (fun k => k.hbmCheck) (fun k => k.mailbox) (fun k => k.variant)

/-- One store, `hostQs`, changes. -/
theorem Keeps.set_hostQs {u t : State} (h : Keeps u t) {cycle' fuses' flaws' hbmErrs' errLog' decided' unexplained' doubts' pendDoubt' mgmt' pod' dirty' lastReset' pkgResets' crashSeq' crashOpen' crashFrozen' resets' tickFrac' meshAcc' flights' free' readVal' readStat' hostQs'} (hx : t.Canonical → canon hostq0 hostQs') :
    Keeps u (State.mk t.small t.lite cycle' t.cells t.courts t.dieRegs t.events t.flog t.flogSeq fuses' flaws' hbmErrs' errLog' decided' unexplained' doubts' pendDoubt' t.irq t.dieHalt t.dieStart t.regions mgmt' t.pkgRegs t.niches t.rings t.pends hostQs' t.hostRings t.hostMem t.hostEp t.stepping t.links pod' dirty' lastReset' pkgResets' crashSeq' crashOpen' crashFrozen' t.dieSnap t.objects t.hbm t.hbmPoison t.hbmEcc t.hbmCheck t.mailbox resets' tickFrac' meshAcc' flights' free' readVal' readStat' t.pending) :=
  Keeps.mk h (fun k => k.cells) (fun k => k.courts) (fun k => k.dieRegs) (fun k => k.events) (fun k => k.flog) (fun k => k.flogSeq) (fun k => k.irq) (fun k => k.dieHalt) (fun k => k.dieStart) (fun k => k.regions) (fun k => k.pkgRegs) (fun k => k.niches) (fun k => k.rings) (fun k => k.pends) hx (fun k => k.hostRings) (fun k => k.hostMem) (fun k => k.hostEp) (fun k => k.links) (fun k => k.dieSnap) (fun k => k.objects) (fun k => k.hbm) (fun k => k.hbmPoison) (fun k => k.hbmEcc) (fun k => k.hbmCheck) (fun k => k.mailbox) (fun k => k.variant)

/-- One store, `hostRings`, changes. -/
theorem Keeps.set_hostRings {u t : State} (h : Keeps u t) {cycle' fuses' flaws' hbmErrs' errLog' decided' unexplained' doubts' pendDoubt' mgmt' pod' dirty' lastReset' pkgResets' crashSeq' crashOpen' crashFrozen' resets' tickFrac' meshAcc' flights' free' readVal' readStat' hostRings'} (hx : t.Canonical → canon hostring0 hostRings') :
    Keeps u (State.mk t.small t.lite cycle' t.cells t.courts t.dieRegs t.events t.flog t.flogSeq fuses' flaws' hbmErrs' errLog' decided' unexplained' doubts' pendDoubt' t.irq t.dieHalt t.dieStart t.regions mgmt' t.pkgRegs t.niches t.rings t.pends t.hostQs hostRings' t.hostMem t.hostEp t.stepping t.links pod' dirty' lastReset' pkgResets' crashSeq' crashOpen' crashFrozen' t.dieSnap t.objects t.hbm t.hbmPoison t.hbmEcc t.hbmCheck t.mailbox resets' tickFrac' meshAcc' flights' free' readVal' readStat' t.pending) :=
  Keeps.mk h (fun k => k.cells) (fun k => k.courts) (fun k => k.dieRegs) (fun k => k.events) (fun k => k.flog) (fun k => k.flogSeq) (fun k => k.irq) (fun k => k.dieHalt) (fun k => k.dieStart) (fun k => k.regions) (fun k => k.pkgRegs) (fun k => k.niches) (fun k => k.rings) (fun k => k.pends) (fun k => k.hostQs) hx (fun k => k.hostMem) (fun k => k.hostEp) (fun k => k.links) (fun k => k.dieSnap) (fun k => k.objects) (fun k => k.hbm) (fun k => k.hbmPoison) (fun k => k.hbmEcc) (fun k => k.hbmCheck) (fun k => k.mailbox) (fun k => k.variant)

/-- One store, `hostMem`, changes. -/
theorem Keeps.set_hostMem {u t : State} (h : Keeps u t) {cycle' fuses' flaws' hbmErrs' errLog' decided' unexplained' doubts' pendDoubt' mgmt' pod' dirty' lastReset' pkgResets' crashSeq' crashOpen' crashFrozen' resets' tickFrac' meshAcc' flights' free' readVal' readStat' hostMem'} (hx : t.Canonical → canon byteDefault hostMem') :
    Keeps u (State.mk t.small t.lite cycle' t.cells t.courts t.dieRegs t.events t.flog t.flogSeq fuses' flaws' hbmErrs' errLog' decided' unexplained' doubts' pendDoubt' t.irq t.dieHalt t.dieStart t.regions mgmt' t.pkgRegs t.niches t.rings t.pends t.hostQs t.hostRings hostMem' t.hostEp t.stepping t.links pod' dirty' lastReset' pkgResets' crashSeq' crashOpen' crashFrozen' t.dieSnap t.objects t.hbm t.hbmPoison t.hbmEcc t.hbmCheck t.mailbox resets' tickFrac' meshAcc' flights' free' readVal' readStat' t.pending) :=
  Keeps.mk h (fun k => k.cells) (fun k => k.courts) (fun k => k.dieRegs) (fun k => k.events) (fun k => k.flog) (fun k => k.flogSeq) (fun k => k.irq) (fun k => k.dieHalt) (fun k => k.dieStart) (fun k => k.regions) (fun k => k.pkgRegs) (fun k => k.niches) (fun k => k.rings) (fun k => k.pends) (fun k => k.hostQs) (fun k => k.hostRings) hx (fun k => k.hostEp) (fun k => k.links) (fun k => k.dieSnap) (fun k => k.objects) (fun k => k.hbm) (fun k => k.hbmPoison) (fun k => k.hbmEcc) (fun k => k.hbmCheck) (fun k => k.mailbox) (fun k => k.variant)

/-- One store, `hostEp`, changes. -/
theorem Keeps.set_hostEp {u t : State} (h : Keeps u t) {cycle' fuses' flaws' hbmErrs' errLog' decided' unexplained' doubts' pendDoubt' mgmt' pod' dirty' lastReset' pkgResets' crashSeq' crashOpen' crashFrozen' resets' tickFrac' meshAcc' flights' free' readVal' readStat' hostEp'} (hx : t.Canonical → canon noMark hostEp') :
    Keeps u (State.mk t.small t.lite cycle' t.cells t.courts t.dieRegs t.events t.flog t.flogSeq fuses' flaws' hbmErrs' errLog' decided' unexplained' doubts' pendDoubt' t.irq t.dieHalt t.dieStart t.regions mgmt' t.pkgRegs t.niches t.rings t.pends t.hostQs t.hostRings t.hostMem hostEp' t.stepping t.links pod' dirty' lastReset' pkgResets' crashSeq' crashOpen' crashFrozen' t.dieSnap t.objects t.hbm t.hbmPoison t.hbmEcc t.hbmCheck t.mailbox resets' tickFrac' meshAcc' flights' free' readVal' readStat' t.pending) :=
  Keeps.mk h (fun k => k.cells) (fun k => k.courts) (fun k => k.dieRegs) (fun k => k.events) (fun k => k.flog) (fun k => k.flogSeq) (fun k => k.irq) (fun k => k.dieHalt) (fun k => k.dieStart) (fun k => k.regions) (fun k => k.pkgRegs) (fun k => k.niches) (fun k => k.rings) (fun k => k.pends) (fun k => k.hostQs) (fun k => k.hostRings) (fun k => k.hostMem) hx (fun k => k.links) (fun k => k.dieSnap) (fun k => k.objects) (fun k => k.hbm) (fun k => k.hbmPoison) (fun k => k.hbmEcc) (fun k => k.hbmCheck) (fun k => k.mailbox) (fun k => k.variant)

/-- One store, `links`, changes. -/
theorem Keeps.set_links {u t : State} (h : Keeps u t) {cycle' fuses' flaws' hbmErrs' errLog' decided' unexplained' doubts' pendDoubt' mgmt' pod' dirty' lastReset' pkgResets' crashSeq' crashOpen' crashFrozen' resets' tickFrac' meshAcc' flights' free' readVal' readStat' links'} (hx : t.Canonical → canon link0 links') :
    Keeps u (State.mk t.small t.lite cycle' t.cells t.courts t.dieRegs t.events t.flog t.flogSeq fuses' flaws' hbmErrs' errLog' decided' unexplained' doubts' pendDoubt' t.irq t.dieHalt t.dieStart t.regions mgmt' t.pkgRegs t.niches t.rings t.pends t.hostQs t.hostRings t.hostMem t.hostEp t.stepping links' pod' dirty' lastReset' pkgResets' crashSeq' crashOpen' crashFrozen' t.dieSnap t.objects t.hbm t.hbmPoison t.hbmEcc t.hbmCheck t.mailbox resets' tickFrac' meshAcc' flights' free' readVal' readStat' t.pending) :=
  Keeps.mk h (fun k => k.cells) (fun k => k.courts) (fun k => k.dieRegs) (fun k => k.events) (fun k => k.flog) (fun k => k.flogSeq) (fun k => k.irq) (fun k => k.dieHalt) (fun k => k.dieStart) (fun k => k.regions) (fun k => k.pkgRegs) (fun k => k.niches) (fun k => k.rings) (fun k => k.pends) (fun k => k.hostQs) (fun k => k.hostRings) (fun k => k.hostMem) (fun k => k.hostEp) hx (fun k => k.dieSnap) (fun k => k.objects) (fun k => k.hbm) (fun k => k.hbmPoison) (fun k => k.hbmEcc) (fun k => k.hbmCheck) (fun k => k.mailbox) (fun k => k.variant)

/-- One store, `dieSnap`, changes. -/
theorem Keeps.set_dieSnap {u t : State} (h : Keeps u t) {cycle' fuses' flaws' hbmErrs' errLog' decided' unexplained' doubts' pendDoubt' mgmt' pod' dirty' lastReset' pkgResets' crashSeq' crashOpen' crashFrozen' resets' tickFrac' meshAcc' flights' free' readVal' readStat' dieSnap'} (hx : t.Canonical → canon (fun _ => []) dieSnap') :
    Keeps u (State.mk t.small t.lite cycle' t.cells t.courts t.dieRegs t.events t.flog t.flogSeq fuses' flaws' hbmErrs' errLog' decided' unexplained' doubts' pendDoubt' t.irq t.dieHalt t.dieStart t.regions mgmt' t.pkgRegs t.niches t.rings t.pends t.hostQs t.hostRings t.hostMem t.hostEp t.stepping t.links pod' dirty' lastReset' pkgResets' crashSeq' crashOpen' crashFrozen' dieSnap' t.objects t.hbm t.hbmPoison t.hbmEcc t.hbmCheck t.mailbox resets' tickFrac' meshAcc' flights' free' readVal' readStat' t.pending) :=
  Keeps.mk h (fun k => k.cells) (fun k => k.courts) (fun k => k.dieRegs) (fun k => k.events) (fun k => k.flog) (fun k => k.flogSeq) (fun k => k.irq) (fun k => k.dieHalt) (fun k => k.dieStart) (fun k => k.regions) (fun k => k.pkgRegs) (fun k => k.niches) (fun k => k.rings) (fun k => k.pends) (fun k => k.hostQs) (fun k => k.hostRings) (fun k => k.hostMem) (fun k => k.hostEp) (fun k => k.links) hx (fun k => k.objects) (fun k => k.hbm) (fun k => k.hbmPoison) (fun k => k.hbmEcc) (fun k => k.hbmCheck) (fun k => k.mailbox) (fun k => k.variant)

/-- One store, `objects`, changes. -/
theorem Keeps.set_objects {u t : State} (h : Keeps u t) {cycle' fuses' flaws' hbmErrs' errLog' decided' unexplained' doubts' pendDoubt' mgmt' pod' dirty' lastReset' pkgResets' crashSeq' crashOpen' crashFrozen' resets' tickFrac' meshAcc' flights' free' readVal' readStat' objects'} (hx : t.Canonical → canon objDefault objects') :
    Keeps u (State.mk t.small t.lite cycle' t.cells t.courts t.dieRegs t.events t.flog t.flogSeq fuses' flaws' hbmErrs' errLog' decided' unexplained' doubts' pendDoubt' t.irq t.dieHalt t.dieStart t.regions mgmt' t.pkgRegs t.niches t.rings t.pends t.hostQs t.hostRings t.hostMem t.hostEp t.stepping t.links pod' dirty' lastReset' pkgResets' crashSeq' crashOpen' crashFrozen' t.dieSnap objects' t.hbm t.hbmPoison t.hbmEcc t.hbmCheck t.mailbox resets' tickFrac' meshAcc' flights' free' readVal' readStat' t.pending) :=
  Keeps.mk h (fun k => k.cells) (fun k => k.courts) (fun k => k.dieRegs) (fun k => k.events) (fun k => k.flog) (fun k => k.flogSeq) (fun k => k.irq) (fun k => k.dieHalt) (fun k => k.dieStart) (fun k => k.regions) (fun k => k.pkgRegs) (fun k => k.niches) (fun k => k.rings) (fun k => k.pends) (fun k => k.hostQs) (fun k => k.hostRings) (fun k => k.hostMem) (fun k => k.hostEp) (fun k => k.links) (fun k => k.dieSnap) hx (fun k => k.hbm) (fun k => k.hbmPoison) (fun k => k.hbmEcc) (fun k => k.hbmCheck) (fun k => k.mailbox) (fun k => k.variant)

/-- One store, `hbm`, changes. -/
theorem Keeps.set_hbm {u t : State} (h : Keeps u t) {cycle' fuses' flaws' hbmErrs' errLog' decided' unexplained' doubts' pendDoubt' mgmt' pod' dirty' lastReset' pkgResets' crashSeq' crashOpen' crashFrozen' resets' tickFrac' meshAcc' flights' free' readVal' readStat' hbm'} (hx : t.Canonical → canon byteDefault hbm') :
    Keeps u (State.mk t.small t.lite cycle' t.cells t.courts t.dieRegs t.events t.flog t.flogSeq fuses' flaws' hbmErrs' errLog' decided' unexplained' doubts' pendDoubt' t.irq t.dieHalt t.dieStart t.regions mgmt' t.pkgRegs t.niches t.rings t.pends t.hostQs t.hostRings t.hostMem t.hostEp t.stepping t.links pod' dirty' lastReset' pkgResets' crashSeq' crashOpen' crashFrozen' t.dieSnap t.objects hbm' t.hbmPoison t.hbmEcc t.hbmCheck t.mailbox resets' tickFrac' meshAcc' flights' free' readVal' readStat' t.pending) :=
  Keeps.mk h (fun k => k.cells) (fun k => k.courts) (fun k => k.dieRegs) (fun k => k.events) (fun k => k.flog) (fun k => k.flogSeq) (fun k => k.irq) (fun k => k.dieHalt) (fun k => k.dieStart) (fun k => k.regions) (fun k => k.pkgRegs) (fun k => k.niches) (fun k => k.rings) (fun k => k.pends) (fun k => k.hostQs) (fun k => k.hostRings) (fun k => k.hostMem) (fun k => k.hostEp) (fun k => k.links) (fun k => k.dieSnap) (fun k => k.objects) hx (fun k => k.hbmPoison) (fun k => k.hbmEcc) (fun k => k.hbmCheck) (fun k => k.mailbox) (fun k => k.variant)

/-- One store, `hbmPoison`, changes. -/
theorem Keeps.set_hbmPoison {u t : State} (h : Keeps u t) {cycle' fuses' flaws' hbmErrs' errLog' decided' unexplained' doubts' pendDoubt' mgmt' pod' dirty' lastReset' pkgResets' crashSeq' crashOpen' crashFrozen' resets' tickFrac' meshAcc' flights' free' readVal' readStat' hbmPoison'} (hx : t.Canonical → canon noMark hbmPoison') :
    Keeps u (State.mk t.small t.lite cycle' t.cells t.courts t.dieRegs t.events t.flog t.flogSeq fuses' flaws' hbmErrs' errLog' decided' unexplained' doubts' pendDoubt' t.irq t.dieHalt t.dieStart t.regions mgmt' t.pkgRegs t.niches t.rings t.pends t.hostQs t.hostRings t.hostMem t.hostEp t.stepping t.links pod' dirty' lastReset' pkgResets' crashSeq' crashOpen' crashFrozen' t.dieSnap t.objects t.hbm hbmPoison' t.hbmEcc t.hbmCheck t.mailbox resets' tickFrac' meshAcc' flights' free' readVal' readStat' t.pending) :=
  Keeps.mk h (fun k => k.cells) (fun k => k.courts) (fun k => k.dieRegs) (fun k => k.events) (fun k => k.flog) (fun k => k.flogSeq) (fun k => k.irq) (fun k => k.dieHalt) (fun k => k.dieStart) (fun k => k.regions) (fun k => k.pkgRegs) (fun k => k.niches) (fun k => k.rings) (fun k => k.pends) (fun k => k.hostQs) (fun k => k.hostRings) (fun k => k.hostMem) (fun k => k.hostEp) (fun k => k.links) (fun k => k.dieSnap) (fun k => k.objects) (fun k => k.hbm) hx (fun k => k.hbmEcc) (fun k => k.hbmCheck) (fun k => k.mailbox) (fun k => k.variant)

/-- One store, `hbmEcc`, changes. -/
theorem Keeps.set_hbmEcc {u t : State} (h : Keeps u t) {cycle' fuses' flaws' hbmErrs' errLog' decided' unexplained' doubts' pendDoubt' mgmt' pod' dirty' lastReset' pkgResets' crashSeq' crashOpen' crashFrozen' resets' tickFrac' meshAcc' flights' free' readVal' readStat' hbmEcc'} (hx : t.Canonical → canon ecc0 hbmEcc') :
    Keeps u (State.mk t.small t.lite cycle' t.cells t.courts t.dieRegs t.events t.flog t.flogSeq fuses' flaws' hbmErrs' errLog' decided' unexplained' doubts' pendDoubt' t.irq t.dieHalt t.dieStart t.regions mgmt' t.pkgRegs t.niches t.rings t.pends t.hostQs t.hostRings t.hostMem t.hostEp t.stepping t.links pod' dirty' lastReset' pkgResets' crashSeq' crashOpen' crashFrozen' t.dieSnap t.objects t.hbm t.hbmPoison hbmEcc' t.hbmCheck t.mailbox resets' tickFrac' meshAcc' flights' free' readVal' readStat' t.pending) :=
  Keeps.mk h (fun k => k.cells) (fun k => k.courts) (fun k => k.dieRegs) (fun k => k.events) (fun k => k.flog) (fun k => k.flogSeq) (fun k => k.irq) (fun k => k.dieHalt) (fun k => k.dieStart) (fun k => k.regions) (fun k => k.pkgRegs) (fun k => k.niches) (fun k => k.rings) (fun k => k.pends) (fun k => k.hostQs) (fun k => k.hostRings) (fun k => k.hostMem) (fun k => k.hostEp) (fun k => k.links) (fun k => k.dieSnap) (fun k => k.objects) (fun k => k.hbm) (fun k => k.hbmPoison) hx (fun k => k.hbmCheck) (fun k => k.mailbox) (fun k => k.variant)

/-- One store, `hbmCheck`, changes. -/
theorem Keeps.set_hbmCheck {u t : State} (h : Keeps u t) {cycle' fuses' flaws' hbmErrs' errLog' decided' unexplained' doubts' pendDoubt' mgmt' pod' dirty' lastReset' pkgResets' crashSeq' crashOpen' crashFrozen' resets' tickFrac' meshAcc' flights' free' readVal' readStat' hbmCheck'} (hx : t.Canonical → canon zeroCheck hbmCheck') :
    Keeps u (State.mk t.small t.lite cycle' t.cells t.courts t.dieRegs t.events t.flog t.flogSeq fuses' flaws' hbmErrs' errLog' decided' unexplained' doubts' pendDoubt' t.irq t.dieHalt t.dieStart t.regions mgmt' t.pkgRegs t.niches t.rings t.pends t.hostQs t.hostRings t.hostMem t.hostEp t.stepping t.links pod' dirty' lastReset' pkgResets' crashSeq' crashOpen' crashFrozen' t.dieSnap t.objects t.hbm t.hbmPoison t.hbmEcc hbmCheck' t.mailbox resets' tickFrac' meshAcc' flights' free' readVal' readStat' t.pending) :=
  Keeps.mk h (fun k => k.cells) (fun k => k.courts) (fun k => k.dieRegs) (fun k => k.events) (fun k => k.flog) (fun k => k.flogSeq) (fun k => k.irq) (fun k => k.dieHalt) (fun k => k.dieStart) (fun k => k.regions) (fun k => k.pkgRegs) (fun k => k.niches) (fun k => k.rings) (fun k => k.pends) (fun k => k.hostQs) (fun k => k.hostRings) (fun k => k.hostMem) (fun k => k.hostEp) (fun k => k.links) (fun k => k.dieSnap) (fun k => k.objects) (fun k => k.hbm) (fun k => k.hbmPoison) (fun k => k.hbmEcc) hx (fun k => k.mailbox) (fun k => k.variant)

/-- One store, `mailbox`, changes. -/
theorem Keeps.set_mailbox {u t : State} (h : Keeps u t) {cycle' fuses' flaws' hbmErrs' errLog' decided' unexplained' doubts' pendDoubt' mgmt' pod' dirty' lastReset' pkgResets' crashSeq' crashOpen' crashFrozen' resets' tickFrac' meshAcc' flights' free' readVal' readStat' mailbox'} (hx : t.Canonical → canon nil0 mailbox') :
    Keeps u (State.mk t.small t.lite cycle' t.cells t.courts t.dieRegs t.events t.flog t.flogSeq fuses' flaws' hbmErrs' errLog' decided' unexplained' doubts' pendDoubt' t.irq t.dieHalt t.dieStart t.regions mgmt' t.pkgRegs t.niches t.rings t.pends t.hostQs t.hostRings t.hostMem t.hostEp t.stepping t.links pod' dirty' lastReset' pkgResets' crashSeq' crashOpen' crashFrozen' t.dieSnap t.objects t.hbm t.hbmPoison t.hbmEcc t.hbmCheck mailbox' resets' tickFrac' meshAcc' flights' free' readVal' readStat' t.pending) :=
  Keeps.mk h (fun k => k.cells) (fun k => k.courts) (fun k => k.dieRegs) (fun k => k.events) (fun k => k.flog) (fun k => k.flogSeq) (fun k => k.irq) (fun k => k.dieHalt) (fun k => k.dieStart) (fun k => k.regions) (fun k => k.pkgRegs) (fun k => k.niches) (fun k => k.rings) (fun k => k.pends) (fun k => k.hostQs) (fun k => k.hostRings) (fun k => k.hostMem) (fun k => k.hostEp) (fun k => k.links) (fun k => k.dieSnap) (fun k => k.objects) (fun k => k.hbm) (fun k => k.hbmPoison) (fun k => k.hbmEcc) (fun k => k.hbmCheck) hx (fun k => k.variant)

/-! ### Branches and folds -/

theorem Keeps.ite {u a b : State} {p : Prop} [Decidable p] (ha : Keeps u a) (hb : Keeps u b) : Keeps u (if p then a else b) := by
  split <;> assumption

theorem Keeps.foldl {u s : State} {β : Type} {g : State → β → State} {l : List β} (h : Keeps u s)
    (hg : ∀ v x, Keeps u v → Keeps u (g v x)) : Keeps u (l.foldl g s) := by
  induction l generalizing s with
  | nil => exact h
  | cons x l ih => exact ih (hg s x h)

theorem Keeps.foldl_fst {u : State} {β γ : Type} {g : State × γ → β → State × γ} {l : List β} {r : State × γ} (h : Keeps u r.1)
    (hg : ∀ v x, Keeps u v.1 → Keeps u (g v x).1) : Keeps u (l.foldl g r).1 := by
  induction l generalizing r with
  | nil => exact h
  | cons x l ih => exact ih (hg r x h)

theorem Keeps.foldl_snd {u : State} {β γ : Type} {g : γ × State → β → γ × State} {l : List β} {r : γ × State} (h : Keeps u r.2)
    (hg : ∀ v x, Keeps u v.2 → Keeps u (g v x).2) : Keeps u (l.foldl g r).2 := by
  induction l generalizing r with
  | nil => exact h
  | cons x l ih => exact ih (hg r x h)

theorem canon_foldl_fst {α β γ : Type} [DecidableEq α] {d : Nat → α} {g : FMap α × γ → β → FMap α × γ} {l : List β}
    {r : FMap α × γ} (h : canon d r.1) (hg : ∀ v x, canon d v.1 → canon d (g v x).1) : canon d (l.foldl g r).1 := by
  induction l generalizing r with
  | nil => exact h
  | cons x l ih => exact ih (hg r x h)

theorem canon_foldl_snd {α β γ : Type} [DecidableEq α] {d : Nat → α} {g : γ × FMap α → β → γ × FMap α} {l : List β}
    {r : γ × FMap α} (h : canon d r.2) (hg : ∀ v x, canon d v.2 → canon d (g v x).2) : canon d (l.foldl g r).2 := by
  induction l generalizing r with
  | nil => exact h
  | cons x l ih => exact ih (hg r x h)

theorem KeepsOut.next {u t : State} (h : Keeps u t) : KeepsOut u (.next t) := by
  intro v hv; cases hv; exact h

theorem KeepsOut.fault {u : State} (f : Fault) : KeepsOut u (.fault f) := by
  intro v hv; cases hv

theorem KeepsOut.ite {u : State} {a b : Out} {p : Prop} [Decidable p] (ha : KeepsOut u a) (hb : KeepsOut u b) :
    KeepsOut u (if p then a else b) := by
  split <;> assumption

end Sys2Proof.Machine
end

