-- ==== Sys2Proof/Laws/Scalar.lean ====
section
/-! SUPPORT. The scalar operations: what they leave alone in a context, and their results written plainly. -/

namespace Sys2Proof.Machine
open Sys2Proof

/-- SALU and SALUI change the s and a registers and their check marks only, by what those were. -/
theorem saluCtx_frame (w : Nat) (b : PW) (x : Ctx) :
    ∃ s' a' u', saluCtx w b x = { x with s := s', a := a', regUe := u' } ∧
      ∀ y : Ctx, y.s = x.s → y.a = x.a → y.regUe = x.regUe → saluCtx w b y = { y with s := s', a := a', regUe := u' } := by
  refine ⟨(saluCtx w b x).s, (saluCtx w b x).a, (saluCtx w b x).regUe, ?_⟩
  have h : ∀ y : Ctx, y.s = x.s → y.a = x.a → y.regUe = x.regUe → saluCtx w b y =
      { y with s := (saluCtx w b x).s, a := (saluCtx w b x).a, regUe := (saluCtx w b x).regUe } := by
    intro y hs ha hu
    have e1 : ∀ i, y.sReg i = x.sReg i := fun i => by unfold Ctx.sReg; rw [hs]
    have e2 : ∀ i, y.aReg i = x.aReg i := fun i => by unfold Ctx.aReg; rw [ha]
    have e3 : ∀ i, y.pair i = x.pair i := fun i => by unfold Ctx.pair; rw [e1, e1]
    have e4 : ∀ i, y.pairP i = x.pairP i := fun i => by unfold Ctx.pairP; rw [e1, e1]
    unfold saluCtx
    dsimp only
    simp only [e1, e2, e3, e4]
    generalize minor w = m
    by_cases hm : m ≤ 0x0F
    · simp only [if_pos hm]; unfold Ctx.setS Ctx.fresh; simp only [hs, ha, hu]
    · simp only [if_neg hm]
      split <;> (first | unfold Ctx.setPairW Ctx.setS Ctx.fresh | unfold Ctx.setA Ctx.fresh | unfold Ctx.setS Ctx.fresh) <;>
        simp only [hs, ha, hu]
  exact ⟨h x rfl rfl rfl, h⟩

/-- Saturating to 32 bits is clamping. -/
theorem satInt_32 (z : Int) : BitVec.ofNat 32 (satInt 4 z).out = BitVec.ofInt 32 (max (-2 ^ 31) (min (2 ^ 31 - 1) z)) := by
  have hw : ∀ v : Int, BitVec.ofNat 32 (wrap (fmtBits 4) v) = BitVec.ofInt 32 v := by
    intro v
    have : fmtBits 4 = 32 := rfl
    rw [this]
    apply BitVec.eq_of_toNat_eq
    simp only [BitVec.toNat_ofNat, BitVec.toNat_ofInt, wrap]
    rw [Nat.mod_eq_of_lt]
    · have h1 : (v % ((2 ^ 32 : Nat) : Int)) < ((2 ^ 32 : Nat) : Int) := Int.emod_lt_of_pos _ (by decide)
      have h0 : 0 ≤ (v % ((2 ^ 32 : Nat) : Int)) := Int.emod_nonneg _ (by decide)
      omega
  have h1 : intMin 4 = -2 ^ 31 := by decide
  have h2 : intMax 4 = 2 ^ 31 - 1 := by decide
  unfold satInt
  rw [h1, h2]
  split
  · rw [hw]; congr 1; omega
  · split
    · rw [hw]; congr 1; omega
    · rw [hw]; congr 1; omega

end Sys2Proof.Machine
end

