-- ==== Sys2Proof/Tests/Slice0.lean ====
section
/-! SUPPORT. Tests: ill-formed commands, the spec's worked examples, and for each statement and each row of the command table
states that meet its hypotheses, with a result or two that the rules give. -/

namespace Sys2Proof.Tests
open Sys2Proof Sys2Proof.Machine
set_option Elab.async false

/-! ### States -/

/-- The state after a command, the state itself where the command does not complete. -/
def run (c : Instr) (s : State) : State := match exec c s with | .next t => t | _ => s
/-- Whether a command changes nothing. -/
def still (c : Instr) (s : State) : Bool := match exec c s with | .next t => decide (t = s) | _ => false
/-- Fields of the package block written. -/
def pk (s : State) (l : List (Fld × Nat)) : State := l.foldl (fun s p => s.wr p.1 p.2) s
/-- Fields of a die's block written. -/
def dk (s : State) (d : Nat) (l : List (Fld × Nat)) : State := l.foldl (fun s p => s.dieWr d p.1 p.2) s
/-- Fields of a cell written. -/
def ck (c : Cell) (l : List (Fld × Nat)) : Cell := l.foldl (fun c p => c.wr p.1 p.2) c
/-- Fields of a court written. -/
def qk (c : Court) (l : List (Fld × Nat)) : Court := l.foldl (fun c p => c.wr p.1 p.2) c
/-- All dies have clocks. -/
def up : State := { dieHalt := [], mgmt := { sysRst := false } }
/-- The package in SERVICE. -/
def svc : State := pk up [(MGT_BOOT_STATUS_STATE, 7), (MGT_BOOT_STATUS_DIE_OK, 15), (PWR_STATUS_NV_OK, 1)]
/-- With cell 0. -/
def cl (s : State) (c : Cell) : State := { s with cells := [(0, c)] }
/-- With court 0. -/
def ct (s : State) (c : Court) : State := { s with courts := [(0, c)] }
/-- Context 0 of cell 0. -/
def x0 : CtxRef := ⟨0, 0⟩
/-- Cell 0 with a program in context 0, which is READY at its first word. -/
def ins (ws : List Nat) (y : Ctx := {}) (c : Cell := {}) : State :=
  cl up { c with istore := ws.zipIdx.map (fun p => (p.2, BitVec.ofNat 32 p.1)), ctxs := [(0, { y with state := .ready })] }
/-- An instruction word: major, minor, the three register fields of R85, and the low bits. -/
def wd (mj mn rd a b : Nat) (low : Nat := 0) : Nat := mj * 2 ^ 26 + mn * 2 ^ 21 + rd * 2 ^ 16 + a * 2 ^ 11 + b * 2 ^ 6 + low
/-- Context 0 of cell 0 after an instruction. -/
def after (c : Instr) (s : State) : Ctx := (run c s).ctxOf x0
/-- A submission queue entry of function 0, queue 0: opcode in byte 0, the niche, and operand bytes. -/
def sq (niche : Nat) (ops : List (BitVec 8) := []) (fn : Nat := 0) (q : Nat := 0) : SqEntry :=
  { fn := fn, q := q, cid := 0x21, niche := niche, host := 0x10000, offset := 0, length := 64, ops := ops }
/-- The checks of `Ready` as a test. -/
def readyB (r : Row) (s : State) : Bool :=
  s.powered 0 && s.mayIssue 0 0 && (((s.cell 0).fetchAddrs 0).all (fun a => (s.cell 0).fetchEcc 0 a == .ok))
    && (rowOf ((s.cell 0).word0 0) ((s.cell 0).word1 0) == some r) && ((s.cell 0).badSources 0 r).isEmpty && !((s.cell 0).ctx 0).stepping
/-- No loop of context 0 is active. -/
def loopless (s : State) : Bool := (List.range 4).all (fun n => (s.ctxOf x0).lReg n == 0)

theorem ready_of_readyB (r : Row) (s : State) (h : readyB r s = true) : Ready r x0 s := by
  simp only [readyB, Bool.and_eq_true, List.all_eq_true, beq_iff_eq, List.isEmpty_iff, Bool.not_eq_true'] at h
  exact ⟨by decide, by decide, h.1.1.1.1.1, h.1.1.1.1.2, h.1.1.1.2, h.1.1.2, h.1.2, h.2⟩

theorem noReturn_of_loopless (n : Nat) (s : State) (h : loopless s = true) : NoReturn n x0 s := by
  intro k hk
  simp only [loopless, List.all_eq_true, List.mem_range, beq_iff_eq] at h
  exact Or.inl (h k hk)

/-! ### Ill-formed commands (WellFormed.lean) -/

/-- A context that no cell has, a cell that no part has. -/
theorem test_ill_formed_contexts :
    [Instr.salu ⟨0, 4⟩, .salu ⟨10368, 0⟩, .tmac ⟨10368, 0⟩, .ctxStart ⟨0, 4⟩, .armGo ⟨10368, 3⟩, .progValidWrite ⟨0, 4⟩ true,
      .contextWatchdog ⟨0, 9⟩].all (fun c => !c.wf) = true := by decide +kernel

theorem test_ill_formed_cells :
    [Instr.freezeWrite 10368 true, .cellIsDataAccess 10368 none, .scanDone 20000, .macOpComplete 10368, .spdRingReset 0 16,
      .spdRingCfgWrite 10368 0 0, .spdEccWriteback 0 49152, .nackReceive 0 6 0, .responseReceive 0 0 2, .sprRspTimeout 0 4096,
      .heal 10368, .cellReset 10368, .confirmationTest 10368 true, .checkpointResult 10368 0 [], .pmcSampDataRead 10368 none].all
      (fun c => !c.wf) = true := by decide +kernel

theorem test_ill_formed_courts :
    [Instr.syncRead 144, .gather 144, .rifComplete 200, .dmaDescArrive 144, .dmaSpdToPln 0 16, .zeroH 144 0, .synStateWrite 0 128 0,
      .plinthEccWriteback 0 1048576, .crtHostDataAccess 0 34 none, .sprRtDataWrite 144 0, .xbarRound 144, .raspPassStart 144 0].all
      (fun c => !c.wf) = true := by decide +kernel

theorem test_ill_formed_package :
    [Instr.seamAlarm 4, .hbmPatrolScrub 3221225472, .epochActiveWrite 16 true, .frameEdge 16, .tmbNframeModeWrite 16 0,
      .ingressEntryArrive 128 0 [] false, .ingressEntryArrive 0 0 (List.replicate 225 0) false, .egressSlotWrite 128 0,
      .pendWaitExpiry 8, .linkLock 96, .slotSend 16 0, .collAck 96, .healShift 16, .atelierWatchdog 4, .dieReset 4,
      .faultLogEntry 0 10368, .faultLogEntry 1 144, .faultLogEntry 2 4, .brownOut 13, .overvoltage 0, .commitTExpiry 4].all
      (fun c => !c.wf) = true := by decide +kernel

theorem test_ill_formed_host :
    [Instr.sqTailDoorbell 34 0 0, .cqHeadDoorbell 0 8 0, .egrHeadDoorbell 0 16 0, .cmdNop (sq 0 [] 34),
      .writeHbm (sq 0 [] 0 8), .nicheReset 16 none, .hostBar2Read 0 4090 7, .hostBar2Write 0 4095 [0, 0] false,
      .functionLevelReset 34, .perstAssert 2, .regWrite { space := 5, unit := 0, off := 0, v := 0 },
      .regWrite { space := 1, unit := 4, off := 0, v := 0 }, .regWrite { space := 3, unit := 10368, off := 0, v := 0 },
      .regWrite { space := 0, unit := 0, off := 0, v := 0, who := some 34 }, .pmcSnapGo 3 0, .pmcSnapGo 2 4, .pmcCntLowRead 1 144 0 false,
      .pmcCntLowRead 0 0 8 false, .capRead { via := 6 }, .capRead { via := 5, who := 96 }, .spdmMessage { via := 6 }].all
      (fun c => !c.wf) = true := by decide +kernel

/-- An ill-formed command is answered with the fault. -/
theorem test_ill_formed_faults : exec (.dieReset 4) svc = .fault .noSuchUnit := rfl

/-! ### Instructions: each state meets the hypotheses of its row's statement; results by hand from R91 to R125 -/

/-- A context with s registers. -/
def sx (l : List (Nat × Nat)) (y : Ctx := {}) : Ctx := l.foldl (fun y p => y.setS p.1 ⟨BitVec.ofNat 32 p.2, false⟩) y
/-- A context with address registers. -/
def ax (l : List (Nat × Nat)) (y : Ctx := {}) : Ctx := l.foldl (fun y p => y.setA p.1 ⟨BitVec.ofNat 32 p.2, false⟩) y
/-- A context with v registers. -/
def vx (l : List (Nat × Nat)) (y : Ctx := {}) : Ctx := l.foldl (fun y p => y.setV p.1 ⟨BitVec.ofNat 512 p.2, 0⟩) y
/-- Ready, and no loop active. -/
def rdy (r : Row) (s : State) : Bool := readyB r s && loopless s
/-- The s register of context 0 after an instruction. -/
def sv (c : Instr) (s : State) (i : Nat) : Nat := ((after c s).sReg i).v.toNat
/-- Its v register. -/
def vv (c : Instr) (s : State) (i : Nat) : Nat := ((after c s).vReg i).v.toNat
/-- The code of the cell's latest fault. -/
def flt (c : Instr) (s : State) : Nat := (((run c s).cell 0).faults.getLast?.map (·.code)).getD 0

/-- `s3 ← s1 + s2` wraps (R92). -/
def s_salu : State := ins [wd 1 0 3 1 2] (sx [(1, 0xFFFFFFFF), (2, 3)])
theorem test_salu : (rdy .salu s_salu && sv (.salu x0) s_salu 3 == 2 && (after (.salu x0) s_salu).pc == 1) = true := by decide +kernel
/-- SUB64 borrows through the pair (R92). -/
def s_sub64 : State := ins [wd 1 0x11 4 6 8] (sx [(6, 0), (7, 1), (8, 1)])
theorem test_salu_sub64 : (rdy .salu s_sub64 && sv (.salu x0) s_sub64 4 == 0xFFFFFFFF && sv (.salu x0) s_sub64 5 == 0) = true := by
  decide +kernel
/-- The immediate is signed: 5 + (−1) (R92). -/
def s_salui : State := ins [wd 2 0 3 1 0 0x7FF] (sx [(1, 5)])
theorem test_salui : (rdy .salui s_salui && sv (.salui x0) s_salui 3 == 4) = true := by decide +kernel
/-- LUI writes the high half (R93). -/
def s_lui : State := ins [3 * 2 ^ 26 + 3 * 2 ^ 16 + 0xABCD] (sx [(3, 0x1234)])
theorem test_lui : (rdy .lui s_lui && sv (.lui x0) s_lui 3 == 0xABCD0000) = true := by decide +kernel
/-- DIV by zero, DIV of −2^31 by −1, REM by zero (R94). -/
def s_smul (m a b : Nat) : State := ins [wd 4 m 3 1 2] (sx [(1, a), (2, b)])
theorem test_smul : (rdy .smul (s_smul 3 7 0) && sv (.smul x0) (s_smul 3 7 0) 3 == 0xFFFFFFFF &&
    sv (.smul x0) (s_smul 3 0x80000000 0xFFFFFFFF) 3 == 0x80000000 && sv (.smul x0) (s_smul 5 7 0) 3 == 7 &&
    sv (.smul x0) (s_smul 1 0xFFFFFFFF 2) 3 == 0xFFFFFFFF && sv (.smul x0) (s_smul 5 0xFFFFFFF9 2) 3 == 0xFFFFFFFF) = true := by
  decide +kernel
/-- BLT with −1 < 1 goes back by one, modulo 1,024; BEQ of unequal registers goes on (R95). -/
def s_br (m : Nat) : State := ins [wd 5 m 1 2 0 0x7FF] (sx [(1, 0xFFFFFFFF), (2, 1)])
theorem test_br : (rdy .br (s_br 2) && (after (.br x0) (s_br 2)).pc == 1023 && rdy .br (s_br 0) && (after (.br x0) (s_br 0)).pc == 1) = true := by
  decide +kernel
/-- A poisoned condition faults with 0x09 (R91); BNONE of an empty predicate is taken (R95). -/
def s_brp : State := ins [wd 5 0 1 2 0 5] { s := [(2, ⟨0, true⟩)] }
def s_bnone : State := ins [wd 5 9 2 0 0 5]
theorem test_br_clauses : (readyB .br s_brp && flt (.br x0) s_brp == 9 && rdy .br s_bnone && (after (.br x0) s_bnone).pc == 5) = true := by
  decide +kernel
/-- J, JAL and JR (R96). -/
def s_j : State := ins [wd 6 0 0 0 0 + 0xFFFF]
def s_jal : State := ins [wd 6 1 9 0 0 + 4]
def s_jr : State := ins [wd 6 2 0 1 0] (sx [(1, 0xFFFFFC07)])
theorem test_jumps : (rdy .j s_j && (after (.j x0) s_j).pc == 1023 && rdy .jal s_jal && (after (.jal x0) s_jal).pc == 4 &&
    sv (.jal x0) s_jal 9 == 1 && rdy .jr s_jr && (after (.jr x0) s_jr).pc == 7) = true := by decide +kernel
def s_jrp : State := ins [wd 6 2 0 1 0] { s := [(1, ⟨0, true⟩)] }
theorem test_jr_poison : (readyB .jr s_jrp && flt (.jr x0) s_jrp == 9) = true := by decide +kernel

/-- LOOP n = 1 with the immediate count 3 and LEN 1, and with the count 0 (R97). -/
def s_loop (k : Nat) : State := ins [7 * 2 ^ 26 + 1 * 2 ^ 19 + 2 ^ 18 + k * 2 ^ 10 + 1, wd 0x30 0 0 0 0]
theorem test_loop : (rdy .loop (s_loop 3) && ((after (.loop x0) (s_loop 3)).lReg 1).toNat == 3 && (after (.loop x0) (s_loop 3)).pc == 1 &&
    ((run (.loop x0) (s_loop 3)).cell 0).rd ((loopEnd 1).ctx 0) == 1 && (after (.loop x0) (s_loop 0)).pc == 2) = true := by decide +kernel
/-- The word at END returns to START while the count stays positive, and then goes on (R97). -/
def s_body (k : Nat) : State := { run (.loop x0) (s_loop k) with pending := [] }
theorem test_loop_return : (readyB .nop (s_body 2) && (after (.nop x0) (s_body 2)).pc == 1 && ((after (.nop x0) (s_body 2)).lReg 1).toNat == 1 &&
    (after (.nop x0) (s_body 1)).pc == 2 && ((after (.nop x0) (s_body 1)).lReg 1).toNat == 0) = true := by decide +kernel
/-- The hypotheses of the loop return hold of that cell. -/
theorem test_loop_return_hypotheses : let c := (s_body 2).cell 0
    (∀ m < 4, 1 < m → (c.ctx 0).lReg m = 0 ∨ c.rd ((loopEnd m).ctx 0) ≠ ((c.ctx 0).pc + BitVec.ofNat 10 0).toNat) ∧
      (c.ctx 0).lReg 1 ≠ 0 ∧ c.rd ((loopEnd 1).ctx 0) = ((c.ctx 0).pc + BitVec.ofNat 10 0).toNat := by decide +kernel

/-- 1.5 + 2.25 = 3.75 in FP32, and a code that is not scalar (R98). -/
def s_sfp (f : Nat) : State := ins [wd 8 0 3 1 2 f] (sx [(1, 0x3FC00000), (2, 0x40100000)])
theorem test_sfp : (rdy .sfp (s_sfp 0xD) && sv (.sfp x0) (s_sfp 0xD) 3 == 0x40700000 && rdy .sfp (s_sfp 0xE) &&
    flt (.sfp x0) (s_sfp 0xE) == 2) = true := by decide +kernel
/-- 1.0 / 0.0 is infinite and sets DIVZERO; FLT of 1.0 and 2.0 in FP64 (R98, R31). -/
def s_dfp (m : Nat) : State := ins [wd 9 m 4 6 8 0xE] (sx [(7, 0x3FF00000), (9, if m = 9 then 0x40000000 else 0)])
theorem test_dfp : (rdy .dfp (s_dfp 6) && sv (.dfp x0) (s_dfp 6) 5 == 0x7FF00000 && rdy .dfp (s_dfp 9) && sv (.dfp x0) (s_dfp 9) 4 == 1 &&
    flt (.dfp x0) (ins [wd 9 0 4 6 8 0xD]) == 2) = true := by decide +kernel
/-- INT32 −3 to FP32 (R99). -/
def s_cvt : State := ins [wd 10 0 3 1 0 (4 * 2 ^ 7 + 0xD * 2 ^ 3)] (sx [(1, 0xFFFFFFFD)])
theorem test_cvt : (rdy .cvt s_cvt && sv (.cvt x0) s_cvt 3 == 0xC0400000) = true := by decide +kernel
/-- The example of R99: 101.3725 at O = −16 becomes 6,643,548. -/
def s_cvtx : State := ins [wd 11 0 6 4 0 (0xE * 2 ^ 7 + 5 * 2 ^ 3), 0xF0] (sx [(4, 0x0A3D70A4), (5, 0x405957D7)])
theorem test_cvtx : (rdy .cvtx s_cvtx && (after (.cvtx x0) s_cvtx).pair 6 == 6643548 && (after (.cvtx x0) s_cvtx).pc == 2) = true := by
  decide +kernel

/-- Scratchpad memory from words at an address. -/
def words (a : Nat) (l : List Nat) : Memory := (l.zipIdx.foldl (fun m p => memWrite m (a + 4 * p.2) 4 p.1) [])
/-- A cell with every address bank SHARED (R187). -/
def own : Cell := ck {} [(SPD_OWN_STATE, 4 * ((8 ^ 16 - 1) / 7))]
/-- With scratchpad words at address 64. -/
def sp (l : List Nat) : Cell := { own with spd := words 64 l }

/-- LD of a signed byte at a1 + 1 (R100), and of a pair at the end of the scratchpad. -/
def s_ld : State := ins [wd 0x10 4 3 0 0 + 1 * 2 ^ 13 + 1] (ax [(1, 64)]) (sp [0x8000])
def s_ld8 : State := ins [wd 0x10 3 4 0 0 + 1 * 2 ^ 13] (ax [(1, 196608 - 8)]) { own with spd := words 196600 [5, 6] }
theorem test_ld : (rdy .ld s_ld && sv (.ld x0) s_ld 3 == 0xFFFFFF80 && rdy .ld s_ld8 && sv (.ld x0) s_ld8 5 == 6) = true := by decide +kernel
/-- A poisoned address faults; an address past the end or not aligned faults (R91, R177). -/
def s_ldp : State := ins [wd 0x10 2 3 0 0 + 1 * 2 ^ 13] { a := [(1, ⟨64, true⟩)] }
theorem test_ld_faults : (readyB .ld s_ldp && flt (.ld x0) s_ldp == 9 &&
    flt (.ld x0) (ins [wd 0x10 2 3 0 0 + 1 * 2 ^ 13] (ax [(1, 196608)]) own) == 0x40 &&
    flt (.ld x0) (ins [wd 0x10 2 3 0 0 + 1 * 2 ^ 13] (ax [(1, 66)]) own) == 0x41 &&
    flt (.ld x0) (ins [wd 0x10 2 3 0 0 + 1 * 2 ^ 13] (ax [(1, 64)])) == 0x42) = true := by decide +kernel
/-- ST of a half word leaves the other half (R100). -/
def s_st : State := ins [wd 0x11 1 3 0 0 + 1 * 2 ^ 13] (ax [(1, 66)] (sx [(3, 0xAAAABBBB)])) (sp [0x11112222])
theorem test_st : (rdy .st s_st && memRead ((run (.st x0) s_st).cell 0).spd 64 4 == 0xBBBB2222) = true := by decide +kernel
/-- VMEM moves a line (R101). -/
def s_vml : State := ins [wd 0x12 0 0 0 0 + 2 * 2 ^ 16 + 1 * 2 ^ 13] (ax [(1, 64)]) (sp [7, 8])
def s_vms : State := ins [wd 0x12 16 0 0 0 + 2 * 2 ^ 16 + 1 * 2 ^ 13 + 1] (ax [(1, 64)] (vx [(2, 9)])) own
theorem test_vmem : (rdy .vmemLoad s_vml && ((after (.vmemLoad x0) s_vml).vReg 2).elem 32 1 == 8 && rdy .vmemStore s_vms &&
    memRead ((run (.vmemStore x0) s_vms).cell 0).spd 128 4 == 9) = true := by decide +kernel
/-- TILE moves two lines a pitch of two lines apart (R102). -/
def s_til : State := ins [wd 0x13 0 0 0 0 + 2 * 2 ^ 17 + 1 * 2 ^ 14 + 1 * 2 ^ 10 + 2] (ax [(1, 64)]) { own with spd := words 64 [7] ++ words 192 [8] }
def s_tis : State := ins [wd 0x13 16 0 0 0 + 2 * 2 ^ 17 + 1 * 2 ^ 14 + 1 * 2 ^ 10 + 2] (ax [(1, 64)] (vx [(2, 9), (3, 10)])) own
theorem test_tile : (rdy .tileLoad s_til && ((after (.tileLoad x0) s_til).vReg 2).elem 32 0 == 7 &&
    ((after (.tileLoad x0) s_til).vReg 3).elem 32 0 == 8 && rdy .tileStore s_tis &&
    memRead ((run (.tileStore x0) s_tis).cell 0).spd 192 4 == 10) = true := by decide +kernel
/-- The views that VECTOR accesses check. -/
theorem test_vmem_hypotheses : (let c := s_vml.cell 0
    c.spdCheck 1 (wordAligned (s_vml.wordOf x0) 64) ((wordView (s_vml.wordOf x0) 64).map (·.1)) == none &&
      (wordView (s_vml.wordOf x0) 64).all (fun e => fget ecc0 c.spdEcc (e.1 / 4) == .ok)) = true := by decide +kernel
/-- Atomics return the old word; the 64-bit add carries into its high word (R103). -/
def s_aadd : State := ins [wd 0x14 1 4 6 0 + 1 * 2 ^ 8] (ax [(1, 64)] (sx [(6, 1)])) (sp [0xFFFFFFFF, 2])
def s_aswap : State := ins [wd 0x14 2 4 6 0 + 1 * 2 ^ 8] (ax [(1, 64)] (sx [(6, 1)])) (sp [0xFFFFFFFF, 2])
theorem test_atomics : (rdy .aadd s_aadd && (after (.aadd x0) s_aadd).pair 4 == 0x2FFFFFFFF &&
    memRead ((run (.aadd x0) s_aadd).cell 0).spd 64 8 == 0x300000000 && rdy .aswap s_aswap && sv (.aswap x0) s_aswap 4 == 0xFFFFFFFF &&
    memRead ((run (.aswap x0) s_aswap).cell 0).spd 64 4 == 1) = true := by decide +kernel
/-- A ring of two slots of one line at line 1: SLOT put fills slot 0, and SLOT take then empties it; a take of an empty
slot blocks (R104, R191). -/
def ring0c : Cell := ck own [(SPD_RING_CFG_BASE.ring 0, 1), (SPD_RING_CFG_SLOT_LINES.ring 0, 1), (SPD_RING_CFG_COUNT.ring 0, 2), (SPD_RING_CFG_ENABLE.ring 0, 1)]
def s_put : State := ins [wd 0x15 16 4 0 0, wd 0x15 0 6 0 0] (sx [(4, 0x55), (5, 0x66)]) ring0c
def s_take : State := run (.slotPut x0) s_put
def s_wait : State := ins [wd 0x15 0 6 0 0] {} ring0c
theorem test_slots : (rdy .slotPut s_put && rdy .slotTake s_take && sv (.slotTake x0) s_take 6 == 0x55 && sv (.slotTake x0) s_take 7 == 0x66 &&
    ((run (.slotPut x0) s_put).cell 0).rd (SPD_RING_ST_PUT.ring 0) == 1 && ((run (.slotTake x0) s_take).cell 0).rd (SPD_RING_ST_TAKE.ring 0) == 1 &&
    rdy .slotTake s_wait && (after (.slotTake x0) s_wait).state == .blocked) = true := by decide +kernel

/-- A V-format word: vd, va, vb, p, format, predicate mode (R85). -/
def vw (mj mn d a b p f pm : Nat) : Nat :=
  mj * 2 ^ 26 + mn * 2 ^ 21 + d * 2 ^ 17 + a * 2 ^ 13 + b * 2 ^ 9 + p * 2 ^ 6 + f * 2 ^ 2 + pm
/-- Two operands of 32-bit elements. -/
def v2 : Ctx := vx [(1, 0x3F80000000000005), (2, 0x4000000000000003), (3, 0xFFFFFFFF00000009)] { p := [(1, ⟨0xF, false⟩)] }
/-- VALU ADD in INT32, and with the predicate that names element 0 only, keeping the other (R105, R106). -/
def s_valu (pm : Nat) : State := ins [vw 0x18 0 3 1 2 pm 4 pm] v2
theorem test_valu : (rdy .valu (s_valu 0) && vv (.valu x0) (s_valu 0) 3 == 0x7F80000000000008 && rdy .valu (s_valu 1) &&
    vv (.valu x0) (s_valu 1) 3 == 0xFFFFFFFF00000008 && flt (.valu x0) (ins [vw 0x18 0 3 1 2 0 13 0]) == 2) = true := by decide +kernel
/-- VFP ADD in FP32: 1.0 + 2.0 in element 1 (R106). -/
def s_vfp : State := ins [vw 0x19 0 3 1 2 0 13 0] v2
theorem test_vfp : (rdy .vfp s_vfp && ((after (.vfp x0) s_vfp).vReg 3).elem 32 1 == 0x40400000) = true := by decide +kernel
/-- VCMP EQ of INT32 elements: every element but 0 and 1 is equal (R107). -/
def s_vcmp : State := ins [vw 0x1A 0 3 1 2 0 4 0] v2
theorem test_vcmp : (rdy .vcmp s_vcmp && ((after (.vcmp x0) s_vcmp).pReg 3).v == BitVec.ofNat 64 (2 ^ 64 - 2 ^ 8)) = true := by decide +kernel
def s_vsel : State := ins [vw 0x1A 16 3 1 2 1 4 0] v2
theorem test_vsel : (rdy .vsel s_vsel && vv (.vsel x0) s_vsel 3 == 0x4000000000000005) = true := by decide +kernel
/-- PERM, BCAST, EXTRACT, SLIDE (R108). -/
def s_perm : State := ins [vw 0x1B 0 3 1 4 0 4 0] { v2 with vr := v2.vr ++ [(4, ⟨1, 0⟩)] }
def s_bcast : State := ins [0x1B * 2 ^ 26 + 2 ^ 21 + 3 * 2 ^ 17 + 5 * 2 ^ 12 + 4 * 2 ^ 2] (sx [(5, 0x77)])
def s_extract : State := ins [0x1B * 2 ^ 26 + 2 * 2 ^ 21 + 5 * 2 ^ 16 + 1 * 2 ^ 12 + 1 * 2 ^ 6 + 4 * 2 ^ 2] v2
def s_slide : State := ins [vw 0x1B 3 3 1 1 0 4 0] v2
theorem test_perm : (rdy .perm s_perm && ((after (.perm x0) s_perm).vReg 3).elem 32 0 == 0x3F800000 && ((after (.perm x0) s_perm).vReg 3).elem 32 5 == 5) = true := by
  decide +kernel
theorem test_bcast : (rdy .bcast s_bcast && ((after (.bcast x0) s_bcast).vReg 3).elem 32 15 == 0x77) = true := by decide +kernel
theorem test_extract : (rdy .extract s_extract && sv (.extract x0) s_extract 5 == 0x3F800000) = true := by decide +kernel
theorem test_slide : (rdy .slide s_slide && vv (.slide x0) s_slide 3 == 0x3F800000) = true := by decide +kernel
/-- LXADD, LXSHR, LXOUT to FP32 and LXSUM at window 0 (R109): s4 holds W, s5 the flags and the shift. -/
def lxs (mn f : Nat) : State := ins [vw 0x1C mn 3 1 2 0 f 0] (sx [(5, 2 * 2 ^ 8)] (vx [(1, 6), (3, 10)]))
theorem test_lxadd : (rdy .lxadd (lxs 1 15) && vv (.lxadd x0) (lxs 1 15) 3 == 16) = true := by decide +kernel
theorem test_lxshr : (rdy .lxshr (lxs 3 15) && vv (.lxshr x0) (lxs 3 15) 3 == 2) = true := by decide +kernel
theorem test_lxout : (rdy .lxout (lxs 2 13) && vv (.lxout x0) (lxs 2 13) 3 == 0x40C00000) = true := by decide +kernel
def s_lxsum : State := ins [vw 0x1C 0 3 1 2 0 4 0] (vx [(1, 0x100000006), (3, 10)])
theorem test_lxsum : (rdy .lxsum s_lxsum && vv (.lxsum x0) s_lxsum 3 == 17) = true := by decide +kernel
/-- VCVT INT32 to FP32, and to the MX form of FP8 E4M3 from FP16 (R110, R40). -/
def s_vcvt : State := ins [0x1D * 2 ^ 26 + 3 * 2 ^ 17 + 1 * 2 ^ 13 + 4 * 2 ^ 9 + 13 * 2 ^ 5] v2
def s_vcvtmx : State := ins [0x1D * 2 ^ 26 + 3 * 2 ^ 17 + 1 * 2 ^ 13 + 11 * 2 ^ 9 + 9 * 2 ^ 5 + 2 ^ 3] (vx [(1, 0x3C00)])
theorem test_vcvt : (rdy .vcvt s_vcvt && ((after (.vcvt x0) s_vcvt).vReg 3).elem 32 0 == 0x40A00000 && rdy .vcvt s_vcvtmx &&
    vcvtFmt 11 && mxOk 9 true && vcvtFmt 9 && vv (.vcvt x0) s_vcvtmx 3 / 2 ^ 504 == 119) = true := by decide +kernel
/-- PRED POPC and FFS of 0xF0 (R111). -/
def s_pred (mn d b i : Nat) : State := ins [0x1E * 2 ^ 26 + mn * 2 ^ 21 + d * 2 ^ 18 + 1 * 2 ^ 15 + b * 2 ^ 12 + i * 2 ^ 7]
  { p := [(1, ⟨0xF0, false⟩), (2, ⟨0x30, false⟩)] }
theorem test_pred : (rdy .pred (s_pred 9 0 0 6) && sv (.pred x0) (s_pred 9 0 0 6) 6 == 4 && sv (.pred x0) (s_pred 10 0 0 6) 6 == 4 &&
    ((after (.pred x0) (s_pred 3 3 2 0)).pReg 3).v == 0xC0) = true := by
  decide +kernel

/-- A receive of port 0 into s8:s9 with tag and mask in s10 (R112): a matching entry, an entry of another tag before it, none. -/
def w_recv (port : Nat) : Nat := wd 0x20 0 0 0 0 + port * 2 ^ 15 + 8 * 2 ^ 10 + 10 * 2 ^ 5
def entry1 (tag b : Nat) : RecvEntry := ⟨[BitVec.ofNat 8 b], 1, 0, tag, 0x123, false⟩
def s_recv (l : List RecvEntry) : State := ins [w_recv 0] (sx [(10, 0xFFF * 65536 + 5)]) { recvReq := l }
theorem test_recv : (rdy .recv (s_recv [entry1 4 1, entry1 5 2]) && sv (.recv x0) (s_recv [entry1 4 1, entry1 5 2]) 8 == 2 &&
    sv (.recv x0) (s_recv [entry1 4 1, entry1 5 2]) 10 == 0x123 * 4096 + 5 && sv (.recv x0) (s_recv [entry1 4 1, entry1 5 2]) 11 == 1 &&
    decide (((run (.recv x0) (s_recv [entry1 4 1, entry1 5 2])).cell 0).recvReq = [entry1 4 1]) &&
    readyB .recv (s_recv [entry1 4 1]) && (after (.recv x0) (s_recv [entry1 4 1])).state == .blocked) = true := by decide +kernel
/-- A vector receive of an Armature port that is empty faults, and of one with a word takes it (R62, R112). -/
def s_recvp (l : List AWord) : State := ins [wd 0x20 16 0 0 0 + 0x10 * 2 ^ 15 + 3 * 2 ^ 10 + 10 * 2 ^ 5] {} { ports := [(0x10, l)] }
theorem test_recv_ports : (rdy .recv (s_recvp [⟨9, false⟩]) && vv (.recv x0) (s_recvp [⟨9, false⟩]) 3 == 9 &&
    sv (.recv x0) (s_recvp [⟨9, false⟩]) 11 == 64 && flt (.recv x0) (ins [wd 0x20 16 0 0 0 + 0x10 * 2 ^ 15 + 3 * 2 ^ 10 + 10 * 2 ^ 5]) == 5 &&
    rdy .recv (ins [w_recv 0x30] (sx [(10, 0)]) { recvRsp := [{ entry1 4 1 with port := 0x30 }] })) = true := by decide +kernel

/-- SEND of 4 bytes of s12 to cell 1 (R113). -/
def w_send (kind : Nat) : Nat := 0x21 * 2 ^ 26 + kind * 2 ^ 24 + 6 * 2 ^ 16 + 12 * 2 ^ 11 + 4 * 2 ^ 4
def s_send (kind : Nat) (c : Cell := {}) : State := ins [w_send kind] (sx [(6, if kind = 2 then 1 * 4096 + 0x405 else 1), (7, 9), (12, 0xDDCCBBAA)]) c
/-- The last message of the injection queue. -/
def lastMsg (c : Instr) (s : State) : Msg := (((run c s).cell 0).inj.getLast?).getD {}
theorem test_send_posted : (rdy .sendPosted (s_send 0) && decide ((lastMsg (.sendPosted x0) (s_send 0)).payload.take 2 = [0xAA, 0xBB]) &&
    (lastMsg (.sendPosted x0) (s_send 0)).tag == 9 && (lastMsg (.sendPosted x0) (s_send 0)).dest == 1 &&
    rdy .sendPosted (s_send 0 { inj := List.replicate 4 {} }) && ((s_send 0 { inj := List.replicate 4 {} }).cell 0).injFull &&
    (after (.sendPosted x0) (s_send 0 { inj := List.replicate 4 {} })).pc == 0) = true := by decide +kernel
def tags8 : List TagRec := (List.range 8).map (fun i => ⟨i, 0, .send, 0, 0, 0, 0, 0, 0⟩)
theorem test_send_request : (rdy .sendRequest (s_send 1) && (lastMsg (.sendRequest x0) (s_send 1)).kind == .request &&
    ((run (.sendRequest x0) (s_send 1)).cell 0).tags.length == 1 && rdy .sendRequest (s_send 1 { tags := tags8 }) &&
    ((s_send 1 { tags := tags8 }).cell 0).tagsFull 0 && (after (.sendRequest x0) (s_send 1 { tags := tags8 })).state == .blocked) = true := by
  decide +kernel
theorem test_send_response : (rdy .sendResponse (s_send 2) && (lastMsg (.sendResponse x0) (s_send 2)).port == 0x30 &&
    (lastMsg (.sendResponse x0) (s_send 2)).tag == 0x405 && (lastMsg (.sendResponse x0) (s_send 2)).dest == 1) = true := by decide +kernel
/-- The worked word of the sync example: ACQUIRE with s3, s4, s6 is 0x90C3_2180; object 0xB85 (R116, R261). -/
def s_sync : State := ins [0x90C32180] (sx [(3, 0xB85), (4, 7)])
theorem test_sync : (rdy .sync s_sync && decide ((lastMsg (.sync x0) s_sync).info = [6, 0xB85]) && (after (.sync x0) s_sync).state == .blocked &&
    (after (.sync x0) s_sync).wait == .sync && (lastMsg (.sync x0) s_sync).dest == hubId 7 1) = true := by decide +kernel
/-- A ninth ACQUIRE (R261). -/
def s_sync9 : State := { s_sync with cells := [(0, { s_sync.cell 0 with locks := (List.range 8).map (fun i => ⟨0, i, 0⟩) })] }
theorem test_sync_ninth : (rdy .sync s_sync9 && ((s_sync9.cell 0).locks.filter (fun h => h.ctx == 0)).length == 8) = true := by decide +kernel
def s_rif : State := ins [0x25 * 2 ^ 26 + 1 * 2 ^ 21 + 3 * 2 ^ 17 + 2 * 2 ^ 14 + 5 * 2 ^ 9] (ax [(2, 0x80)])
theorem test_rif : (rdy .rif s_rif && decide ((lastMsg (.rif x0) s_rif).info = [0x80, 4]) && (lastMsg (.rif x0) s_rif).port == 1 &&
    sv (.rif x0) s_rif 5 == (lastMsg (.rif x0) s_rif).tag) = true := by decide +kernel
def s_dma (resp : Nat) : State := ins [0x26 * 2 ^ 26 + resp * 2 ^ 25 + 3 * 2 ^ 21 + 1 * 2 ^ 18 + (5 * resp) * 2 ^ 13] (ax [(1, 64)]) (sp [0x44332211])
theorem test_dma : (rdy .dma (s_dma 0) && (lastMsg (.dma x0) (s_dma 0)).kind == .posted && (lastMsg (.dma x0) (s_dma 0)).port == 3 &&
    decide ((lastMsg (.dma x0) (s_dma 0)).payload.take 2 = [0x11, 0x22]) && rdy .dma (s_dma 1) &&
    ((run (.dma x0) (s_dma 1)).cell 0).tags.length == 1 &&
    ((s_dma 1).cell 0).spdCheck 1 true ((viewMap false 0 64).map (·.1)) == none) = true := by decide +kernel

/-- TMAC in WS mode: one row, INT8, KLEN 1: 3 at A and 5 for every lane of B in line 0 (R119, R121). -/
def w_tmac : List Nat := [0x28 * 2 ^ 26 + 2 ^ 24 + 1 * 2 ^ 17 + 1 * 2 ^ 13 + 1 * 2 ^ 8 + 2 * 2 ^ 5, 1 * 2 ^ 20 + 4 * 2 ^ 7 + 5 * 2 ^ 2]
def s_tmac : State := ins w_tmac (ax [(1, 64), (2, 4096)]) { own with spd := words 64 [3] ++ words 4096 (List.replicate 64 5) }
theorem test_tmac : (rdy .tmac s_tmac && (tmacCheck (s_tmac.env 0) 0 (s_tmac.wordOf x0) (s_tmac.extOf x0) ((s_tmac.cell 0).take 0)).isNone &&
    !(s_tmac.cell 0).flag CELL_SLAB_CFG_ENABLE && !(s_tmac.cell 0).flag CELL_MAC_STATUS_INTERRUPTED && !(s_tmac.cell 0).macHeld &&
    ((run (.tmac x0) s_tmac).cell 0).flag CELL_MAC_STATUS_BUSY && (after (.tmac x0) s_tmac).pc == 2) = true := by decide +kernel
/-- Its completion: 3 * 5 in entry 0 of row 0 (R119); the hypotheses of the statement hold of that state. -/
def s_mac : State := run (.tmac x0) s_tmac
theorem test_mac_complete : (let c := s_mac.cell 0
    match c.macOp with
    | none => false
    | some op =>
      let tau := op.arrayEnd (soloSlab 0)
      let d0 := (c.claim none (fun r => r.origin == 0 && decide (r.off ≤ tau))).consume op 0 tau
      let A := readA op 0 0 d0
      let B := readB op 0 0 d0
      !c.flag CELL_CTRL_FREEZE && !c.arbWait && c.drain.isEmpty && !op.ended && !op.left && op.iter == 0 && tmBatch op.ext == 1 &&
        !tmDrain op.w && !d0.macStuck op 0 && (opFail A (tmNb op.ext) (tmRows op.w) (fun j m _ => idxA (idxBase op.w (tmNb op.ext)) (tmRows op.w) j m)).isNone
        && (opFail B (tmNb op.ext) 16 (idxOfB op.w (tmNb op.ext))).isNone) = true := by decide +kernel
theorem test_mac_complete_result : (let d := (run (.macOpComplete 0) s_mac).cell 0
    d.macOp.isNone && !d.flag CELL_MAC_STATUS_BUSY && (d.entry 0 0).n == 15 && still (.macOpComplete 0) up) = true := by decide +kernel
/-- The words of the example of R123 are a TMAC of that row with its fields. -/
theorem test_tmac_words : (rowOf 0xA193215E 0x0C803214 == some .tmac && tmStart 0xA193215E && tmDrain 0xA193215E && !tmOs 0xA193215E &&
    tmFa 0xA193215E == 9 && tmFb 0xA193215E == 9 && tmRows 0xA193215E == 16 && tmBatch 0x0C803214 == 4) = true := by decide +kernel
def s_mwait (busy : Nat) : State := ins [0x29 * 2 ^ 26] {} (ck {} [(CELL_MAC_STATUS_BUSY, busy)])
theorem test_mwait : (rdy .mwait (s_mwait 0) && (after (.mwait x0) (s_mwait 0)).pc == 1 && (after (.mwait x0) (s_mwait 1)).state == .blocked) = true := by
  decide +kernel
def s_pcfg (busy : Nat) : State := ins [0x2A * 2 ^ 26 + 1 * 2 ^ 21 + 3 * 2 ^ 15] (sx [(3, 0x3F800000)]) (ck {} [(CELL_MAC_STATUS_BUSY, busy)])
theorem test_pcfg : (rdy .pcfg (s_pcfg 0) && (after (.pcfg x0) (s_pcfg 0)).pc == 1 &&
    decide (((run (.pcfg x0) (s_pcfg 0)).cell 0).regs ≠ ((s_pcfg 0).cell 0).regs) && (after (.pcfg x0) (s_pcfg 1)).state == .blocked) = true := by
  decide +kernel
/-- The control instructions (R125). -/
def s_ctl (m rd : Nat) (y : Ctx := {}) (c : Cell := {}) : State := { ins [wd 0x30 m rd 0 0] y c with cycle := 5 }
theorem test_control : (rdy .nop (s_ctl 0 0) && (after (.nop x0) (s_ctl 0 0)).pc == 1 && rdy .halt (s_ctl 1 0) &&
    (after (.halt x0) (s_ctl 1 0)).state == .halted && rdy .yield (s_ctl 2 0) && (after (.yield x0) (s_ctl 2 0)).yielded == 2 &&
    rdy .fence (s_ctl 3 0) && (after (.fence x0) (s_ctl 3 0)).pc == 1 && rdy .waitf (s_ctl 5 0) &&
    (after (.waitf x0) (s_ctl 5 0)).state == .blocked && rdy .rdtick (s_ctl 6 4) && rdy .brk (s_ctl 8 0) &&
    (after (.brk x0) (s_ctl 8 0)).stepDone) = true := by decide +kernel
theorem test_control_waits : (rdy .waitt (s_ctl 4 4) && (after (.waitt x0) (s_ctl 4 4)).state == .running &&
    rdy .waitt (s_ctl 4 4 (sx [(5, 1)])) && (after (.waitt x0) (s_ctl 4 4 (sx [(5, 1)]))).state == .blocked &&
    rdy .fence (s_ctl 3 0 {} { inj := [{}] }) && (after (.fence x0) (s_ctl 3 0 {} { inj := [{}] })).pc == 0 &&
    rdy .rdctx (s_ctl 7 4) && (s_ctl 7 4).logical 0 == some 0 && sv (.rdctx x0) (s_ctl 7 4) 4 == 0) = true := by decide +kernel
/-- RSIG and RASPEND fault in context 0 (R126). -/
theorem test_privileged_refused : (rdy .rsig (ins [wd 0x31 0 3 0 0]) && flt (.rsig x0) (ins [wd 0x31 0 3 0 0]) == 0xA &&
    rdy .raspend (ins [wd 0x31 1 0 0 0]) && flt (.raspend x0) (ins [wd 0x31 1 0 0 0]) == 0xA) = true := by decide +kernel
/-- Context 3 with RESTORER, outside a pass: RSIG folds, RASPEND only goes on. -/
def x3 : CtxRef := ⟨0, 3⟩
def s_priv (m rd : Nat) : State :=
  cl up { regs := (ck {} [(CTX_CONFIG_RESTORER.ctx 3, 1)]).regs, ctxs := [(3, { sx [(3, 0x1234)] with state := .ready })]
          istore := [(3072, BitVec.ofNat 32 (wd 0x31 m rd 0 0))] }
theorem test_privileged : ((s_priv 0 3).powered 0 && (s_priv 0 3).mayIssue 0 3 && rowOf ((s_priv 0 3).wordOf x3) 0 == some .rsig &&
    ((s_priv 0 3).cell 0).privOk 3 && ((run (.rsig x3) (s_priv 0 3)).court 0).rd RES_RASP_SIG_SIG == 0x1234 &&
    ((run (.raspend x3) (s_priv 1 0)).ctxOf x3).pc == 1) = true := by decide +kernel
/-- In a pass context 3 fetches from the rasp store, whose words the part's image fixes: where word 0 is RASPEND, the
hypotheses of the statement hold of this state. -/
def s_pass : State :=
  cl up { regs := (ck {} [(CTX_CONFIG_RESTORER.ctx 3, 1)]).regs, rasp := true, raspSteps := 1, ctxs := [(3, { state := .ready })] }
theorem test_raspend_pass (h : Config.raspWord 0 = 0xC4200000) : Ready .raspend x3 s_pass := by
  have hw : (s_pass.cell 0).word0 3 = 0xC4200000 := by
    show (Config.raspWord 0).toNat = _; rw [h]; rfl
  refine ⟨by decide, by decide, by decide +kernel, by decide +kernel, ?_, ?_, rfl, rfl⟩
  · intro a _; rfl
  · show rowOf ((s_pass.cell 0).word0 3) _ = _
    rw [hw]; rfl

/-! ### Cell commands -/

/-- The cell of the state is live. -/
theorem live_up : Live 0 up := by unfold Live; decide +kernel
/-- A context in a state. -/
def cx (y : Ctx) (c : Cell := {}) : State := cl up { c with ctxs := [(0, y)] }
/-- The state of context 0 after a command. -/
def stOf (c : Instr) (s : State) : CtxState := (after c s).state
/-- The cell after a command. -/
def cell' (c : Instr) (s : State) : Cell := (run c s).cell 0

/-- START, HALT, RESET, PROG_VALID (R66, R69, R70). -/
theorem test_ctx_start_halt : (stOf (.ctxStart x0) (cx { state := .halted }) == .ready && still (.ctxStart x0) (cx { state := .ready }) &&
    stOf (.ctxHalt x0) (cx { state := .running }) == .halted && still (.ctxHalt x0) (cx { state := .faulted }) &&
    stOf (.ctxHalt x0) (cx { state := .blocked, wait := .recv }) == .halted &&
    decide ((cell' (.ctxHalt x0) (cx { state := .blocked, wait := .sync, waitTag := 7 } { tags := [⟨7, 0, .sync, 0, 0, 0, 0, 0, 0⟩] })).quar = [7])) = true := by
  decide +kernel
def s_rst : State := cx { pc := 7, state := .faulted } (ck { locks := [⟨0, 5, 0⟩, ⟨1, 6, 0⟩] } [(CTX_CONFIG_PROG_VALID.ctx 0, 1), (CTX_PC_ENTRY.ctx 0, 0x30)])
theorem test_ctx_reset : (stOf (.ctxReset x0) s_rst == .resetting && (((cell' (.ctxReset x0) s_rst).ctxCycle 9 0).ctx 0).state == .halted &&
    (((cell' (.ctxReset x0) s_rst).ctxCycle 8 0).ctx 0).state == .resetting && still (.ctxReset x0) (cx { state := .resetting }) && (after (.ctxReset x0) s_rst).pc == 0x30 &&
    decide ((cell' (.ctxReset x0) s_rst).locks = [⟨1, 6, 0⟩]) && s_rst.resets.all (fun r => !(r.level == 1 && r.unit == 0))) = true := by decide +kernel
theorem test_prog_valid : (stOf (.progValidWrite x0 true) (cx {}) == .halted && stOf (.progValidWrite x0 false) (cx { state := .halted }) == .off &&
    still (.progValidWrite x0 false) (cx { state := .running })) = true := by decide +kernel
/-- STEP issues one instruction, a NOP, and the context is HALTED again with STEP_DONE (R69). -/
def s_step : State := cl up { istore := [(0, BitVec.ofNat 32 (wd 0x30 0 0 0 0))], ctxs := [(0, { state := .halted })] }
theorem test_ctx_step : (stOf (.ctxStep x0) s_step == .halted && (after (.ctxStep x0) s_step).pc == 1 && (after (.ctxStep x0) s_step).stepDone &&
    still (.ctxStep x0) (cx { state := .ready }) && stOf (.ctxStep x0) { s_step with cells := [(0, { s_step.cell 0 with frozen := true })] } == .ready) = true := by
  decide +kernel
/-- Timeouts of a blocked RECV and SLOT; none with EXP 31 (R65, R72, R104). -/
def s_rto (exp : Nat) : State := cx { state := .blocked, wait := .recv, waitMatch := (2, 0, 0), pc := 3, waitElapsed := 32 } (ck {} [(CTX_TIMEOUT_EXP.ctx 0, exp)])
def s_sto : State := cx { state := .blocked, wait := .slot, pc := 3, waitElapsed := 32 } { ck {} [(CTX_TIMEOUT_EXP.ctx 0, 5)] with istore := [(3, 1 <<< 25)] }
theorem test_timeouts : (flt (.recvTimeout x0) (s_rto 5) == 7 && stOf (.recvTimeout x0) (s_rto 5) == .faulted && still (.recvTimeout x0) (s_rto 31) && still (.recvTimeout x0) (s_rto 6) &&
    flt (.slotTimeout x0) s_sto == 0x44 && stOf (.slotTimeout x0) s_sto == .faulted) = true := by decide +kernel
theorem test_waitt_wake : (stOf (.waittWake x0) (cx { state := .blocked, wait := .time }) == .ready &&
    still (.waittWake x0) (cx { state := .blocked, wait := .time, waitTick := 9 })) = true := by decide +kernel

/-- The instruction store window writes an OFF context's word and steps the address; of a READY context it sets BUSY_ERR
(R57, R59). -/
def s_isw (st : CtxState) : State := cx { state := st } (ck {} [(CELL_IS_ADDR_WORD, 1023), (CELL_IS_ADDR_AUTOINC, 1)])
theorem test_is_window : (fget w0 (cell' (.cellIsDataAccess 0 (some 0x12345)) (s_isw .off)).istore 1023 == 0x12345 &&
    (cell' (.cellIsDataAccess 0 (some 1)) (s_isw .off)).rd CELL_IS_ADDR_WORD == 0 &&
    (cell' (.cellIsDataAccess 0 (some 1)) (s_isw .ready)).rd CELL_IS_ADDR_BUSY_ERR == 1 &&
    (run (.cellIsDataAccess 0 none) { s_isw .off with cells := [(0, { (s_isw .off).cell 0 with istore := [(1023, 77)] })] }).readVal == 77) = true := by
  decide +kernel
def s_reg (st : CtxState) : State := cx { sx [(31, 9)] with state := st } (ck {} [(CELL_REG_SEL_INDEX, 31)])
theorem test_reg_window : ((run (.cellRegDataAccess 0 none) (s_reg .halted)).readVal == 9 &&
    ((after (.cellRegDataAccess 0 (some 5)) (s_reg .halted)).sReg 31).v == 5 &&
    (cell' (.cellRegDataAccess 0 (some 5)) (s_reg .ready)).rd CELL_REG_SEL_ACC_ERR == 1) = true := by decide +kernel
/-- The scratchpad window (R197). -/
def s_spw : State := cl up { own with spd := words 4 [0x99], regs := (ck own [(SPD_HOST_ADDR_ADDR, 1)]).regs }
/-- The same in a niche whose window is closed. -/
def s_shut : State := pk s_spw [(NCH_CFG_VALID.niche 0, 1), (NCH_CFG_WIDTH.niche 0, 0), (NCH_CFG_HEIGHT.niche 0, 0), (NCH_CFG_CELLWIN.niche 0, 0), (NCH_STATE_STATE.niche 0, 1)]
theorem test_spd_window : (s_spw.cellWin 0 && ownAdmits ((s_spw.cell 0).ownState (abank 4)) 7 && (run (.spdHostDataAccess 0 none) s_spw).readVal == 0x99 &&
    (run (.spdHostDataAccess 0 none) s_shut).readStat == 2 && !s_shut.cellWin 0 &&
    memRead (cell' (.spdHostDataAccess 0 (some 0x1234)) s_spw).spd 4 4 == 0x1234) = true := by decide +kernel
theorem test_route_window : ((cell' (.armRsDataAccess 0 (some 0x55)) up).route 0 0 == 0x55 &&
    (cell' (.armRsDataAccess 0 (some 0x55)) (cl up (ck {} [(ARM_SCHED_STATUS_STATE.arm 0, 1)]))).rd ARM_RS_ADDR_BUSY_ERR == 1 &&
    (run (.armRsDataAccess 0 none) (cl up { routes := [(0, 7)] })).readVal == 7) = true := by decide +kernel

/-- A cell under FREEZE whose context 1 has written s4 in the instruction that is abandoned. -/
def s_late : State := cl up (ck { undo := [(1, sx [(4, 5)])], ctxs := [(1, sx [(4, 6)])] } [(CELL_CTRL_FREEZE, 1)])
/-- FREEZE, its completion with a late context, a scan of a frozen cell, the end of a scan (R79 to R83). -/
theorem test_freeze : ((cell' (.freezeWrite 0 true) up).rd CELL_CTRL_FREEZE == 1 &&
    !(cell' (.freezeWrite 0 false) (cl up { frozen := true })).frozen &&
    (cell' (.freezeComplete 0 2) (cl up (ck {} [(CELL_CTRL_FREEZE, 1)]))).frozen &&
    ((cell' (.freezeComplete 0 2) s_late).ctx 1).abandoned && (((cell' (.freezeComplete 0 2) s_late).ctx 1).sReg 4).v == 5 &&
    (((cell' (.freezeComplete 0 0) s_late).ctx 1).sReg 4).v == 6 && still (.freezeComplete 0 0) up) = true := by decide +kernel
def v_scan : W64 := BitVec.ofNat 64 (2 ^ 16 + 1)
/-- A scan-in and a scan to the east need FREEZE and ISOLATE; the registers of an OFF context none of them (R81). -/
def s_iso : State := let c := { ck {} [(CELL_CTRL_ISOLATE, 1)] with frozen := true }; { up with cells := [(0, c), (1, c)] }
theorem test_scan_admitted : ((cell' (.scanGo 0 3) s_iso).scanIn && (cell' (.scanGo 0 9) s_iso).scanning &&
    (cell' (.scanGo 0 3) up).rd CELL_SCAN_STATUS_REFUSED == 1 && (cell' (.scanGo 0 (BitVec.ofNat 64 (2 ^ 17 + 1))) up).scanning &&
    (cell' (.scanGo 0 (BitVec.ofNat 64 (2 ^ 17 + 1))) (cx { state := .ready })).rd CELL_SCAN_STATUS_REFUSED == 1) = true := by decide +kernel
theorem test_scan : ((cell' (.scanGo 0 v_scan) (cl up { frozen := true })).scanning && (cell' (.scanGo 0 v_scan) (cl up { scanning := true })).rd CELL_SCAN_STATUS_REFUSED == 1 &&
    !((ck { scanning := true } []).scanLeft 0) && (cell' (.scanDone 0) (cl up { scanning := true })).rd CELL_SCAN_STATUS_DONE == 1 && still (.scanDone 0) up) = true := by
  decide +kernel
def op1 : MacOp := { w := 0, ext := 0, ctx := 0, pc := 0, aA := 0, aB := 0, a6 := 0, a7 := 0, strides := 0, slab := false, logical := 0, ended := true }
def s_macend : State := cx { state := .blocked, wait := .mac } { ck {} [(CELL_MAC_STATUS_BUSY, 1)] with macOp := some op1 }
theorem test_mac_end : ((cell' (.macFlagsRestart 0) up).rd CELL_MAC_FLAGS_TRAIL == 0xFF && stOf (.macOpComplete 0) s_macend == .ready &&
    (cell' (.macOpComplete 0) s_macend).rd CELL_MAC_STATUS_BUSY == 0 && (cell' (.macOpComplete 0) s_macend).macOp.isNone) = true := by decide +kernel

/-- A hand-over of SPD_OWN shows in the register at once and in accesses 2 cycles later, or after the clear from NONE; a pending bank
takes no other; the clear ends (R189, R198). -/
def s_core : State := cl up (ck {} [(SPD_OWN_STATE, 1)])
def s_hand : State := run (.spdOwnWrite 0 2) s_core
theorem test_own : ((cell' (.spdOwnWrite 0 1) up).ownState 0 == 0 && (cell' (.spdOwnWrite 0 1) up).ownField 0 == 1 &&
    fget z0 (cell' (.spdOwnWrite 0 1) up).ownDue 0 == 98 && fget z0 (cell' (.spdOwnWrite 0 1) up).clears 0 == 1 &&
    (s_hand.cell 0).ownState 0 == 1 && (s_hand.cell 0).ownField 0 == 2 && bit ((s_hand.cell 0).rd SPD_STATUS_PENDING) 0 &&
    ((s_hand.cell 0).ownCycle 1 0).ownState 0 == 1 && ((s_hand.cell 0).ownCycle 2 0).ownState 0 == 2 &&
    (cell' (.spdOwnWrite 0 4) s_hand).rd SPD_STATUS_OWN_ERR == 1 && (cell' (.spdOwnWrite 0 4) s_hand).ownField 0 == 2 &&
    (cell' (.spdOwnWrite 0 5) s_core).ownField 0 == 1) = true := by decide +kernel
theorem test_bank_clear : ((cell' (.bankClearEnd 0) (run (.spdOwnWrite 0 1) up)).ownState 0 == 1 &&
    memByte (cell' (.bankClearEnd 0) (cl up { ck {} [(SPD_STATUS_CLEARING, 2 ^ (abank 5))] with spd := [(5, 9)], clears := [(abank 5, 1)] })).spd 5 == 0 &&
    memByte (cell' (.bankClearEnd 0) (cl up { spd := [(5, 9)] })).spd 5 == 9) = true := by decide +kernel
theorem test_clear : (fget z0 (cell' (.spdClearWrite 0 1) up).clears 0 == 1 &&
    (cell' (.spdClearWrite 0 1) (cl up own)).rd SPD_CLEAR_CLR_REFUSED == 1) = true := by decide +kernel
/-- A ring whose slots end at line 3,072 is accepted, one line more is not (R192). -/
def v_ring (base : Nat) : W64 := BitVec.ofNat 64 (2 ^ 63 + 1 * 2 ^ 40 + 3 * 2 ^ 32 + base)
theorem test_ring_cfg : ((cell' (.spdRingCfgWrite 0 2 (v_ring 3064)) up).rd (SPD_RING_CFG_ENABLE.ring 2) == 1 &&
    (cell' (.spdRingCfgWrite 0 2 (v_ring 3065)) up).rd (SPD_RING_CFG_CFG_ERR.ring 2) == 1 &&
    (cell' (.spdRingReset 0 0) (cl up (ck {} [(SPD_RING_ST_PUT.ring 0, 3)]))).rd (SPD_RING_ST_PUT.ring 0) == 0 &&
    still (.spdRingReset 0 0) (cl up (ck {} [(SPD_RING_CFG_ENABLE.ring 0, 1), (SPD_RING_ST_PUT.ring 0, 3)])) &&
    fget ecc0 (cell' (.spdEccWriteback 0 49151) (cl up { spdEcc := [(49151, .ce)] })).spdEcc 49151 == .ok) = true := by decide +kernel

/-- The armature's commands (R206, R210, R212, R219). -/
def arm (l : List (Fld × Nat)) (c : Cell := {}) : State := cl up (ck c l)
theorem test_arm : ((cell' (.armGo x0) (arm [(ARM_SCHED_CTRL_MODE.arm 0, 2), (ARM_SCHED_CTRL_ENABLE.arm 0, 1)])).sched 0 == 1 &&
    flt (.armGo x0) (arm [(ARM_SCHED_CTRL_MODE.arm 0, 2), (ARM_SCHED_CTRL_ENABLE.arm 0, 1), (ARM_SCHED_STATUS_STATE.arm 0, 2)]) == 0x85 &&
    still (.armGo x0) up && (cell' (.armStop x0) (arm [(ARM_SCHED_STATUS_STATE.arm 0, 1)])).sched 0 == 0 &&
    (cell' (.armEnableWrite x0 true) up).sched 0 == 1 &&
    (cell' (.armEnableWrite x0 false) (arm [(ARM_SCHED_STATUS_STATE.arm 0, 2), (ARM_SCHED_CTRL_ENABLE.arm 0, 1)])).sched 0 == 2) = true := by decide +kernel
/-- A running schedule is IDLE after the STOP's cycle (R219). -/
theorem test_arm_stop : (let c := cell' (.armStop x0) (arm [(ARM_SCHED_STATUS_STATE.arm 0, 2)])
    c.sched 0 == 2 && fget z0 c.armEnd 0 == 1 && (c.armEnds (up.env 0) false [0]).sched 0 == 0) = true := by decide +kernel
def s_sched : State := arm [(ARM_SCHED_STATUS_STATE.arm 0, 1), (ARM_SCHED_CTRL_ENABLE.arm 0, 1)] { armDue := [(0, 1)], routes := [(0, BitVec.ofNat 64 (5 * 2 ^ 56))] }
theorem test_sched_start : (!entryBad ((s_sched.cell 0).route 0 0) 0 false && (cell' (.schedStart x0) s_sched).sched 0 == 2 &&
    (s_sched.logical 0).isSome && still (.schedStart x0) up) = true := by decide +kernel
/-- Shift mode of cell 0, whose lines go to cell 1, and of cell 8, the spare column of row 0; a seam alarm demands a reset of the niche
that spans it. -/
def s_shift : State := cl up { spd := [(70, 9)], locks := [⟨0, 5, 0⟩] }
theorem test_shift_and_seam : (cellCol 8 == 8 && ((run (.armShift 8 true) up).cell 8).rd ARM_CTRL_SHIFT == 1 &&
    s_shift.powered 0 && cellCol 0 != 8 && memByte ((s_shift.cell 0).shiftFrom {}).spd 70 == 9 &&
    memByte ((run (.armShift 0 false) s_shift).cell 1).spd 70 == 0 &&
    (run (.seamAlarm 0) up).dieRd 0 ARM_SEAM_STATUS_H_ALARM == 1) = true := by decide +kernel

/-! ### Stops, sync stores, the Riffler, DMA, the plinth -/

/-- The court of the state is live. -/
theorem court_live_up : CourtLive 0 up := by unfold CourtLive; decide +kernel
/-- The court after a command. -/
def court' (c : Instr) (s : State) : Court := (run c s).court 0
/-- A cell without an EDGE port. -/
def inner : Cell := ck {} [(SPR_CTRL_EDGE, 0)]
/-- The same state in mesh cycle 100. -/
def later (s : State) : State := { s with cycle := 100 }
/-- A message from the west into cell 0, on channel 0 or 1, all of whose flits have arrived. -/
def stopped (vc : Nat) (m : Msg) (c : Cell := inner) : State := { cl up { c with stop := [(6 + vc, [m])] } with cycle := 100 }
/-- A message to a cell. -/
def msg (dest : Nat) (k : MsgKind := .posted) : Msg := { kind := k, dest := dest, src := 2, tag := 3, len := 1, payload := [9] }

/-- A message for cell 1 goes east, one for cell 0 is received; an EDGE port refuses a request with a NACK (R238 to R243). -/
theorem test_stop_forwards : (let t := run (.sprueMessageArrive 0 3 0 0) (stopped 0 (msg 1))
    decide ((fget nil0 (t.cell 1).stop 6).map (fun m => m.dest) = [1]) && (t.cell 0).stop.isEmpty &&
    (stopped 0 (msg 1)).granted 0 0 3 0 1 && (stopped 0 (msg 0)).granted 0 0 3 0 4 && decide ((fget nil0 (t.cell 1).stop 6).map (fun m => m.due) = [102]) &&
    (stopped 0 (msg 1)).logical 0 == some 0 && (stopped 0 (msg 1)).phys 1 == 1 && neighbour 0 1 == some 1) = true := by decide +kernel
theorem test_stop_edge : (let t := run (.sprueMessageArrive 0 3 0 0) (stopped 0 (msg 1 .request) (ck {} [(SPR_CTRL_EDGE, 2)]))
    (t.cell 0).rd SPR_ERR_REFUSED == 1 && decide ((t.cell 0).inj.map (fun m => (m.kind, m.dest, m.tag)) = [(.nack, 2, 3)])) = true := by decide +kernel
theorem test_stop_delivers : (decide (((run (.sprueMessageArrive 0 3 0 0) (stopped 0 (msg 0))).cell 0).recvReq.map (fun e => (e.tag, e.src)) = [(3, 2)]) &&
    destRefusal 0 (msg 0) == none && !(({} : Cell).holdsDelivery (msg 0)) &&
    still (.sprueMessageArrive 0 3 0 0) (stopped 0 (msg 0) { recvReq := List.replicate 24 (entry1 0 0) })) = true := by decide +kernel
/-- A full neighbour holds the message (R243). -/
def s_full : State := { stopped 0 (msg 1) with cells := [(0, { inner with stop := [(6, [msg 1])] }), (1, { stop := [(6, List.replicate 5 (msg 1))] })] }
/-- The east output's last message came from the west input, and the south input has one for it: it serves that (R243). -/
def s_turn : State := later (cl up { inner with stop := [(4, [msg 1]), (6, [msg 1])], sprTurn := [(2, 4)] })
theorem test_stop_waits : (!(s_full.roomAt 1 3 (msg 1)) && still (.sprueMessageArrive 0 3 0 0) s_full &&
    still (.sprueMessageArrive 0 3 0 0) { stopped 0 (msg 1) with cycle := 0, cells := [(0, { inner with stop := [(6, [{ msg 1 with due := 3 }])] })] } &&
    still (.sprueMessageArrive 0 3 0 0) s_turn && !s_turn.granted 0 0 3 0 1) = true := by decide +kernel
/-- Court messages at the hub, cell (3, 3) of the court. -/
def s_hub (u : Nat) (len : Nat) : State :=
  { up with cycle := 100, cells := [(up.phys (courtHub 0), { stop := [(6, [{ msg (courtHub 0) with unit := u, len := len, info := [0, 1] }])] })] }
theorem test_stop_court_units : ((List.range 3).all (fun i => destRefusal (courtHub 0) { msg (courtHub 0) with unit := i + 1, len := 8 } == none) &&
    (court' (.sprueMessageArrive (up.phys (courtHub 0)) 3 0 0) (s_hub 1 8)).syncIn.length == 1 &&
    (court' (.sprueMessageArrive (up.phys (courtHub 0)) 3 0 0) (s_hub 2 8)).rifIn.length == 1 &&
    (court' (.sprueMessageArrive (up.phys (courtHub 0)) 3 0 0) (s_hub 3 8)).dmaIn.length == 1) = true := by decide +kernel
/-- A NACK faults the owner of its tag; the response of a SYNC moves it on; the response of a SEND is received (R251). -/
def s_resp (k : MsgKind) (kind : TagKind) : State :=
  later <| cl up { stop := [(7, [{ msg 0 k with port := 0x30, len := 8, payload := valBytes (0x500000007) 8 }])],
                    tags := [⟨3, 0, kind, 0, 0, 0, 0, 6, 0⟩], ctxs := [(0, { state := .blocked, wait := .sync, waitTag := 3 })] }
theorem test_nack : (flt (.nackReceive 0 3 1) (s_resp .nack .send) == 0xA0 && ((run (.nackReceive 0 3 1) (s_resp .nack .send)).cell 0).tags.isEmpty &&
    destRefusal 0 { msg 0 .nack with port := 0x30 } == none) = true := by decide +kernel
theorem test_responses : (sv (.responseReceive 0 3 1) (s_resp .response .sync) 6 == 7 && sv (.responseReceive 0 3 1) (s_resp .response .sync) 7 == 5 &&
    stOf (.responseReceive 0 3 1) (s_resp .response .sync) == .ready && (after (.responseReceive 0 3 1) (s_resp .response .sync)).pc == 1 &&
    ((run (.responseReceive 0 3 1) (s_resp .response .send)).cell 0).recvRsp.length == 1) = true := by decide +kernel

/-- Route tables, epochs, the response timeout (R247 to R253). -/
theorem test_route_table : (fget r0 (court' (.sprRtDataWrite 0 0x77) (ct up (qk {} [(SPR_RT_ADDR_VER, 1), (SPR_RT_ADDR_INDEX, 143)]))).rt 287 == 0x77 &&
    (up.nicheAt 0).isNone) = true := by decide +kernel
/-- Court 0 bound to niche 0. -/
def bound : State := pk up [(NCH_CFG_VALID.niche 0, 1)]
theorem test_route_table_busy : (bound.nicheAt 0 == some 0 && (court' (.sprRtDataWrite 0 0x77) bound).rd SPR_RT_ADDR_BUSY_ERR == 1 &&
    fget r0 (court' (.sprRtDataWrite 0 0x77) (ct bound (qk {} [(SPR_RT_ADDR_VER, 1)]))).rt 144 == 0x77) = true := by decide +kernel
theorem test_epochs : ((run (.privHoldWrite 3 true) up).dieRd 0 (SPR_NICHE_EPOCH_PRIV_HOLD.epoch 3) == 1 &&
    (run (.epochActiveWrite 3 true) (run (.privHoldWrite 3 true) up)).dieRd 0 (SPR_NICHE_EPOCH_ACTIVE.epoch 3) == 1 &&
    (run (.epochActiveWrite 3 true) up).dieRd 0 (SPR_NICHE_EPOCH_SWITCH_ERR.epoch 3) == 1) = true := by decide +kernel
theorem test_rsp_timeout : (flt (.sprRspTimeout 0 3) (s_resp .response .send) == 0xA1 && decide (((run (.sprRspTimeout 0 3) (s_resp .response .send)).cell 0).quar = [3]) &&
    still (.sprRspTimeout 0 4) (s_resp .response .send)) = true := by decide +kernel

/-- One sync operation on object 5 of court 0: operation, operands, type, state. -/
def s_obj (op a b ty : Nat) (l : List (Fld × Nat)) (w : List Waiter := []) : State :=
  ct up { qk {} ((SYN_CFG_TYPE.syn 5, ty) :: l) with
    syncIn := [{ kind := .request, src := 9, srcCtx := 1, tag := 4, unit := 1, len := 8, info := [op, 5], payload := valBytes (a + 2 ^ 32 * b) 8 }], waiters := w }
/-- The value, the result, and the object's VALUE after it. -/
def obj (c : Instr) (s : State) : Nat × Nat × Nat :=
  let q := court' c s
  (bytesVal ((q.out.headD {}).payload) 4, bytesVal ((q.out.headD {}).payload.drop 4) 4, q.rd (SYN_STATE_VALUE.syn 5))
theorem test_sync_values : (obj (.syncRead 0) (s_obj 0 0 0 1 [(SYN_STATE_VALUE.syn 5, 7)]) == (7, 0, 7) &&
    obj (.syncAdd 0) (s_obj 1 0xFFFFFFFF 0 1 [(SYN_STATE_VALUE.syn 5, 7)]) == (7, 0, 6) && obj (.syncSet 0) (s_obj 2 8 0 1 [(SYN_STATE_VALUE.syn 5, 7)]) == (7, 0, 8) &&
    obj (.syncCas 0) (s_obj 3 7 9 1 [(SYN_STATE_VALUE.syn 5, 7)]) == (7, 0, 9) && obj (.syncCas 0) (s_obj 3 6 9 1 [(SYN_STATE_VALUE.syn 5, 7)]) == (7, 3, 7) &&
    obj (.syncFlagSet 0) (s_obj 8 8 0 4 [(SYN_STATE_VALUE.syn 5, 7)]) == (7, 0, 15) && obj (.syncFlagClear 0) (s_obj 9 3 0 4 [(SYN_STATE_VALUE.syn 5, 7)]) == (7, 0, 4)) = true := by
  decide +kernel
theorem test_sync_waits : (obj (.syncWaitGe 0) (s_obj 4 7 0 1 [(SYN_STATE_VALUE.syn 5, 7)]) == (7, 0, 7) &&
    (court' (.syncWaitGe 0) (s_obj 4 8 0 1 [(SYN_STATE_VALUE.syn 5, 7)])).waiters.length == 1 &&
    obj (.syncArrive 0) (s_obj 5 0 0 2 [(SYN_CFG_TARGET.syn 5, 1)]) == (0, 0, 1) && (court' (.syncArrive 0) (s_obj 5 0 0 2 [(SYN_CFG_TARGET.syn 5, 2)])).waiters.length == 1 &&
    obj (.syncFlagWait 0) (s_obj 0xA 3 2 4 [(SYN_STATE_VALUE.syn 5, 6)]) == (6, 0, 6) &&
    (court' (.syncFlagWait 0) (s_obj 0xA 3 2 4 [(SYN_STATE_VALUE.syn 5, 7)])).waiters.length == 1) = true := by decide +kernel
def mine : List (Fld × Nat) := [(SYN_STATE_LSTATE.syn 5, 1), (SYN_STATE_OWNER_CELL.syn 5, 9), (SYN_STATE_OWNER_CTX.syn 5, 1)]
theorem test_sync_locks : (obj (.syncAcquire 0) (s_obj 6 0 0 3 []) == (1, 0, 1) && (court' (.syncAcquire 0) (s_obj 6 0 0 3 mine)).waiters.length == 1 &&
    (court' (.syncRelease 0) (s_obj 7 0 0 3 mine)).rd (SYN_STATE_LSTATE.syn 5) == 0 && (obj (.syncRelease 0) (s_obj 7 0 0 3 [])).2.1 == 2 &&
    (court' (.syncRelease 0) (s_obj 7 0 0 3 [])).rd SYN_STATUS_NOT_OWNER_CNT == 1 && bytesVal ((court' (.syncRead 0) (s_obj 0 0 0 3 mine)).out.headD {}).payload 4 == 65536 + 37) = true := by
  decide +kernel
/-- The oldest waiting ACQUIRE takes a released lock; a write of VALUE ends a WAIT_GE; a timeout ends with 6; an orphan notice
makes the lock ORPHANED (R257 to R261). -/
def wtr (op a : Nat) : Waiter := ⟨5, op, 0x33, 2, 8, a, 0, 0⟩
theorem test_waiters : ((court' (.syncRelease 0) (s_obj 7 0 0 3 mine [wtr 6 0])).rd (SYN_STATE_OWNER_CELL.syn 5) == 0x33 &&
    (court' (.syncRelease 0) (s_obj 7 0 0 3 mine [wtr 6 0])).waiters.isEmpty &&
    (court' (.synStateWrite 0 5 8) (s_obj 4 0 0 1 [] [wtr 4 9])).waiters.length == 1 && (court' (.synStateWrite 0 5 9) (s_obj 4 0 0 1 [] [wtr 4 9])).waiters.isEmpty &&
    bytesVal (((court' (.syncWaitTimeout 0 0) (s_obj 4 0 0 1 [] [wtr 4 9])).out.headD {}).payload.drop 4) 4 == 6 && still (.syncWaitTimeout 0 0) up &&
    (court' (.orphanNotice 0) (ct up { (s_obj 0 0 0 3 mine).court 0 with syncIn := [{ src := 9, srcCtx := 1, port := 1, unit := 1 }] })).rd (SYN_STATE_LSTATE.syn 5) == 2) = true := by
  decide +kernel

/-- A Riffler descriptor in the plinth at 0, and its other plinth words. -/
def plnOf (d : List Nat) (at' : List (Nat × List Nat)) : Memory :=
  at'.foldl (fun m p => (p.2.zipIdx.foldl (fun m w => memWrite m (p.1 + 4 * w.2) 4 w.1) m)) (d.zipIdx.foldl (fun m w => memWrite m (8 * w.2) 8 w.1) [])
/-- A held operation. -/
def held (op : Nat) (fan : Nat := 16) : RifOp := { src := 9, ctx := 1, tag := 4, op := op, aD := 0, fan := fan, arrive := 5, edge := 0 }
/-- The court with a held operation and a descriptor; cells 0 and 1 hold scratchpad words. -/
def s_rif' (op : Nat) (d : List Nat) (at' : List (Nat × List Nat)) (c0 c1 : Cell := own) : State :=
  { up with courts := [(0, { rif := [held op], plinth := plnOf d at' })], cells := [(0, c0), (1, c1)], cycle := 40 }
/-- The same with the operation in its rounds. -/
def s_run (op : Nat) (d : List Nat) (at' : List (Nat × List Nat)) (c0 c1 : Cell := own) : State := run (.rifPrologue 0) (s_rif' op d at' c0 c1)
/-- GATHER of rows 2 and 0 of a table of 3 rows at 0x1000 to cells 0 and 1, scratchpad 64; the fan-in is 1 (R283, R284). -/
def d_gather : List Nat := [0, 3 * 2 ^ 40 + 0x1000, 1 * 2 ^ 32 + 0x800, 3, 64]
def m_gather : List (Nat × List Nat) := [(0x800, [2, 0]), (0x1000, [11]), (0x1080, [33])]
theorem test_rif_accept : ((court' (.rifRequestArrive 0) (ct up { rifIn := [{ src := 9, port := 1, info := [64, 3] }] })).rif.length == 1 &&
    (court' (.rifRequestArrive 0) (ct up { rifIn := [{ src := 9, port := 1 }], rif := List.replicate 4 (held 0) })).rd RIF_FAULT_CODE == 0xC5) = true := by decide +kernel
/-- The launch is the first boundary of 12 from the edge at or after arrival + 12; without a frame edge E is 0 (R277). -/
theorem test_rif_prologue : (decide ((court' (.rifPrologue 0) (s_rif' 0 d_gather m_gather)).rif.map (fun o => (o.phase, o.launch, o.fact)) = [(.running, 24, 1)]) &&
    decide ((court' (.rifPrologue 0) (s_rif' 0 d_gather m_gather)).rif.map (fun o => o.due) = [24 + rifTime 0 16 d_gather + 1]) &&
    still (.gather 0) { s_run 0 d_gather m_gather with cycle := 23 } &&
    decide ((court' (.rifPrologue 0) (ct up { rif := [{ held 0 with aD := 8 }] })).rif.map (fun o => (o.phase, o.code, o.detail)) = [(.done, 0xC2, 8)]) &&
    decide ((court' (.rifPrologue 0) (s_rif' 0 ((2 ^ 55) :: d_gather.tail) m_gather)).rif.map (fun o => (o.phase, o.code)) = [(.done, 0xC4)]) &&
    decide ((court' (.rifPrologue 0) (s_rif' 0 ((2 ^ 55 + 2 * 2 ^ 32) :: d_gather.tail) m_gather)).rif.map (fun o => (o.phase, o.launch)) = [(.running, 24)])) = true := by
  decide +kernel
theorem test_gather : (let t := run (.gather 0) (s_run 0 d_gather m_gather)
    memRead (t.cell 0).spd 64 4 == 33 && memRead (t.cell 1).spd 64 4 == 11 && decide ((t.court 0).rif.map (fun o => (o.phase, o.flags)) = [(.moved, 0)])) = true := by
  decide +kernel
/-- SCADD in INT32: both rows add into row 1, the second saturating (R285). -/
def d_scadd : List Nat := [1 * 2 ^ 56, 3 * 2 ^ 40 + 0x1000, 1 * 2 ^ 32 + 0x800, 3, 4 * 2 ^ 32 + 64]
def s_scadd : State := s_run 1 d_scadd [(0x800, [1, 1]), (0x1040, [5])] { own with spd := words 64 [7] } { own with spd := words 64 [0x7FFFFFFF] }
theorem test_scadd : (let t := run (.scadd 0) s_scadd
    memRead (t.court 0).plinth 0x1040 4 == 0x7FFFFFFF && decide ((t.court 0).rif.map (fun o => (o.phase, o.flags)) = [(.moved, 8)])) = true := by decide +kernel
/-- SEGRED SUM of INT32: two rows, then an empty segment (R286). -/
def d_segred : List Nat := [4 * 2 ^ 56, 4 * 2 ^ 36 + 4 * 2 ^ 40 + 0x1000, 1 * 2 ^ 32 + 0x800, 3, 64]
def s_segred : State := s_run 4 d_segred [(0x800, [2])] { own with spd := words 64 [7] } { own with spd := words 64 [8] }
theorem test_segred : (let t := run (.segred 0) s_segred
    memRead (t.court 0).plinth 0x1000 4 == 15 && memRead (t.court 0).plinth 0x1040 4 == 0 &&
    decide ((t.court 0).rif.map (fun o => (o.phase, o.flags)) = [(.moved, 32)])) = true := by decide +kernel
/-- SORT of three unsigned pairs; TOPK of two, signed, descending, inline (R287, R288). -/
def m_sort : List (Nat × List Nat) := [(0x1000, [9, 0xFFFFFFFF, 3]), (0x1100, [1, 2, 3])]
def s_sort : State := s_run 2 [2 * 2 ^ 56, 0x1000, 2 * 2 ^ 32 + 0x1100, 0x1200, 0x1300] m_sort
def s_topk : State := s_run 3 [3 * 2 ^ 56, 1 * 2 ^ 34 + 1 * 2 ^ 32 + 0x1000, 2 * 2 ^ 32 + 0x1100, 1 * 2 ^ 44 + 1 * 2 ^ 32 + 0x1200, 0x1300] m_sort
theorem test_sort : (let p := ((run (.sort 0) s_sort).court 0).plinth
    memRead p 0x1200 4 == 3 && memRead p 0x1204 4 == 9 && memRead p 0x1208 4 == 0xFFFFFFFF && memRead p 0x1300 4 == 3 && memRead p 0x1308 4 == 2) = true := by
  decide +kernel
theorem test_topk : (let c := (run (.topk 0) s_topk).court 0
    memRead c.plinth 0x1200 4 == 9 && memRead c.plinth 0x1304 4 == 3 && decide (c.rif.map (fun o => o.inline) = [[9 + 2 ^ 32, 3 + 3 * 2 ^ 32]]) &&
    still (.rifComplete 0) (run (.topk 0) s_topk) && decide ((court' (.rifComplete 0) { run (.topk 0) s_topk with cycle := 4000 }).out.map (fun m => (m.dest, m.tag, m.len)) = [(9, 4, 24)])) = true := by decide +kernel
theorem test_rif_complete : (let c := court' (.rifComplete 0) (ct up { rif := [held 0, { held 0 with phase := .done, code := 0xC4 }] })
    c.rif.length == 1 && decide (c.out.map (fun m => (m.dest, (m.payload.getD 1 0).toNat)) = [(9, 0xC4)])) = true := by decide +kernel

/-- A DMA descriptor of one line in queue 2 of court 0, in niche 0 with window 0 of one segment (R322, R334). -/
def d_dma (kind src dst : Nat) : List Nat := [kind * 2 ^ 56, src, dst, 0, 0, 0, 0, 0]
def dmaOp (kind src dst : Nat) : DmaOp := { words := d_dma kind src dst, poisoned := false, src := 9, ctx := 1, tag := 4, resp := true, pc := 0, accept := 0 }
def s_dmaq (o : DmaOp) (pln : Memory := []) (c : Cell := own) (h : Memory := []) : State :=
  { pk up [(NCH_CFG_VALID.niche 0, 1), (HBM_NWIN0_VALID.niche 0, 1), (HBM_NWIN0_SIZE_SEG.niche 0, 1)] with
    courts := [(0, { (qk {} [(DMA_QCFG_ENABLE.queue 2, 1)]).setQueue 2 [o] with plinth := pln })], cells := [(0, c)], hbm := h }
theorem test_dma_arrive : (let m : Msg := { kind := .request, src := 9, tag := 4, port := 2, unit := 3, payload := (d_dma 3 0 0).flatMap (fun v => valBytes v 8) }
    let s := fun l => ct up { qk {} l with dmaIn := [m] }
    decide (((court' (.dmaDescArrive 0) (s [(DMA_QCFG_ENABLE.queue 2, 1)])).queue 2).map (fun o => (o.kind, o.src)) = [(3, 9)]) &&
    (court' (.dmaDescArrive 0) (s [(DMA_QCFG_ENABLE.queue 2, 1)])).rd (DMA_QST_POSTED.queue 2) == 1 &&
    decide ((court' (.dmaDescArrive 0) (s [])).out.map (fun m => (m.payload.getD 1 0).toNat) = [0xD4]) &&
    decide ((court' (.dmaDescArrive 0) (s [(DMA_QCFG_ENABLE.queue 2, 1), (DMA_QST_QUEUED.queue 2, 32)])).out.map (fun m => (m.payload.getD 1 0).toNat) = [0xD3])) = true := by
  decide +kernel
/-- The head after a command. -/
def head2 (c : Instr) (s : State) : DmaOp := ((court' c s).queue 2).headD (dmaOp 0 0 0)
theorem test_dma_checks : ((s_dmaq (dmaOp 3 0x40 0)).dmaBad 0 false (dmaOp 3 0x40 0) == none &&
    decide ((fun (o : DmaOp) => (o.ended, o.code, o.detail)) (head2 (.dmaPlnToHbm 0 2) (s_dmaq (dmaOp 3 0x20 0))) = (true, 0xD1, 1)) &&
    decide ((fun (o : DmaOp) => (o.code, o.detail)) (head2 (.dmaPlnToHbm 0 2) (s_dmaq (dmaOp 3 0x40 0x100000000))) = (0xD2, 2)) &&
    still (.dmaHbmToPln 0 2) (s_dmaq (dmaOp 3 0x40 0)) && (head2 (.dmaSpdToPln 0 2) (s_dmaq (dmaOp 1 0x40 0x80))).active &&
    (head2 (.dmaPlnToSpd 0 2) (s_dmaq (dmaOp 2 0x40 0x80))).active) = true := by decide +kernel
theorem test_dma_moves : (memRead (run (.dmaPlnToHbm 0 2) (s_dmaq (dmaOp 3 0x40 0x80) (words 0x40 [5, 6]))).hbm 0x84 4 == 6 &&
    memRead (court' (.dmaHbmToPln 0 2) (s_dmaq (dmaOp 4 0x80 0x40) [] own (words 0x80 [7]))).plinth 0x40 4 == 7 &&
    memRead (run (.dmaSpdToHbm 0 2) (s_dmaq (dmaOp 5 0x40 0x80) [] { own with spd := words 0x40 [8] })).hbm 0x80 4 == 8 &&
    memRead (cell' (.dmaHbmToSpd 0 2) (s_dmaq (dmaOp 6 0x80 0x40) [] own (words 0x80 [9]))).spd 0x40 4 == 9 &&
    memRead (run (.zeroH 0 2) (s_dmaq (dmaOp 7 0 0x80) [] own (words 0x80 [9]))).hbm 0x80 4 == 0 &&
    (head2 (.zeroH 0 2) (s_dmaq (dmaOp 7 0 0x80))).written == 1) = true := by decide +kernel
/-- The CRC register after `n` zero bytes, evaluated byte by byte. -/
def crcZeros : Nat → Nat → Nat
  | 0, c => c
  | n + 1, c => match c with
    | 0 => crcZeros n (crcByte 0 0)
    | k + 1 => crcZeros n (crcByte (k + 1) 0)
theorem crcZeros_eq (n c : Nat) : crcZeros n c = (List.replicate n (0 : BitVec 8)).foldl crcByte c := by
  induction n generalizing c with
  | zero => rfl
  | succ n ih =>
    have h : crcZeros (n + 1) c = crcZeros n (crcByte c 0) := by cases c <;> rfl
    rw [h, ih, List.replicate_succ, List.foldl_cons]
theorem crcZeros_halves : crcZeros 1024 0xFFFFFFFF = 0x11512183 ∧ crcZeros 1024 0x11512183 = 0x5B767CB0 ∧ crcZeros 1024 0x5B767CB0 = 0xDF52BE5C ∧
    crcZeros 1024 0xDF52BE5C = 0x6706BE76 := by decide +kernel
theorem crc_zero_block : (List.replicate (1024 + (1024 + (1024 + 1024))) (0 : BitVec 8)).foldl crcByte 0xFFFFFFFF = 0x6706BE76 := by
  have ⟨h1, h2, h3, h4⟩ := crcZeros_halves
  rw [crcZeros_eq] at h1 h2 h3 h4
  rw [List.replicate_add, List.foldl_append, h1, List.replicate_add, List.foldl_append, h2, List.replicate_add, List.foldl_append, h3, h4]
theorem memBytes_nil (a n : Nat) : memBytes [] a n = List.replicate n 0 := by
  unfold memBytes
  rw [List.eq_replicate_iff]
  exact ⟨by simp, fun x hx => by rw [List.mem_map] at hx; obtain ⟨_, _, rfl⟩ := hx; rfl⟩
theorem crc32c_zeros (n : Nat) (h : n = 1024 + (1024 + (1024 + 1024))) : crc32c (List.replicate n 0) = 0x98F94189 := by
  have h1 := congrArg (fun x => x ^^^ 0xFFFFFFFF) crc_zero_block
  rw [← h] at h1
  have h2 : 0x6706BE76 ^^^ 0xFFFFFFFF = 0x98F94189 := by decide +kernel
  exact h1.trans h2
/-- Every stored check of untouched memory matches, as the statement on moves asks. -/
theorem test_block_checks : ∀ b, up.dataCheck b = up.storedCheck b := by
  intro b
  have hz : up.storedCheck b = 0x98F94189 := rfl
  have hd : up.dataCheck b = crc32c (memBytes [] (4096 * b) 4096) := by
    unfold State.dataCheck
    rw [show up.hbm = [] from rfl]
  rw [hz, hd, memBytes_nil]
  exact crc32c_zeros _ (by norm_num)
/-- CRC-32C of "123456789" (R328). -/
theorem test_crc32c : crc32c [0x31, 0x32, 0x33, 0x34, 0x35, 0x36, 0x37, 0x38, 0x39] = 0xE3069283 := by decide +kernel
theorem test_dma_complete : (let s := s_dmaq { dmaOp 1 0 0 with ended := true, written := 1, words := [1 * 2 ^ 56 + 2 ^ 55, 0, 0, 0, 7 * 2 ^ 32 + 5, 0, 0, 0] }
    ((court' (.dmaComplete 0 2) s).queue 2).isEmpty && (court' (.dmaComplete 0 2) s).rd (DMA_QST_COMPLETED.queue 2) == 1 &&
    decide ((court' (.dmaComplete 0 2) s).out.map (fun m => (m.kind, m.unit, bytesVal m.payload 4)) = [(.response, 0, 0x20001), (.posted, 1, 7)]) &&
    still (.dmaComplete 0 2) (s_dmaq (dmaOp 1 0 0))) = true := by decide +kernel

/-- Plinth clears, host access, write-back, the round, the patrol scrub (R268, R269, R273, R291, R326). -/
theorem test_plinth : ((court' (.crtClear 0) up).rd CRT_STATUS_CLEARING == 1 && (court' (.crtClear 0) (ct up { rif := [held 0] })).rd CRT_CTRL_CLR_REFUSED == 1 &&
    (court' (.crtClear 0) (ct up { plinth := [(4, 9)] })).plinth.isEmpty && still (.crtClear 0) (ct up (qk {} [(CRT_STATUS_CLEARING, 1)])) &&
    (court' (.plinthClearEnd 0) (ct up (qk {} [(CRT_STATUS_CLEARING, 1)]))).rd CRT_STATUS_CLEARING == 0 &&
    (court' (.plinthEccWriteback 0 1048575) (ct up { plnEcc := [(1048575, .ce)] })).plnEcc.isEmpty) = true := by decide +kernel
def s_crth : State := ct up { qk {} [(CRT_HOST_ADDR_ADDR, 2 ^ 20 - 1), (CRT_HOST_ADDR_AUTOINC, 1)] with plinth := words (4 * (2 ^ 20 - 1)) [0x77] }
theorem test_crt_host : ((run (.crtHostDataAccess 0 0 none) s_crth).readVal == 0x77 && (court' (.crtHostDataAccess 0 0 none) s_crth).rd CRT_HOST_ADDR_ADDR == 0 &&
    memRead (court' (.crtHostDataAccess 0 0 (some 0x55)) s_crth).plinth (4 * (2 ^ 20 - 1)) 4 == 0x55 && !(s_crth.fnReaches 3 0) &&
    (court' (.crtHostDataAccess 0 3 none) s_crth).rd CRT_HOST_ADDR_ERR == 1) = true := by decide +kernel
def s_round : State := s_dmaq { dmaOp 1 0x40 0x80 with active := true } [] { own with spd := words 0x40 [8] }
theorem test_round : ((s_round.roundMoves 0).length == 1 && memRead (court' (.xbarRound 0) s_round).plinth 0x80 4 == 8 &&
    (court' (.xbarRound 0) s_round).rd CRT_XBAR_CNT_OTHER_ROUNDS == 1 && s_round.roundOk 0 && still (.xbarRound 0) { s_round with cycle := 5 } && (head2 (.xbarRound 0) s_round).ended && still (.xbarRound 0) up) = true := by decide +kernel
def s_scrub : State := { dk up 0 [(HBM_CTRL_SCRUB_H.hbm 0, 24)] with hbmEcc := [(0, .ce)] }
theorem test_scrub : (s_scrub.hbmStack 0 == 0 && s_scrub.hbmStack 32 == 0 && decide (0 < s_scrub.hbmC) && (run (.hbmPatrolScrub 0) s_scrub).hbmEcc.isEmpty &&
    (run (.hbmPatrolScrub 0) s_scrub).dieRd 0 (HBM_ECC_CE_CNT.hbm 0) == 1) = true := by decide +kernel

/-! ### The host, niches, rings, frames -/

/-- Function 0 with queue 0 in service and one entry posted; niche 0 is court 0, in a state of R423, with window 0. -/
def host (st : Nat) (more : List (Fld × Nat) := []) : State :=
  { pk svc ([(qf HST_SQB_ENABLE 0 0, 1), (qf HST_CQB_ENABLE 0 0, 1), (qf HST_CQB_ADDR 0 0, 16), (NCH_CFG_VALID.niche 0, b2n (st != 0)),
      (NCH_STATE_STATE.niche 0, st), (HBM_NWIN0_VALID.niche 0, 1), (HBM_NWIN0_SIZE_SEG.niche 0, 1)] ++ more) with
    hostQs := [(0, { sqTail := 1 })] }
/-- An entry of function 0's queue 0 for niche 0. -/
def ent (ops : List (BitVec 8) := []) : SqEntry := sq 0 ops
/-- What the command answers. -/
def status (op : Nat) (e : SqEntry) (s : State) (cast : Option (List (BitVec 8)) := none) : Nat := (s.command false op e cast false).st
theorem fetches_host (op st : Nat) (e : SqEntry) (more : List (Fld × Nat)) (h1 : e.fn < 34) (h2 : e.q < 8) (h3 : e.clean = true)
    (h : (host st more).canFetch e.fn e.q && !(host st more).cmdWaits op e) : Fetches op e (host st more) := by
  simp only [Bool.and_eq_true, Bool.not_eq_true'] at h
  exact ⟨h1, h2, h3, h.1, h.2⟩
/-- A state of each command can fetch its entry (the hypothesis of the statements on commands). -/
theorem test_fetches : Fetches 0 (ent []) (host 1) ∧ Fetches 5 (ent []) (host 3) ∧ Fetches 0x10 (ent []) (host 0) :=
  ⟨fetches_host _ _ _ _ (by decide) (by decide) rfl (by decide +kernel), fetches_host _ _ _ _ (by decide) (by decide) rfl (by decide +kernel),
    fetches_host _ _ _ _ (by decide) (by decide) rfl (by decide +kernel)⟩

/-- NOP, WRITE_HBM, READ_HBM (R418, R420): bytes 8 to 71 of the data area; an unaligned offset is BOUNDS. -/
def e_w (off : Nat) : SqEntry := { ent with offset := off, data := List.replicate 64 7 }
theorem test_nop : ((run (.cmdNop (ent)) (host 1)).hostQ 0 0).sqHead == 1 && ((run (.cmdNop (ent)) (host 1)).hostQ 0 0).cqTail == 1 &&
    fget noMark (run (.cmdNop (ent)) (host 1)).irq 0 && still (.cmdNop (ent)) up && status 0 (ent) (host 1) == 0 := by decide +kernel
theorem test_write_hbm : (memByte (run (.writeHbm (e_w 64)) (host 2)).hbm 127 == 7 && memByte (run (.writeHbm (e_w 64)) (host 2)).hbm 128 == 0 &&
    status 1 (e_w 64) (host 2) == 0 && status 1 (e_w 32) (host 2) == 3 && status 1 (e_w 64) (host 0) == 5 && (run (.writeHbm (e_w 32)) (host 2)).hbm.isEmpty &&
    (host 2).copyArea (e_w 64) 0 true == some 64) = true := by decide +kernel
theorem test_read_hbm : (let s := { host 2 with hbm := words 64 [0x55], hostQs := [(0, { sqTail := 1, cqTail := 5 })] }
    status 2 (e_w 64) s == 0 && memRead (s.command false 2 (e_w 64) none false).s.hostMem 0x10000 4 == 0x55) = true := by decide +kernel
/-- BAR2 (R412, R420). -/
theorem test_bar2 : ((run (.hostBar2Read 0 4092 4) { svc with hbm := words 4092 [0x77] }).readVal == 0x77 && (run (.hostBar2Read 1 0 4) svc).readStat == 2 &&
    memByte (run (.hostBar2Write 0 5 [9, 8] false) svc).hbm 6 == 8 && still (.hostBar2Write 1 5 [9] false) svc && svc.bar2 0 4092 4 false == some 4092) = true := by
  decide +kernel
/-- Doorbells (R417, R422): within, beyond and with a queue that is not enabled. -/
theorem test_doorbells : (((run (.sqTailDoorbell 0 0 15) (host 1)).hostQ 0 0).sqTail == 15 && (run (.sqTailDoorbell 0 0 16) (host 1)).rd (qf HST_SQB_ERR 0 0) == 1 &&
    (run (.sqTailDoorbell 0 1 0) (host 1)).rd (qf HST_SQB_ERR 0 1) == 1 && still (.sqTailDoorbell 0 0 2) { host 1 with hostQs := [(0, { sqStop := true })] } &&
    ((run (.sqTailDoorbell 0 0 3) { host 1 with hostQs := [(0, { sqTail := 10, sqHead := 4 })] }).hostQ 0 0).sqTail == 19 &&
    ((run (.sqTailDoorbell 0 0 0) { host 1 with hostQs := [(0, { sqTail := 1 })] }).hostQ 0 0).sqTail == 16 &&
    ((run (.sqTailDoorbell 0 0 5) { host 1 with hostQs := [(0, { sqTail := 10 })] }).hostQ 0 0).sqStop) = true := by decide +kernel
theorem test_cq_egr_doorbells : (((run (.cqHeadDoorbell 0 0 3) { host 1 with hostQs := [(0, { cqTail := 3 })] }).hostQ 0 0).cqHead == 3 &&
    ((run (.cqHeadDoorbell 0 0 4) { host 1 with hostQs := [(0, { cqTail := 3 })] }).hostQ 0 0).cqStop &&
    (fget hostring0 (run (.egrHeadDoorbell 0 2 5) { host 1 [(qf HST_ERB_ENABLE 0 2, 1)] with hostRings := [(2, { tail := 4 })] }).hostRings 2).head == 4 &&
    (run (.egrHeadDoorbell 0 2 5) (host 1)).rd (qf HST_ERB_ERR 0 2) == 1) = true := by decide +kernel
theorem test_function_resets : ((run (.functionLevelReset 0) (host 1)).rd (qf HST_SQB_ENABLE 0 0) == 0 && (run (.functionLevelReset 1) (host 1)).rd (qf HST_SQB_ENABLE 0 0) == 1 &&
    (run (.perstAssert 0) (host 1)).hostQs.isEmpty && still (.perstAssert 1) (host 1 [(MGT_STRAPS_HOSTPORT, 1)])) = true := by decide +kernel

/-- The niche commands (R418, R424 to R432). A start in FREE; a reset keeps scratchpads; SET_WINDOW, BIND_VF and BIND write. -/
theorem test_niche_create : (let t := run (.nicheCreate (ent [1, 2, 2, 1])) (host 0)
    t.nicheState 0 == 1 && fget noMark t.regions 6 && fget noMark t.regions 7 && !fget noMark t.regions 8 && t.nicheHas 0 26 && !t.nicheHas 0 27 && t.nicheHas 0 25 && (host 0).createOk 1 2 2 1 false && status 0x10 (ent [1, 2, 12, 1]) (host 0) == 6 &&
    (host 0).obj 0x5010 1 != 0) = true := by decide +kernel
theorem test_start_stop : (let t := run (.cmdStart (ent [1])) (host 2)
    t.nicheState 0 == 3 && t.frameMode 0 == 1 && (t.niche 0).fresh && (run (.cmdStop (ent)) (host 3 [(TMB_NFRAME_MODE.by16 0, 1)])).nicheState 0 == 2 &&
    (run (.cmdStop (ent)) (host 3 [(TMB_NFRAME_MODE.by16 0, 1)])).frameMode 0 == 0) = true := by decide +kernel
def s_nrst : State := { host 3 with cells := [(0, { spd := [(5, 9)], tags := [⟨3, 0, .send, 0, 0, 0, 0, 0, 0⟩] })], resets := [⟨3, 0, 6, 0, 0, 0, none, 0⟩] }
theorem test_niche_reset : ((run (.nicheReset 0 (some (ent))) { s_nrst with resets := [] }).nicheState 0 == 1 && (run (.nicheReset 0 none) s_nrst).nicheState 0 == 1 &&
    ((run (.nicheReset 0 none) s_nrst).cell 0).tags.isEmpty && memByte ((run (.nicheReset 0 none) s_nrst).cell 0).spd 5 == 9 &&
    (run (.nicheReset 0 none) s_nrst).resets.isEmpty && (run (.nicheReset 0 none) s_nrst).rd (NCH_STATE_RESETS.niche 0) == 1) = true := by decide +kernel
set_option maxRecDepth 100000 in
theorem test_niche_destroy : ((run (.nicheDestroy (ent)) { host 2 with hbm := [(70, 9), (70000, 8)] }).nicheState 0 == 0 &&
    memByte (run (.nicheDestroy (ent)) { host 2 with hbm := [(70, 9), (70000, 8)] }).hbm 70 == 0 &&
    memByte (run (.nicheDestroy (ent)) { host 2 with hbm := [(70, 9), (70000, 8)] }).hbm 70000 == 8 && !(run (.nicheDestroy (ent)) (host 2)).nicheHas 0 0) = true := by
  decide +kernel
/-- HBM_NWIN03 example 0x8004_0000_0001_0000 (R318): window 0 of 262,144 segments from segment 0x10000. -/
def e_win (w : Nat) (v : Nat) : SqEntry := ent ([BitVec.ofNat 8 w] ++ List.replicate 7 0 ++ valBytes v 8)
theorem test_set_window : ((run (.setWindow (e_win 0 0x8000000200000010)) (host 1)).window 0 0 == some (16, 2) &&
    (run (.setWindow (e_win 0 0)) (host 1)).window 0 0 == none && status 0x13 (e_win 0 0x803FFFFF003FFFFF) (host 1) == 6 &&
    status 0x13 (e_win 0 0x8000000200000010) { host 1 with mgmt := { badSegs := [17] } } == 6) = true := by decide +kernel
theorem test_bind_vf : ((run (.bindVf (ent [3, 0])) (host 1)).rd (NCH_CFG_VFA.niche 0) == 2 && (run (.bindVf (ent [3, 0])) (host 1)).boundNiche 3 == some 0 &&
    (run (.bindVf (ent [0, 0])) (host 1 [(NCH_CFG_VFA_VALID.niche 0, 1)])).rd (NCH_CFG_VFA_VALID.niche 0) == 0 &&
    status 0x12 (ent [3, 0]) (host 1 [(NCH_CFG_VALID.niche 1, 1), (NCH_CFG_AX.niche 1, 3), (NCH_CFG_VFA_VALID.niche 1, 1), (NCH_CFG_VFA.niche 1, 2)]) == 6) = true := by
  decide +kernel
/-- Ring 12 of R431's example, NCH_RING12 = 0x8300_7F00_0001_0000, in niche 3, and a binding of type 1 to it. -/
def e_bind (kind num v : Nat) : SqEntry := ent ([BitVec.ofNat 8 kind, 0] ++ valBytes num 2 ++ List.replicate 4 0 ++ valBytes v 8)
theorem test_bind : ((run (.bind (e_bind 0 511 0x9000000000000007)) (host 1 [(NCH_RING_ENABLE.by16 7, 1)])).rd (NCH_BIND_FIELD.by8 511) == 7 &&
    status 0x14 (e_bind 0 511 0x9000000000000007) (host 1 [(NCH_RING_ENABLE.by16 7, 1), (NCH_RING_NICHE.by16 7, 3)]) == 6 &&
    (host 1 [(NCH_RING_ENABLE.by16 7, 1)]).bindRefused 0 511 0x9000000000000007 == false) = true := by decide +kernel

/-- Ring 4 of court 0, two slots from plinth address 0x1000. -/
def ringed (st dir : Nat) (more : List (Fld × Nat) := []) : State :=
  host st ([(NCH_RING_ENABLE.by16 4, 1), (NCH_RING_DIR.by16 4, dir), (NCH_RING_SLOTS.by16 4, 127), (NCH_RING_BASE.by16 4, 16)] ++ more)
theorem test_ingress : (let t := run (.ingressEntryArrive 4 0x123 [1, 2] false) { ringed 3 0 with cycle := 90 }
    memRead (t.court 0).plinth 0x1000 4 == 0x201 && memRead (t.court 0).plinth 0x10F8 2 == 0x123 && memRead (t.court 0).plinth 0x10FA 2 == 2 &&
    t.rd (NCH_RST_COUNT.by16 4) == 1 && t.rd (NCH_RST_WR.by16 4) == 1 && (t.ring 4).seq == 1 && still (.ingressEntryArrive 4 0 [1] false) (ringed 3 1) &&
    (run (.ingressEntryArrive 4 0 [1] false) (ringed 3 0 [(NCH_RST_COUNT.by16 4, 64)])).rd (NCH_RST_DROP_CNT.by16 4) == 1 && (ringed 3 0).pairOfIngress 4 == none) = true := by
  decide +kernel
def s_egr : State := { ringed 3 1 [(NCH_EGR_DEST.by8 4, 0x77), (NCH_EGR_LINK.by8 4, 5)] with courts := [(0, { plinth := words 0x1000 [0xABCD] ++ memWrite [] 0x10FA 2 4 })] }
theorem test_egress : (let p := (fget nil0 ((run (.egressSlotWrite 4 0) s_egr).link 5).out 2)
    p.length == 1 && decide (p.map (fun p => (p.dest, p.payload)) = [(0x77, [0xCD, 0xAB, 0, 0])]) && s_egr.pairOfEgress 4 == none &&
    (run (.egressSlotWrite 4 0) { s_egr with courts := [(0, { s_egr.court 0 with plnPoison := [(0x400, true)] })] }).rd (NCH_RST_DROP_CNT.by16 4) == 1) = true := by decide +kernel
theorem test_pend_wait : (still (.pendWaitExpiry 7) up && ((run (.pendWaitExpiry 7) { up with pends := [(7, { held := [(0, 5, [])] })] }).pend 7).singles == 1 &&
    (run (.pendWaitExpiry 7) { up with pends := [(7, { held := [(0, 5, [])] })] }).rd (RES_PEND_CNT_SINGLE.by16 7) == 1) = true := by decide +kernel
/-- INGRESS_POST through a binding of type 1 does what the arrival does (R418). -/
def s_post : State := ringed 3 0 [(NCH_BIND_VALID.by8 2, 1), (NCH_BIND_TYPE.by8 2, 1), (NCH_BIND_FIELD.by8 2, 4)]
def e_post : SqEntry := { ent [2, 0] with length := 2, data := [5, 6] }
theorem test_ingress_post : (memRead ((run (.ingressPost e_post) s_post).court 0).plinth 0x1000 4 == 0x605 && status 7 e_post s_post == 0) = true := by decide +kernel

/-- Frames (R309, R390 to R392, R471). -/
def framed (mode : Nat) (n : Niche := {}) : State := { ringed 3 0 [(TMB_NFRAME_MODE.by16 0, mode), (TMB_NFRAME_FRAME_LEN.by16 0, 299)] with niches := [(0, n)], cycle := 1000 }
theorem test_frame_triggers : (((run (.frameTriggerFree 0) (framed 1)).niche 0).edges.length == 1 && still (.frameTriggerFree 0) (framed 1 { trig := some 701 }) &&
    ((run (.frameTriggerFree 0) (framed 1 { trig := some 700 })).niche 0).count == 1 && still (.frameTriggerEvent 0) (framed 2) &&
    ((run (.frameTriggerEvent 0) (run (.ingressEntryArrive 4 0 [1] false) (framed 2))).niche 0).edges.length == 1 &&
    (run (.frameTriggerEvent 0) (run (.ingressEntryArrive 4 0 [1] false) (framed 2))).rd (NCH_RST_COUNT.by16 4) == 0 && (framed 1).genOn 0) = true := by decide +kernel
theorem test_frame_pod : ((framed 3).podTick 0 == 0 && ((run (.frameTriggerPod 0) (framed 3)).niche 0).edges.length == 1 && still (.frameTriggerPod 0) (framed 1)) = true := by
  decide +kernel
def waiting : Cell := { ctxs := [(1, { state := .blocked, wait := .time, waitEdge := true })] }
set_option maxRecDepth 100000 in
theorem test_frame_edge : (let s := { framed 1 { edges := [⟨1000, 0, 5, none⟩] } with cells := [(3, waiting)] }
    (((run (.frameEdge 0) s).cell 3).ctx 1).state == .ready && ((run (.frameEdge 0) s).court 0).edge == some 1000 && ((run (.frameEdge 0) s).niche 0).edges.isEmpty &&
    still (.frameEdge 0) (framed 1 { edges := [⟨1001, 0, 5, none⟩] })) = true := by decide +kernel
set_option maxRecDepth 100000 in
theorem test_maquette : (let s := { framed 1 { edges := [⟨1000, 0, 5, none⟩], mq := true } with cells := [(3, { ctxs := [(0, { state := .running }), (3, { state := .halted })] })] }
    ((run (.maquetteActivate 0) s).niche 0).mqOn && (((run (.maquetteActivate 0) s).cell 3).ctx 3).state == .ready &&
    (((run (.maquetteActivate 0) s).cell 3).ctx 0).state == .halted && still (.maquetteActivate 0) (framed 1)) = true := by decide +kernel
theorem test_mode_write : ((run (.tmbNframeModeWrite 0 (1 <<< 30)) (framed 0)).frameMode 0 == 1 && ((run (.tmbNframeModeWrite 0 (1 <<< 30)) (framed 0)).niche 0).count == 1 &&
    (run (.tmbNframeModeWrite 0 0) (framed 1)).frameMode 0 == 0 && (run (.tmbNframeModeWrite 0 (3 <<< 30)) (framed 0)).rd (TMB_NFRAME_FRAME_ERR.by16 0) == 1) = true := by
  decide +kernel

/-- Register writes (R13, R14, R582). -/
theorem test_reg_write : ((run (.regWrite { space := 4, unit := 0, off := 8, v := 0x20, who := some 0 }) svc).rd (qf HST_SQB_ENABLE 0 1) == 1 &&
    (run (.regWrite { space := 4, unit := 0, off := 8, v := 0x20, who := some 0 }) up).rd (qf HST_SQB_ERR 0 1) == 1 &&
    ((run (.regWrite { space := 3, unit := 0, off := 0x410, v := 0x3FF }) up).ctxOf x0).pc == 1023 &&
    still (.regWrite { space := 0, unit := 0, off := 0x7A00, v := 0 }) up && (run (.regWrite { space := 0, unit := 0, off := 0x7A00, v := 9 }) up).mgmt.gsnap &&
    (run (.regWrite { space := 0, unit := 0, off := 0x7A02, v := 9 }) up).readStat == 2 &&
    ((run (.regWrite { space := 2, unit := 0, off := 0x1050, v := 1 }) (ct up { waiters := [wtr 4 9] })).court 0).rd (SYN_CFG_CFG_ERR.syn 5) == 1) = true := by
  decide +kernel
theorem test_gpio : ((run (.gpioFuncWrite 0x10) up).pinCode 1 == 1 && (fget hold0 (run (.gpioFuncWrite 0x10) up).mgmt.holds 1).left == 144 &&
    (run (.gpioFuncWrite 0x70) up).pinCode 1 == up.pinCode 1) = true := by decide +kernel

/-- A cast of one court: a record of CELL_TABLE for every cell, one instruction word for context 0 of cell (1, 0), nothing else (R292 to
R294). Its CRC-32C values were computed outside the model. -/
def hdr : List (BitVec 8) :=
  valBytes 0x54534143 4 ++ valBytes 2 4 ++ valBytes 128 4 ++ valBytes 6 4 ++ valBytes 3456 8 ++ [1, 0xB1, 1, 1, 0, 0, 0, 7]
    ++ valBytes 300 4 ++ [1, 0, 1, 0] ++ List.replicate 84 0 ++ valBytes 0xaaaa04e9 4
def castTab : List (BitVec 8) :=
  [(1, 320, 3072, 0xc32fc602), (2, 3392, 12, 0x89e25e5), (3, 3456, 0, 0), (4, 3456, 0, 0), (5, 3456, 0, 0), (0xD, 3456, 0, 0)].flatMap
    (fun (x : Nat × Nat × Nat × Nat) => valBytes x.1 8 ++ valBytes x.2.1 8 ++ valBytes x.2.2.1 8 ++ valBytes x.2.2.2 8)
def cast1 (h : List (BitVec 8) := hdr) : List (BitVec 8) :=
  h ++ castTab ++ (List.range 64).flatMap (fun j => valBytes (j % 8 + 256 * (j / 8)) 48) ++ [1, 0, 0, 0, 5, 0, 0, 0, 0x34, 0x12, 0, 0]
    ++ List.replicate 52 0
/-- The floor of TEST_PCT is 0 here, so that the cast needs no test windows. -/
def s_load : State := { host 1 [(PWR_STATUS_NV_OK, 1)] with objects := [(0x4042 * 256, 0)] }
def e_load : SqEntry := ent [0, 0xFF]
set_option maxRecDepth 100000 in
theorem test_cast_header : (headerBad (parseCast (cast1 (hdr.set 0 0))) && status 3 e_load s_load (some (cast1 [])) == 8 &&
    (parseCast cast1).cells.length == 64 && relocOf (valBytes 0x0002000000100503 8) == ⟨2, 16, 5, 3⟩) = true := by decide +kernel
set_option maxRecDepth 100000 in
theorem test_cast_checks : s_load.castFirst 0 (parseCast cast1) = none := by decide +kernel
set_option maxRecDepth 100000 in
theorem test_cast_fifth : ((s_load.relocated 0 (parseCast cast1)).isSome && (s_load.applyRings 0 (parseCast cast1) false).isSome &&
    s_load.castFifth 0 (parseCast cast1) 1 0xFF == some 23 && s_load.castFifth 0 (parseCast cast1) 0 0xFF == none && s_load.quiescent 0) = true := by
  decide +kernel
/-- A word relocated for a niche at court (2, 1) (R298): kind 1 adds 8 to X + 16. -/
theorem test_relocation : adjust 2 1 0 0 1 (mkId 3 4) = mkId 19 12 ∧ adjust 2 1 0 0 2 5 = 5 + 2 * 128 + 2048 := by decide
set_option maxRecDepth 100000 in
theorem test_load : (let t := run (.loadCast cast1 e_load false) s_load
    fget w0 (t.cell 1).istore 5 == 0x1234 && t.nicheState 0 == 2) = true := by decide +kernel
set_option maxRecDepth 100000 in
theorem test_load_fault : (run (.loadCast cast1 e_load true) s_load).nicheState 0 = 5 := by decide +kernel
/-- The bucket for (40, 200) of R306's example. -/
theorem test_buckets : bucketFor [[32, 128, 1], [64, 256, 1], [128, 512, 1]] [40, 200, 1] = some 1 := by decide +kernel

/-! ### Links, pod time, collectives -/

/-- Link 0 in a state of R366, with more fields of it. -/
def lk (st : Nat) (k : Link := {}) (more : List (Fld × Nat) := []) : State :=
  { dk svc 0 ((LNK_STATUS_STATE, st) :: more) with links := fset link0 [] 0 k }
/-- Link 0 after a command. -/
def lnk (c : Instr) (s : State) : Link := (run c s).link 0
/-- Its state. -/
def lst (c : Instr) (s : State) : Nat := (run c s).lstate 0
theorem test_link_live : LinkLive 0 (lk 6) := ⟨by decide, by decide, by decide +kernel⟩

/-- The worked examples of R373 and R378. -/
def ev40 : Packet := { mclass := 5, vl := 2, nhops := 1, hidx := 1, dest := 3, src := 0x801, dst := 0x02A, payload := List.replicate 40 1 }
theorem test_delay_example : (delayPs 2480 157200 == 7511 && packetHeader ev40 == 0x58014088000000000000000003 * 2 ^ 24 + 0x80102A &&
    (packetFrames ev40).map frameHeader == [0x1B0000000000000000000038] &&
    frameHeader { ftype := 1, vl := 2, sop := true, eop := true, seq := 0x1234, ack := 0x456, crd := [0, 5, 17, 0], ackv := true
                  payload := List.replicate 56 0 } == 0x1B0012340004560111408038) = true := by decide +kernel

/-- Frames (R355 to R361). -/
def fr (seq : Nat) (eop : Bool := true) : Frame := { ftype := 1, vl := 2, sop := true, eop := eop, seq := seq, payload := valBytes (packetHeader ev40) 16 ++ ev40.payload }
def old : Frame := { ftype := 1, vl := 1, seq := 3 }
def sent : Link := { retry := [(old, ev40)], expect := 7 }
theorem test_data_frame : ((lnk (.zovarDataFrame 0 (fr 7)) (lk 6 { expect := 7 })).rx.map (fun p => (p.src, p.dest, p.payload.length)) == [(0x801, 3, 40)] &&
    (lnk (.zovarDataFrame 0 (fr 7)) (lk 6 { expect := 7 })).expect == 8 && (lnk (.zovarDataFrame 0 (fr 7 false)) (lk 6 { expect := 7 })).rx.isEmpty &&
    (lnk (.zovarDataFrame 0 (fr 9)) (lk 6 { expect := 7 })).nak && !(lnk (.zovarDataFrame 0 (fr 6)) (lk 6 { expect := 7 })).nak &&
    lst (.zovarDataFrame 0 (fr 7)) (lk 6 { expect := 7, held := [(2, 64)] }) == 7 && still (.zovarDataFrame 0 (fr 0)) (lk 5)) = true := by decide +kernel
theorem test_idle_frame : ((lnk (.zovarIdleFrame 0 { ftype := 0, ack := 3, ackv := true, crd := [1, 70, 0, 0] }) (lk 6 sent)).retry.isEmpty &&
    fget z0 (lnk (.zovarIdleFrame 0 { ftype := 0, ack := 3, ackv := true, crd := [1, 70, 0, 0] }) (lk 6 sent)).back 1 == 6 &&
    (lnk (.zovarIdleFrame 0 { ftype := 0, nak := true }) (lk 6 sent)).replay == [old] && (lnk (.zovarIdleFrame 0 { ftype := 0, nak := true }) (lk 6 sent)).replays == 1) = true := by
  decide +kernel
theorem test_replay_timeout : ((lnk (.replayTimeout 0) (lk 6 sent)).replay == [old] && lst (.replayTimeout 0) (lk 6 { sent with replays := 8 }) == 7 &&
    still (.replayTimeout 0) (lk 6) && (lnk (.zovarBadFrame 0 true) (lk 6)).nak && (run (.zovarBadFrame 0 true) (lk 6)).lrd 0 LNK_CNT_CRC_ERR == 1 &&
    !(lnk (.zovarBadFrame 0 true) (lk 6 { episode := true })).nak) = true := by decide +kernel
def out1 : Packet := { mclass := 1, vl := 1, payload := List.replicate 300 2 }
theorem test_tx_slot : ((lnk (.txFrameSlot 0) (lk 6 { sent with replay := [old] })).replay.isEmpty &&
    ((lnk (.txFrameSlot 0) (lk 6 sent)).lastTx.map (fun f => (f.ftype, f.ackv, f.ack))) == some (0, true, 6) &&
    (let k := lnk (.txFrameSlot 0) (lk 6 { out := [(1, [out1])], txSeq := 9 } [(LNK_CREDIT_PB1, 32)])
     k.txSeq == 10 && k.retry.map (fun x => x.1.seq) == [9] && (fget nil0 k.cur 1).length == 1 && fget z0 k.used 1 == 1) &&
    (lk 6).maySend 0 out1 && (packetFrames out1).length == 2) = true := by decide +kernel

/-- States (R366 to R371). -/
theorem test_link_enable : (lst (.linkEnableWrite 0 true) (lk 0) == 0 && lst (.linkEnableWrite 0 true) { lk 0 with objects := [(0x3800 * 256, 5)] } == 1 &&
    lst (.linkEnableWrite 0 true) (lk 6) == 6 && lst (.linkEnableWrite 0 false) (lk 6 sent) == 0 && lst (.linkRetrain 0) (lk 6) == 7 &&
    lst (.linkRetrain 0) (lk 8) == 1 && lst (.linkRetrain 0) (lk 9) == 1 && still (.linkRetrain 0) (lk 3)) = true := by decide +kernel
theorem test_link_detect : (lst (.linkDetect 0 true true) (lk 1) == 2 && (run (.linkDetect 0 true false) (lk 1)).lrd 0 LNK_STATUS_WIDTH == 1 &&
    still (.linkDetect 0 false false) (lk 1) && still (.linkDetect 0 true true) (lk 2)) = true := by decide +kernel
theorem test_ber_window : (lst (.berWindowEnd 0 0x38D1B717 0) (lk 2) == 2 && (lnk (.berWindowEnd 0 0x38D1B717 0) (lk 2)).fecReq &&
    (run (.berWindowEnd 0 0 0x38D1B718) (lk 2)).lrd 0 LNK_STATUS_RATE == 1 && lst (.berWindowEnd 0 0 0x38D1B718) (lk 2 {} [(LNK_STATUS_RATE, 1)]) == 8 &&
    still (.berWindowEnd 0 0 0) (lk 3)) = true := by decide +kernel
theorem test_eq_done : (lst (.linkEqDone 0 0 0) (lk 2) == 3 && lst (.linkEqDone 0 1 0) (lk 2) == 8 && (lnk (.linkEqDone 0 1 0) (lk 2 { full := false })).full &&
    lst (.linkEqDone 0 2 1) (lk 2) == 8 && still (.linkEqDone 0 0 0) (lk 3)) = true := by decide +kernel
theorem test_lock : (lst (.linkLock 0) (lk 3 {} [(LNK_CTRL_EDGE, 1)]) == 4 && (lnk (.linkLock 0) (lk 3 {} [(LNK_CTRL_EDGE, 1)])).edge && (lnk (.linkLock 0) (lk 7)).locked &&
    lst (.linkLockLost 0) (lk 6) == 7 && still (.linkLockLost 0) (lk 3) && lst (.lockTExpiry 0) (lk 3) == 2 && lst (.lockTExpiry 0) (lk 3 { lockFails := 2 }) == 8) = true := by
  decide +kernel
theorem test_expiries : (lst (.negTExpiry 0) (lk 4) == 8 && still (.negTExpiry 0) (lk 5) && lst (.holdTExpiry 0) (lk 5 { txSeq := 9 }) == 6 &&
    (lnk (.holdTExpiry 0) (lk 5 { txSeq := 9 })).txSeq == 0 && lst (.deadTExpiry 0) (lk 6) == 7 && still (.deadTExpiry 0) (lk 7) &&
    lst (.recoverTExpiry 0) (lk 7) == 7 && lst (.recoverTExpiry 0) (lk 7 { recFails := 2 }) == 8) = true := by decide +kernel
theorem test_down : (lst (.downHoldExpiry 0) (lk 8) == 1 && lst (.downHoldExpiry 0) (lk 8 {} [(LNK_CTRL_AUTO_RESTART, 0)]) == 0 && still (.downHoldExpiry 0) (lk 6) &&
    (lnk (.linkDown 0) (lk 8 sent)).retry.isEmpty && still (.linkDown 0) (lk 6 sent) && lst (.fecDegrade 0 none) (lk 6) == 7 && (lnk (.fecDegrade 0 none) (lk 6)).rs &&
    (run (.fecDegrade 0 none) (lk 6)).lrd 0 LNK_STATUS_FEC == 1 && still (.fecDegrade 0 (some 1)) (lk 6 {} [(LNK_STATUS_FEC, 1)])) = true := by decide +kernel
def hello (dev : Nat) (vmin vmax : Nat) : Frame :=
  { ftype := 2, payload := [BitVec.ofNat 8 vmax, BitVec.ofNat 8 vmin] ++ valBytes dev 2 ++ [9, 0, 1, 0] ++ valBytes 0xDFF 8 ++ [8, 32, 16, 8] ++ valBytes 0 4 }
theorem test_hello : ((run (.zovarHello 0 (hello 0x10 1 3)) (lk 4)).lrd 0 LNK_STATUS_VER == 3 && (run (.zovarHello 0 (hello 0x10 1 3)) (lk 4)).lrd 0 LNK_PARTNER_ID_DEV_ID == 0x10 &&
    (run (.zovarHello 0 (hello 0x10 1 3)) (lk 4)).lrd 0 LNK_PARTNER_ID_PORT == 9 && lst (.zovarHello 0 (hello 0x10 1 3)) (lk 4) == 4 &&
    lst (.zovarHello 0 (hello 0x10 4 5)) (lk 4) == 8 && lst (.zovarHello 0 (hello 0x10 1 3)) (lk 6) == 7 && lst (.zovarHello 0 (hello 0x10 1 3)) (lk 7 { locked := true }) == 8 &&
    (lnk (.helloTSend 0) (lk 4)).lastTx.map (fun f => (f.ftype, f.payload.length)) == some (2, 24) && still (.helloTSend 0) (lk 6)) = true := by decide +kernel
theorem test_ping : ((lnk (.measTPing 0 1000) (lk 6 { pingId := 5 })).pings == [(5, 1000)] && (lnk (.measTPing 0 1000) (lk 6 { pingId := 5 })).lastTx.map (fun f => (f.ftype, f.payload)) == some (3, [5, 0]) &&
    (lnk (.zovarPing 0 { ftype := 3, payload := [5, 0] } 157200) (lk 6)).lastTx.map (fun f => (f.ftype, f.payload)) == some (4, [5, 0, 0, 0, 0x10, 0x66, 2, 0])) = true := by decide +kernel
/-- The exchange of R373's example. -/
theorem test_pong : (let s := lk 6 { pings := [(5, 1000)] } [(LNK_DELAY_DELAY_PS, 7000)]
    let f : Frame := { ftype := 4, payload := [5, 0, 0, 0, 0x10, 0x66, 2, 0] }
    (lnk (.zovarPong 0 f 3480) s).meas == [7511] && (lnk (.zovarPong 0 f 3480) s).pings.isEmpty && (lnk (.zovarPong 0 f 200000) s).meas.isEmpty &&
    still (.zovarPong 0 f 3480) (lk 6)) = true := by decide +kernel

/-- Packets (R362, R364, R365). Binding 3 is of niche 0, of a type, at segment or ring 0. -/
def bnd (ty : Nat) (k : Link) (more : List (Fld × Nat) := []) : State :=
  pk (lk 6 { k with niche := some 0 } [(LNK_PARTNER_FEATURES, 0xFFF)]) ([(NCH_BIND_VALID.by8 3, 1), (NCH_BIND_TYPE.by8 3, ty), (NCH_BIND_SIZE_SEG.by8 3, 1), (NCH_CFG_VALID.niche 0, 1),
      (NCH_STATE_STATE.niche 0, 3), (HBM_NWIN0_VALID.niche 0, 1), (HBM_NWIN0_SIZE_SEG.niche 0, 1), (TMB_TICK_TICK, 100)] ++ more)
def here (mclass vl : Nat) (pl : List (BitVec 8)) : Packet := { mclass := mclass, vl := vl, dest := 3, src := 5, dst := 0xFFF, payload := pl }
def refusals (p : Packet) (k : Link := {}) (ty : Nat := 2) : List Nat := ((run (.packetReceive 0) (bnd ty { k with rx := [p] })).events.flatMap (fun e => e.2.map (fun x => x.code)))
def p_desc (off : Nat) (obj : Nat := 0xFFFFFFFF) : Packet := here 1 1 (valBytes off 8 ++ valBytes obj 4 ++ valBytes 7 4 ++ List.replicate 64 0xAA)
def p_sync : Packet := here 2 2 ([1, 0, 0, 0] ++ valBytes 9 4 ++ valBytes 6 8)
def p_slot (tick : Nat) : Packet := here 3 0 (valBytes tick 8 ++ valBytes (3 * 2 ^ 16) 56 ++ List.replicate 64 0xBB)
theorem test_receive_kept : ((lnk (.packetReceive 0) (bnd 2 { rx := [p_desc 0] })).inbox == [p_desc 0] && (lnk (.packetReceive 0) (bnd 3 { rx := [p_sync] })).inbox == [p_sync] &&
    (lnk (.packetReceive 0) (bnd 0 { rx := [here 7 3 [1]] })).inbox.length == 1 && (lnk (.packetReceive 0) (bnd 0 { rx := [here 4 3 [1]] })).inbox.length == 1 &&
    (lnk (.packetReceive 0) (bnd 1 { rx := [here 5 2 [1]], edge := true })).inbox.length == 1 && (lnk (.packetReceive 0) (bnd 4 { rx := [here 3 1 (List.replicate 64 0)] })).inbox.length == 1 &&
    (lnk (.packetReceive 0) (bnd 2 { rx := [p_slot 500] })).late == [p_slot 500] && still (.packetReceive 0) (bnd 2 {})) = true := by decide +kernel
theorem test_receive_refused : (refusals { p_desc 0 with hidx := 0 } == [0xC] && refusals { p_desc 0 with hidx := 9, nhops := 9 } == [0xC] && refusals { p_desc 0 with dst := 4 } == [0xC] &&
    refusals { p_desc 0 with nhops := 2 } == [0xC] && refusals { p_desc 0 with vl := 3 } == [0xD] && refusals { p_desc 0 with dest := 4 } == [0xE] &&
    (run (.packetReceive 0) (bnd 2 { rx := [{ p_desc 0 with dst := 4 }] })).lrd 0 LNK_CNT_REFUSED == 1) = true := by decide +kernel
theorem test_transit : (let p := { p_desc 0 with nhops := 2, route := [0, 1] }
    let s := dk (bnd 2 { rx := [p], transit := true }) 0 [((LNK_STATUS_STATE).lnk 1, 6)]
    let t := run (.packetReceive 0) { s with links := fset link0 s.links 1 { transit := true } }
    fget nil0 (t.link 1).out 1 == [{ p with hidx := 2, via := 1 }] && (t.link 0).rx.isEmpty && t.events.isEmpty) = true := by decide +kernel
theorem test_pkt_desc : (memByte (run (.pktDesc 0) (bnd 2 { inbox := [p_desc 64] })).hbm 127 == 0xAA && memByte (run (.pktDesc 0) (bnd 2 { inbox := [p_desc 64] })).hbm 128 == 0 &&
    (run (.pktDesc 0) (bnd 2 { inbox := [p_desc 32] })).hbm.isEmpty && (run (.pktDesc 0) (bnd 2 { inbox := [p_desc 32] })).lrd 0 LNK_CNT_REFUSED == 1 &&
    ((run (.pktDesc 0) (bnd 2 { inbox := [p_desc 0 9] })).court 0).syncIn.map (fun m => (m.info, bytesVal m.payload 4)) == [([1, 9], 7)] &&
    still (.pktDesc 0) (bnd 2 { inbox := [p_sync] })) = true := by decide +kernel
theorem test_pkt_others : (((run (.pktSync 0) (bnd 3 { inbox := [p_sync] })).court 0).syncIn.map (fun m => (m.info, bytesVal m.payload 4)) == [([1, 9], 6)] &&
    fget z0 (lnk (.pktSync 0) (bnd 3 { inbox := [p_sync], held := [(2, 1)] })).freed 2 == 1 && (lnk (.pktEdgeIn 0) (bnd 1 { inbox := [here 5 2 [1]] })).inbox.isEmpty &&
    (fget nil0 (run (.pktMgmt 0) (bnd 0 { inbox := [here 7 3 [1, 2]] })).mailbox 0).map (fun m => (m.payload, m.src)) == [([1, 2], 5)] &&
    still (.pktSync 0) (bnd 0 {}) && still (.pktEdgeIn 0) (bnd 0 {}) && still (.pktMgmt 0) (bnd 0 {})) = true := by decide +kernel
theorem test_vl0_deliver : (memByte (run (.vl0Deliver 0) (bnd 2 { late := [p_slot 100] })).hbm 63 == 0xBB && still (.vl0Deliver 0) (bnd 2 { late := [p_slot 101] })) = true := by
  decide +kernel

/-- Pod time (R383 to R386). The device is 0x20; link 0 is a TIME link. -/
def pod (k : Link := {}) (more : List (Fld × Nat) := []) : State :=
  { pk (lk 6 k [(LNK_PARTNER_FEATURES, 0xFFF)]) ((TMB_TICK_TICK, 1000) :: more) with objects := [(0x3800 * 256, 0x20)] }
def p_ann (leader hops seq : Nat) : Packet := here 4 3 (valBytes 1 2 ++ valBytes leader 2 ++ valBytes hops 2 ++ valBytes seq 2)
theorem test_announce_send : ((run .announceSend (pod)).rd TMB_STATUS_STATE == 2 && (run .announceSend (pod)).rd TMB_STATUS_LEADER_ID == 0x20 &&
    (fget nil0 (lnk .announceSend (pod)).out 3).map (fun p => p.payload) == [[1, 0, 0x20, 0, 0, 0, 1, 0]] && still .announceSend (pod {} [(TMB_CTRL_ENABLE, 0)]) &&
    (fget nil0 (lnk .announceSend (pod {} [(TMB_STATUS_PARENT_VALID, 1), (TMB_STATUS_LEADER_ID, 7), (TMB_STATUS_HOPS, 2)])).out 3).map (fun p => p.payload.take 6) == [[1, 0, 7, 0, 2, 0]]) = true := by
  decide +kernel
theorem test_announce : (let s := pod { inbox := [p_ann 7 2 9] }
    let t := run (.announce 0) s
    t.rd TMB_STATUS_PARENT_VALID == 1 && t.rd TMB_STATUS_LEADER_ID == 7 && t.rd TMB_STATUS_HOPS == 3 && t.rd TMB_STATUS_STATE == 1 && fget z0 t.pod.last 7 == 10 &&
    (run (.announce 0) (pod { inbox := [p_ann 0x30 2 9] })).rd TMB_STATUS_PARENT_VALID == 0 && (run (.announce 0) (pod { inbox := [p_ann 7 63 9] })).pod == {} &&
    (run (.announce 0) { s with pod := { last := [(7, 10)] } }).rd TMB_STATUS_PARENT_VALID == 0 &&
    (run (.announce 0) (pod { inbox := [p_ann 0x20 0 1] } [(TMB_STATUS_STATE, 3)])).rd TMB_STATUS_STATE == 2 && still (.announce 0) (pod)) = true := by decide +kernel
theorem test_parent_loss : (let s := pod {} [(TMB_STATUS_PARENT_VALID, 1), (TMB_STATUS_PARENT_LINK, 5), (TMB_STATUS_LEADER_ID, 7), (TMB_STATUS_STATE, 2)]
    (run .parentLoss s).rd TMB_STATUS_STATE == 3 && (run .parentLoss s).rd TMB_STATUS_PARENT_VALID == 0 &&
    (run .parentLoss { s with pod := { heard := [(0, some ⟨7, 4, 1⟩)] } }).rd TMB_STATUS_PARENT_LINK == 0 &&
    (run .parentLoss { s with pod := { heard := [(0, some ⟨7, 4, 1⟩)] } }).rd TMB_STATUS_HOPS == 5 && still .parentLoss (pod) &&
    (run .holdoverExpiry (pod {} [(TMB_STATUS_STATE, 3)])).rd TMB_STATUS_STATE == 0 && (run .holdoverExpiry (pod {} [(TMB_STATUS_STATE, 3)])).rd MGT_ALERT_TIME == 1 &&
    still .holdoverExpiry (pod)) = true := by decide +kernel
theorem test_sync_send : ((fget nil0 (lnk (.timeSyncSend 0 0x123) (pod)).out 3).map (fun p => (p.payload.length, bytesVal (p.payload.drop 8) 8)) == [(20, 0x123)] &&
    still (.timeSyncSend 0 5) (pod {} [(TMB_STATUS_PARENT_VALID, 1)])) = true := by decide +kernel
def p_tsync (t : Nat) : Packet := here 4 3 (valBytes 2 8 ++ valBytes t 8 ++ valBytes 7 2 ++ valBytes 1 2)
/-- An offset of 2,000 sixteenths steps TICK by 125. -/
theorem test_time_sync : (let s := pod { inbox := [p_tsync 18000] } [(TMB_STATUS_PARENT_VALID, 1), (TMB_STATUS_STATE, 1)]
    (run (.timeSync 0 16000) s).tick == 1125 && (run (.timeSync 0 16000) s).rd TMB_SERVO_THETA == 2000 && (run (.timeSync 0 16000) s).rd TMB_SERVO_RATE_ADJ == 0 &&
    (lnk (.timeSync 0 16000) (pod { inbox := [p_tsync 18000] })).inbox.isEmpty && (run (.timeSync 0 16000) (pod { inbox := [p_tsync 18000] })).tick == 1000 &&
    still (.timeSync 0 0) (pod)) = true := by decide +kernel

/-- Plans: this device is participant 0 of two; link 0 is ROUTE_A, link 1 ROUTE_B. -/
def plan : PlanRec :=
  { op := 1, fmt := 4, ofmt := 4, flags := 0, w := 0, root := 0, home := ⟨0, 0⟩, elems := 4, startOfs := 0, src := 0, dst := 0x100, status := 0x200, trig := 0, trigStep := 1, cpl := 9
    cplAdd := 1, mask := 3, routeA := 0x0100000000000000, routeB := 0x0100000000000001, bind := 3 }
def slot1 : SlotRec := ⟨50, 200, 0, 1, 68, 3, ⟨0, 0⟩, 0x1000, 0x0100000000000000, 0x0100000000000001⟩
def castX : CastFile := { header := List.replicate 0x2C 0 ++ [1] ++ List.replicate 83 0, sections := [], xdev := some ⟨0, [0x20, 0x21], [slot1], [plan]⟩ }
def xd (y : Niche := {}) (k : Link := {}) (more : List (Fld × Nat) := []) : State :=
  let s := bnd 4 k more
  { s with niches := [(0, { y with cast := some castX })], objects := [(0x3800 * 256, 0x20)] }
theorem test_fallback : (let bs := valBytes 3 8 ++ List.replicate 16 0 ++ valBytes 90 8 ++ [0, 0, 0]
    let s := xd {} { inbox := [here 4 3 bs] }
    ((run (.fallback 0) s).niche 0).mqTick == some 90 && (run (.fallback 0) s).pod.seen == [bs] && ((run (.fallback 0) { s with pod := { seen := [bs] } }).niche 0).mqTick == none &&
    still (.fallback 0) (xd)) = true := by decide +kernel
theorem test_slot_send : (let s := xd { edgeTick := 1000, fresh := false } {} [(TMB_TICK_TICK, 1035)]
    let s := { s with courts := [(0, { plinth := words 0x1000 [0x77], plnPoison := [(0x400, true)] })] }
    (lnk (.slotSend 0 0) s).vl0.map (fun x => (x.tick, x.pkt.poison, bytesVal x.pkt.payload 8, bytesVal (x.pkt.payload.drop 64) 4)) == [(1050, true, 1200, 0x77)] &&
    ((run (.slotSend 0 0) s).niche 0).slots == [0] && still (.slotSend 0 0) { s with niches := [(0, { slots := [0], edgeTick := 1000, fresh := false, cast := some castX })] } &&
    still (.slotSend 0 0) { s with niches := [(0, { edgeTick := 1100, fresh := false, cast := some castX })] } && still (.slotSend 0 1) s) = true := by
  decide +kernel
/-- An ALLREDUCE of two devices: the first step's segment carries two partials (R400 to R404). -/
def inst1 : Inst := { plan := 0, seq := 0, started := true, sent := [0], unacked := [⟨0, 0, here 3 1 []⟩] }
def opened (y : Inst := inst1) (k : Link := {}) : State := xd { insts := [y], next := [(0, 1)] } k
def nine : State := { xd with courts := [(0, qk {} [(SYN_STATE_VALUE.syn 0, 1)])], hbm := words 0 [5, 6, 7, 8] }
theorem test_coll_start : (let t := run (.collInstanceStart 0 0) nine
    (t.niche 0).insts.map (fun y => (y.seq, y.started, y.start, y.sent, y.unacked.map (fun u => (u.step, u.idx)))) == [(0, true, 100, [0], [(0, 0)])] && fget z0 (t.niche 0).next 0 == 1 &&
    (fget nil0 (t.link 0).out 1).map (fun p => (p.dst, pay p 18 2, pay p 24 8, pay p 64 4)) == [(0x21, 2, 2, 7)] && still (.collInstanceStart 0 0) (xd) && still (.collInstanceStart 0 1) nine) = true := by
  decide +kernel
def p_coll (sty step seq idx nelem first : Nat) (data : List (BitVec 8)) : Packet :=
  here 3 1 (valBytes 0 8 ++ collHeader 0 sty step seq idx nelem 1 0 first 60 70 1 ++ data)
theorem test_coll_segment : (let p := p_coll 0 0 0 0 2 0 (valBytes 40 16 ++ valBytes 41 16)
    let s := opened { plan := 0, seq := 0 } { inbox := [p] }
    let t := run (.collSegment 0) s
    (t.niche 0).insts.map (fun y => (y.have', y.maxT, (fget acc0 y.acc 1).n.toNat)) == [([(0, 0)], 70, 41)] &&
    (fget nil0 (t.link 0).out 1).map (fun a => (a.dst, stype a, pay a 12 4, pay a 24 8)) == [(5, 1, 0, 1)] &&
    ((run (.collSegment 0) (opened { plan := 0, seq := 0 } { inbox := [p_coll 0 0 2 0 2 0 []] })).niche 0) == (opened { plan := 0, seq := 0 }).niche 0 &&
    (fget nil0 (lnk (.collSegment 0) (opened { plan := 0, seq := 0 } { inbox := [p_coll 0 0 0xFFFFFFFF 0 2 0 []] })).out 1).length == 1 && still (.collSegment 0) (xd)) = true := by
  decide +kernel
theorem test_coll_ack : (((run (.collAck 0) (opened inst1 { inbox := [p_coll 1 0 0 0 0 1 []] })).niche 0).insts.map (fun y => y.unacked.length) == [0] &&
    ((run (.collAck 0) (opened inst1 { inbox := [p_coll 1 0 0 0 0 2 []] })).niche 0).insts.map (fun y => y.unacked.length) == [1] && still (.collAck 0) (xd)) = true := by decide +kernel
/-- What a loss of instance 0 sends. -/
def lostSent (t : State) (l : Nat) : Bool := (fget nil0 (t.link l).out 1).any (fun p => stype p == 2 && pay p 12 4 == 0)
def barrier : State := { opened with niches := [(0, { (opened).niche 0 with cast := some { castX with xdev := some ⟨0, [0x20, 0x21], [], [{ plan with op := 6 }]⟩ } })] }
theorem test_coll_lost : (let s := { barrier with links := [(0, { niche := some 0, inbox := [p_coll 2 0 0 0 0 0 []] })] }
    let t := run (.collLost 0) s
    (t.niche 0).insts.isEmpty && lostSent t 0 && lostSent t 1 && (run (.collLost 0) { s with links := [(0, { inbox := [p_coll 2 0 7 0 0 0 []] })] }).niche 0 == s.niche 0 &&
    still (.collLost 0) (xd)) = true := by decide +kernel
theorem test_coll_expiries : (lostSent (run (.collTExpiry 0 0 0) barrier) 1 && lostSent (run (.instTExpiry 0 0 0) barrier) 0 &&
    memRead (run (.instTExpiry 0 0 0) barrier).hbm 0x200 4 == 2 ^ 24 && (fget nil0 ((run (.collRetxExpiry 0 0 0 0 0) (opened)).link 1).out 1).length == 1 &&
    still (.collRetxExpiry 0 0 0 1 0) (opened) && still (.collTExpiry 0 0 1) (opened) && still (.collTExpiry 0 0 0) (opened { plan := 0, seq := 0 }) &&
    still (.instTExpiry 0 0 0) (opened { plan := 0, seq := 0 })) = true := by decide +kernel
theorem test_straggler_window : ((run .stragglerWindowEnd (pk svc [(TMB_STRAG_CUR0_INSTANCES, 5)])).rd TMB_STRAG_PREV0_INSTANCES == 5 &&
    (run .stragglerWindowEnd (pk svc [(TMB_STRAG_CUR0_INSTANCES, 5)])).rd TMB_STRAG_CUR0_INSTANCES == 0) = true := by decide +kernel

/-! ### Faults, the Restorer, resets -/

/-- A record of a kind of unit. -/
def frec (code space : Nat) : FaultRec := { code := code, space := space, kind := 6, tick := 77, detail := 0x21 }
def due (level unit : Nat) (s : State := svc) : State := { s with resets := [⟨level, unit, 0, 3, 0, 0, none, 0⟩] }
/-- The due steps as pairs. -/
def duePairs (s : State) : List (Nat × Nat) := s.resets.map (fun r => (r.level, r.unit))
theorem test_fault_log : (let t := run (.faultLogEntry 2 1) { svc with events := [(1, [frec 0x12 1])] }
    fget flog0 t.flog 1024 == flogEntry (frec 0x12 1) 0 && t.dieRd 1 INT_FLOG_STATUS_COUNT == 1 && t.dieRd 1 INT_FLOG_STATUS_HEAD == 1 && t.events.isEmpty && t.resets.isEmpty &&
    (flogEntry (frec 0x12 1) 5).toNat / 2 ^ 64 % 256 == 0x12 && (flogEntry (frec 0x12 1) 5).toNat / 2 ^ 224 == 5 &&
    (run (.faultLogEntry 2 1) { dk svc 1 [(INT_FLOG_STATUS_COUNT, 1024), (INT_FLOG_STATUS_HEAD, 1023)] with events := [(1, [frec 0x12 1])] }).dieRd 1 INT_FLOG_STATUS_OVERWRITTEN == 1 &&
    still (.faultLogEntry 0 9) svc && still (.faultLogEntry 1 9) svc && still (.faultLogEntry 2 1) svc) = true := by decide +kernel
theorem test_first_steps : (duePairs (run (.faultLogEntry 2 1) { svc with events := [(1, [frec 0xE5 0])] }) == [(4, 1)] &&
    duePairs (run (.faultLogEntry 2 0) { svc with events := [(0, [{ frec 0x54 3 with niche := some 2 }])] }) == [(3, 2)] &&
    duePairs (run (.faultLogEntry 0 7) { svc with cells := [(7, { faults := [{ code := 0x0B, ctx := 2, ctxValid := true, unit := 7 }] })] }) == [(1, 30)] &&
    duePairs (run (.faultLogEntry 1 0) { svc with courts := [(0, { faults := [frec 0x40 1] })] }) == []) = true := by decide +kernel
theorem test_watchdogs : (let s := dk (cl up { ctxs := [(0, { state := .ready, watch := 32 }), (1, { state := .ready, watch := 31 })] }) 0 [(RST_WD_CFG_CWD_EXP, 5), (RST_WD_CFG_NWD_EXP, 5)]
    ((run (.contextWatchdog x0) s).ctxOf x0).state == .faulted && still (.contextWatchdog ⟨0, 1⟩) s &&
    duePairs (run (.nicheWatchdog 0) (dk (framed 1 { hang := 32 }) 0 [(RST_WD_CFG_NWD_EXP, 5)])) == [(3, 0)] && still (.nicheWatchdog 0) (dk (framed 1 { hang := 31 }) 0 [(RST_WD_CFG_NWD_EXP, 5)]) &&
    duePairs (run (.atelierWatchdog 2) svc) == [(4, 2)] && duePairs (run (.atelierWatchdog 0) svc) == [(5, 0)] &&
    fget z0 (run (.atelierWatchdog 2) { svc with mgmt := { svc.mgmt with fwState := [(2, 4)] } }).mgmt.fwState 2 == 6) = true := by decide +kernel
/-- A time past the bound of a level (R489). -/
def late (s : State) (tick : Nat) : State := pk s [(TMB_TICK_TICK, tick)]
theorem test_escalation : (duePairs (run (.escalationTimeout 1 30) (late (due 1 30) 300)) == [(2, 7)] && still (.escalationTimeout 1 30) (due 1 30) &&
    duePairs (run (.escalationTimeout 2 7) (late { framed 1 with resets := (due 2 7).resets } 4501)) == [(3, 0)] &&
    still (.escalationTimeout 2 7) (late { framed 1 with resets := (due 2 7).resets } 4500) &&
    duePairs (run (.escalationTimeout 4 2) (late (due 4 2) 9000000001)) == [(5, 0)] && duePairs (run (.escalationTimeout 5 0) (late (due 5 0) 27000000001)) == [(6, 0)] &&
    still (.escalationTimeout 4 1) (due 4 2) && (due 6 0).stepBound 6 == none) = true := by
  decide +kernel

/-- A slab of one member, cell 0, with a check column, cell 1 (R443 to R453). -/
def ckcell : Cell := { ck {} [(CELL_SLAB_CFG_ENABLE, 1), (CELL_SLAB_CFG_CKCOL, 1), (INT_PLUMB_CFG_CK_EN, 1), (INT_CK_STATE_HIST_VALID, 1)] with macOp := some { op1 with slab := true } }
def s_ck (wait : Bool) : State := { cl up { ckcell with arbWait := wait } with cells := [(0, { ckcell with arbWait := wait }), (1, { ck {} [(INT_CK_STATE_HIST_VALID, 1)] with ckFails := if wait then [(1, 0, 5)] else [] })] }
theorem test_checkpoint : (((s_ck false).ckSlab 0).map (fun p => (p.2.cells, p.2.verdictCell)) == some ([(0, 0, 0), (1, 0, 1)], 1) &&
    ((run (.checkpointResult 0 6 []) (s_ck false)).cell 0).rd INT_CK_STATE_LAST_CKPT == 6 && ((run (.checkpointResult 0 6 [(1, 0, 5)]) (s_ck false)).cell 0).arbWait &&
    ((run (.checkpointResult 0 6 [(1, 0, 5)]) (s_ck false)).cell 1).ckFails == [(1, 0, 5)] &&
    ((run (.checkpointResult 0 6 [(1, 0, 5)]) (s_ck false)).cell 0).faults.map (fun r => (r.code, r.detail)) == [(0x69, 32)] &&
    still (.checkpointResult 0 6 []) (s_ck true) && still (.checkpointResult 0 6 []) up && still (.arbitration 0 [0]) up) = true := by decide +kernel
theorem test_arbitration : (let l := (match (s_ck true).ckSlab 0 with | some p => p.2 | none => soloSlab 0)
    let f := [(1, 0, 5)]
    suspects l f == [(0, 0), (1, 0)] && arbiterOf l (1, 0) == some (0, 0) && (run (.arbitration 0 [0, 1]) (s_ck true)).cellFenced 1 &&
    (run (.arbitration 0 [0, 1]) (s_ck true)).rd INT_PKG_STATUS_CHECKER == 1 && !((run (.arbitration 0 [0, 0]) (s_ck true)).cell 0).arbWait &&
    (run (.arbitration 0 [1]) (s_ck true)).cellFenced 0 && (run (.arbitration 0 [1]) (s_ck true)).rd INT_PKG_STATUS_MEMBER == 1 &&
    (run (.arbitration 0 [2]) (s_ck true)).rd INT_PKG_STATUS_DISPUTES == 1 && (run (.arbitration 0 [3]) (s_ck true)).rd INT_PKG_STATUS_UNPLACED == 1 &&
    (run (.arbitration 0 [2]) (s_ck true)).flaws == [] && still (.arbitration 0 []) (s_ck true) && still (.arbitration 0 [0]) (s_ck true) && still (.arbitration 0 [1]) (s_ck false)) = true := by decide +kernel
/-- R449: the arbiter of (5, 9) is its east neighbour. R450: one FP32 suspect with two blocks takes 1,502 cycles. -/
theorem test_arbiter_examples : (arbiterOf ⟨8, 12, 1, false, false, (slabPos 8 12 false false).map (fun p => (p.1, p.2, 0))⟩ (5, 9) == some (6, 9) &&
    arbCycles (13 * 2 ^ 17 + 13 * 2 ^ 13) 2 == 1502) = true := by decide +kernel

/-- Cells 3 and 8 (the spare position) of court 0, row 0, decided at fault (R464, R466). -/
def decided (ns : List Nat) (s : State := up) : State :=
  { s with decided := ns, flaws := ns.map (fun n => ⟨1, 1, 0, false, false, n, 0, true⟩), cells := [(3, { spd := [(7, 1)] }), (5, { spd := [(7, 5)] })] }
set_option maxRecDepth 100000 in
theorem test_heal : ((run (.heal 8) (decided [8])).fence 0 0 == 8 && (run (.heal 3) (decided [3])).fence 0 0 == 3 && memByte ((run (.heal 3) (decided [3])).cell 6).spd 7 == 5 &&
    memByte ((run (.heal 3) (decided [3])).cell 4).spd 7 == 1 && (run (.heal 3) (decided [3])).decided.isEmpty && still (.heal 3) up) = true := by decide +kernel
def s_pause : State := run (.heal 3) (decided [3] (framed 1))
def allFrozen (s : State) : State := { s with cells := (List.range 72).map (fun n => (n, { s.cell n with frozen := true })) }
set_option maxRecDepth 100000 in
theorem test_heal_niche : (s_pause.rd (RES_HEAL_STATUS_STEP.by8 0) == 2 && (s_pause.niche 0).heal == [3] && (s_pause.niche 0).held && (s_pause.cell 70).flag CELL_CTRL_FREEZE &&
    still (.heal 3) (pk (decided [3] (framed 1)) [(RES_HEAL_STATUS_STEP.by8 0, 7)]) && still (.healShift 0) (framed 1) && still (.healShift 0) s_pause) = true := by decide +kernel
set_option maxRecDepth 100000 in
theorem test_heal_shift : (let t := run (.healShift 0) (allFrozen s_pause)
    (allFrozen s_pause).paused 0 && t.rd (RES_HEAL_STATUS_STEP.by8 0) == 0 && t.fence 0 0 == 3 && (t.niche 0).heal.isEmpty && !(t.niche 0).held &&
    t.rd (RES_HEAL_STATUS_HEALS.by8 0) == 1) = true := by decide +kernel
def s_reloc (objs : FMap Nat) : State := { pk (allFrozen (host 2)) [(RES_HEAL_STATUS_STEP.by8 0, 7)] with objects := objs, courts := [(0, { plinth := [(9, 9)] })] }
set_option maxRecDepth 100000 in
theorem test_relocate : (duePairs (run (.relocate 0) (s_reloc [])) == [(3, 0)] && (s_reloc [(0x4044 * 256 + 1, 2 ^ 31 + 2)]).reserve 0 == some (2, 0) &&
    (run (.relocate 0) (s_reloc [(0x4044 * 256 + 1, 2 ^ 31 + 2)])).rd (NCH_CFG_AX.niche 0) == 2 &&
    memByte ((run (.relocate 0) (s_reloc [(0x4044 * 256 + 1, 2 ^ 31 + 2)])).court 2).plinth 9 == 9 &&
    (run (.relocate 0) (s_reloc [(0x4044 * 256 + 1, 2 ^ 31 + 2)])).rd (RES_HEAL_STATUS_STEP.by8 0) == 0 && still (.relocate 0) (host 2)) = true := by decide +kernel
def s_rasp : State := ct up (qk {} [(RES_RASP_CTRL_ENABLE, 1), (RES_RASP_CTRL_CELL, 4)])
theorem test_rasp_pass : (let t := run (.raspPassStart 0 100) s_rasp
    (t.cell 4).rasp && (t.cell 4).raspSteps == 100 && (((t.cell 4).ctx 3).sReg 1).v == 100 && ((t.cell 4).ctx 3).state == .ready && still (.raspPassStart 0 100) (ct up (qk {} [(RES_RASP_CTRL_ENABLE, 0)]))) = true := by decide +kernel
theorem test_confirmation : ((run (.confirmationTest 3 false) (decided [3])).flaws.map (fun f => f.confirmed) == [true] &&
    (run (.confirmationTest 3 true) (decided [3])).unexplained == [(3, 0)] && still (.confirmationTest 3 true) up &&
    (run (.confirmationTest 3 true) { decided [3] with unexplained := [(4, 0), (5, 0)] }).rd RES_PKG_STATUS_REPLACE == 1) = true := by decide +kernel

/-- Resets (R487 to R500). -/
theorem test_cell_reset : (let s := cl svc { spd := [(7, 1)], istore := [(0, 5)], macOp := some op1, ctxs := [(0, { state := .running })] }
    let t := run (.cellReset 0) s
    memByte (t.cell 0).spd 7 == 1 && (t.cell 0).macOp.isNone && (t.ctxOf x0).state == .off && t.rd RST_CAUSE_LEVEL == 2 && t.rd RST_CAUSE_TRIGGER == 3) = true := by decide +kernel
set_option maxRecDepth 100000 in
theorem test_die_reset : (let s := { due 4 0 with cells := [(3, { spd := [(7, 1)] }), (3000, { spd := [(7, 2)] })], courts := [(0, { plinth := [(9, 9)] })], flog := [(3, 5), (1025, 6)] }
    let t := run (.dieReset 0) s
    t.resets.isEmpty && (t.cell 3).spd.isEmpty && memByte (t.cell 3000).spd 7 == 2 && memByte (t.court 0).plinth 9 == 9 && t.flog == [(1025, 6)] && t.rd RST_STATUS_DIE_CNT == 1 &&
    still (.dieReset 1) s && still (.dieReset 0) (due 4 0 up)) = true := by decide +kernel
set_option maxRecDepth 100000 in
theorem test_package_reset : (let s := pk { due 5 0 with hbm := [(9, 9)], niches := [(0, { count := 3 })] } [(PWR_STATUS_PWR_GOOD, 1)]
    let t := run .packageReset s
    t.rd MGT_BOOT_STATUS_STATE == 1 && fget noMark t.dieHalt 3 && t.niches.isEmpty && t.hbm == [(9, 9)] && t.pkgResets == [0] && t.resets.isEmpty &&
    duePairs (run .packageReset { s with pkgResets := [0, 0] }) == [(6, 0)] && still .packageReset svc && still .packageReset (pk s [(PWR_STATUS_PWR_GOOD, 0)])) = true := by decide +kernel
theorem test_power_cycle : ((run .powerCycle (due 6 0)).rd MGT_ALERT_PWR_CYCLE == 1 && (run .powerCycle (due 6 0)).mgmt.nv.length == 1 &&
    (run .powerCycle (pk (due 6 0) [(PWR_STATUS_NV_OK, 0)])).mgmt.nv.isEmpty && still .powerCycle svc) = true := by decide +kernel
set_option maxRecDepth 100000 in
theorem test_sys_rst : ((run .sysRstAssert svc).mgmt.sysRst && fget noMark (run .sysRstAssert svc).dieHalt 2 && (run .sysRstAssert svc).rd MGT_BOOT_STATUS_STATE == 0 &&
    still .sysRstAssert State.reset) = true := by decide +kernel
theorem test_requests : (duePairs (run (.dieResetReq 1) svc) == [(5, 0)] && duePairs (run (.dieResetReq 14) svc) == [(4, 1), (4, 2), (4, 3)] && still (.dieResetReq 0) svc &&
    duePairs (run .pkgResetReq svc) == [(5, 0)] && duePairs (run .pwrcycReq svc) == [(6, 0)] && (run .pwrcycReq svc).resets.map (fun r => r.trigger) == [3]) = true := by decide +kernel
theorem test_crash : (let t := run (.crashCast 2 7 0) (due 2 7)
    t.crashSeq == 1 && t.crashOpen && (t.cell 7).frozen && t.rd RST_CRASH_CELLS == 0 && !(run (.crashCast 2 7 1) (due 2 7)).crashOpen &&
    (run (.crashCast 2 7 1) (due 2 7)).rd RST_CRASH_NEW == 1 && (run .crashCastAbandon t).rd RST_CRASH_INCOMPLETE == 1 && !(run .crashCastAbandon t).crashOpen &&
    still (.crashCast 1 7 0) (due 1 7) && still (.crashCast 2 7 0) svc && still (.crashCast 2 7 0) { due 2 7 with dieHalt := [(0, true)] } && still .crashCastAbandon svc) = true := by decide +kernel
/-- The crash cast slot of physical cell 2,621 (the example of R495). -/
theorem test_crash_slot : svc.crashSlot 2621 == 0x2FE7E6E000 := by decide +kernel

/-- Bring-up (R501 to R517). -/
def straps (boot profile : Nat) : Straps := { boot := boot, slot := 5, profile := profile, hostport := false, linkfec := true }
theorem test_deassert : (let t := run (.sysRstDeassert (straps 0 1)) State.reset
    t.rd MGT_BOOT_STATUS_STATE == 1 && t.rd MGT_STRAPS_I3C_ADDR == 13 && t.rd MGT_STRAPS_PROFILE_EFF == 1 && t.rd PWR_STATUS_PWR_GOOD == 1 && !t.mgmt.sysRst &&
    (run (.sysRstDeassert { straps 0 1 with pwrGood := false }) State.reset).rd MGT_BOOT_STATUS_STATE == 0 && still (.sysRstDeassert (straps 0 1)) svc) = true := by decide +kernel
theorem test_takeover : ((run .bootTakeover (pk svc [(MGT_BOOT_STATUS_STATE, 2)])).rd MGT_BOOT_STATUS_PRIMARY == 1 && still .bootTakeover svc) = true := by decide +kernel
/-- Straps sampled, before bring-up. -/
def fuses (boot : Nat := 0) : State := run (.sysRstDeassert (straps boot 1)) State.reset
set_option maxRecDepth 100000 in
theorem test_bringup_diag : ((run (.bringup {}) (fuses 3)).rd MGT_BOOT_STATUS_STATE == 2 && (run (.bringup {}) (fuses 2)).rd MGT_BOOT_STATUS_STATE == 8 &&
    (run (.bringup { variants := [1, 1, 2, 1] }) (fuses)).rd MGT_BOOT_STATUS_STATE == 8 &&
    (run (.bringup { variants := [1, 1, 2, 1] }) { fuses with mgmt := { (fuses).mgmt with factory := some ([2, 2, 2, 2], [], []) } }).small && still (.bringup {}) svc && still (.bringup {}) State.reset) = true := by decide +kernel
set_option maxRecDepth 100000 in
theorem test_bringup_service : (let t := run (.bringup {}) (fuses)
    t.rd MGT_BOOT_STATUS_STATE == 7 && t.rd MGT_BOOT_STATUS_DIE_OK == 15 && t.dieHalt.isEmpty && t.rd PWR_STATUS_PROFILE == 1) = true := by decide +kernel

/-- Supplies and heat (R538 to R544). -/
theorem test_supplies : (duePairs (run (.brownOut 3) svc) == [(5, 0)] && (run (.brownOut 3) svc).rd PWR_STATUS_RAIL_BROWN == 4 && (run (.brownOut 11) svc).rd PWR_STATUS_NV_OK == 0 &&
    (run (.brownOut 0) svc).rd PWR_STATUS_PWR_GOOD == 0 &&
    (run (.brownOut 0) { svc with hbm := [(9, 9)], mgmt := { svc.mgmt with cycleReq := true, nv := [⟨2, 7, [1]⟩] } }).hbm.isEmpty &&
    (run (.brownOut 0) { svc with mgmt := { svc.mgmt with cycleReq := true, nv := [⟨2, 7, [1]⟩] } }).mgmt.nv == [⟨2, 7, [1]⟩] && fget noMark (run (.overvoltage 2) svc).dieHalt 0 && (run (.overvoltage 2) svc).rd MGT_ALERT_PWR_CYCLE == 1 &&
    (run .refclkLoss svc).mgmt.clockLost && duePairs (run .refclkLoss svc) == [(5, 0)]) = true := by decide +kernel
theorem test_nv : (let r : NvRec := ⟨2, 7, [1]⟩
    let s := { svc with mgmt := { svc.mgmt with nvQueue := [r] } }
    (run (.nvJournalWrite true) s).mgmt.nv == [r] && still (.nvJournalWrite false) s && still (.nvJournalWrite true) (run .nvWriteBlock s) &&
    (run .nvWriteBlock svc).rd MGT_ALERT_NV_BLOCKED == 1 && (run .nvWriteResume (run .nvWriteBlock svc)).rd PWR_STATUS_NV_OK == 1 && still (.nvJournalWrite true) svc &&
    (run (.nvJournalWrite true) { svc with flaws := [⟨1, 1, 0, true, false, 3, 9, false⟩] }).mgmt.nv.map (fun r => (r.area, r.data.length)) == [(1, 16)]) = true := by decide +kernel
/-- The package at profile P0 with P0 as TARGET. -/
def p0 (more : List (Fld × Nat) := []) : State := pk svc ([(PWR_STATUS_PROFILE, 0), (PWR_STATUS_TARGET, 0)] ++ more)
/-- 112.5, 87.5, 81.25 and 75 degrees in sixteenths. -/
def tj : List Nat := [1800, 1400, 1300, 1200]
def cool : List Nat := [1200, 1200, 1200, 1200]
theorem test_therm : ((run (.thermHot tj) (p0)).mgmt.goal == some 1 && (run (.thermHot tj) (p0)).rd PWR_THERM_TJ2 == 1300 && (run (.thermHot tj) (p0)).rd MGT_ALERT_THERM_HOT == 1 &&
    (run (.thermCool cool) { p0 [(PWR_STATUS_PROFILE, 1)] with mgmt := { svc.mgmt with thermWant := true } }).mgmt.goal == some 0 && (run (.thermCool cool) (p0)).mgmt.goal == none && (run (.thermHot cool) (p0)).mgmt.goal == none &&
    (run (.thermLimit tj) (p0)).mgmt.thermLimit && !(run (.thermLimitEnd cool) (run (.thermLimit tj) (p0))).mgmt.thermLimit && (run (.thermTrip tj) (p0)).mgmt.tripped &&
    !(run (.thermLimit tj) (framed 1)).genOn 0) = true := by decide +kernel
theorem test_power_cap : ((p0).tdp 0 == 850 && (run (.powerCapCheck 851 false) (p0)).mgmt.goal == some 1 && (run (.powerCapCheck 850 false) (p0)).mgmt.goal == none &&
    (run (.powerCapCheck 100 true) { p0 [(PWR_STATUS_PROFILE, 1)] with mgmt := { svc.mgmt with capWant := true } }).mgmt.goal == some 0) = true := by decide +kernel
theorem test_profile_change : (let s := { p0 with mgmt := { svc.mgmt with goal := some 1 } }
    (run (.profileChange []) s).rd PWR_STATUS_PROFILE == 1 && (run (.profileChange []) s).rd PWR_STATUS_THROTTLED == 1 && (run (.profileChange []) s).mgmt.goal == none &&
    still (.profileChange []) svc && (run (.profileChange [2]) { p0 [(PWR_STATUS_PROFILE, 2)] with mgmt := { svc.mgmt with goal := some 1 } }).rd PWR_STATUS_PROFILE == 2) = true := by decide +kernel

/-! ### The Catalogue, firmware, counters -/

/-- The package in SERVICE with an SPDM session 9 of a level for I3C0_. -/
def cat (level : Nat := 3) : State :=
  { pk svc [(SEC_STATUS_KEYS_VALID, 1), (SEC_STATUS_SPDM_READY, 1)] with mgmt := { svc.mgmt with sessions := [⟨0, 9, level, 0⟩], svn := some 3 } }
/-- A request over I3C0_: operation, object, subindex, offset, length, data; in session 9 unless `plain`. -/
def req (op i j off len : Nat) (data : List (BitVec 8) := []) (plain : Bool := false) (facts : CapFacts := {}) : CapMsg :=
  { via := 0, session := if plain then none else some 9, facts := facts
    bytes := [1, BitVec.ofNat 8 op, 7, 1] ++ valBytes i 2 ++ [BitVec.ofNat 8 j, if plain then 0 else 4] ++ valBytes off 4 ++ valBytes len 2 ++ [0, 0] ++ data }
/-- A write of an object. -/
def wr' (i : Nat) (data : List (BitVec 8)) (facts : CapFacts := {}) (off : Nat := 0) : CapMsg := req 2 i 0 off data.length data false facts
/-- STATUS and data of the answer. -/
def ansSt (c : Instr) (s : State) : Nat := (((run c s).mgmt.answer.getD 14 0)).toNat
def ansData (c : Instr) (s : State) : List (BitVec 8) := (run c s).mgmt.answer.drop 16
/-- The conditions of `Asks` and `Grants` as tests. -/
def asksB (op i j : Nat) (m : CapMsg) (s : State) : Bool :=
  decide (m.via < 5) && s.capServed && !s.romServes && s.transportOn m && (m.session.isNone || (s.sessionOf m).isSome) && (s.keptFor m m.bytes).isNone && capSound m m.bytes &&
    capField m.bytes 1 1 == op && capField m.bytes 4 2 == i && capField m.bytes 6 1 == j
def grantsB (i : Nat) (m : CapMsg) (s : State) : Bool :=
  asksB 2 i 0 m s && (match objDef i 0 with | some d => s.mayWrite (s.capLevel m) m.via i d | none => false)

/-- The worked example of 19: a TIMING write out of range answers RANGE. -/
def timingWrite : CapMsg := { via := 0, bytes := [1, 2, 7, 1, 0x54, 0x30, 8, 0, 0, 0, 0, 0, 8, 0, 0, 0, 0x90, 1, 0, 0, 0, 0, 0, 0] }
theorem test_cap_example : (run (.capWrite timingWrite) svc).mgmt.answer == [1, 2, 7, 1, 0x54, 0x30, 8, 1, 0, 0, 0, 0, 0, 0, 5, 0] := by decide +kernel
theorem test_cap_read : (ansSt (.capRead (req 1 0x1003 0 0 16)) (cat) == 0 && ansData (.capRead (req 1 0x1003 0 0 16)) (pk (cat) [(MGT_BOOT_STATUS_VARIANT, 2)]) == [2] &&
    ansSt (.capRead (req 1 0x1004 0 0 16)) (cat) == 2 && ansSt (.capRead (req 1 0x7003 0 0 16)) (cat) == 3 && ansSt (.capRead (req 1 0x4020 0 0 16)) (cat 0) == 3 &&
    ansSt (.capRead { req 1 0x1003 0 0 16 with bytes := [1, 1, 7] }) (cat) == 1 && ansSt (.capRead (req 9 0 0 0 0)) (cat) == 1 && still (.capRead (req 2 0x1003 0 0 0)) (cat) &&
    still (.capRead (req 1 0x1003 0 0 16)) (pk (cat) [(MGT_BOOT_STATUS_STATE, 3)]) && asksB 1 0x1003 0 (req 1 0x1003 0 0 16) (cat)) = true := by decide +kernel
theorem test_cap_info_next : ((ansData (.capInfo (req 3 0x7006 0 0 0)) (cat)).take 5 == [8, 0, 0, 2, 1] && ansSt (.capInfo (req 3 0x1004 0 0 0)) (cat) == 2 &&
    ansData (.capNext (req 4 0x1000 0 0 0)) (cat) == [1, 0x10, 0] && ansData (.capNext (req 4 0xFFFF 0 0 0)) (cat) == [0xFF, 0xFF] && still (.capInfo (req 4 0 0 0 0)) (cat)) = true := by
  decide +kernel
theorem test_cap_write : (ansSt (.capWrite (wr' 0x7006 (valBytes 10000000000 8))) (cat) == 0 && (run (.capWrite (wr' 0x7006 (valBytes 10000000000 8))) (cat)).obj 0x7006 0 == 10000000000 &&
    (run (.capWrite (wr' 0x7006 (valBytes 10000000000 8))) (cat)).mgmt.nvQueue.map (fun r => r.key) == [0x700600] && ansSt (.capWrite (wr' 0x7006 (valBytes 9999999999 8))) (cat) == 5 &&
    ansSt (.capWrite (wr' 0x7006 [1])) (cat) == 6 && ansSt (.capWrite (wr' 0x7006 (valBytes 10000000000 8))) (cat 1) == 3 && ansSt (.capWrite (wr' 0x1003 [1])) (cat) == 4 &&
    ansSt (.capWrite (wr' 0x1004 [1])) (cat) == 2) = true := by decide +kernel
/-- A repeated request is answered from what is kept (R527). -/
theorem test_cap_kept : (let m := wr' 0x7006 (valBytes 10000000000 8)
    let t := run (.capWrite m) (cat)
    t.mgmt.kept.length == 1 && (run (.capWrite m) { t with objects := [] }).objects.isEmpty && ansSt (.capWrite m) { t with objects := [] } == 0) = true := by decide +kernel
theorem test_profile_write : ((run (.profileWrite (wr' 0x2020 [1])) (cat)).mgmt.goal == some 1 && (run (.profileWrite (wr' 0x2020 [1])) (cat)).rd PWR_STATUS_TARGET == 1 &&
    ansSt (.profileWrite (wr' 0x2020 [1])) { cat with niches := [(0, { cast := some castX })], pkgRegs := (host 2).pkgRegs } == 7 && still (.profileWrite (wr' 0x7006 [])) (cat) &&
    (run (.profileWrite (wr' 0x2020 [2])) (cat)).mgmt.goal == none && grantsB 0x2020 (wr' 0x2020 [1]) (cat)) = true := by decide +kernel
def flawB : List (BitVec 8) := [1, 4, 0, 2] ++ valBytes 77 4 ++ valBytes 9 8
theorem test_flaw_map_write : (let t := run (.flawMapWrite (wr' 0x4020 flawB)) (cat)
    t.flaws == [⟨1, 4, 0, false, true, 77, 9, false⟩] && t.rd RES_PKG_STATUS_FLAW_USED == 1 && (run (.flawMapWrite (wr' 0x4020 (List.replicate 16 0))) { t with mgmt := (cat).mgmt }).flaws.isEmpty &&
    grantsB 0x4020 (wr' 0x4020 flawB) (cat) && still (.flawMapWrite (wr' 0x2020 [1])) (cat)) = true := by decide +kernel
theorem test_device_id : ((run (.deviceIdWrite (wr' 0x3800 [0x34, 2])) (cat)).devId == 0x234 && (run (.deviceIdWrite (wr' 0x3800 [0x34, 2])) (dk (cat) 0 [(LNK_CTRL_ENABLE, 1)])).lstate 0 == 1 &&
    ansSt (.deviceIdWrite (wr' 0x3800 [0xFF, 0xF])) (cat) == 5 && grantsB 0x3800 (wr' 0x3800 [0x34, 2]) (cat)) = true := by decide +kernel
theorem test_cap_command : (ansSt (.capCommand (wr' 0x5012 (List.replicate 64 0))) (cat) == 0 && (run (.capCommand (wr' 0x5012 (List.replicate 64 0))) (cat)).free == 5 &&
    sqClean 0 (List.replicate 64 0) && !(cat).capHeld (wr' 0x5012 (List.replicate 64 0)) (wr' 0x5012 (List.replicate 64 0)).bytes &&
    ansSt (.capCommand (wr' 0x5012 [1])) (cat) == 6 && still (.capCommand (wr' 0x2020 [1])) (cat)) = true := by decide +kernel
def spdm (op anchor : Nat) : CapFacts := { spdm := { op := op, sid := 5, anchor := anchor, resp := [0x12, 4] } }
theorem test_spdm : (((run (.spdmMessage { via := 0, facts := spdm 1 2 }) (cat)).mgmt.sessions.map (fun x => (x.id, x.level))) == [(9, 3), (5, 3)] &&
    ((run (.spdmMessage { via := 0, facts := spdm 1 1 }) (cat)).mgmt.sessions.map (fun x => x.level)) == [3, 1] &&
    (run (.spdmMessage { via := 0, facts := { spdm := { op := 2, sid := 9 } } }) (cat)).mgmt.sessions.isEmpty && (run (.spdmMessage { via := 0, facts := spdm 0 0 }) (cat)).mgmt.answer == [0x12, 4] &&
    (run (.spdmHeartbeatExpiry 9) (pk (cat) [(TMB_TICK_TICK, 81000000000)])).mgmt.sessions.isEmpty && still (.spdmHeartbeatExpiry 9) (pk (cat) [(SEC_STATUS_SESSIONS, 1)])) = true := by decide +kernel
theorem test_tunnel : (let m : CapMsg := { req 0x10 0 0 0 1 [7] true (spdm 0 0) with via := 4 }
    let s := { cat with mgmt := { (cat).mgmt with net := { port := 7710 } } }
    s.transportOn m && ansSt (.capTunnel m) s == 0 && ansData (.capTunnel m) s == [0x12, 4] && still (.capTunnel (req 1 0 0 0 0)) s) = true := by decide +kernel
theorem test_phy_link_up : ((run .mgmtPhyLinkUp { cat with objects := [(0x7050 * 256 + 3, 24)], mgmt := { blobs := [(0x7050 * 256 + 2, [192, 168, 0, 9])] } }).mgmt.net.plen == 24 &&
    (run .mgmtPhyLinkUp { cat with mgmt := { blobs := [(0x7050 * 256 + 2, [192, 168, 0, 9])] } }).mgmt.net.addr.take 4 == [192, 168, 0, 9]) = true := by decide +kernel

/-- Firmware (R549 to R551): dies 0 and 3 are the primary role. -/
def upd (st : Nat) : State := { cat with mgmt := { (cat).mgmt with fwState := if st = 0 then [] else [(0, st), (3, st)] } }
theorem test_fw_data : (let t := run (.fwData (wr' 0x7002 [9, 8] {} 4)) (upd 0)
    t.fwState 0 == 1 && t.fwState 3 == 1 && t.fwState 1 == 0 && memByte (fget fw0 t.mgmt.fwImages 2).bytes 5 == 8 && ansSt (.fwData (wr' 0x7002 [9])) (upd 3) == 7 &&
    ansSt (.fwData (wr' 0x7002 [9])) (pk (upd 0) [(PWR_STATUS_NV_OK, 0)]) == 8 && ansSt (.fwData (wr' 0x7002 [9] {} 12582912)) (upd 0) == 5 && (upd 0).inactiveSlot 0 == some 1 &&
    grantsB 0x7002 (wr' 0x7002 [9]) (upd 0)) = true := by decide +kernel
theorem test_fw_verify : ((run (.fwVerify (wr' 0x7003 [1] { good := true, svn := 3 })) (upd 1)).fwState 0 == 2 && (run (.fwVerify (wr' 0x7003 [1] { good := true, svn := 2 })) (upd 1)).fwState 0 == 6 &&
    ansSt (.fwVerify (wr' 0x7003 [1])) (upd 4) == 7) = true := by decide +kernel
theorem test_fw_activate : ((run (.fwActivate (wr' 0x7004 [0])) (upd 2)).fwState 0 == 4 && fget z0 (run (.fwActivate (wr' 0x7004 [0])) (upd 2)).mgmt.fwRuns 0 == 1 &&
    (run (.fwActivate (wr' 0x7004 [0])) (upd 2)).mgmt.sessions.isEmpty && ansSt (.fwActivate (wr' 0x7004 [0])) (upd 1) == 7) = true := by decide +kernel
theorem test_fw_commit : (let s := { upd 4 with mgmt := { (upd 4).mgmt with fwRuns := [(0, 1)] } }
    fget z0 (run (.fwCommit (wr' 0x7005 [0])) s).mgmt.fwSlot 0 == 1 && (run (.fwCommit (wr' 0x7005 [0])) s).fwState 0 == 5 && ansSt (.fwCommit (wr' 0x7005 [1])) s == 7 &&
    fget z0 (run (.commitTExpiry 0) (late s (10 ^ 12))).mgmt.fwRuns 0 == 0 && (run (.commitTExpiry 0) (late s (10 ^ 12))).rd MGT_ALERT_FW_FAILED == 1 && still (.commitTExpiry 0) s &&
    still (.commitTExpiry 1) (late s (10 ^ 12))) = true := by decide +kernel
theorem test_svn_raise : (let s := { upd 0 with mgmt := { (upd 0).mgmt with fwImages := [(0, { svn := 7 }), (1, { svn := 6 })] } }
    (run (.svnRaise (wr' 0x7007 (valBytes 6 4))) s).svnMin == 6 && (run (.svnRaise (wr' 0x7007 (valBytes 7 4))) s).svnMin == 3 && ansSt (.svnRaise (wr' 0x7007 (valBytes 2 4))) s == 5) = true := by
  decide +kernel
theorem test_zeroise : ((run .keyZeroise (cat)).mgmt.gate && (run .keyZeroise (cat)).rd SEC_STATUS_KEYS_VALID == 0 && (run .keyZeroise (cat)).rd SEC_STATUS_KEYS_CLEARED == 1 &&
    (run .keyZeroise (cat)).mgmt.sessions.isEmpty) = true := by decide +kernel
/-- A token that is admitted, and one that is not. -/
def token (scope : Nat) : List (BitVec 8) :=
  [1, BitVec.ofNat 8 scope] ++ List.replicate 14 0 ++ packageSerial ++ (cat).nonce ++ valBytes 1000 8 ++ List.replicate 168 0
theorem test_token_ok (scope : Nat) (h : scope = 1 ∨ scope = 2 ∨ scope = 3) : (cat).tokenOk (token scope) 1 = true := by
  have h1 : ((token scope).drop 16).take 16 = packageSerial := rfl
  have h2 : ((token scope).drop 32).take 48 = (cat).nonce := rfl
  simp only [State.tokenOk, h1, h2, beq_self_eq_true]
  rcases h with rfl | rfl | rfl <;> decide +kernel
theorem test_token_bad : ((run (.debugToken { via := 6, bytes := List.replicate 256 0 }) (cat)).rd SEC_STATUS_DEBUG_FAILS == 1 && (cat).tapOn && (cat).scopeOne &&
    (run (.debugToken { via := 6, bytes := List.replicate 256 0 }) (pk (cat) [(SEC_STATUS_DEBUG_FAILS, 2)])).rd SEC_STATUS_DEBUG_LOCKOUT == 1 &&
    still (.debugToken { via := 6, bytes := [1] }) (cat) && grantsB 0x7042 (wr' 0x7042 (List.replicate 256 0)) (cat)) = true := by decide +kernel

/-- Counters, samples, latches (R380, R554 to R566). Counter 0 of cell bank 0 counts code 2. -/
def bank (more : List (Fld × Nat) := []) (c : Cell := {}) : State :=
  cl svc (ck c (([(PMC_CTL_EN, 1), (PMC_CTL_CODE, 2), (PMC_CTL_MASTER, 255), (PMC_CTL_INT_EN, 1)] ++ more).map (fun (p : Fld × Nat) => (p.1.up 0xE00, p.2))))
def ev2 : PmcEvent := { kind := 0, unit := 0, code := 2, n := 3 }
set_option maxRecDepth 100000 in
theorem test_tick_low_read : (let s := pk svc [(TMB_TICK_TICK, 0x500000007)]
    (run (.tmbTickLowRead false) s).readVal == 7 && (run (.tmbTickLowRead true) (pk (run (.tmbTickLowRead false) s) [(TMB_TICK_TICK, 0x600000000)])).readVal == 5 &&
    (run (.tmbTickLowRead true) s).readVal == 5) = true := by decide +kernel
theorem test_cnt_low_read : (let s := bank [(PMC_CNT_COUNT, 0x700000009)]
    (run (.pmcCntLowRead 0 0 0 false) s).readVal == 9 && (run (.pmcCntLowRead 0 0 0 true) (run (.pmcCntLowRead 0 0 0 false) s)).readVal == 7) = true := by decide +kernel
theorem test_pmc_overflow : ((bank).counts ev2 0 && !(bank).counts ev2 1 && (run (.pmcOverflow ev2) (bank)).bankRd 0 0 PMC_CNT_COUNT == 3 &&
    (run (.pmcOverflow ev2) (bank [(PMC_CNT_COUNT, 2 ^ 48 - 1)])).bankRd 0 0 PMC_CNT_COUNT == 2 && (run (.pmcOverflow ev2) (bank [(PMC_CNT_COUNT, 2 ^ 48 - 1)])).bankRd 0 0 PMC_CTL_OVF == 1 &&
    (fget nil0 (run (.pmcOverflow ev2) (bank [(PMC_CNT_COUNT, 2 ^ 48 - 1)])).events 0).map (fun r => r.code) == [0x30] && still (.pmcOverflow { ev2 with code := 3 }) (bank)) = true := by
  decide +kernel
theorem test_pmc_sample : (let t := run (.pmcSample ev2) (bank [(PMC_CNT_COUNT, 2 ^ 48 - 1), (PMC_SAMP_CTL_EN, 1), (PMC_SAMP_CTL_PERIOD, 100)])
    t.bankRd 0 0 PMC_CNT_COUNT == 2 ^ 48 - 100 && (t.cell 0).samples == [(bank).sampleOf ev2 0] && (t.cell 0).sampSeq == 1 && t.bankRd 0 0 PMC_SAMP_CTL_COUNT == 1) = true := by decide +kernel
theorem test_pmc_snap : (let t := run (.pmcSnapGo 0 0) (pk (bank [(PMC_CNT_COUNT, 5)]) [(TMB_TICK_TICK, 77)])
    fget z0 (t.bankSnap 0 0) (viewKey 0 0 0) == 5 && t.bankRd 0 0 PMC_SNAP_TICK == 77 && t.bankRd 0 0 PMC_SNAP_SNAP_SEQ == 1 &&
    (run (.pmcSnapGo 1 5) svc).bankRd 1 5 PMC_SNAP_SNAP_SEQ == 1 && (run (.pmcSnapGo 2 3) svc).bankRd 2 3 PMC_SNAP_SNAP_SEQ == 1 &&
    still (.pmcSnapGo 0 0) { bank with flaws := [⟨1, 1, 0, true, true, 0, 0, true⟩] }) = true := by decide +kernel
/-- Before its tick the global snapshot waits; with the tick reached its conditions hold. -/
theorem test_gsnap : (let s := { svc with mgmt := { svc.mgmt with gsnap := true } }
    still .pmcGsnapLatch svc && still .pmcGsnapLatch (pk s [(PMC_GSNAP_AT, 5)]) && decide (s.rd PMC_GSNAP_AT ≤ s.tick) && s.mgmt.gsnap) = true := by decide +kernel
theorem test_samp_data : (let s := bank [] { samples := [[1, 2 ^ 19, 3, 4]], sampLatch := [5, 6, 7, 8] }
    (run (.pmcSampDataRead 0 none) s).readVal == 1 && (run (.pmcSampDataRead 0 (some 1)) s).readVal == 0 && ((run (.pmcSampDataRead 0 none) s).cell 0).sampLatch == [1, 2 ^ 19, 3, 4] &&
    (run (.pmcSampDataRead 0 none) (bank [(PMC_SAMP_CTL_RD_WORD, 2)] { sampLatch := [5, 6, 7, 8] })).readVal == 7) = true := by decide +kernel
theorem test_bw_latch : (let s := { svc with objects := [(0x600000, 100000)], mgmt := { svc.mgmt with bwNow := [(0x600201, 4)] } }
    (run (.bwWindowLatch [(0x6002, 1, 9)]) s).mgmt.bwNow == [(0x600201, 9)] && (run (.bwWindowLatch [(0x6002, 1, 9)]) s).mgmt.bwPrev == [(0x600201, 4)] &&
    still (.bwWindowLatch [(0x6002, 1, 9)]) (pk s [(TMB_TICK_TICK, 90001)]) && decide (s.tick % (s.obj 0x6000 0 * 9 / 10) = 0)) = true := by decide +kernel

/-! ### The queue and the reset state -/

/-- A step takes the front command and keeps the rest; on an empty queue a clock passes. -/
theorem test_step : ((match step { svc with pending := [.keyZeroise, .nvWriteBlock] } with
      | .next t => t.pending == [Instr.nvWriteBlock] && t.mgmt.gate | _ => false) && (match step svc with | .next t => t == svc.idle | _ => false)) = true := by decide +kernel
theorem test_reset_state : (State.reset.mgmt.sysRst && fget noMark State.reset.dieHalt 3 && (State.reset.cell 77).rd (CTX_TIMEOUT_EXP.ctx 2) == 16 && State.reset.lstate 95 == 0) = true := by
  decide +kernel

/-- Zeros and their signs, with a cancelled sum (R35); a mask's cells, a dealt row and a mask of 0 (R283). -/
theorem test_zeros : ((convert 13 true false 0 (unpack 3 0)).out = 0 ∧ (convert 13 false false 0 (unpack 0xB 0x8000)).out = 2 ^ 31 ∧
    (convert 13 false false 0 ((({ Acc.clear with n := BitVec.ofInt 152 (-8) }).merge 0 1 3).value 0)).out = 0 ∧
    (({ Acc.clear with n := BitVec.ofInt 152 (-8) }).merge 0 1 3).n = 0) := by decide +kernel
theorem test_dealt : (maskCells 0x8000000000000005 = [0, 2, 63] ∧ (dealt up 0 [0, 0, 0, 5, 0x100] 3 1).1 = up.phys (mkId 2 0) ∧
    decide ((court' (.rifPrologue 0) (s_rif' 0 (d_gather.set 3 0) m_gather)).rif.map (fun o => (o.phase, o.code)) = [(.done, 0xC1)]) = true) := by decide +kernel

end Sys2Proof.Tests
end

/-! PROOF. What an instruction that faults, or that gathers flags, leaves. -/

namespace Sys2Proof.Machine
open Sys2Proof

theorem Cell.raise_faults (e : Env) (k code detail pc : Nat) (c : Cell) :
    ∃ rec, (c.raise e k code detail pc).faults = c.faults ++ [rec] ∧ rec.code = code := by
  unfold Cell.raise
  dsimp only
  refine ⟨_, congrArg (· ++ [_]) ?_, rfl⟩
  split_ifs <;> simp only [Cell.modCtx_faults, Cell.wr_faults]

theorem Cell.raise_spd (e : Env) (k code detail pc : Nat) (c : Cell) : (c.raise e k code detail pc).spd = c.spd := by
  unfold Cell.raise
  dsimp only
  split_ifs <;> simp only [Cell.modCtx_spd, Cell.wr_spd]

/-- A context reads the same in cells that hold the same contexts. -/
theorem Cell.ctx_eq_of_ctxs {c d : Cell} (h : c.ctxs = d.ctxs) (k : Nat) : c.ctx k = d.ctx k := by
  unfold Cell.ctx; rw [h]

theorem Cell.raise_ctxs (e : Env) (k code detail pc : Nat) (c : Cell) :
    (c.raise e k code detail pc).ctxs = (c.modCtx k (fun x => { x with state := .faulted, wait := .none })).ctxs := by
  unfold Cell.raise
  dsimp only [Cell.modCtx, Cell.setCtx]
  split_ifs <;> simp only [Cell.wr_ctxs, Cell.ctx]

theorem Cell.ctx_raise (e : Env) (k code detail pc : Nat) (c : Cell) (j : Nat) :
    (c.raise e k code detail pc).ctx j = if j = k then { c.ctx k with state := .faulted, wait := .none } else c.ctx j := by
  rw [Cell.ctx_eq_of_ctxs (Cell.raise_ctxs e k code detail pc c), Cell.ctx_modCtx]

@[simp] theorem Cell.take_faults (c : Cell) (k : Nat) : (c.take k).faults = c.faults := rfl
@[simp] theorem Cell.take_spd (c : Cell) (k : Nat) : (c.take k).spd = c.spd := rfl
@[simp] theorem Cell.noCtxs_faults (c : Cell) : c.noCtxs.faults = c.faults := rfl
@[simp] theorem Cell.noCtxs_spd (c : Cell) : c.noCtxs.spd = c.spd := rfl

/-! ### What a command answers -/

/-- A command answers one state: what some answer satisfies, the answer `t` satisfies. -/
theorem of_next {o : Out} {t : State} {P : State → Prop} (e : o = .next t) (h : ∃ u, o = .next u ∧ P u) : P t := by
  obtain ⟨u, hu, hp⟩ := h
  cases e.symm.trans hu
  exact hp

theorem issue_answers {r : Row} {x : CtxRef} {s : State} (b : Body) (h : Ready r x s) : ∃ t, s.issue r b x = .next t :=
  ⟨_, issue_ready b h⟩

/-- What a fault of an instruction leaves: its context is stopped, a record with the code goes to the Atelier, the scratchpad
and every other cell are as before (03 R75). -/
theorem issued_raise {r : Row} {x : CtxRef} {s : State} {b : Env → Nat → Nat → Nat → Cell → Cell} {code detail : Nat}
    (h : Ready r x s) (hb : b (s.env x.cell) x.ctx (s.wordOf x) (s.extOf x) ((s.cell x.cell).take x.ctx) =
      ((s.cell x.cell).take x.ctx).raiseHere (s.env x.cell) x.ctx code detail) :
    ∃ t, s.issue r (cellBody b) x = .next t ∧ (t.ctxOf x).state = .faulted ∧ OnlyCell x.cell s t ∧
      (t.cell x.cell).spd = (s.cell x.cell).spd ∧
      ∃ rec, (t.cell x.cell).faults = (s.cell x.cell).faults ++ [rec] ∧ rec.code = code := by
  obtain ⟨t, ht, ho, hc, hx, -⟩ := issued_of b h hb rfl
    (y := { (s.ctxOf x).issuing with state := .faulted, wait := .none })
    (by rw [Cell.raiseHere, Cell.ctx_raise, if_pos rfl, Cell.ctx_take_self _ _ h.ctx]; rfl) h.free
    (fun j _ hj => by rw [Cell.raiseHere, Cell.ctx_raise, if_neg hj])
  refine ⟨t, ht, by rw [hx], ho, ?_, ?_⟩
  · rw [← Cell.noCtxs_spd, hc, Cell.noCtxs_spd, Cell.raiseHere, Cell.raise_spd, Cell.take_spd]
  · rw [← Cell.noCtxs_faults, hc, Cell.noCtxs_faults, Cell.raiseHere, ← Cell.take_faults _ x.ctx]
    exact Cell.raise_faults ..

/-! ### Flags gathered by an instruction -/

theorem Cell.noCtxs_orFlag (c : Cell) (f : Fld) (b : Bool) : (c.orFlag f b).noCtxs = c.noCtxs.orFlag f b := by
  cases b <;> rfl

theorem Cell.noCtxs_gather (c : Cell) (k : Nat) (f : FpFlags) : (c.gather k f).noCtxs = c.noCtxs.gather k f := by
  simp only [Cell.gather, Cell.noCtxs_orFlag]

/-- The END fields of the loops lie apart from CTX_FPFLAGS. -/
theorem Cell.rd_loopEnd_gather (c : Cell) {k n : Nat} (f : FpFlags) (hn : n < 4) :
    (c.gather k f).rd ((loopEnd n).ctx k) = c.rd ((loopEnd n).ctx k) := by
  have hkey : ∀ g : Fld, g.off = 0x438 → g.lsb < 6 → ((loopEnd n).ctx k).key ≠ (g.ctx k).key := by
    intro g ho hl
    have : n = 0 ∨ n = 1 ∨ n = 2 ∨ n = 3 := by omega
    rcases this with rfl | rfl | rfl | rfl <;>
      simp only [loopEnd, Fld.ctx, Fld.up, Fld.key, ho, CTX_LOOP0_END, CTX_LOOP1_END, CTX_LOOP2_END, CTX_LOOP3_END] <;> omega
  unfold Cell.gather
  rw [Cell.rd_orFlag, Cell.rd_orFlag, Cell.rd_orFlag, Cell.rd_orFlag, Cell.rd_orFlag, Cell.rd_orFlag] <;>
    exact hkey _ rfl (by decide)

/-- An instruction of a ready context that gathers flags and ends with `done`. -/
theorem issued_gather {r : Row} {x : CtxRef} {s : State} {b : Env → Nat → Nat → Nat → Cell → Cell} {words : Nat} (h : Ready r x s)
    (hn : NoReturn words x s) {fl : FpFlags} {f : Ctx → Ctx}
    (hb : b (s.env x.cell) x.ctx (s.wordOf x) (s.extOf x) ((s.cell x.cell).take x.ctx) =
      (((s.cell x.cell).take x.ctx).gather x.ctx fl).done x.ctx f words)
    (hp : (f (s.ctxOf x).issuing).pc = (s.ctxOf x).pc) (hl : ∀ n, (f (s.ctxOf x).issuing).lReg n = (s.ctxOf x).lReg n)
    (hs : (f (s.ctxOf x).issuing).stepping = (s.ctxOf x).stepping) :
    ∃ t, s.issue r (cellBody b) x = .next t ∧ Issued x s t ((s.cell x.cell).gather x.ctx fl)
      { f (s.ctxOf x).issuing with pc := (s.ctxOf x).pc + BitVec.ofNat 10 words } :=
  issued_done h hn hb (by rw [Cell.noCtxs_gather, Cell.noCtxs_gather, Cell.noCtxs_take]) (fun j => Cell.ctx_gather ..)
    (fun n hn4 => by rw [Cell.rd_loopEnd_gather _ _ hn4, Cell.rd_take]) hp hl (hs.trans h.free)

end Sys2Proof.Machine

/-! PROOF. Scalar floating point and conversion: O7. -/

namespace Sys2Proof.Machine
open Sys2Proof

/-! ### Scalar floating point (04 R98, R99) -/

theorem bodySfp_format (e : Env) (k ext : Nat) {w : Nat} (c : Cell) (hf : bits w 3 0 < 0xB ∨ 0xD < bits w 3 0) :
    bodySfp e k w ext c = c.raiseHere e k 0x02 (bits w 3 0 * 128) := by
  unfold bodySfp
  dsimp only
  rw [if_pos (by omega)]
  rfl

theorem bodySfp_arith (e : Env) {k w : Nat} (ext : Nat) {c : Cell} {y : Ctx} (hy : c.ctx k = y.issuing) (hlo : 0xB ≤ bits w 3 0)
    (hhi : bits w 3 0 ≤ 0xD) (hm : minor w < 8) :
    let sv := fun i => unpack (bits w 3 0) (y.sReg i).v.toNat
    let r := fpArith (bits w 3 0) (minor w) (sv (fRd w)) (sv (fRs1 w)) (sv (fRs2 w))
    bodySfp e k w ext c = (c.gather k r.2).done k (fun z => z.setS (fRd w) ⟨BitVec.ofNat 32 r.1,
      (y.sReg (fRs1 w)).p || (decide (minor w ≠ 7) && (y.sReg (fRs2 w)).p) || (decide (minor w = 3) && (y.sReg (fRd w)).p)⟩) := by
  unfold bodySfp
  dsimp only
  rw [if_neg (by omega), if_neg (by omega), hy]
  simp only [Ctx.sReg_issuing, bne, beq_eq_decide, decide_not, ne_eq]

theorem bodySfp_compare (e : Env) {k w : Nat} (ext : Nat) {c : Cell} {y : Ctx} (hy : c.ctx k = y.issuing) (hlo : 0xB ≤ bits w 3 0)
    (hhi : bits w 3 0 ≤ 0xD) (hm : 8 ≤ minor w) :
    let sv := fun i => unpack (bits w 3 0) (y.sReg i).v.toNat
    let r := fpCompare (minor w - 8) (sv (fRs1 w)) (sv (fRs2 w))
    bodySfp e k w ext c = (c.gather k { invalid := r.2 }).done k (fun z => z.setS (fRd w) ⟨if r.1 then 1 else 0,
      (y.sReg (fRs1 w)).p || (y.sReg (fRs2 w)).p⟩) := by
  unfold bodySfp
  dsimp only
  rw [if_neg (by omega), if_pos hm, hy]
  rfl

theorem bodyDfp_format (e : Env) (k ext : Nat) {w : Nat} (c : Cell) (hf : bits w 3 0 ≠ 0xE) :
    bodyDfp e k w ext c = c.raiseHere e k 0x02 (bits w 3 0 * 128) := by
  unfold bodyDfp
  dsimp only
  rw [if_pos hf]
  rfl

theorem bodyDfp_arith (e : Env) {k w : Nat} (ext : Nat) {c : Cell} {y : Ctx} (hy : c.ctx k = y.issuing) (hf : bits w 3 0 = 0xE)
    (hm : minor w < 8) :
    let dv := fun i => unpack 14 (y.pair i)
    let r := fpArith 14 (minor w) (dv (fRd w)) (dv (fRs1 w)) (dv (fRs2 w))
    bodyDfp e k w ext c = (c.gather k r.2).done k (fun z => z.setPair (fRd w) r.1
      (y.pairP (fRs1 w) || (decide (minor w ≠ 7) && y.pairP (fRs2 w)) || (decide (minor w = 3) && y.pairP (fRd w)))) := by
  unfold bodyDfp
  dsimp only
  rw [if_neg (not_not.mpr hf), if_neg (by omega), hy]
  simp only [Ctx.pair_issuing, Ctx.pairP_issuing, bne, beq_eq_decide, decide_not, ne_eq]

theorem bodyDfp_compare (e : Env) {k w : Nat} (ext : Nat) {c : Cell} {y : Ctx} (hy : c.ctx k = y.issuing) (hf : bits w 3 0 = 0xE)
    (hm : 8 ≤ minor w) :
    let dv := fun i => unpack 14 (y.pair i)
    let r := fpCompare (minor w - 8) (dv (fRs1 w)) (dv (fRs2 w))
    bodyDfp e k w ext c = (c.gather k { invalid := r.2 }).done k (fun z => z.setS (fRd w) ⟨if r.1 then 1 else 0,
      y.pairP (fRs1 w) || y.pairP (fRs2 w)⟩) := by
  unfold bodyDfp
  dsimp only
  rw [if_neg (not_not.mpr hf), if_pos hm, hy]
  rfl

/-- The context of a conversion with its result written (R99). -/
def Ctx.setCvt (dst rd : Nat) (out : Nat) (p : Bool) (z : Ctx) : Ctx :=
  if fmt64 dst then z.setPair rd out p
  else z.setS rd ⟨BitVec.ofNat 32 (if dst = 1 ∨ dst = 3 then wrap 32 (signed (fmtBits dst) out) else out), p⟩

@[simp] theorem Ctx.setCvt_pc (dst rd out : Nat) (p : Bool) (z : Ctx) : (z.setCvt dst rd out p).pc = z.pc := by
  unfold Ctx.setCvt; split <;> rfl
@[simp] theorem Ctx.lReg_setCvt (dst rd out : Nat) (p : Bool) (z : Ctx) (i : Nat) : (z.setCvt dst rd out p).lReg i = z.lReg i := by
  unfold Ctx.setCvt; split <;> rfl
@[simp] theorem Ctx.setCvt_stepping (dst rd out : Nat) (p : Bool) (z : Ctx) : (z.setCvt dst rd out p).stepping = z.stepping := by
  unfold Ctx.setCvt; split <;> rfl

/-- Writing the result and moving the PC commute. -/
theorem Ctx.setCvt_past (dst rd out : Nat) (p : Bool) (y : Ctx) (n : Nat) :
    { y.issuing.setCvt dst rd out p with pc := y.pc + BitVec.ofNat 10 n } = (y.past n).setCvt dst rd out p := by
  unfold Ctx.setCvt; split <;> rfl

theorem cvtBody_format (e : Env) (k : Nat) {w : Nat} (o : Int) (words : Nat) (c : Cell)
    (hf : ¬ (scalFmt (bits w 10 7) = true ∧ scalFmt (bits w 6 3) = true)) :
    cvtBody e k w o words c = c.raiseHere e k 0x02 (bits w 10 7 * 128 + bits w 6 3 * 4) := by
  unfold cvtBody
  dsimp only
  rw [if_pos (by rw [Bool.not_eq_true', ← Bool.not_eq_true, Bool.and_eq_true]; exact hf)]
  rfl

theorem cvtBody_converts (e : Env) {k w : Nat} (o : Int) (words : Nat) {c : Cell} {y : Ctx} (hy : c.ctx k = y.issuing)
    (hs : scalFmt (bits w 10 7) = true) (hd : scalFmt (bits w 6 3) = true) :
    let src := bits w 10 7
    let v := if fmt64 src then y.pair (fRs1 w) else (y.sReg (fRs1 w)).v.toNat
    let p := if fmt64 src then y.pairP (fRs1 w) else (y.sReg (fRs1 w)).p
    let r := convert (bits w 6 3) (fmtIsInt src) (bit w 2) o (unpack src v)
    cvtBody e k w o words c =
      (c.gather k { invalid := r.invalid, cvtRange := r.range }).done k (Ctx.setCvt (bits w 6 3) (fRd w) r.out p) words := by
  unfold cvtBody
  dsimp only
  rw [if_neg (by simp [hs, hd]), hy]
  rfl

/-- A conversion of a ready context, in one word or two: its format fault, or its result (R99). -/
theorem cvt_results {r : Row} {x : CtxRef} {s : State} {b : Env → Nat → Nat → Nat → Cell → Cell} {o : Int} {words : Nat} (h : Ready r x s)
    (hb : ∀ e k c, b e k (s.wordOf x) (s.extOf x) c = cvtBody e k (s.wordOf x) o words c) :
    let y := s.ctxOf x
    let w := s.wordOf x
    let src := bits w 10 7
    let dst := bits w 6 3
    let v := if fmt64 src then y.pair (fRs1 w) else (y.sReg (fRs1 w)).v.toNat
    let p := if fmt64 src then y.pairP (fRs1 w) else (y.sReg (fRs1 w)).p
    let r' := convert dst (fmtIsInt src) (bit w 2) o (unpack src v)
    ∃ t, s.issue r (cellBody b) x = .next t ∧
      (¬ (scalFmt src = true ∧ scalFmt dst = true) → (t.ctxOf x).state = .faulted ∧ OnlyCell x.cell s t ∧
        ∃ rec, (t.cell x.cell).faults = (s.cell x.cell).faults ++ [rec] ∧ rec.code = 0x02) ∧
      (scalFmt src = true → scalFmt dst = true → NoReturn words x s →
        Issued x s t ((s.cell x.cell).gather x.ctx { invalid := r'.invalid, cvtRange := r'.range })
          ((y.past words).setCvt dst (fRd w) r'.out p)) := by
  intro y w src dst v p r'
  obtain ⟨t, ht⟩ := issue_answers (cellBody b) h
  refine ⟨t, ht, fun hf => ?_, fun hs hd hn => ?_⟩
  · obtain ⟨hst, ho, -, hrec⟩ := of_next ht (issued_raise h ((hb ..).trans (cvtBody_format _ _ _ _ _ hf)))
    exact ⟨hst, ho, hrec⟩
  · have hi := of_next ht (issued_gather h hn ((hb ..).trans (cvtBody_converts _ _ _ (Cell.ctx_take_self _ _ h.ctx) hs hd))
      (Ctx.setCvt_pc ..) (Ctx.lReg_setCvt _ _ _ _ _) (Ctx.setCvt_stepping ..))
    rwa [Ctx.setCvt_past] at hi

/-- Settles O7: the format fault, the arithmetic and the comparison of SFP and DFP, and the conversions, each from what its body
does to the taken cell. -/
theorem scalarFloatResults : Obligations.ScalarFloatResults := by
  intro x s y w c m f sv dv bad
  have hy (hk : x.ctx < 4) : (c.take x.ctx).ctx x.ctx = y.issuing := Cell.ctx_take_self _ _ hk
  refine ⟨fun h => ?_, fun h => ?_, fun two h => ?_⟩
  · obtain ⟨t, ht⟩ := issue_answers (cellBody bodySfp) h
    refine ⟨t, ht, fun hf => ?_, fun hlo hhi hn => ⟨fun hm => ?_, fun hm => ?_⟩⟩
    · obtain ⟨hst, ho, -, hrec⟩ := of_next ht (issued_raise h (bodySfp_format _ _ _ _ hf))
      exact ⟨hst, ho, hrec⟩
    · exact of_next ht (issued_gather h hn (bodySfp_arith _ _ (hy h.ctx) hlo hhi hm) rfl (fun _ => rfl) rfl)
    · exact of_next ht (issued_gather h hn (bodySfp_compare _ _ (hy h.ctx) hlo hhi hm) rfl (fun _ => rfl) rfl)
  · obtain ⟨t, ht⟩ := issue_answers (cellBody bodyDfp) h
    refine ⟨t, ht, fun hf => ?_, fun hf hn => ⟨fun hm => ?_, fun hm => ?_⟩⟩
    · obtain ⟨hst, ho, -, hrec⟩ := of_next ht (issued_raise h (bodyDfp_format _ _ _ _ hf))
      exact ⟨hst, ho, hrec⟩
    · exact of_next ht (issued_gather h hn (bodyDfp_arith _ _ (hy h.ctx) hf hm) rfl (fun _ => rfl) rfl)
    · exact of_next ht (issued_gather h hn (bodyDfp_compare _ _ (hy h.ctx) hf hm) rfl (fun _ => rfl) rfl)
  · cases two with
    | false => exact cvt_results h (fun _ _ _ => rfl)
    | true => exact cvt_results h (fun _ _ _ => rfl)

end Sys2Proof.Machine

/-! PROOF. Zeros: O30. -/

namespace Sys2Proof.Machine
open Sys2Proof

/-! ### Zeros and their signs (02 R35) -/

theorem roundFlt_zero (c : Nat) (q : Int) : roundFlt c 0 q = ⟨0, false, false⟩ := rfl

/-- A zero converts to the zero of its sign. -/
theorem convert_zero {dst : Nat} (hlo : 6 ≤ dst) (srcInt sat : Bool) (o : Int) (neg : Bool) (q : Int) :
    (convert dst srcInt sat o (.fin neg 0 q)).out = b2n neg * 2 ^ (fmtBits dst - 1) := by
  have hint : fmtIsInt dst = false := decide_eq_false (by omega)
  simp [convert, hint, roundFlt_zero, withSign]

/-- An element of a floating-point format whose bits below the sign are 0 is a zero. -/
theorem unpack_zero {src x : Nat} {neg : Bool} (hlo : 6 ≤ src) (hhi : src ≤ 14)
    (hx : x % 2 ^ fmtBits src = b2n neg * 2 ^ (fmtBits src - 1)) : unpack src x = .fin neg 0 (fmtQmin src) := by
  unfold unpack
  dsimp only
  rw [hx]
  interval_cases src <;> cases neg <;> rfl

theorem unpack_int_zero {src : Nat} (h : src ≤ 5) : unpack src 0 = .fin false 0 0 := by
  interval_cases src <;> rfl

theorem Acc.value_zero {a : Acc} (w : Int) (hs : a.special = .finite) (hz : a.leave.1 = 0) : a.value w = .fin false 0 w := by
  simp [Acc.value, hs, hz]

/-- A contribution on the accumulator's grid or above it that cancels the sum leaves zero, without overflow of the window (R48). -/
theorem Acc.merge_cancel {a : Acc} {w S g : Int} (hg : w ≤ g) (ho : a.wovf = false) (hn : a.n.toInt = -(S * 2 ^ (g - w).toNat))
    (hlo : -2 ^ 127 ≤ S * 2 ^ (g - w).toNat) (hhi : S * 2 ^ (g - w).toNat < 2 ^ 127) : (a.merge w S g).leave.1 = 0 := by
  have hr : rneInt S (g - w) = (S * 2 ^ (g - w).toNat, false) := by
    unfold rneInt; rw [if_pos (by omega)]; push_cast; rfl
  have h128 : in128 (S * 2 ^ (g - w).toNat) = true := decide_eq_true ⟨hlo, hhi⟩
  have hm : (a.merge w S g).n = 0 ∧ (a.merge w S g).wovf = false := by
    simp only [Acc.merge, hr, hn, ho, h128, neg_add_cancel]
    exact ⟨rfl, by simp [in152]⟩
  unfold Acc.leave
  rw [hm.1, hm.2]
  decide

/-- Settles O30: every one of the values is a zero of its sign, and a zero converts to the zero of its sign. -/
theorem zerosConvertWithTheirSigns : Obligations.ZerosConvertWithTheirSigns := by
  intro dst sat o hlo _
  have conv (i neg : Bool) (q : Int) := convert_zero hlo i sat o neg q
  refine ⟨fun src hs => ?_, fun a w hs hz => ?_, fun a w S g hs hg ho hn h1 h2 => ?_, fun src x h6 h14 => ⟨fun hx => ?_, fun hx => ?_⟩⟩
  · rw [unpack_int_zero hs, conv]; exact Nat.zero_mul _
  · rw [Acc.value_zero w hs hz, conv]; exact Nat.zero_mul _
  · rw [Acc.value_zero (a := a.merge w S g) w hs (Acc.merge_cancel hg ho hn h1 h2), conv]; exact Nat.zero_mul _
  · rw [unpack_zero (neg := false) h6 h14 (by rw [hx]; exact (Nat.zero_mul _).symm), conv]; exact Nat.zero_mul _
  · rw [unpack_zero (neg := true) h6 h14 (by rw [hx]; exact (Nat.one_mul _).symm), conv]; exact Nat.one_mul _

end Sys2Proof.Machine

/-! PROOF. Loads and stores: O22. -/

namespace Sys2Proof.Machine
open Sys2Proof

/-! ### Bytes of a memory -/

theorem memRead_congr {m m' : Memory} {a n : Nat} (h : ∀ j, a ≤ j → j < a + n → memByte m j = memByte m' j) :
    memRead m a n = memRead m' a n := by
  induction n generalizing a with
  | zero => rfl
  | succ n ih => rw [memRead, memRead, h a (by omega) (by omega), ih (fun j h1 h2 => h j (by omega) (by omega))]

theorem memRead_lt (m : Memory) (a n : Nat) : memRead m a n < 256 ^ n := by
  induction n generalizing a with
  | zero => simp [memRead]
  | succ n ih => have := ih (a + 1); have := (memByte m a).isLt; rw [memRead, Nat.pow_succ]; omega

theorem memRead_add (m : Memory) (a i n : Nat) : memRead m a (i + n) = memRead m a i + 256 ^ i * memRead m (a + i) n := by
  induction i generalizing a with
  | zero => simp [memRead]
  | succ i ih =>
    rw [show i + 1 + n = i + n + 1 by omega, memRead, memRead, ih, show a + 1 + i = a + (i + 1) by omega, Nat.pow_succ]
    ring

/-- Bytes `i` to `i + n - 1` of a longer number are the number at their address (02 R24). -/
theorem bits_memRead (m : Memory) (a : Nat) {i n k : Nat} (hn : 0 < n) (hk : i + n ≤ k) :
    bits (memRead m a k) (8 * i + 8 * n - 1) (8 * i) = memRead m (a + i) n := by
  obtain ⟨l, rfl⟩ : ∃ l, k = i + (n + l) := ⟨k - (i + n), by omega⟩
  have h256 (j : Nat) : 2 ^ (8 * j) = 256 ^ j := by rw [Nat.pow_mul]
  have hlo := memRead_lt m a i
  have hmid := memRead_lt m (a + i) n
  rw [bits, show 8 * i + 8 * n - 1 + 1 - 8 * i = 8 * n by omega, Nat.shiftRight_eq_div_pow, h256, h256, memRead_add, memRead_add,
    Nat.add_mul_div_left _ _ (by positivity), Nat.div_eq_of_lt hlo, Nat.zero_add, Nat.add_mul_mod_self_left, Nat.mod_eq_of_lt hmid]

/-- Writing back what was read changes no byte. -/
theorem memByte_memWrite_memRead (m : Memory) (a n j : Nat) : memByte (memWrite m a n (memRead m a n)) j = memByte m j := by
  induction n generalizing m a with
  | zero => rfl
  | succ n ih =>
    have hb : BitVec.ofNat 8 (memRead m a (n + 1)) = memByte m a := by
      apply BitVec.eq_of_toNat_eq
      have := (memByte m a).isLt
      rw [BitVec.toNat_ofNat, memRead]; omega
    have hr : memRead m a (n + 1) / 256 = memRead (memSetByte m a (memByte m a)) (a + 1) n := by
      have := (memByte m a).isLt
      have hc : memRead (memSetByte m a (memByte m a)) (a + 1) n = memRead m (a + 1) n :=
        memRead_congr fun i _ _ => by rw [memByte_memSetByte, if_neg (by omega)]
      rw [hc, memRead]; omega
    rw [memWrite, hb, hr, ih, memByte_memSetByte]
    split
    · next h => rw [h]
    · rfl

theorem memRead_memWrite_out (m : Memory) {a n b k : Nat} (v : Nat) (h : b + k ≤ a ∨ a + n ≤ b) :
    memRead (memWrite m a n v) b k = memRead m b k :=
  memRead_congr fun j _ _ => memByte_memWrite_out _ _ _ _ _ (by omega)

/-! ### Accesses of the core that are admitted -/

/-- An aligned access of the core inside the scratchpad, in a bank that the core may reach, is admitted (06 R177, R188). -/
theorem Cell.spdCheck_core (c : Cell) {a n : Nat} (hn : n ∣ 8) (hal : a % n = 0) (hr : a + n ≤ spdBytes)
    (ho : ownAdmits (c.ownState (abank a)) 0 = true) : c.spdCheck 0 (a % n == 0) (wordsOf a n) = none := by
  have hpos : 0 < n := Nat.pos_of_dvd_of_pos hn (by decide)
  have ha : ¬ spdBytes ≤ a := by omega
  unfold Cell.spdCheck wordsOf
  by_cases h8 : n = 8
  · subst h8
    have hb : abank (a + 4) = abank a := by unfold abank; omega
    have ha4 : ¬ spdBytes ≤ a + 4 := by omega
    simp [ha, ha4, hb, ho, hal]
  · simp [h8, ha, hal, ho]

/-- A read of a word with good check bits changes nothing (06 R196). -/
theorem Cell.spdRead_ok (c : Cell) {a : Nat} (h : fget ecc0 c.spdEcc (a / 4) = .ok) :
    c.spdRead a = (memRead c.spd (4 * (a / 4)) 4, c.wordP a, c) := by
  simp [Cell.spdRead, h, Cell.wordP]

/-- The size of a load or store: 1, 2, 4 or 8 bytes. -/
theorem accessBytes_cases (w : Nat) : 2 ^ bits w 22 21 = 1 ∨ 2 ^ bits w 22 21 = 2 ∨ 2 ^ bits w 22 21 = 4 ∨ 2 ^ bits w 22 21 = 8 := by
  have : bits w 22 21 < 4 := Nat.mod_lt _ (by decide)
  interval_cases bits w 22 21 <;> simp

/-! ### LD (04 R100) -/

/-- What LD and ST need of their address: not poisoned, aligned, inside the scratchpad, in a bank the core may reach, on words with
good check bits. -/
def Cell.coreSound (c : Cell) (ar : PW) (a n : Nat) : Prop :=
  ar.p = false ∧ a % n = 0 ∧ a + n ≤ spdBytes ∧ ownAdmits (c.ownState (abank a)) 0 = true ∧
    ∀ b < n, fget ecc0 c.spdEcc ((a + b) / 4) = .ok

theorem bodyLd_poisoned (e : Env) {k w : Nat} (ext : Nat) {c : Cell} {y : Ctx} (hy : c.ctx k = y.issuing)
    (hp : (y.aReg (fAa w)).p = true) : bodyLd e k w ext c = c.raiseHere e k 0x09 1 := by
  unfold bodyLd
  rw [hy]
  exact if_pos hp

theorem bodyLd_word (e : Env) {k w : Nat} (ext : Nat) {c : Cell} {y : Ctx} (hy : c.ctx k = y.issuing) {a n : Nat}
    (hn : n = 2 ^ bits w 22 21) (ha : a = (y.aReg (fAa w)).v.toNat + fOff13 w * n) (hs : c.coreSound (y.aReg (fAa w)) a n)
    (h8 : n < 8) :
    bodyLd e k w ext c = c.done k (fun z => z.setS (fRd w)
      ⟨BitVec.ofNat 32 (if bit w 23 then wrap 32 (signed (8 * n) (memRead c.spd a n)) else memRead c.spd a n), c.wordP a⟩) := by
  obtain ⟨hp, hal, hr, ho, he⟩ := hs
  have h124 : n = 1 ∨ n = 2 ∨ n = 4 := by rcases accessBytes_cases w with h | h | h | h <;> omega
  have hpos : 0 < n := by omega
  have hin : a % 4 + n ≤ 4 := by rcases h124 with rfl | rfl | rfl <;> omega
  have hv : bits (memRead c.spd (4 * (a / 4)) 4) (8 * (a % 4) + 8 * n - 1) (8 * (a % 4)) = memRead c.spd a n := by
    rw [bits_memRead _ _ hpos hin, Nat.div_add_mod]
  unfold bodyLd
  dsimp only
  rw [hy, Ctx.aReg_issuing, ← hn, ← ha, hp, c.spdCheck_core (by rcases h124 with rfl | rfl | rfl <;> decide) hal hr ho,
    c.spdRead_ok (a := a) (he 0 hpos)]
  simp only [Bool.false_eq_true, if_false, if_neg (show ¬ n = 8 by omega), hv]

theorem bodyLd_double (e : Env) {k w : Nat} (ext : Nat) {c : Cell} {y : Ctx} (hy : c.ctx k = y.issuing) {a n : Nat}
    (hn : n = 2 ^ bits w 22 21) (ha : a = (y.aReg (fAa w)).v.toNat + fOff13 w * n) (hs : c.coreSound (y.aReg (fAa w)) a n)
    (h8 : n = 8) :
    bodyLd e k w ext c = c.done k (fun z => (z.setS (fRd w) ⟨BitVec.ofNat 32 (memRead c.spd a 4), c.wordP a⟩).setS (fRd w + 1)
      ⟨BitVec.ofNat 32 (memRead c.spd (a + 4) 4), c.wordP (a + 4)⟩) := by
  obtain ⟨hp, hal, hr, ho, he⟩ := hs
  have h0 : 4 * (a / 4) = a := by rw [h8] at hal; omega
  have h4 : 4 * ((a + 4) / 4) = a + 4 := by omega
  unfold bodyLd
  dsimp only
  rw [hy, Ctx.aReg_issuing, ← hn, ← ha, hp, c.spdCheck_core (by rw [h8]) hal hr ho, c.spdRead_ok (a := a) (he 0 (by omega)),
    c.spdRead_ok (he 4 (by omega)), h0, h4]
  simp only [Bool.false_eq_true, if_false, if_pos h8]

/-! ### ST (04 R100) -/

/-- What ST makes of a cell: the words written, or the part of one merged. -/
def Cell.stored (c : Cell) (y : Ctx) (rd a n : Nat) : Cell :=
  if n = 8 then (c.spdWrite a (y.sReg rd).v.toNat (y.sReg rd).p).spdWrite (a + 4) (y.sReg (rd + 1)).v.toNat (y.sReg (rd + 1)).p
  else c.spdWriteN a n (y.sReg rd).v.toNat (y.sReg rd).p

theorem bodySt_stores (e : Env) {k w : Nat} (ext : Nat) {c : Cell} {y : Ctx} (hy : c.ctx k = y.issuing) {a n : Nat}
    (hn : n = 2 ^ bits w 22 21) (ha : a = (y.aReg (fAa w)).v.toNat + fOff13 w * n) (hs : c.coreSound (y.aReg (fAa w)) a n) :
    bodySt e k w ext c = (c.stored y (fRd w) a n).advance k 1 := by
  obtain ⟨hp, hal, hr, ho, -⟩ := hs
  have hd : n ∣ 8 := by rcases accessBytes_cases w with h | h | h | h <;> rw [hn, h] <;> decide
  unfold bodySt Cell.stored
  dsimp only
  rw [hy, Ctx.aReg_issuing, ← hn, ← ha, hp, c.spdCheck_core hd hal hr ho]
  simp only [Bool.false_eq_true, if_false, Ctx.sReg_issuing]
  split <;> rfl

/-- A word written: its bytes, its poison and its check bits. -/
theorem Cell.spdWrite_eq (c : Cell) (a v : Nat) (p : Bool) : c.spdWrite a v p =
    { c with spd := memWrite c.spd (4 * (a / 4)) 4 v, spdPoison := fset noMark c.spdPoison (a / 4) p
             spdEcc := fset ecc0 c.spdEcc (a / 4) .ok } := rfl

theorem Cell.wordP_spdWrite (c : Cell) (a v : Nat) (p : Bool) (b : Nat) :
    (c.spdWrite a v p).wordP b = if b / 4 = a / 4 then p else c.wordP b := fget_fset ..

/-- A merge into a word with good check bits is a write of the word as it was, then of the bytes (06 R185). -/
theorem Cell.spdMerge_ok (c : Cell) {a : Nat} (n v : Nat) (p : Bool) (h : fget ecc0 c.spdEcc (a / 4) = .ok) :
    c.spdMerge a n v p =
      let d := c.spdWrite a (memRead c.spd (4 * (a / 4)) 4) (c.wordP a || p)
      { d with spd := memWrite d.spd a n v } := by
  simp only [Cell.spdMerge, c.spdRead_ok h, Cell.spdWrite_eq, Nat.mul_div_cancel _ (show 0 < 4 by decide)]

theorem Cell.spd_spdMerge (c : Cell) {a : Nat} (n v : Nat) (p : Bool) (h : fget ecc0 c.spdEcc (a / 4) = .ok) :
    (c.spdMerge a n v p).spd = memWrite (memWrite c.spd (4 * (a / 4)) 4 (memRead c.spd (4 * (a / 4)) 4)) a n v := by
  rw [c.spdMerge_ok _ _ _ h]; rfl

theorem Cell.wordP_spdMerge (c : Cell) {a : Nat} (n v : Nat) (p : Bool) (h : fget ecc0 c.spdEcc (a / 4) = .ok) (b : Nat) :
    (c.spdMerge a n v p).wordP b = if b / 4 = a / 4 then c.wordP a || p else c.wordP b := by
  unfold Cell.wordP
  rw [c.spdMerge_ok _ _ _ h]
  exact fget_fset ..

/-- A store changes the scratchpad only. -/
theorem Cell.stored_eq (c : Cell) (y : Ctx) (rd : Nat) {a n : Nat} (h : fget ecc0 c.spdEcc (a / 4) = .ok) : c.stored y rd a n =
    { c with spd := (c.stored y rd a n).spd, spdPoison := (c.stored y rd a n).spdPoison, spdEcc := (c.stored y rd a n).spdEcc } := by
  unfold Cell.stored Cell.spdWriteN
  split_ifs
  · rfl
  · rfl
  · rw [c.spdMerge_ok _ _ _ h]; rfl

theorem Cell.sameBytes_stored (c : Cell) (y : Ctx) (rd : Nat) {a n : Nat} (hn : n ∣ 8) (hal : a % n = 0)
    (h : fget ecc0 c.spdEcc (a / 4) = .ok) : SameBytes a n c.spd (c.stored y rd a n).spd := by
  intro b hb
  unfold Cell.stored Cell.spdWriteN
  by_cases h8 : n = 8
  · subst h8
    rw [if_pos rfl]
    show memByte (memWrite (memWrite c.spd _ 4 _) _ 4 _) b = _
    rw [memByte_memWrite_out _ _ _ _ _ (by omega), memByte_memWrite_out _ _ _ _ _ (by omega)]
  · rw [if_neg h8]
    by_cases h4 : n = 4
    · subst h4
      rw [if_pos rfl]
      exact memByte_memWrite_out _ _ _ _ _ (by omega)
    · rw [if_neg h4, if_neg h8, c.spd_spdMerge _ _ _ h, memByte_memWrite_out _ _ _ _ _ hb, memByte_memWrite_memRead]

theorem Cell.memRead_stored (c : Cell) (y : Ctx) (rd : Nat) {a n : Nat} (hn : n = 1 ∨ n = 2 ∨ n = 4 ∨ n = 8) (hal : a % n = 0)
    (h : fget ecc0 c.spdEcc (a / 4) = .ok) : memRead (c.stored y rd a n).spd a (min n 4) = (y.sReg rd).v.toNat % 256 ^ n := by
  have hv : (y.sReg rd).v.toNat < 256 ^ 4 := (y.sReg rd).v.isLt
  unfold Cell.stored Cell.spdWriteN
  by_cases h8 : n = 8
  · subst h8
    have h0 : 4 * (a / 4) = a := by omega
    rw [if_pos rfl]
    show memRead (memWrite (memWrite c.spd (4 * (a / 4)) 4 _) (4 * ((a + 4) / 4)) 4 _) a 4 = _
    rw [memRead_memWrite_out _ _ (by omega), h0, memRead_memWrite, Nat.mod_eq_of_lt hv, Nat.mod_eq_of_lt (by omega)]
  · rw [if_neg h8]
    by_cases h4 : n = 4
    · subst h4
      have h0 : 4 * (a / 4) = a := by omega
      rw [if_pos rfl]
      show memRead (memWrite c.spd (4 * (a / 4)) 4 _) a 4 = _
      rw [h0, memRead_memWrite]
    · rw [if_neg h4, if_neg h8, c.spd_spdMerge _ _ _ h, min_eq_left (by omega), memRead_memWrite]

theorem Cell.memRead_stored_high (c : Cell) (y : Ctx) (rd : Nat) {a : Nat} (hal : a % 8 = 0) :
    memRead (c.stored y rd a 8).spd (a + 4) 4 = (y.sReg (rd + 1)).v.toNat := by
  have h4 : 4 * ((a + 4) / 4) = a + 4 := by omega
  show memRead (memWrite _ (4 * ((a + 4) / 4)) 4 _) (a + 4) 4 = _
  rw [h4, memRead_memWrite]
  exact Nat.mod_eq_of_lt (y.sReg (rd + 1)).v.isLt

/-- The poison of the words after a store: of a word written whole the register's, of a merge either (06 R185). -/
theorem Cell.wordP_stored (c : Cell) (y : Ctx) (rd : Nat) {a n : Nat} (h : fget ecc0 c.spdEcc (a / 4) = .ok) (b : Nat) :
    (c.stored y rd a n).wordP b =
      if n = 8 ∧ b / 4 = (a + 4) / 4 then (y.sReg (rd + 1)).p
      else if b / 4 = a / 4 then (if n = 8 ∨ n = 4 then (y.sReg rd).p else c.wordP a || (y.sReg rd).p)
      else c.wordP b := by
  unfold Cell.stored Cell.spdWriteN
  by_cases h8 : n = 8
  · simp only [h8, if_true, true_and, true_or, Cell.wordP_spdWrite]
  · by_cases h4 : n = 4
    · subst h4
      simp only [h8, if_true, if_false, false_and, or_true, Cell.wordP_spdWrite]
    · simp only [h8, h4, if_false, false_and, or_false, c.wordP_spdMerge _ _ _ h]

/-- What a store moves: its bytes and its poison to its address, and nothing beside. -/
theorem Cell.stored_moves (c : Cell) (y : Ctx) (rd : Nat) {a n : Nat} (hsize : n = 1 ∨ n = 2 ∨ n = 4 ∨ n = 8) (hal : a % n = 0)
    (hecc : fget ecc0 c.spdEcc (a / 4) = .ok) :
    let d := c.stored y rd a n
    SameBytes a n c.spd d.spd ∧ memRead d.spd a (min n 4) = (y.sReg rd).v.toNat % 256 ^ n ∧
      (n = 8 → memRead d.spd (a + 4) 4 = (y.sReg (rd + 1)).v.toNat ∧ d.wordP (a + 4) = (y.sReg (rd + 1)).p) ∧
      (4 ≤ n → d.wordP a = (y.sReg rd).p) ∧
      (n < 4 → d.wordP a = (c.wordP a || (y.sReg rd).p)) ∧
      ∀ b, b / 4 ≠ a / 4 → b / 4 ≠ (a + n - 1) / 4 → d.wordP b = c.wordP b := by
  have hdvd : n ∣ 8 := by rcases hsize with rfl | rfl | rfl | rfl <;> decide
  have hpoison := c.wordP_stored y rd (n := n) hecc
  refine ⟨c.sameBytes_stored y rd hdvd hal hecc, c.memRead_stored y rd hsize hal hecc, ?_, fun h4 => ?_, fun h4 => ?_, fun b h1 h2 => ?_⟩
  · rintro rfl
    exact ⟨c.memRead_stored_high y rd hal, by rw [hpoison, if_pos ⟨rfl, rfl⟩]⟩
  · rw [hpoison, if_neg (by omega), if_pos rfl, if_pos (by omega)]
  · rw [hpoison, if_neg (by omega), if_pos rfl, if_neg (by omega)]
  · have h3 : ¬ (n = 8 ∧ b / 4 = (a + 4) / 4) := by rintro ⟨rfl, h⟩; omega
    rw [hpoison, if_neg h3, if_neg h1]

/-- A store into a taken cell: contexts have no part in it. -/
theorem Cell.stored_take (c : Cell) (k : Nat) (y : Ctx) (rd : Nat) {a n : Nat} (h : fget ecc0 c.spdEcc (a / 4) = .ok) :
    (c.take k).stored y rd a n = { c.take k with spd := (c.stored y rd a n).spd, spdPoison := (c.stored y rd a n).spdPoison
                                                 spdEcc := (c.stored y rd a n).spdEcc } := by
  unfold Cell.stored Cell.spdWriteN
  split_ifs
  · rfl
  · rfl
  · rw [c.spdMerge_ok _ _ _ h, (c.take k).spdMerge_ok _ _ _ h]; rfl

@[simp] theorem Cell.noCtxs_spdPoison (c : Cell) : c.noCtxs.spdPoison = c.spdPoison := rfl
@[simp] theorem Cell.noCtxs_spdEcc (c : Cell) : c.noCtxs.spdEcc = c.spdEcc := rfl

/-! ### Instructions that end with an advance -/

theorem issued_advance {r : Row} {x : CtxRef} {s : State} {b : Env → Nat → Nat → Nat → Cell → Cell} {words : Nat} (h : Ready r x s)
    (hn : NoReturn words x s) {c' c1 : Cell}
    (hb : b (s.env x.cell) x.ctx (s.wordOf x) (s.extOf x) ((s.cell x.cell).take x.ctx) = c1.advance x.ctx words)
    (hc : c1.noCtxs = c'.noCtxs) (hx : ∀ j, c1.ctx j = ((s.cell x.cell).take x.ctx).ctx j)
    (hr : ∀ n < 4, c1.rd ((loopEnd n).ctx x.ctx) = (s.cell x.cell).rd ((loopEnd n).ctx x.ctx)) :
    ∃ t, s.issue r (cellBody b) x = .next t ∧ Issued x s t c' ((s.ctxOf x).past words) := by
  have hk : c1.ctx x.ctx = (s.ctxOf x).issuing := (hx _).trans (Cell.ctx_take_self _ _ h.ctx)
  have ha := c1.advance_none x.ctx words (fun n hn4 => by rw [hk, hr n hn4]; exact hn n hn4)
  refine issued_of b h hb (by rw [Cell.noCtxs_advance, hc]) (y := (s.ctxOf x).past words) ?_ h.free fun j _ hj => ?_
  · rw [ha, Cell.ctx_modCtx, if_pos rfl, hk]; rfl
  · rw [ha, Cell.ctx_modCtx, if_neg hj, hx]

@[simp] theorem Cell.take_wordP (c : Cell) (k a : Nat) : (c.take k).wordP a = c.wordP a := rfl

/-- An instruction of a ready context that ends with `done` and writes s, a, v or p registers only. -/
theorem issued_regs {r : Row} {x : CtxRef} {s : State} {b : Env → Nat → Nat → Nat → Cell → Cell} {words : Nat} (h : Ready r x s)
    (hn : NoReturn words x s) {f : Ctx → Ctx}
    (hb : b (s.env x.cell) x.ctx (s.wordOf x) (s.extOf x) ((s.cell x.cell).take x.ctx) =
      ((s.cell x.cell).take x.ctx).done x.ctx f words)
    (hp : ∀ z, (f z).pc = z.pc) (hl : ∀ z n, (f z).lReg n = z.lReg n) (hs : ∀ z, (f z).stepping = z.stepping) :
    ∃ t, s.issue r (cellBody b) x = .next t ∧ Issued x s t (s.cell x.cell)
      { f (s.ctxOf x).issuing with pc := (s.ctxOf x).pc + BitVec.ofNat 10 words } :=
  issued_done h hn hb (Cell.noCtxs_take ..) (fun _ => rfl) (fun _ _ => rfl) (hp _) (hl _) ((hs _).trans h.free)

/-- A store of a ready context leaves the scratchpad as the store makes it, and nothing else. -/
theorem issued_store {r : Row} {x : CtxRef} {s : State} {b : Env → Nat → Nat → Nat → Cell → Cell} {rd a n : Nat} (h : Ready r x s)
    (hn : NoReturn 1 x s) (hecc : fget ecc0 (s.cell x.cell).spdEcc (a / 4) = .ok)
    (hb : b (s.env x.cell) x.ctx (s.wordOf x) (s.extOf x) ((s.cell x.cell).take x.ctx) =
      (((s.cell x.cell).take x.ctx).stored (s.ctxOf x) rd a n).advance x.ctx 1) :
    ∃ t, s.issue r (cellBody b) x = .next t ∧
      Issued x s t { s.cell x.cell with spd := (t.cell x.cell).spd, spdPoison := (t.cell x.cell).spdPoison
                                        spdEcc := (t.cell x.cell).spdEcc } ((s.ctxOf x).past 1) ∧
      (t.cell x.cell).spd = ((s.cell x.cell).stored (s.ctxOf x) rd a n).spd ∧
      ∀ b, (t.cell x.cell).wordP b = ((s.cell x.cell).stored (s.ctxOf x) rd a n).wordP b := by
  rw [Cell.stored_take _ _ _ _ hecc] at hb
  have heq := (s.cell x.cell).stored_eq (s.ctxOf x) rd (n := n) hecc
  generalize (s.cell x.cell).stored (s.ctxOf x) rd a n = c' at hb heq ⊢
  obtain ⟨t, ht, hi⟩ := issued_advance h hn (c' := c') hb (by rw [heq]; rfl) (fun _ => rfl) (fun _ _ => rfl)
  obtain ⟨-, hd, -⟩ := id hi
  have hspd : (t.cell x.cell).spd = c'.spd := by rw [← Cell.noCtxs_spd, hd, Cell.noCtxs_spd]
  have hpoi : (t.cell x.cell).spdPoison = c'.spdPoison := by rw [← Cell.noCtxs_spdPoison, hd, Cell.noCtxs_spdPoison]
  have hec : (t.cell x.cell).spdEcc = c'.spdEcc := by rw [← Cell.noCtxs_spdEcc, hd, Cell.noCtxs_spdEcc]
  refine ⟨t, ht, ?_, hspd, fun b => by unfold Cell.wordP; rw [hpoi]⟩
  rw [hspd, hpoi, hec, ← heq]
  exact hi

/-- Settles O22: LD by the word or the two words that it reads, ST by what it stores. -/
theorem loadsAndStoresMoveTheirBytes : Obligations.LoadsAndStoresMoveTheirBytes := by
  intro x s y w c n a sound
  have hy (hk : x.ctx < 4) : (c.take x.ctx).ctx x.ctx = y.issuing := Cell.ctx_take_self _ _ hk
  have hcore (hs : sound) : (c.take x.ctx).coreSound (y.aReg (fAa w)) a n ∧ NoReturn 1 x s := by
    obtain ⟨hp, hal, hr, ho, he, hn⟩ := hs
    exact ⟨⟨hp, hal, hr, ho, he⟩, hn⟩
  refine ⟨fun h => ?_, fun h hs => ?_⟩
  · obtain ⟨t, ht⟩ := issue_answers (cellBody bodyLd) h
    refine ⟨t, ht, fun hp => ?_, fun hs => ?_⟩
    · obtain ⟨hst, -, hspd, hrec⟩ := of_next ht (issued_raise h (bodyLd_poisoned _ _ (hy h.ctx) hp))
      exact ⟨hst, hspd, hrec⟩
    · obtain ⟨hcs, hn⟩ := hcore hs
      refine ⟨fun h8 => ?_, fun h8 => ?_⟩
      · have hb := bodyLd_word (s.env x.cell) (s.extOf x) (hy h.ctx) rfl rfl hcs h8
        simp only [Cell.take_spd, Cell.take_wordP] at hb
        exact of_next ht (issued_regs h hn hb (by simp) (by simp) (by simp))
      · have hb := bodyLd_double (s.env x.cell) (s.extOf x) (hy h.ctx) rfl rfl hcs h8
        simp only [Cell.take_spd, Cell.take_wordP] at hb
        exact of_next ht (issued_regs h hn hb (by simp) (by simp) (by simp))
  · obtain ⟨hcs, hn⟩ := hcore hs
    obtain ⟨-, hal, -, -, he, -⟩ := hs
    have hb := bodySt_stores (s.env x.cell) (s.extOf x) (hy h.ctx) rfl rfl hcs
    have hecc : fget ecc0 c.spdEcc (a / 4) = .ok := he 0 (Nat.two_pow_pos _)
    have hsize : n = 1 ∨ n = 2 ∨ n = 4 ∨ n = 8 := accessBytes_cases w
    obtain ⟨t, ht, hi, hspd, hw⟩ := issued_store h hn hecc hb
    refine ⟨t, ht, hi, ?_⟩
    simp only [hspd, hw]
    exact c.stored_moves y (fRd w) hsize hal hecc

end Sys2Proof.Machine

/-! PROOF. TMAC and MAC_OP_COMPLETE on one cell: O42. -/

namespace Sys2Proof.Machine
open Sys2Proof

/-! ### The cells of the package -/

@[simp] theorem cget_cmod (cs : Cells) (n : Nat) (f : Cell → Cell) (m : Nat) :
    cget (cmod cs n f) m = if m = n then f (cget cs n) else cget cs m := fget_fset ..

theorem cmod_congr (cs : Cells) (n : Nat) {f g : Cell → Cell} (h : f (cget cs n) = g (cget cs n)) : cmod cs n f = cmod cs n g :=
  congrArg (fset cell0 cs n) h

/-- Every change of a list of cells is a change of one cell when the list holds one. -/
@[simp] theorem cmodAll_single (cs : Cells) (n : Nat) (f : Cell → Cell) : cmodAll cs [n] f = cmod cs n f := rfl

/-! ### A cell outside a slab (05 R135) -/

@[simp] theorem soloSlab_w (n : Nat) : (soloSlab n).w = 1 := rfl
@[simp] theorem soloSlab_h (n : Nat) : (soloSlab n).h = 1 := rfl
@[simp] theorem soloSlab_ckcol (n : Nat) : (soloSlab n).ckcol = false := rfl
@[simp] theorem soloSlab_ckrow (n : Nat) : (soloSlab n).ckrow = false := rfl
@[simp] theorem soloSlab_member (n : Nat) : (soloSlab n).member 0 0 = true := rfl
@[simp] theorem soloSlab_nums (n : Nat) : (soloSlab n).nums = [n] := rfl
@[simp] theorem soloSlab_cells (n : Nat) : (soloSlab n).cells = [(0, 0, n)] := rfl
@[simp] theorem soloSlab_at (n : Nat) : (soloSlab n).at 0 0 = n := rfl
@[simp] theorem soloSlab_readsA (n : Nat) : (soloSlab n).readsA = [(0, 0)] := rfl
@[simp] theorem soloSlab_readsB (n : Nat) (os : Bool) : (soloSlab n).readsB os = [(0, 0)] := by cases os <;> rfl

theorem opSlab_solo (ph : Nat → Nat) {o : Cell} (n logical : Nat) (h : o.flag CELL_SLAB_CFG_ENABLE = false) :
    opSlab ph o n logical = soloSlab n := by
  rw [opSlab, h]; rfl

/-! ### TMAC (04 R119 to R123) -/

/-- What a TMAC that starts makes of its cell: the block busy, the PC two words on, the operation with its claims and streams. -/
def Cell.tmacSolo (op : MacOp) (n : Nat) (c : Cell) : Cell :=
  let feed := fun (isB : Bool) (port need : Nat) => Cell.openFeed n port need (slabSkew (soloSlab n) op.logical 0 0) isB
  let c := { (c.macBusy op.ctx op.slab (if tmOs op.w then 2 else 1)).advance op.ctx 2 with
    macOp := some (op.withLag (soloSlab n) n), reads := opReads op (soloSlab n) n (0, 0) }
  let c := if tmPortA op.w then feed false (tmPortNoA op.w) (needA op.w op.ext * tmBatch op.ext) c else c
  if tmPortB op.w then feed true (tmPortNoB op.w) (needB op.w op.ext * loadsB op) c else c

theorem cget_tmacStart (op : MacOp) (n : Nat) (cs : Cells) (m : Nat) :
    cget (tmacStart op (soloSlab n) n cs) m = if m = n then (cget cs n).tmacSolo op n else cget cs m := by
  unfold tmacStart Cell.tmacSolo
  simp only [soloSlab_nums, soloSlab_cells, soloSlab_readsA, soloSlab_readsB, cmodAll_single, List.foldl_cons, List.foldl_nil, soloSlab_at]
  by_cases hm : m = n
  · cases tmPortA op.w <;> cases tmPortB op.w <;> simp only [cget_cmod, hm, if_true, Bool.false_eq_true, if_false]
  · cases tmPortA op.w <;> cases tmPortB op.w <;> simp only [cget_cmod, hm, if_true, Bool.false_eq_true, if_false]


theorem Cell.tmacSolo_ctxs (op : MacOp) (n : Nat) (c : Cell) : (c.tmacSolo op n).ctxs =
    ((c.macBusy op.ctx op.slab (if tmOs op.w then 2 else 1)).advance op.ctx 2).ctxs := by
  unfold Cell.tmacSolo
  split_ifs <;> rfl
theorem Cell.tmacSolo_regs (op : MacOp) (n : Nat) (c : Cell) : (c.tmacSolo op n).regs =
    (c.macBusy op.ctx op.slab (if tmOs op.w then 2 else 1)).regs := by
  unfold Cell.tmacSolo
  split_ifs <;> rfl
theorem Cell.tmacSolo_acc (op : MacOp) (n : Nat) (c : Cell) : (c.tmacSolo op n).acc = c.acc := by
  unfold Cell.tmacSolo
  split_ifs <;> rfl
theorem Cell.tmacSolo_openCfg (op : MacOp) (n : Nat) (c : Cell) : (c.tmacSolo op n).openCfg = c.openCfg := by
  unfold Cell.tmacSolo
  split_ifs <;> rfl
theorem Cell.tmacSolo_spd (op : MacOp) (n : Nat) (c : Cell) : (c.tmacSolo op n).spd = c.spd := by
  unfold Cell.tmacSolo
  split_ifs <;> rfl
theorem Cell.tmacSolo_macOp (op : MacOp) (n : Nat) (c : Cell) : (c.tmacSolo op n).macOp = some (op.withLag (soloSlab n) n) := by
  unfold Cell.tmacSolo
  split_ifs <;> rfl

/-- A TMAC outside a slab whose block is free and that passes its checks starts; START opens the accumulation first. -/
theorem tmacBody_solo {e : Env} {k w ext : Nat} {cs : Cells} (ph : Nat → Nat) (now : Nat)
    (hslab : (cget cs e.n).flag CELL_SLAB_CFG_ENABLE = false)
    (hint : (cget cs e.n).flag CELL_MAC_STATUS_INTERRUPTED = true → tmStart w = true ∨ (cget cs e.n).rd CELL_MAC_ACC_SEL_OWNER ≠ k)
    (hfree : (cget cs e.n).macHeld = false) (hcheck : tmacCheck e k w ext (cget cs e.n) = none) :
    tmacBody e ph now k w ext cs = tmacStart (tmacOp e k w ext now (cget cs e.n)) (soloSlab e.n) e.n
      (if tmStart w then cmod cs e.n (Cell.macStart k (bits (((cget cs e.n).ctx k).sReg (bits ext 6 2)).v.toNat 10 0)
        ⟨tmOs w, tmFa w, tmFb w, tmMxa w, tmMxb w⟩) else cs) := by
  have hi : ((cget cs e.n).flag CELL_MAC_STATUS_INTERRUPTED && !tmStart w && (cget cs e.n).rd CELL_MAC_ACC_SEL_OWNER == k) = false := by
    cases hf : (cget cs e.n).flag CELL_MAC_STATUS_INTERRUPTED
    · rfl
    · rcases hint hf with h | h <;> simp [h]
  unfold tmacBody
  simp only [hi, hfree, hslab, hcheck, slabConfigBad, opSlab_solo ph _ _ hslab, Bool.false_and, Bool.false_eq_true, if_false,
    Bool.not_false, Bool.true_or, List.filter_true, soloSlab_cells, List.map_cons, List.map_nil, cmodAll_single]

/-- A field reads the same in cells that hold the same registers. -/
theorem Cell.rd_eq_of_regs {c d : Cell} (h : c.regs = d.regs) (f : Fld) : c.rd f = d.rd f := by
  unfold Cell.rd; rw [h]

/-- The END fields of the loops lie below the registers of the MAC block. -/
theorem loopEnd_key_lt {n k : Nat} (hn : n < 4) (hk : k < 4) : ((loopEnd n).ctx k).key < 0x800 * 64 := by
  interval_cases n <;>
    simp only [loopEnd, Fld.ctx, Fld.up, Fld.key, CTX_LOOP0_END, CTX_LOOP1_END, CTX_LOOP2_END, CTX_LOOP3_END] <;> omega

/-- A write of a MAC register changes no field below them. -/
theorem Cell.rd_wr_mac (c : Cell) {f g : Fld} (v : Nat) (hg : g.key < 0x800 * 64) (hf : 0x800 * 64 ≤ f.key) : (c.wr f v).rd g = c.rd g :=
  Cell.rd_wr_ne _ _ (by omega)

theorem Cell.rd_macBusy (k : Nat) (slab : Bool) (phase : Nat) (c : Cell) (f : Fld) : (c.macBusy k slab phase).rd f =
    (((((((c.wr CELL_MAC_STATUS_BUSY 1).wr CELL_MAC_STATUS_CTX k).wr CELL_MAC_STATUS_PHASE phase).wr
      CELL_MAC_STATUS_SLAB_HELD (b2n slab)).wr CELL_MAC_STATUS_ITER 0).wr CELL_MAC_STATUS_BLOCK 0).wr CELL_MAC_STATUS_ROW 0).rd f := rfl

theorem Cell.rd_loopEnd_macBusy (c : Cell) {k j n : Nat} (slab : Bool) (phase : Nat) (hn : n < 4) (hj : j < 4) :
    (c.macBusy k slab phase).rd ((loopEnd n).ctx j) = c.rd ((loopEnd n).ctx j) := by
  have hlt := loopEnd_key_lt hn hj
  rw [Cell.rd_macBusy]
  repeat rw [Cell.rd_wr_mac _ _ hlt (by decide)]

/-- The accumulation registers are outside what a busy block writes. -/
theorem Cell.rd_accSel_macBusy (c : Cell) (k : Nat) (slab : Bool) (phase : Nat) {f : Fld} (hf : f.off = 0x820) (hl : f.lsb < 64) :
    (c.macBusy k slab phase).rd f = c.rd f := by
  have hlo : 0x820 * 64 ≤ f.key := by unfold Fld.key; omega
  rw [Cell.rd_macBusy]
  repeat rw [Cell.rd_wr_ne _ _ (Nat.ne_of_gt (Nat.lt_of_lt_of_le (by decide) hlo))]

/-- The context of a started TMAC goes two words on. -/
theorem Cell.ctx_tmacSolo {op : MacOp} (n : Nat) {c : Cell} (hk : op.ctx < 4)
    (hn : ∀ m < 4, (c.ctx op.ctx).lReg m = 0 ∨ c.rd ((loopEnd m).ctx op.ctx) ≠ ((c.ctx op.ctx).pc + BitVec.ofNat 10 (2 - 1)).toNat) :
    (c.tmacSolo op n).ctx op.ctx = { c.ctx op.ctx with pc := (c.ctx op.ctx).pc + 2 } := by
  rw [Cell.ctx_eq_of_ctxs (Cell.tmacSolo_ctxs op n c), Cell.advance_none, Cell.ctx_modCtx, if_pos rfl]
  · rfl
  · intro m hm
    rw [Cell.rd_loopEnd_macBusy _ _ _ hm hk]
    exact hn m hm

/-- The cell of a TMAC at START, and of one that goes on with an open accumulation. -/
def Cell.tmacOpens (k w ext : Nat) (c : Cell) : Cell :=
  if tmStart w then c.macStart k (bits ((c.ctx k).sReg (bits ext 6 2)).v.toNat 10 0) ⟨tmOs w, tmFa w, tmFb w, tmMxa w, tmMxb w⟩ else c

@[simp] theorem Cell.ctx_tmacOpens (k w ext : Nat) (c : Cell) (j : Nat) : (c.tmacOpens k w ext).ctx j = c.ctx j := by
  unfold Cell.tmacOpens; split <;> rfl
@[simp] theorem Cell.tmacOpens_spd (k w ext : Nat) (c : Cell) : (c.tmacOpens k w ext).spd = c.spd := by
  unfold Cell.tmacOpens; split <;> rfl
theorem Cell.entry_tmacOpens (k w ext : Nat) (c : Cell) (m i : Nat) :
    (c.tmacOpens k w ext).entry m i = if tmStart w then Acc.clear else c.entry m i := by
  unfold Cell.tmacOpens; split <;> rfl
theorem Cell.rd_loopEnd_tmacOpens (c : Cell) (k w ext : Nat) {j n : Nat} (hn : n < 4) (hj : j < 4) :
    (c.tmacOpens k w ext).rd ((loopEnd n).ctx j) = c.rd ((loopEnd n).ctx j) := by
  have hlt := loopEnd_key_lt hn hj
  unfold Cell.tmacOpens
  split
  · show ((((c.wr CELL_MAC_ACC_SEL_OPEN 1).wr CELL_MAC_ACC_SEL_OWNER _).wr CELL_MAC_ACC_SEL_W _).wr CELL_MAC_STATUS_INTERRUPTED 0).rd _ = _
    repeat rw [Cell.rd_wr_mac _ _ hlt (by decide)]
  · rfl

/-- The registers of an accumulation that START opens (04 R122, 05 R128). -/
theorem Cell.rd_tmacOpens_start {k w : Nat} (ext : Nat) (c : Cell) (hw : tmStart w = true) :
    let d := c.tmacOpens k w ext
    d.rd CELL_MAC_ACC_SEL_OPEN = 1 ∧ d.rd CELL_MAC_ACC_SEL_OWNER = k % 4 ∧
      d.rd CELL_MAC_ACC_SEL_W = bits ((c.ctx k).sReg (bits ext 6 2)).v.toNat 10 0 ∧
      d.openCfg = some ⟨tmOs w, tmFa w, tmFb w, tmMxa w, tmMxb w⟩ := by
  have hwin : bits ((c.ctx k).sReg (bits ext 6 2)).v.toNat 10 0 % 2 ^ 11 = bits ((c.ctx k).sReg (bits ext 6 2)).v.toNat 10 0 :=
    Nat.mod_mod _ _
  simp only [Cell.tmacOpens, hw, if_true]
  generalize bits ((c.ctx k).sReg (bits ext 6 2)).v.toNat 10 0 = win at hwin ⊢
  have hrd (f : Fld) : (c.macStart k win ⟨tmOs w, tmFa w, tmFb w, tmMxa w, tmMxb w⟩).rd f =
    ((((c.wr CELL_MAC_ACC_SEL_OPEN 1).wr CELL_MAC_ACC_SEL_OWNER k).wr CELL_MAC_ACC_SEL_W win).wr CELL_MAC_STATUS_INTERRUPTED 0).rd f := rfl
  refine ⟨?_, ?_, ?_, rfl⟩
  · rw [hrd, Cell.rd_wr_ne _ _ (by decide), Cell.rd_wr_ne _ _ (by decide), Cell.rd_wr_ne _ _ (by decide), Cell.rd_wr_self]; rfl
  · rw [hrd, Cell.rd_wr_ne _ _ (by decide), Cell.rd_wr_ne _ _ (by decide), Cell.rd_wr_self]; rfl
  · rw [hrd, Cell.rd_wr_ne _ _ (by decide), Cell.rd_wr_self]; exact hwin

/-- The status registers of a busy block. -/
theorem Cell.rd_macBusy_status (k : Nat) (slab : Bool) (phase : Nat) (c : Cell) :
    let d := c.macBusy k slab phase
    d.rd CELL_MAC_STATUS_BUSY = 1 ∧ d.rd CELL_MAC_STATUS_CTX = k % 4 ∧ d.rd CELL_MAC_STATUS_PHASE = phase % 4 := by
  refine ⟨?_, ?_, ?_⟩ <;> rw [Cell.rd_macBusy]
  all_goals
    repeat rw [Cell.rd_wr_ne _ _ (by decide)]
    exact Cell.rd_wr_self ..

/-! ### The package after a TMAC -/

/-- The package after a TMAC outside a slab that starts: its cell alone differs. -/
theorem cell_tmacState {e : Env} {n k w ext : Nat} {s : State} (he : e = s.env n) (hslab : (s.cell n).flag CELL_SLAB_CFG_ENABLE = false)
    (hint : (s.cell n).flag CELL_MAC_STATUS_INTERRUPTED = true → tmStart w = true ∨ (s.cell n).rd CELL_MAC_ACC_SEL_OWNER ≠ k)
    (hfree : (s.cell n).macHeld = false) (hcheck : tmacCheck (s.env n) k w ext (s.cell n) = none) (m : Nat) :
    (tmacState e k w ext s).cell m = if m = n then
      ((s.cell n).tmacOpens k w ext).tmacSolo (tmacOp (s.env n) k w ext s.cycle (s.cell n)) n else s.cell m := by
  subst he
  have hstart : tmacBody (s.env n) s.phys s.cycle k w ext s.cells = _ := tmacBody_solo s.phys s.cycle hslab hint hfree hcheck
  show cget (tmacBody (s.env n) s.phys s.cycle k w ext s.cells) m = _
  rw [hstart, cget_tmacStart]
  unfold Cell.tmacOpens
  by_cases hm : m = n <;> cases tmStart w <;> simp [hm, State.cell]

@[simp] theorem Cell.flag_take (c : Cell) (k : Nat) (f : Fld) : (c.take k).flag f = c.flag f := rfl
@[simp] theorem Cell.entry_take (c : Cell) (k m i : Nat) : (c.take k).entry m i = c.entry m i := rfl
@[simp] theorem Cell.macHeld_take (c : Cell) (k : Nat) : (c.take k).macHeld = c.macHeld := rfl

/-- What a TMAC that starts leaves: the other cells as they were, its own with the operation started. -/
theorem tmac_starts {x : CtxRef} {s : State} (h : Ready .tmac x s) (hslab : (s.cell x.cell).flag CELL_SLAB_CFG_ENABLE = false)
    (hint : (s.cell x.cell).flag CELL_MAC_STATUS_INTERRUPTED = true →
      tmStart (s.wordOf x) = true ∨ (s.cell x.cell).rd CELL_MAC_ACC_SEL_OWNER ≠ x.ctx)
    (hfree : (s.cell x.cell).macHeld = false)
    (hcheck : tmacCheck (s.env x.cell) x.ctx (s.wordOf x) (s.extOf x) ((s.cell x.cell).take x.ctx) = none) :
    ∃ t, exec (.tmac x) s = .next t ∧ OnlyCell x.cell s t ∧ t.cell x.cell = Cell.stepEnd x.ctx .tmac (s.ctxOf x).pc
      ((((s.cell x.cell).take x.ctx).tmacOpens x.ctx (s.wordOf x) (s.extOf x)).tmacSolo
        (tmacOp (s.env x.cell) x.ctx (s.wordOf x) (s.extOf x) s.cycle ((s.cell x.cell).take x.ctx)) x.cell) := by
  have hc : (s.modCell x.cell (fun c => c.take x.ctx)).cell x.cell = (s.cell x.cell).take x.ctx := by simp
  have hcell := cell_tmacState (e := s.env x.cell) (n := x.cell) (k := x.ctx) (w := s.wordOf x) (ext := s.extOf x)
    (s := s.modCell x.cell (fun c => c.take x.ctx)) rfl (by rw [hc, Cell.flag_take, hslab]) (by rw [hc, Cell.flag_take, Cell.rd_take]; exact hint)
    (by rw [hc, Cell.macHeld_take, hfree]) (by rw [hc]; exact hcheck)
  refine ⟨_, issue_ready tmacState h, ⟨?_, fun m hm => ?_⟩, ?_⟩
  · unfold tmacState State.modCell
    generalize tmacBody _ _ _ _ _ _ _ = cs
    rfl
  · rw [State.cell_modCell, if_neg hm, hcell, if_neg hm, State.cell_modCell, if_neg hm]
  · rw [State.cell_modCell, if_pos rfl, hcell, if_pos rfl, hc, State.env_modCell, State.modCell_cycle]

@[simp] theorem Cell.rd_stepEnd (c : Cell) (k : Nat) (r : Row) (pc : BitVec 10) (f : Fld) : (c.stepEnd k r pc).rd f = c.rd f := rfl
@[simp] theorem Cell.flag_stepEnd (c : Cell) (k : Nat) (r : Row) (pc : BitVec 10) (f : Fld) : (c.stepEnd k r pc).flag f = c.flag f := rfl
@[simp] theorem Cell.stepEnd_spd (c : Cell) (k : Nat) (r : Row) (pc : BitVec 10) : (c.stepEnd k r pc).spd = c.spd := rfl
@[simp] theorem Cell.stepEnd_macOp (c : Cell) (k : Nat) (r : Row) (pc : BitVec 10) : (c.stepEnd k r pc).macOp = c.macOp := rfl
@[simp] theorem Cell.stepEnd_openCfg (c : Cell) (k : Nat) (r : Row) (pc : BitVec 10) : (c.stepEnd k r pc).openCfg = c.openCfg := rfl
@[simp] theorem Cell.entry_stepEnd (c : Cell) (k : Nat) (r : Row) (pc : BitVec 10) (m i : Nat) : (c.stepEnd k r pc).entry m i = c.entry m i := rfl

theorem tmacOp_take (e : Env) {k : Nat} (w ext now : Nat) {c : Cell} (hk : k < 4) : tmacOp e k w ext now (c.take k) = tmacOp e k w ext now c := by
  unfold tmacOp
  rw [Cell.ctx_take_self _ _ hk, Cell.flag_take]
  rfl

theorem Cell.entry_tmacSolo (op : MacOp) (n : Nat) (c : Cell) (m i : Nat) : (c.tmacSolo op n).entry m i = c.entry m i := by
  unfold Cell.entry; rw [Cell.tmacSolo_acc]

theorem Cell.rd_tmacSolo (op : MacOp) (n : Nat) (c : Cell) (f : Fld) :
    (c.tmacSolo op n).rd f = (c.macBusy op.ctx op.slab (if tmOs op.w then 2 else 1)).rd f := Cell.rd_eq_of_regs (Cell.tmacSolo_regs ..) f

/-- The registers of the accumulation after a TMAC. -/
theorem Cell.rd_accSel_tmacSolo (op : MacOp) (n : Nat) (c : Cell) {f : Fld} (hf : f.off = 0x820) (hl : f.lsb < 64) :
    (c.tmacSolo op n).rd f = c.rd f := by
  rw [Cell.rd_tmacSolo, Cell.rd_accSel_macBusy _ _ _ _ hf hl]

theorem Cell.flag_of_rd {c : Cell} {f : Fld} (h : c.rd f = 1) : c.flag f = true := by
  unfold Cell.flag; rw [h]; rfl

/-- The block of a TMAC that starts is busy with its context's operation. -/
theorem Cell.tmacSolo_status (op : MacOp) (n : Nat) (c : Cell) :
    (c.tmacSolo op n).flag CELL_MAC_STATUS_BUSY = true ∧ (c.tmacSolo op n).rd CELL_MAC_STATUS_CTX = op.ctx % 4 ∧
      (c.tmacSolo op n).rd CELL_MAC_STATUS_PHASE = if tmOs op.w then 2 else 1 := by
  obtain ⟨hbusy, hctx, hphase⟩ := Cell.rd_macBusy_status op.ctx op.slab (if tmOs op.w then 2 else 1) c
  refine ⟨Cell.flag_of_rd ?_, ?_, ?_⟩
  · rw [Cell.rd_tmacSolo, hbusy]
  · rw [Cell.rd_tmacSolo, hctx]
  · rw [Cell.rd_tmacSolo, hphase]
    cases tmOs op.w <;> rfl

/-- The accumulation that a TMAC with START opens. -/
theorem Cell.tmacSolo_opens (op : MacOp) (n : Nat) {k w : Nat} (ext : Nat) (c : Cell) (hw : tmStart w = true) :
    let d := (c.tmacOpens k w ext).tmacSolo op n
    d.flag CELL_MAC_ACC_SEL_OPEN = true ∧ d.rd CELL_MAC_ACC_SEL_OWNER = k % 4 ∧
      d.rd CELL_MAC_ACC_SEL_W = bits ((c.ctx k).sReg (bits ext 6 2)).v.toNat 10 0 ∧
      d.openCfg = some ⟨tmOs w, tmFa w, tmFb w, tmMxa w, tmMxb w⟩ := by
  obtain ⟨hopen, howner, hwin, hcfg⟩ := Cell.rd_tmacOpens_start (k := k) ext c hw
  refine ⟨Cell.flag_of_rd ?_, ?_, ?_, ?_⟩
  · rw [Cell.rd_accSel_tmacSolo _ _ _ rfl (by decide), hopen]
  · rw [Cell.rd_accSel_tmacSolo _ _ _ rfl (by decide), howner]
  · rw [Cell.rd_accSel_tmacSolo _ _ _ rfl (by decide), hwin]
  · rw [Cell.tmacSolo_openCfg, hcfg]

/-- The context of a TMAC that starts. -/
theorem ctx_tmac {x : CtxRef} {s : State} (h : Ready .tmac x s) (hn : NoReturn 2 x s) {op : MacOp} (hop : op.ctx = x.ctx) (w ext : Nat) :
    ((((s.cell x.cell).take x.ctx).tmacOpens x.ctx w ext).tmacSolo op x.cell).ctx x.ctx = { (s.ctxOf x).issuing with pc := (s.ctxOf x).pc + 2 } := by
  have hctx : (((s.cell x.cell).take x.ctx).tmacOpens x.ctx w ext).ctx x.ctx = (s.ctxOf x).issuing := by
    rw [Cell.ctx_tmacOpens, Cell.ctx_take_self _ _ h.ctx]; rfl
  have hsolo := Cell.ctx_tmacSolo (op := op) x.cell (c := ((s.cell x.cell).take x.ctx).tmacOpens x.ctx w ext) (hop ▸ h.ctx) (fun m hm => by
    rw [hop, hctx, Cell.rd_loopEnd_tmacOpens _ _ _ _ hm h.ctx, Cell.rd_take]
    exact hn m hm)
  rw [hop, hctx] at hsolo
  exact hsolo

/-! ### What the operand reader leaves (05 R587) -/

/-- From `c` to `d` the scratchpad's bytes, the rows that drain and the slab configuration are as before. -/
structure Cell.SameFrame (c d : Cell) : Prop where
  spd : d.spd = c.spd
  drain : d.drain = c.drain
  arbWait : d.arbWait = c.arbWait
  slab : d.rd CELL_SLAB_CFG_ENABLE = c.rd CELL_SLAB_CFG_ENABLE

/-- The entries too are as before. -/
structure Cell.SameBlock (c d : Cell) : Prop extends c.SameFrame d where
  acc : d.acc = c.acc

theorem Cell.SameFrame.trans {c d e : Cell} (h : c.SameFrame d) (g : d.SameFrame e) : c.SameFrame e :=
  ⟨g.spd.trans h.spd, g.drain.trans h.drain, g.arbWait.trans h.arbWait, g.slab.trans h.slab⟩

theorem Cell.SameFrame.flag_slab {c d : Cell} (h : c.SameFrame d) : d.flag CELL_SLAB_CFG_ENABLE = c.flag CELL_SLAB_CFG_ENABLE := by
  unfold Cell.flag; rw [h.slab]

theorem Cell.SameBlock.refl (c : Cell) : c.SameBlock c := ⟨⟨rfl, rfl, rfl, rfl⟩, rfl⟩

theorem Cell.SameBlock.trans {c d e : Cell} (h : c.SameBlock d) (g : d.SameBlock e) : c.SameBlock e :=
  ⟨h.toSameFrame.trans g.toSameFrame, g.acc.trans h.acc⟩

theorem Cell.SameBlock.entry {c d : Cell} (h : c.SameBlock d) (m i : Nat) : d.entry m i = c.entry m i := by
  unfold Cell.entry; rw [h.acc]

theorem Cell.sameBlock_wr (c : Cell) {f : Fld} (v : Nat) (hf : CELL_SLAB_CFG_ENABLE.key ≠ f.key) : c.SameBlock (c.wr f v) :=
  ⟨⟨rfl, rfl, rfl, Cell.rd_wr_ne _ _ hf⟩, rfl⟩

theorem Cell.sameBlock_spdRead (c : Cell) (a : Nat) : c.SameBlock (c.spdRead a).2.2 := by
  unfold Cell.spdRead
  dsimp only
  split
  · exact .refl c
  · exact (c.sameBlock_wr _ (by decide)).trans ⟨⟨rfl, rfl, rfl, rfl⟩, rfl⟩
  · exact Cell.SameBlock.trans (d := { c with spdPoison := _, spdEcc := _ }) ⟨⟨rfl, rfl, rfl, rfl⟩, rfl⟩
      ((Cell.sameBlock_wr _ _ (by decide)).trans ⟨⟨rfl, rfl, rfl, rfl⟩, rfl⟩)

theorem Cell.sameBlock_viewLoad (c : Cell) (l : List (Nat × List (Nat × Nat))) : c.SameBlock (c.viewLoad l).2 := by
  induction l generalizing c with
  | nil => exact .refl c
  | cons p l ih => exact (c.sameBlock_spdRead p.1).trans (ih _)

theorem Cell.sameBlock_macLine (c : Cell) (a : Int) (scale : Bool) : c.SameBlock (c.macLine a scale).2 := by
  unfold Cell.macLine
  dsimp only
  generalize viewMap false 0 a.toNat = l
  split_ifs
  · exact .refl c
  · cases c.spdCheck 2 (a.toNat % 64 == 0) (l.map (fun x => x.1)) with
    | some r => exact .refl c
    | none => exact c.sameBlock_viewLoad l

theorem Cell.sameBlock_claimLine (c : Cell) (r : OpRead) : c.SameBlock (c.claimLine none r) :=
  (c.sameBlock_macLine r.addr _).trans ⟨⟨rfl, rfl, rfl, rfl⟩, rfl⟩

theorem sameBlock_claimGo (p : OpRead → Bool) (rs : List OpRead) (c : Cell) : c.SameBlock (claimGo none p rs c) := by
  induction rs generalizing c with
  | nil => exact ⟨⟨rfl, rfl, rfl, rfl⟩, rfl⟩
  | cons r rs ih =>
    unfold claimGo
    split
    · dsimp only
      split
      · exact (c.sameBlock_claimLine r).trans ⟨⟨rfl, rfl, rfl, rfl⟩, rfl⟩
      · exact (c.sameBlock_claimLine r).trans (ih _)
    · exact ⟨⟨rfl, rfl, rfl, rfl⟩, rfl⟩

theorem Cell.sameBlock_claim (c : Cell) (p : OpRead → Bool) : c.SameBlock (c.claim none p) := sameBlock_claimGo ..

/-- A change that keeps the block, made for each element of a list, keeps it. -/
theorem Cell.sameBlock_foldl {α : Type} {f : Cell → α → Cell} (hf : ∀ (c : Cell) (a : α), c.SameBlock (f c a)) (l : List α) (c : Cell) :
    c.SameBlock (l.foldl f c) := by
  induction l generalizing c with
  | nil => exact .refl c
  | cons a l ih => exact (hf c a).trans (ih _)

theorem Cell.sameBlock_consume (c : Cell) (op : MacOp) (origin tau : Nat) : c.SameBlock (c.consume op origin tau) := by
  unfold Cell.consume
  refine Cell.sameBlock_foldl (fun c p => ?_) _ c
  split
  · exact .refl c
  · exact ⟨⟨rfl, rfl, rfl, rfl⟩, rfl⟩

/-! ### Entries changed row by row -/

theorem Cell.entry_setEntry (c : Cell) (m i : Nat) (a : Acc) (m' i' : Nat) :
    (c.setEntry m i a).entry m' i' = if 16 * m' + i' = 16 * m + i then a else c.entry m' i' := fget_fset ..

/-- The entries of one row changed, up to a column. -/
theorem entry_modRow (f : Nat → Nat → Acc → Acc) (m : Nat) {k : Nat} (hk : k ≤ 16) (c : Cell) (m' : Nat) {i : Nat} (hi : i < 16) :
    ((List.range k).foldl (fun c n => c.setEntry m n (f m n (c.entry m n))) c).entry m' i =
      if m' = m ∧ i < k then f m i (c.entry m i) else c.entry m' i := by
  induction k generalizing m' i with
  | zero => simp
  | succ k ih =>
    rw [List.range_succ, List.foldl_append, List.foldl_cons, List.foldl_nil, Cell.entry_setEntry, ih (by omega) _ hi,
      ih (by omega) m (by omega : k < 16)]
    by_cases hat : 16 * m' + i = 16 * m + k
    · obtain ⟨rfl, rfl⟩ : m' = m ∧ i = k := by omega
      simp
    · have hiff : (m' = m ∧ i < k + 1) ↔ m' = m ∧ i < k := by omega
      simp only [hat, hiff, if_false]

/-- The entries of the rows below `rows` changed. -/
theorem Cell.entry_modEntries (f : Nat → Nat → Acc → Acc) (rows : Nat) (c : Cell) (m : Nat) {i : Nat} (hi : i < 16) :
    (c.modEntries rows f).entry m i = if m < rows then f m i (c.entry m i) else c.entry m i := by
  unfold Cell.modEntries
  induction rows generalizing m with
  | zero => rfl
  | succ r ih =>
    rw [List.range_succ (n := r), List.foldl_append, List.foldl_cons, List.foldl_nil, entry_modRow f r le_rfl _ m hi, ih, ih]
    by_cases hm : m = r
    · subst hm; simp [hi]
    · have hiff : m < r + 1 ↔ m < r := by omega
      simp only [hm, hiff, false_and, if_false]

/-- Only entries change. -/
theorem Cell.modEntries_eq (f : Nat → Nat → Acc → Acc) (rows : Nat) (c : Cell) : ∃ a, c.modEntries rows f = { c with acc := a } := by
  unfold Cell.modEntries
  refine List.foldlRecOn _ _ (motive := fun d : Cell => ∃ a, d = { c with acc := a }) ⟨c.acc, rfl⟩ (fun d hd m _ => ?_)
  refine List.foldlRecOn _ _ (motive := fun d : Cell => ∃ a, d = { c with acc := a }) hd (fun e he n _ => ?_)
  obtain ⟨a, rfl⟩ := he
  exact ⟨_, rfl⟩

/-- The contexts that wait for the block are woken; nothing else changes. -/
theorem Cell.wakeMac_eq (c : Cell) : ∃ xs, c.wakeMac = { c with ctxs := xs } := by
  unfold Cell.wakeMac
  refine List.foldlRecOn _ _ (motive := fun d : Cell => ∃ xs, d = { c with ctxs := xs }) ⟨c.ctxs, rfl⟩ (fun d hd k _ => ?_)
  obtain ⟨xs, rfl⟩ := hd
  split
  · exact ⟨_, rfl⟩
  · exact ⟨xs, rfl⟩

/-! ### The timeline of an operation of one iteration -/

@[simp] theorem slabReach_solo (n logical : Nat) : slabReach (soloSlab n) logical = 0 := rfl

theorem MacOp.moved_mono (op : MacOp) {t u : Nat} (h : t ≤ u) : op.moved t ≤ op.moved u := by
  unfold MacOp.moved
  split_ifs <;> omega

/-- COMPUTE of the only iteration ends before the last row leaves the array. -/
theorem MacOp.iterEnd_le_arrayEnd (op : MacOp) (n : Nat) (hi : op.iter = 0) (hb : tmBatch op.ext = 1) :
    op.iterEnd (soloSlab n) ≤ op.arrayEnd (soloSlab n) := by
  have hrows : 1 ≤ tmRows op.w := Nat.le_add_left ..
  have hm := op.moved_mono (Nat.sub_le (op.at 0 + op.comp) 1)
  simp only [MacOp.iterEnd, MacOp.arrayEnd, MacOp.leaves, hi, hb, slabReach_solo, Nat.sub_self]
  omega

/-- The cell after the claims and consumptions due by a cycle. -/
def Cell.fetched (op : MacOp) (n tau : Nat) (c : Cell) : Cell :=
  (c.claim none (fun r => r.origin == n && decide (r.off ≤ tau))).consume op n tau

theorem Cell.sameBlock_fetched (op : MacOp) (n tau : Nat) (c : Cell) : c.SameBlock (c.fetched op n tau) :=
  (c.sameBlock_claim _).trans (Cell.sameBlock_consume ..)

/-- An operation of one iteration outside a slab, none of whose consumptions fails: its iteration is computed. -/
theorem macUpTo_solo (e : Env) (ph : Nat → Nat) (n now : Nat) {cs : Cells} {op : MacOp} (hop : (cget cs n).macOp = some op)
    (hslab : (cget cs n).flag CELL_SLAB_CFG_ENABLE = false) (hended : op.ended = false) (hi : op.iter = 0) (hb : tmBatch op.ext = 1)
    (hstuck : ((cget cs n).fetched op n (op.arrayEnd (soloSlab n))).macStuck op n = false) :
    macUpTo e ph n now (op.arrayEnd (soloSlab n)) none (tmBatch op.ext) cs =
      macStep e op (soloSlab n) n now (cmod cs n (Cell.fetched op n (op.arrayEnd (soloSlab n)))) := by
  unfold Cell.fetched at hstuck ⊢
  rw [hb]
  unfold macUpTo
  simp only [hop, hended, opSlab_solo ph _ _ hslab, soloSlab_nums, cmodAll_single, List.any_cons, List.any_nil, Bool.or_false,
    cget_cmod, if_true, hstuck, Bool.false_eq_true, if_false, if_pos (op.iterEnd_le_arrayEnd n hi hb), macUpTo]

/-! ### The iteration -/

/-- The blocks of an iteration added into the entries of the cell. -/
def Cell.added (op : MacOp) (n : Nat) (c : Cell) : Cell :=
  c.modEntries (tmRows op.w) (accEntry op.w c.win none (tmRows op.w) (tmNb op.ext) (readA op n 0 c) (readB op n 0 c))

theorem macIter_solo {op : MacOp} {n : Nat} {cs : Cells}
    (hA : opFail (readA op n 0 (cget cs n)) (tmNb op.ext) (tmRows op.w) (fun j m _ => idxA (idxBase op.w (tmNb op.ext)) (tmRows op.w) j m) = none)
    (hB : opFail (readB op n 0 (cget cs n)) (tmNb op.ext) 16 (idxOfB op.w (tmNb op.ext)) = none) :
    macIter op (soloSlab n) n 0 cs = (cmod cs n (Cell.added op n), none) := by
  unfold macIter
  simp only [soloSlab_readsA, soloSlab_readsB, soloSlab_cells, List.map_cons, List.map_nil, soloSlab_at, List.zip_cons_cons, List.zip_nil_left,
    List.foldl_cons, List.foldl_nil, firstFail, hA, hB, earlier, soloSlab_w, soloSlab_h, soloSlab_ckcol, soloSlab_ckrow, soloSlab_member,
    Bool.or_self, Bool.false_eq_true, if_false, if_true, Bool.not_true, Bool.false_and, Nat.zero_mul, Nat.add_zero,
    Nat.zero_lt_one, List.getD_cons_zero, ite_self, Option.map_none]
  rw [cmod_congr cs n]
  rfl

/-- The cell after its only iteration. -/
def Cell.iterated (op : MacOp) (n : Nat) (c : Cell) : Cell :=
  { ({ (c.added op n).wr CELL_MAC_STATUS_ITER 0 with
       opBuf := (c.added op n).opBuf.filter (fun l => l.it != 0 || (op.loadsOnce && decide (2 ≤ l.kind))) } : Cell).wr CELL_MAC_STATUS_PHASE 3 with
    macOp := some { op with iter := 1, ended := true } }

theorem cget_macStep_solo (e : Env) {op : MacOp} {n : Nat} (now : Nat) {cs : Cells} (hi : op.iter = 0) (hb : tmBatch op.ext = 1)
    (hd : tmDrain op.w = false)
    (hA : opFail (readA op n 0 (cget cs n)) (tmNb op.ext) (tmRows op.w) (fun j m _ => idxA (idxBase op.w (tmNb op.ext)) (tmRows op.w) j m) = none)
    (hB : opFail (readB op n 0 (cget cs n)) (tmNb op.ext) 16 (idxOfB op.w (tmNb op.ext)) = none) (m : Nat) :
    cget (macStep e op (soloSlab n) n now cs) m = if m = n then (cget cs n).iterated op n else cget cs m := by
  unfold macStep
  simp only [hi, hb, hd, macIter_solo hA hB, macCheck, setOp, soloSlab_nums, cmodAll_single, soloSlab_ckcol, soloSlab_ckrow, Bool.or_self,
    Bool.not_false, Bool.true_or, if_true, Bool.false_eq_true, if_false, Nat.zero_add, beq_self_eq_true, cget_cmod]
  by_cases hm : m = n
  · simp only [hm, if_true]
    rfl
  · simp only [hm, if_false]

/-- The cell whose operation is over. -/
def Cell.leftMac (op : MacOp) (n : Nat) (c : Cell) : Cell :=
  { ({ c.macIdle.dropFeeds n with macOp := some { op with left := true } } : Cell).wakeMac with macOp := none }

theorem cget_macLeaves_solo (e : Env) (op : MacOp) {n : Nat} {cs : Cells} (hd : (cget cs n).drain = []) (m : Nat) :
    cget (macLeaves e op (soloSlab n) n cs) m = if m = n then (cget cs n).leftMac op n else cget cs m := by
  have hdrain : ((cget cs n).macIdle.dropFeeds n).drain = [] := hd
  unfold macLeaves macFinish Cell.leftMac
  simp only [setOp, soloSlab_nums, cmodAll_single, cget_cmod, hdrain, soloSlab_ckcol, soloSlab_ckrow, Bool.or_self,
    Bool.false_and, if_true, Bool.false_eq_true, if_false, List.isEmpty_nil, OfNat.zero_ne_ofNat]
  by_cases hm : m = n
  · simp only [hm, if_true]
  · simp only [hm, if_false]

/-! ### The end of the operation -/

theorem Cell.added_eq (op : MacOp) (n : Nat) (c : Cell) : ∃ a, c.added op n = { c with acc := a } := Cell.modEntries_eq ..

theorem Cell.rd_iterated (op : MacOp) (n : Nat) (c : Cell) (f : Fld) :
    (c.iterated op n).rd f = ((c.wr CELL_MAC_STATUS_ITER 0).wr CELL_MAC_STATUS_PHASE 3).rd f := by
  obtain ⟨a, ha⟩ := c.added_eq op n
  unfold Cell.iterated
  rw [ha]
  rfl

/-- The iteration changes entries only of the block. -/
theorem Cell.sameFrame_iterated (op : MacOp) (n : Nat) (c : Cell) : c.SameFrame (c.iterated op n) := by
  have hslab : (c.iterated op n).rd CELL_SLAB_CFG_ENABLE = c.rd CELL_SLAB_CFG_ENABLE := by
    rw [Cell.rd_iterated]
    repeat rw [Cell.rd_wr_ne _ _ (by decide)]
  obtain ⟨a, ha⟩ := c.added_eq op n
  unfold Cell.iterated at hslab ⊢
  rw [ha] at hslab ⊢
  exact ⟨rfl, rfl, rfl, hslab⟩

@[simp] theorem Cell.iterated_macOp (op : MacOp) (n : Nat) (c : Cell) : (c.iterated op n).macOp = some { op with iter := 1, ended := true } := rfl

theorem Cell.entry_iterated (op : MacOp) (n : Nat) (c : Cell) (m i : Nat) : (c.iterated op n).entry m i = (c.added op n).entry m i := rfl

/-- The registers of a block whose operation is over. -/
theorem Cell.rd_leftMac (op : MacOp) (n : Nat) (c : Cell) (f : Fld) :
    (c.leftMac op n).rd f = (((c.wr CELL_MAC_STATUS_BUSY 0).wr CELL_MAC_STATUS_PHASE 0).wr CELL_MAC_STATUS_SLAB_HELD 0).rd f := by
  unfold Cell.leftMac
  obtain ⟨xs, hx⟩ := ({ c.macIdle.dropFeeds n with macOp := some { op with left := true } } : Cell).wakeMac_eq
  rw [hx]
  rfl

theorem Cell.sameBlock_leftMac (op : MacOp) (n : Nat) (c : Cell) : c.SameBlock (c.leftMac op n) := by
  have hslab : (c.leftMac op n).rd CELL_SLAB_CFG_ENABLE = c.rd CELL_SLAB_CFG_ENABLE := by
    rw [Cell.rd_leftMac]
    repeat rw [Cell.rd_wr_ne _ _ (by decide)]
  unfold Cell.leftMac at hslab ⊢
  obtain ⟨xs, hx⟩ := ({ c.macIdle.dropFeeds n with macOp := some { op with left := true } } : Cell).wakeMac_eq
  rw [hx] at hslab ⊢
  exact ⟨⟨rfl, rfl, rfl, hslab⟩, rfl⟩

@[simp] theorem Cell.leftMac_macOp (op : MacOp) (n : Nat) (c : Cell) : (c.leftMac op n).macOp = none := rfl

/-- A cell after the rest of an operation of one iteration without drain. -/
def Cell.completed (op : MacOp) (n : Nat) (c : Cell) : Cell :=
  ((c.fetched op n (op.arrayEnd (soloSlab n))).iterated op n).leftMac { op with iter := 1, ended := true } n

/-- A cell outside a slab whose operation, of one iteration and without drain, can run to its end: nothing holds it and its operands
can all be read. -/
structure Cell.Completable (op : MacOp) (n : Nat) (c : Cell) : Prop where
  held : c.macOp = some op
  moves : c.flag CELL_CTRL_FREEZE = false
  slab : c.flag CELL_SLAB_CFG_ENABLE = false
  verdict : c.arbWait = false
  drained : c.drain = []
  ended : op.ended = false
  left : op.left = false
  iter : op.iter = 0
  batch : tmBatch op.ext = 1
  drain : tmDrain op.w = false
  stuck : (c.fetched op n (op.arrayEnd (soloSlab n))).macStuck op n = false
  readsA : opFail (readA op n 0 (c.fetched op n (op.arrayEnd (soloSlab n)))) (tmNb op.ext) (tmRows op.w)
    (fun j m _ => idxA (idxBase op.w (tmNb op.ext)) (tmRows op.w) j m) = none
  readsB : opFail (readB op n 0 (c.fetched op n (op.arrayEnd (soloSlab n)))) (tmNb op.ext) 16 (idxOfB op.w (tmNb op.ext)) = none

theorem cget_macComplete_solo {op : MacOp} {n : Nat} {cs : Cells} (h : (cget cs n).Completable op n) (e : Env) (ph : Nat → Nat) (now m : Nat) :
    cget (macComplete e ph now n cs) m = if m = n then (cget cs n).completed op n else cget cs m := by
  have hframe := ((cget cs n).sameBlock_fetched op n (op.arrayEnd (soloSlab n))).toSameFrame.trans (Cell.sameFrame_iterated op n _)
  have hcs (m : Nat) : cget (macStep e op (soloSlab n) n now (cmod cs n (Cell.fetched op n (op.arrayEnd (soloSlab n))))) m =
      if m = n then ((cget cs n).fetched op n (op.arrayEnd (soloSlab n))).iterated op n else cget cs m := by
    rw [cget_macStep_solo e now h.iter h.batch h.drain (by rw [cget_cmod, if_pos rfl]; exact h.readsA)
      (by rw [cget_cmod, if_pos rfl]; exact h.readsB),
      cget_cmod, cget_cmod, if_pos rfl]
    split_ifs <;> rfl
  unfold macComplete
  rw [h.moves]
  simp only [Bool.false_eq_true, if_false, h.held, opSlab_solo ph _ _ h.slab, macUpTo_solo e ph n now h.held h.slab h.ended h.iter h.batch h.stuck]
  generalize macStep e op (soloSlab n) n now (cmod cs n (Cell.fetched op n (op.arrayEnd (soloSlab n)))) = cs' at hcs ⊢
  have hn := hcs n
  rw [if_pos rfl] at hn
  have harb : (cget cs' n).arbWait = false := by rw [hn, hframe.arbWait, h.verdict]
  have hdrain : (cget cs' n).drain = [] := by rw [hn, hframe.drain, h.drained]
  have hslab : (cget cs' n).flag CELL_SLAB_CFG_ENABLE = false := by rw [hn, hframe.flag_slab, h.slab]
  have hop : (cget cs' n).macOp = some { op with iter := 1, ended := true } := by rw [hn, Cell.iterated_macOp]
  simp only [hop, harb, h.left, Bool.or_self, Bool.not_true, Bool.false_eq_true, if_false, opSlab_solo ph _ _ hslab]
  rw [cget_macLeaves_solo e _ hdrain, hn, hcs]
  split_ifs <;> rfl

/-- A block whose operation is over is idle. -/
theorem Cell.leftMac_idle (op : MacOp) (n : Nat) (c : Cell) :
    (c.leftMac op n).flag CELL_MAC_STATUS_BUSY = false ∧ (c.leftMac op n).rd CELL_MAC_STATUS_PHASE = 0 := by
  refine ⟨?_, ?_⟩
  · unfold Cell.flag
    rw [Cell.rd_leftMac, Cell.rd_wr_ne _ _ (by decide), Cell.rd_wr_ne _ _ (by decide), Cell.rd_wr_self]
    rfl
  · rw [Cell.rd_leftMac, Cell.rd_wr_ne _ _ (by decide), Cell.rd_wr_self]
    rfl

theorem Cell.completed_spd (op : MacOp) (n : Nat) (c : Cell) : (c.completed op n).spd = c.spd := by
  unfold Cell.completed
  rw [(Cell.sameBlock_leftMac ..).spd, (Cell.sameFrame_iterated ..).spd, (Cell.sameBlock_fetched ..).spd]

/-- The blocks are added into the rows of the operation, the entries of the other rows are as before. -/
theorem Cell.entry_completed (op : MacOp) (n : Nat) (c : Cell) (m : Nat) {i : Nat} (hi : i < 16) :
    let d := c.fetched op n (op.arrayEnd (soloSlab n))
    (c.completed op n).entry m i = if m < tmRows op.w then
      accEntry op.w d.win none (tmRows op.w) (tmNb op.ext) (readA op n 0 d) (readB op n 0 d) m i (c.entry m i) else c.entry m i := by
  dsimp only
  unfold Cell.completed
  rw [(Cell.sameBlock_leftMac ..).entry, Cell.entry_iterated]
  unfold Cell.added
  rw [Cell.entry_modEntries _ _ _ _ hi, (Cell.sameBlock_fetched ..).entry]

/-! ### The commands -/

theorem execMacOpComplete_eq {n : Nat} {s : State} (hn : n < cellCount) (hp : s.powered n = true) :
    exec (.macOpComplete n) s = .next { s with cells := macComplete (s.env n) s.phys s.cycle n s.cells } := by
  change s.onCell n (fun s => { s with cells := macComplete (s.env n) s.phys s.cycle n s.cells }) = _
  unfold State.onCell
  rw [if_pos hn, if_pos hp]

/-- MAC_OP_COMPLETE on a cell that FREEZE holds, or without an operation, changes nothing (03 R82). -/
theorem macComplete_idle (e : Env) (ph : Nat → Nat) (now : Nat) {n : Nat} {cs : Cells}
    (h : (cget cs n).flag CELL_CTRL_FREEZE = true ∨ (cget cs n).macOp = none) : macComplete e ph now n cs = cs := by
  unfold macComplete
  rcases h with hf | hm
  · rw [if_pos hf]
  · simp only [hm, ite_self]

/-- Settles O42: a TMAC takes its operation up in its own cell only, and the completion runs the one iteration, whose reads leave
the scratchpad and the entries alone, and lets the block go. -/
theorem tileMultiplyAccumulates : Obligations.TileMultiplyAccumulates := by
  unfold Obligations.TileMultiplyAccumulates
  refine ⟨?_, fun n s hn hp => ⟨fun h => ?_, ?_⟩⟩
  · intro x s h hn y w ext n c win op hslab hint hfree hcheck
    obtain ⟨t, ht, honly, hcell⟩ := tmac_starts h hslab hint hfree hcheck
    have hop : tmacOp (s.env n) x.ctx w ext s.cycle (c.take x.ctx) = op := by
      rw [tmacOp_take _ _ _ _ h.ctx]
      simp only [tmacOp, hslab, op]
      rfl
    change t.cell n = Cell.stepEnd x.ctx .tmac y.pc (((c.take x.ctx).tmacOpens x.ctx w ext).tmacSolo
      (tmacOp (s.env n) x.ctx w ext s.cycle (c.take x.ctx)) n) at hcell
    rw [hop] at hcell
    have hctx := ctx_tmac h hn (op := op) rfl w ext
    have hx : t.ctxOf x = { y.issuing with pc := y.pc + 2 } := by
      unfold State.ctxOf
      rw [hcell, Cell.stepEnd_ctx _ _ _ _ (by rw [hctx]; exact h.free), hctx]
    have hk : x.ctx % 4 = x.ctx := Nat.mod_eq_of_lt h.ctx
    obtain ⟨hbusy, hown, hphase⟩ := Cell.tmacSolo_status op n ((c.take x.ctx).tmacOpens x.ctx w ext)
    refine ⟨t, ht, honly, by rw [hx], by rw [hx]; rfl, ?_, ?_, ?_, ?_, ?_, fun hw => ?_, fun m i => ?_⟩
    · rw [hcell, Cell.stepEnd_macOp, Cell.tmacSolo_macOp]
    · rw [hcell, Cell.flag_stepEnd, hbusy]
    · rw [hcell, Cell.rd_stepEnd, hown]
      exact hk
    · rw [hcell, Cell.stepEnd_spd, Cell.tmacSolo_spd, Cell.tmacOpens_spd, Cell.take_spd]
    · rw [hcell, Cell.rd_stepEnd, hphase]
    · obtain ⟨hopen, howner, hwin, hcfg⟩ := Cell.tmacSolo_opens op n (k := x.ctx) ext (c.take x.ctx) hw
      rw [Cell.ctx_take_self _ _ h.ctx] at hwin
      rw [hcell, Cell.flag_stepEnd, Cell.rd_stepEnd, Cell.rd_stepEnd, Cell.stepEnd_openCfg]
      exact ⟨hopen, howner.trans hk, hwin, hcfg⟩
    · rw [hcell, Cell.entry_stepEnd, Cell.entry_tmacSolo, Cell.entry_tmacOpens, Cell.entry_take]
  · rw [execMacOpComplete_eq hn hp, macComplete_idle _ _ _ h]
  · intro op hop hfreeze hslab harb hdrained hended hleft hiter hbatch hdrain tau d0 A B rows nb hstuck hA hB
    have hc : (cget s.cells n).Completable op n :=
      ⟨hop, hfreeze, hslab, harb, hdrained, hended, hleft, hiter, hbatch, hdrain, hstuck, hA, hB⟩
    have hcell (m : Nat) := cget_macComplete_solo hc (s.env n) s.phys s.cycle m
    refine ⟨_, execMacOpComplete_eq hn hp, ⟨rfl, fun m hm => (hcell m).trans (if_neg hm)⟩, ?_⟩
    have hd : State.cell { s with cells := macComplete (s.env n) s.phys s.cycle n s.cells } n = (s.cell n).completed op n :=
      (hcell n).trans (if_pos rfl)
    rw [hd]
    obtain ⟨hbusy, hphase⟩ := Cell.leftMac_idle { op with iter := 1, ended := true } n
      (((s.cell n).fetched op n (op.arrayEnd (soloSlab n))).iterated op n)
    exact ⟨Cell.leftMac_macOp .., hbusy, hphase, Cell.completed_spd .., fun m i hm hi => (Cell.entry_completed op n _ m hi).trans (if_pos hm),
      fun m i hm hi => (Cell.entry_completed op n _ m hi).trans (if_neg (Nat.not_lt.mpr hm))⟩

end Sys2Proof.Machine

/-! PROOF. Control instructions: O44. -/

namespace Sys2Proof.Machine
open Sys2Proof

/-! ### Instructions that change their own context only -/

/-- From `c` to `d` context `k` becomes `y` and nothing else of the cell changes but what is kept of the contexts beside. -/
structure Cell.CtxIs (c d : Cell) (k : Nat) (y : Ctx) : Prop where
  rest : d.noCtxs = c.noCtxs
  self : d.ctx k = y
  other : ∀ j, j ≠ k → d.ctx j = c.ctx j

theorem Cell.CtxIs.modCtx {c d : Cell} {k : Nat} {y : Ctx} (h : c.CtxIs d k y) (f : Ctx → Ctx) : c.CtxIs (d.modCtx k f) k (f y) :=
  ⟨h.rest, by rw [Cell.ctx_modCtx, if_pos rfl, h.self], fun j hj => by rw [Cell.ctx_modCtx, if_neg hj, h.other j hj]⟩

theorem Cell.CtxIs.block {c d : Cell} {k : Nat} {y : Ctx} (h : c.CtxIs d k y) (wk : WaitKind) (obj : Nat) :
    c.CtxIs (d.block k wk obj) k { y with state := .blocked, wait := wk, waitObj := BitVec.ofNat 32 obj, waitElapsed := 0 } :=
  h.modCtx _

/-- The cell that the issue stage has taken for a context. -/
theorem Ready.taken {r : Row} {x : CtxRef} {s : State} (h : Ready r x s) :
    ((s.cell x.cell).take x.ctx).CtxIs ((s.cell x.cell).take x.ctx) x.ctx (s.ctxOf x).issuing :=
  ⟨rfl, Cell.ctx_take_self _ _ h.ctx, fun _ _ => rfl⟩

/-- That cell once the PC has passed an instruction at which no loop ends. -/
theorem Ready.passed {r : Row} {x : CtxRef} {s : State} {words : Nat} (h : Ready r x s) (hn : NoReturn words x s) :
    ((s.cell x.cell).take x.ctx).CtxIs (((s.cell x.cell).take x.ctx).advance x.ctx words) x.ctx ((s.ctxOf x).past words) := by
  rw [Cell.advance_none _ _ _ (fun n hn4 => by rw [h.taken.self]; exact hn n hn4)]
  exact h.taken.modCtx _

/-- An instruction of a ready context that changes its context only. -/
theorem issued_ctxIs {r : Row} {x : CtxRef} {s : State} {b : Env → Nat → Nat → Nat → Cell → Cell} {y : Ctx} (h : Ready r x s)
    (hb : ((s.cell x.cell).take x.ctx).CtxIs (b (s.env x.cell) x.ctx (s.wordOf x) (s.extOf x) ((s.cell x.cell).take x.ctx)) x.ctx y)
    (hs : y.stepping = false) : ∃ t, s.issue r (cellBody b) x = .next t ∧ Issued x s t (s.cell x.cell) y :=
  issued_of b h rfl hb.rest hb.self hs fun j _ => hb.other j

/-! ### The control instructions (04 R125) -/

theorem bodyFence_sent (e : Env) {k : Nat} (w ext : Nat) {c : Cell} (h : ∀ m ∈ c.inj, ¬(m.srcCtx = k ∧ m.kind ≠ .nack ∧ m.priv = false)) :
    bodyFence e k w ext c = c.advance k 1 := by
  unfold bodyFence
  rw [if_neg]
  simpa [and_assoc] using h

theorem bodyFence_waits (e : Env) {k : Nat} (w ext : Nat) {c : Cell} (h : ∃ m ∈ c.inj, m.srcCtx = k ∧ m.kind ≠ .nack ∧ m.priv = false) :
    bodyFence e k w ext c = c := by
  unfold bodyFence
  rw [if_pos]
  simpa [and_assoc] using h

theorem bodyWaitt_past (e : Env) {k w : Nat} (ext : Nat) {c : Cell} (hp : (c.ctx k).pairP (fRd w) = false)
    (ht : (c.ctx k).pair (fRd w) ≤ e.tick) : bodyWaitt e k w ext c = c.advance k 1 := by
  unfold bodyWaitt
  simp only [hp, ht, Bool.false_eq_true, if_false, if_true]

theorem bodyWaitt_later (e : Env) {k w : Nat} (ext : Nat) {c : Cell} (hp : (c.ctx k).pairP (fRd w) = false)
    (ht : e.tick < (c.ctx k).pair (fRd w)) : bodyWaitt e k w ext c =
      ((c.advance k 1).block k .time ((c.ctx k).pair (fRd w))).modCtx k
        (fun x => { x with waitTick := (c.ctx k).pair (fRd w), waitEdge := false }) := by
  unfold bodyWaitt
  simp only [hp, Nat.not_le.mpr ht, Bool.false_eq_true, if_false]

theorem State.edgeObj_modCell (s : State) (n : Nat) (f : Cell → Cell) (m : Nat) : (s.modCell n f).edgeObj m = s.edgeObj m := rfl

/-- WAITF waits for the edge that its cell sees next. -/
theorem issue_waitf {x : CtxRef} {s : State} (h : Ready .waitf x s) :
    exec (.waitf x) s = s.issue .waitf (cellBody (bodyWaitf (s.edgeObj x.cell))) x := by
  show s.issue .waitf waitfState x = _
  rw [issue_ready _ h, issue_ready _ h]
  unfold waitfState
  rw [State.edgeObj_modCell, State.env_n]

/-- The logical cell of a mapped physical cell, as its instructions see it. -/
theorem State.env_logical (s : State) {n id : Nat} (h : s.logical n = some id) : (s.env n).logical = id := by
  unfold State.env
  simp only [h, Option.getD_some]

/-- Settles O44: what each instruction makes of the taken cell, by its case. -/
theorem controlInstructions : Obligations.ControlInstructions := by
  intro x s hn y w c does r own
  refine ⟨fun h => ?nop, fun h => ?halt, fun h => ?brk, fun h => ?yield, fun h hq => ?fence, fun h hq => ?fenceWaits, fun h hp ht => ?waitt,
    fun h hp ht => ?waittLater, fun h => ?waitf, fun h => ?rdtick, fun h id hid => ?rdctx⟩
  case nop => exact issued_ctxIs (b := bodyNop) h (h.passed hn) h.free
  case halt => exact issued_ctxIs (b := bodyHalt) h ((h.passed hn).modCtx _) h.free
  case brk => exact issued_ctxIs (b := bodyBrk) h ((h.passed hn).modCtx _) h.free
  case yield => exact issued_ctxIs (b := bodyYield) h ((h.passed hn).modCtx _) h.free
  case fence =>
    refine issued_ctxIs (b := bodyFence) h ?_ h.free
    rw [bodyFence_sent (c := c.take x.ctx) _ _ _ hq]
    exact h.passed hn
  case fenceWaits =>
    refine issued_ctxIs (b := bodyFence) h ?_ h.free
    rw [bodyFence_waits (c := c.take x.ctx) _ _ _ hq]
    exact h.taken
  case waitt =>
    refine issued_ctxIs (b := bodyWaitt) h ?_ h.free
    rw [bodyWaitt_past _ _ (by rw [h.taken.self]; exact hp) (by rw [h.taken.self]; exact ht)]
    exact h.passed hn
  case waittLater =>
    refine issued_ctxIs (b := bodyWaitt) h ?_ h.free
    rw [bodyWaitt_later _ _ (by rw [h.taken.self]; exact hp) (by rw [h.taken.self]; exact ht), h.taken.self]
    exact ((h.passed hn).block _ _).modCtx _
  case waitf =>
    simp only [does, issue_waitf h]
    exact issued_ctxIs h (((h.passed hn).block _ _).modCtx _) h.free
  case rdtick => exact issued_regs (b := bodyRdtick) h hn rfl (fun _ => rfl) (fun _ _ => rfl) (fun _ => rfl)
  case rdctx =>
    have hb : bodyRdctx (s.env x.cell) x.ctx w (s.extOf x) (c.take x.ctx) = (c.take x.ctx).done x.ctx (fun z => z.setS r
        ⟨BitVec.ofNat 32 (x.ctx + 4 * c.rd (CTX_CONFIG_NICHE.ctx x.ctx) + 64 * c.rd (CTX_CONFIG_BOUND.ctx x.ctx) + 65536 * id), false⟩) := by
      unfold bodyRdctx
      rw [s.env_logical hid, Cell.rd_take, Cell.rd_take]
      simp only [Nat.mul_comm]
      rfl
    exact issued_regs (b := bodyRdctx) h hn hb (fun _ => rfl) (fun _ _ => rfl) (fun _ => rfl)

end Sys2Proof.Machine

/-! PROOF. MWAIT and PCFG: O43. -/

namespace Sys2Proof.Machine
open Sys2Proof

/-! ### Parameters of the patina (05 R149) -/

theorem Cell.rd_wrHalf_mac (c : Cell) {f g : Fld} (hi : Bool) (v : Nat) (hg : g.key < 0x800 * 64) (hf : 0x800 * 64 ≤ f.key) :
    (c.wrHalf f hi v).rd g = c.rd g := Cell.rd_wr_mac _ _ hg hf

theorem Cell.rd_wrVec_mac (c : Cell) {f g : Fld} (n v : Nat) (hg : g.key < 0x800 * 64) (hf : 0x800 * 64 ≤ f.key) :
    (c.wrVec f n v).rd g = c.rd g := by
  unfold Cell.wrVec
  refine List.foldlRecOn _ _ (motive := fun d : Cell => d.rd g = c.rd g) rfl fun d hd i _ => ?_
  have hi : 0x800 * 64 ≤ (f.up (8 * i)).key := by simp only [Fld.up, Fld.key] at hf ⊢; omega
  rw [Cell.rd_wr_mac _ _ hg hi, hd]

/-- A parameter lies above the registers of the contexts. -/
theorem Cell.rd_pcfgWrite (c : Cell) (stage idx v : Nat) {g : Fld} (hg : g.key < 0x800 * 64) : (c.pcfgWrite stage idx v).rd g = c.rd g := by
  unfold Cell.pcfgWrite
  split <;> simp (disch := decide) only [Cell.rd_wrHalf_mac _ _ _ hg, Cell.rd_wrVec_mac _ _ _ hg]

@[simp] theorem Cell.wrHalf_ctxs (c : Cell) (f : Fld) (hi : Bool) (v : Nat) : (c.wrHalf f hi v).ctxs = c.ctxs := by
  unfold Cell.wrHalf
  exact Cell.wr_ctxs ..

@[simp] theorem Cell.wrVec_ctxs (c : Cell) (f : Fld) (n v : Nat) : (c.wrVec f n v).ctxs = c.ctxs := by
  unfold Cell.wrVec
  exact List.foldlRecOn _ _ (motive := fun d : Cell => d.ctxs = c.ctxs) rfl fun d hd i _ => (Cell.wr_ctxs ..).trans hd

theorem Cell.pcfgWrite_ctxs (c : Cell) (stage idx v : Nat) : (c.pcfgWrite stage idx v).ctxs = c.ctxs := by
  unfold Cell.pcfgWrite
  split <;> simp only [Cell.wrHalf_ctxs, Cell.wrVec_ctxs]

theorem Cell.noCtxs_wrHalf (c : Cell) (f : Fld) (hi : Bool) (v : Nat) : (c.wrHalf f hi v).noCtxs = c.noCtxs.wrHalf f hi v := rfl

theorem Cell.noCtxs_wrVec (c : Cell) (f : Fld) (n v : Nat) : (c.wrVec f n v).noCtxs = c.noCtxs.wrVec f n v :=
  (List.foldl_hom Cell.noCtxs fun _ _ => rfl).symm

theorem Cell.noCtxs_pcfgWrite (c : Cell) (stage idx v : Nat) : (c.pcfgWrite stage idx v).noCtxs = c.noCtxs.pcfgWrite stage idx v := by
  unfold Cell.pcfgWrite
  split <;> simp only [Cell.noCtxs_wrHalf, Cell.noCtxs_wrVec]

/-- An instruction of a ready context that writes one parameter and goes on. -/
theorem issued_pcfgWrite {r : Row} {x : CtxRef} {s : State} {b : Env → Nat → Nat → Nat → Cell → Cell} {stage idx v : Nat} (h : Ready r x s)
    (hn : NoReturn 1 x s) (hb : b (s.env x.cell) x.ctx (s.wordOf x) (s.extOf x) ((s.cell x.cell).take x.ctx) =
      (((s.cell x.cell).take x.ctx).pcfgWrite stage idx v).advance x.ctx 1) :
    ∃ t, s.issue r (cellBody b) x = .next t ∧ Issued x s t ((s.cell x.cell).pcfgWrite stage idx v) ((s.ctxOf x).past 1) :=
  issued_advance h hn hb (by rw [Cell.noCtxs_pcfgWrite, Cell.noCtxs_pcfgWrite, Cell.noCtxs_take]) 
    (fun _ => Cell.ctx_eq_of_ctxs (Cell.pcfgWrite_ctxs ..) _)
   
    fun n hn4 => by rw [Cell.rd_pcfgWrite _ _ _ _ (loopEnd_key_lt hn4 h.ctx), Cell.rd_take]

/-! ### MWAIT and PCFG (04 R123, R124) -/

/-- A slab was broken under the accumulation of context `k` (05 R173). -/
def Cell.interrupted (c : Cell) (k : Nat) : Bool := c.flag CELL_MAC_STATUS_INTERRUPTED && c.rd CELL_MAC_ACC_SEL_OWNER == k
/-- The block runs an operation or drains. -/
def Cell.macActive (c : Cell) : Bool := c.flag CELL_MAC_STATUS_BUSY || c.flag CELL_MAC_STATUS_DRAINING

theorem bodyMwait_eq (e : Env) (k w ext : Nat) (c : Cell) : bodyMwait e k w ext c =
    if c.interrupted k then c.raiseHere e k 0x60 0 else if c.macWaits k then c.block k .mac 0 else c.advance k 1 := rfl

theorem bodyPcfg_interrupted (e : Env) {k : Nat} (w ext : Nat) {c : Cell} (hi : c.interrupted k = true) :
    bodyPcfg e k w ext c = c.raiseHere e k 0x60 0 := if_pos hi

theorem bodyPcfg_active (e : Env) {k : Nat} (w ext : Nat) {c : Cell} (hi : c.interrupted k = false) (ha : c.macActive = true) :
    bodyPcfg e k w ext c = c.block k .mac 0 := 
  (if_neg (ne_true_of_eq_false hi)).trans (if_pos ha)

theorem bodyPcfg_word (e : Env) {k w : Nat} (ext : Nat) {c : Cell} {y : Ctx} (hy : c.ctx k = y.issuing) (hi : c.interrupted k = false)
    (ha : c.macActive = false) (hv : bit w 20 = false) (hp : (y.sReg (bits w 19 15)).p = false) :
    bodyPcfg e k w ext c = (c.pcfgWrite (minor w) (bits w 14 11) (y.sReg (bits w 19 15)).v.toNat).advance k 1 := by
  unfold Cell.interrupted at hi
  unfold Cell.macActive at ha
  unfold bodyPcfg
  simp only [hi, ha, hv, hy, Ctx.sReg_issuing, hp, Bool.false_eq_true, if_false]

theorem bodyPcfg_vector (e : Env) {k w : Nat} (ext : Nat) {c : Cell} {y : Ctx} (hy : c.ctx k = y.issuing) (hi : c.interrupted k = false)
    (ha : c.macActive = false) (hv : bit w 20 = true) (hp : (y.vReg (bits w 18 15)).p = 0) :
    bodyPcfg e k w ext c = (c.pcfgWrite (minor w) (bits w 14 11) (y.vReg (bits w 18 15)).v.toNat).advance k 1 := by
  unfold Cell.interrupted at hi
  unfold Cell.macActive at ha
  unfold bodyPcfg
  simp only [hi, ha, hv, hy, Ctx.vReg_issuing, hp, Bool.false_eq_true, bne_self_eq_false, if_true, if_false]

/-- Settles O43: the three answers of MWAIT, and of PCFG with its two kinds of source. -/
theorem macWaitsAndParameters : Obligations.MacWaitsAndParameters := by
  intro x s y w c intr busy waits blocks bad
  refine ⟨fun h => ?_, fun h => ?_⟩
  · obtain ⟨t, ht⟩ := issue_answers (cellBody bodyMwait) h
    have hb := bodyMwait_eq (s.env x.cell) x.ctx w (s.extOf x) (c.take x.ctx)
    refine ⟨t, ht, fun hi => ?_, fun hi hw => ?_, fun hi hw hn => ?_⟩
    · obtain ⟨hst, ho, -, hrec⟩ := of_next ht (issued_raise h (hb.trans (if_pos hi)))
      exact ⟨hst, ho, hrec⟩
    · refine of_next ht (issued_ctxIs h ?_ h.free)
      rw [hb.trans ((if_neg (ne_true_of_eq_false hi)).trans (if_pos hw))]
      exact h.taken.block _ _
    · refine of_next ht (issued_ctxIs (y := y.past 1) h ?_ h.free)
      rw [hb.trans ((if_neg (ne_true_of_eq_false hi)).trans (if_neg (ne_true_of_eq_false hw)))]
      exact h.passed hn
  · obtain ⟨t, ht⟩ := issue_answers (cellBody bodyPcfg) h
    refine ⟨t, ht, fun hi => ?_, fun hi ha => ?_, fun hi ha hn => ⟨fun hv hp => ?_, fun hv hp => ?_⟩⟩
    · obtain ⟨hst, ho, -, hrec⟩ := of_next ht (issued_raise h (bodyPcfg_interrupted _ _ _ hi))
      exact ⟨hst, ho, hrec⟩
    · refine of_next ht (issued_ctxIs h ?_ h.free)
      rw [bodyPcfg_active (c := c.take x.ctx) _ _ _ hi ha]
      exact h.taken.block _ _
    · exact of_next ht (issued_pcfgWrite h hn (bodyPcfg_word _ _ h.taken.self hi ha hv hp))
    · exact of_next ht (issued_pcfgWrite h hn (bodyPcfg_vector _ _ h.taken.self hi ha hv hp))

end Sys2Proof.Machine

/-! PROOF. Vector lanes: O36. -/

namespace Sys2Proof.Machine
open Sys2Proof

/-! ### Elements of a packed register (02 R24) -/

theorem packVal_from (b i : Nat) (es : List (Nat × Bool)) : packVal b i es = 2 ^ (b * i) * packVal b 0 es := by
  induction es generalizing i with
  | nil => rfl
  | cons e es ih =>
    rw [packVal, packVal, ih (i + 1), ih 1]
    ring

theorem packVal_cons (b : Nat) (e : Nat × Bool) (es : List (Nat × Bool)) :
    packVal b 0 (e :: es) = e.1 % 2 ^ b + 2 ^ b * packVal b 0 es := by
  rw [packVal, packVal_from b 1]
  simp

/-- Element `j` of packed elements. -/
theorem packVal_elem (b : Nat) (es : List (Nat × Bool)) (j : Nat) :
    packVal b 0 es / 2 ^ (b * j) % 2 ^ b = (es.getD j (0, false)).1 % 2 ^ b := by
  induction es generalizing j with
  | nil => simp [packVal]
  | cons e es ih =>
    rw [packVal_cons]
    cases j with
    | zero => simp
    | succ j =>
      have hlt : e.1 % 2 ^ b < 2 ^ b := Nat.mod_lt _ (Nat.two_pow_pos b)
      rw [Nat.mul_succ, Nat.add_comm (b * j), Nat.pow_add, ← Nat.div_div_eq_div_mul, Nat.add_mul_div_left _ _ (Nat.two_pow_pos b),
        Nat.div_eq_of_lt hlt, Nat.zero_add, ih]
      rfl

/-- Bits of a number that lie among its low ones. -/
theorem mod_two_pow_elem (v : Nat) {b j m : Nat} (h : b * j + b ≤ m) : v % 2 ^ m / 2 ^ (b * j) % 2 ^ b = v / 2 ^ (b * j) % 2 ^ b := by
  obtain ⟨k, rfl⟩ : ∃ k, m = b * j + (b + k) := ⟨m - (b * j + b), by omega⟩
  rw [Nat.pow_add, Nat.mod_mul_right_div_self, Nat.pow_add, Nat.mod_mul_right_mod]

theorem toNat_ofNat_elem (v : Nat) {b j m : Nat} (h : b * j + b ≤ m) :
    (BitVec.ofNat m v).toNat >>> (b * j) % 2 ^ b = v / 2 ^ (b * j) % 2 ^ b := by
  rw [BitVec.toNat_ofNat, Nat.shiftRight_eq_div_pow, mod_two_pow_elem _ h]

theorem elem_packLanes (b : Nat) (es : List (Nat × Nat)) {j : Nat} (h : b * j + b ≤ 512) :
    (packLanes b es).elem b j = (es.getD j (0, 0)).1 % 2 ^ b := by
  unfold packLanes VR.elem
  rw [toNat_ofNat_elem _ h, packVal_elem]
  simp only [List.getD_eq_getElem?_getD, List.getElem?_map]
  cases es[j]? <;> rfl

/-- Lanes none of which is poisoned make a register without poison. -/
theorem packLanes_clean (b : Nat) {es : List (Nat × Nat)} (h : ∀ e ∈ es, e.2 = 0) : (packLanes b es).p = 0 := by
  have hM (i j : Nat) : packM b i j es = false := by
    induction es generalizing i with
    | nil => rfl
    | cons e es ih =>
      rw [packM, ih (fun e' he => h e' (List.mem_cons_of_mem _ he)), h e List.mem_cons_self]
      simp
  have hsum : (List.range 16).foldl (fun a j => a + b2n (packM b 0 j es) * 2 ^ j) 0 = 0 := by
    simp only [hM]
    rfl
  unfold packLanes
  rw [hsum]
  rfl

theorem VR.elem_lt (r : VR) (b i : Nat) : r.elem b i < 2 ^ b := Nat.mod_lt _ (Nat.two_pow_pos b)
@[simp] theorem VR.elem_mod (r : VR) (b i : Nat) : r.elem b i % 2 ^ b = r.elem b i := Nat.mod_mod _ _

@[simp] theorem VR.elemM_clean {r : VR} (h : r.p = 0) (b i : Nat) : r.elemM b i = 0 := by
  simp [VR.elemM, h]
@[simp] theorem VR.elemP_clean {r : VR} (h : r.p = 0) (b i : Nat) : r.elemP b i = false := by
  simp [VR.elemP, h]

/-! ### Results of lanes under a mask (04 R105) -/

/-- A format of the vector column has whole bytes in a lane. -/
theorem laneBytes_vecFmt {f : Nat} (hf : vecFmt f = true) : 8 * laneBytes f = fmtBits f ∧ 64 / laneBytes f = 512 / fmtBits f ∧ 0 < fmtBits f := by
  have hall : ∀ f < 14, vecFmt f = true → 8 * laneBytes f = fmtBits f ∧ 64 / laneBytes f = 512 / fmtBits f ∧ 0 < fmtBits f := by decide
  refine hall f ?_ hf
  simp only [vecFmt, Bool.or_eq_true, decide_eq_true_eq] at hf
  omega

/-- Lane `i` lies in the register: it is one of its lanes. -/
theorem lane_lt {n i : Nat} (hn : 0 < n) (h : i * n + n ≤ 512) : i < 512 / n := by
  rw [Nat.lt_iff_add_one_le, Nat.le_div_iff_mul_le hn, Nat.succ_mul]
  exact h

/-- A register whose active lanes hold `g`, and whose inactive lanes hold what the predicate mode gives them (R105). -/
def LaneValues (w : Nat) (m : PP) (old v : VR) (g : Nat → Nat) : Prop :=
  let n := fmtBits (fFmt w)
  ∀ i, i * n + n ≤ 512 →
    (fPm w = 0 ∨ m.v.getLsbD (i * laneBytes (fFmt w)) = true → v.elem n i = g i % 2 ^ n) ∧
    (fPm w ≠ 0 → m.v.getLsbD (i * laneBytes (fFmt w)) = false → v.elem n i = if fPm w = 1 then old.elem n i else 0)

theorem LaneValues.congr {w : Nat} {m : PP} {old v : VR} {g g' : Nat → Nat} (h : LaneValues w m old v g)
    (hg : ∀ i, g i % 2 ^ fmtBits (fFmt w) = g' i % 2 ^ fmtBits (fFmt w)) : LaneValues w m old v g' :=
  fun i hi => ⟨fun ha => ((h i hi).1 ha).trans (hg i), (h i hi).2⟩

theorem laneOn_active {w : Nat} {m : PP} {wb i : Nat} (h : fPm w = 0 ∨ m.v.getLsbD (i * wb) = true) : laneOn w m wb i = true := by
  simpa [laneOn] using h

theorem laneOn_inactive {w : Nat} {m : PP} {wb i : Nat} (hp : fPm w ≠ 0) (hb : m.v.getLsbD (i * wb) = false) : laneOn w m wb i = false := by
  simp [laneOn, hp, hb]

theorem laneValues_laneResult {w : Nat} (m : PP) (old : VR) (F : Nat → Nat × Nat) (hf : vecFmt (fFmt w) = true) :
    LaneValues w m old (laneResult w m (laneBytes (fFmt w)) old F) (fun i => (F i).1) := by
  obtain ⟨h8, hcount, hpos⟩ := laneBytes_vecFmt hf
  intro i hi
  have hi' : fmtBits (fFmt w) * i + fmtBits (fFmt w) ≤ 512 := by rw [Nat.mul_comm]; exact hi
  unfold laneResult
  rw [hcount, h8, elem_packLanes _ _ hi', List.getD_eq_getElem?_getD, List.getElem?_map, List.getElem?_range (lane_lt hpos hi)]
  simp only [Option.map_some, Option.getD_some]
  refine ⟨fun ha => ?_, fun hp hb => ?_⟩
  · rw [if_pos (laneOn_active ha)]
  · rw [if_neg (ne_true_of_eq_false (laneOn_inactive hp hb))]
    split_ifs
    · exact VR.elem_mod ..
    · exact Nat.zero_mod _

/-- Without poison in what a lane operation reads its result has none (R91). -/
theorem laneResult_clean {w wb : Nat} {m : PP} {old : VR} {F : Nat → Nat × Nat} (hF : ∀ i, (F i).2 = 0) (hold : old.p = 0)
    (hm : fPm w ≠ 0 → m.p = false) : (laneResult w m wb old F).p = 0 := by
  have hq : (fPm w != 0 && m.p) = false := by
    by_cases hp : fPm w = 0
    · simp [hp]
    · simp [hm hp]
  refine packLanes_clean _ fun e he => ?_
  obtain ⟨i, -, rfl⟩ := List.mem_map.mp he
  simp only [hq, allWords, Bool.false_eq_true, if_false, Nat.or_zero]
  split_ifs
  · exact hF i
  · exact VR.elemM_clean hold ..
  · rfl

/-- From `s` to `t` an instruction of context `x` leaves its cell as `c` but for its contexts and its own context one word on with
`vd` written: `g` in the active lanes, and no poison where what it reads has none. -/
def IssuedLanes (x : CtxRef) (s t : State) (c : Cell) (m : PP) (clean : Prop) (g : Nat → Nat) : Prop :=
  let w := s.wordOf x
  let old := (s.ctxOf x).vReg (fVd w)
  ∃ v, Issued x s t c (((s.ctxOf x).past 1).setV (fVd w) v) ∧ LaneValues w m old v g ∧
    (clean → old.p = 0 → (fPm w ≠ 0 → m.p = false) → v.p = 0)

theorem IssuedLanes.congr {x : CtxRef} {s t : State} {c : Cell} {m : PP} {clean clean' : Prop} {g g' : Nat → Nat}
    (h : IssuedLanes x s t c m clean g) (hc : clean' → clean)
    (hg : ∀ i, g i % 2 ^ fmtBits (fFmt (s.wordOf x)) = g' i % 2 ^ fmtBits (fFmt (s.wordOf x))) : IssuedLanes x s t c m clean' g' := by
  obtain ⟨v, hi, hl, hp⟩ := h
  exact ⟨v, hi, hl.congr hg, hp ∘ hc⟩

/-- An instruction of a ready context that writes the lanes of `vd`. -/
theorem issued_lanes {r : Row} {x : CtxRef} {s : State} {b : Env → Nat → Nat → Nat → Cell → Cell} {M : Ctx → PP} {F : Ctx → Nat → Nat × Nat}
    {clean : Prop} (h : Ready r x s) (hn : NoReturn 1 x s) (hf : vecFmt (fFmt (s.wordOf x)) = true)
    (hb : b (s.env x.cell) x.ctx (s.wordOf x) (s.extOf x) ((s.cell x.cell).take x.ctx) = ((s.cell x.cell).take x.ctx).done x.ctx
      (fun z => z.setV (fVd (s.wordOf x)) (laneResult (s.wordOf x) (M z) (laneBytes (fFmt (s.wordOf x))) (z.vReg (fVd (s.wordOf x))) (F z))))
    (hclean : clean → ∀ i, (F (s.ctxOf x).issuing i).2 = 0) :
    ∃ t, s.issue r (cellBody b) x = .next t ∧
      IssuedLanes x s t (s.cell x.cell) (M (s.ctxOf x).issuing) clean (fun i => (F (s.ctxOf x).issuing i).1) := by
  obtain ⟨t, ht, hi⟩ := issued_regs h hn hb (fun _ => rfl) (fun _ _ => rfl) (fun _ => rfl)
  exact ⟨t, ht, _, hi, laneValues_laneResult _ _ _ hf, fun hc => laneResult_clean (hclean hc)⟩

/-- An instruction of a ready context on a format that it does not take (R105). -/
theorem issued_badFmt {r : Row} {x : CtxRef} {s : State} {b : Env → Nat → Nat → Nat → Cell → Cell} {f : Nat} (h : Ready r x s)
    (hb : b (s.env x.cell) x.ctx (s.wordOf x) (s.extOf x) ((s.cell x.cell).take x.ctx) =
      ((s.cell x.cell).take x.ctx).badFmt (s.env x.cell) x.ctx f) :
    ∃ t, s.issue r (cellBody b) x = .next t ∧ (t.ctxOf x).state = .faulted ∧ OnlyCell x.cell s t ∧
      ∃ rec, (t.cell x.cell).faults = (s.cell x.cell).faults ++ [rec] ∧ rec.code = 0x02 := by
  obtain ⟨t, ht, hst, ho, -, hrec⟩ := issued_raise h hb
  exact ⟨t, ht, hst, ho, hrec⟩

@[simp] theorem Dep.mask_zero (d : Dep) : d.mask 0 = 0 := by
  cases d <;> decide

/-- The format code of VALU is one of the vector column. -/
theorem vecFmt_int {f : Nat} (h1 : 1 ≤ f) (h2 : f ≤ 5) : vecFmt f = true := by
  simp [vecFmt, h1, h2]
theorem vecFmt_float {f : Nat} (h1 : 11 ≤ f) (h2 : f ≤ 13) : vecFmt f = true := by
  simp [vecFmt, h1, h2]

/-- A difference modulo the width. -/
theorem wrap_sub_mod {n x y : Nat} (hy : y < 2 ^ n) : wrap n ((x : Int) - y) % 2 ^ n = (x + 2 ^ n - y) % 2 ^ n := by
  have hadd : ((x : Int) - y) % (2 ^ n : Nat) = ((x + 2 ^ n - y : Nat) : Int) % (2 ^ n : Nat) := by
    rw [Nat.cast_sub (by omega), Nat.cast_add, add_sub_right_comm, Int.add_emod_right]
  rw [wrap, hadd, ← Int.natCast_emod, Int.toNat_natCast, Nat.mod_mod]

/-- The poison of a VALU lane comes from its sources. -/
theorem valuDep_clean {a b : VR} (ha : a.p = 0) (hb : b.p = 0) (m n i : Nat) :
    (valuDep m).1.mask (a.elemM n i) ||| (valuDep m).2.mask (if 5 ≤ m ∧ m ≤ 7 then b.elemM n i % 2 else b.elemM n i) = 0 := by
  simp only [VR.elemM_clean ha, VR.elemM_clean hb, Nat.zero_mod, ite_self, Dep.mask_zero, Nat.or_zero]

/-- What VFP computes in a lane: the encoding and its flags (R106). -/
def vfpLane (y : Ctx) (w i : Nat) : Nat × FpFlags :=
  let f := fFmt w
  let e := fun r : VR => r.elem (fmtBits f) i
  if 6 ≤ minor w then (signOp f (minor w) (e (y.vReg (fVa w))), {})
  else fpArith f (minor w) (unpack f (e (y.vReg (fVd w)))) (unpack f (e (y.vReg (fVa w)))) (unpack f (e (y.vReg (fVb w))))

/-- The words of a VFP lane that its sources poison. -/
def vfpPoison (y : Ctx) (w i : Nat) : Nat :=
  let p := fun r : VR => r.elemP (fmtBits (fFmt w)) i
  allWords (p (y.vReg (fVa w)) || (decide (minor w ≤ 5) && p (y.vReg (fVb w))) || (minor w == 3 && p (y.vReg (fVd w))))

theorem vfpPoison_clean {y : Ctx} {w : Nat} (ha : (y.vReg (fVa w)).p = 0) (hb : (y.vReg (fVb w)).p = 0) (hd : (y.vReg (fVd w)).p = 0)
    (i : Nat) : vfpPoison y w i = 0 := by
  simp only [vfpPoison, VR.elemP_clean ha, VR.elemP_clean hb, VR.elemP_clean hd, Bool.and_false, Bool.or_false]
  rfl

theorem bodyVfp_lanes (e : Env) {k w : Nat} (ext : Nat) {c : Cell} {y : Ctx} (hy : c.ctx k = y.issuing) (h1 : 11 ≤ fFmt w) (h2 : fFmt w ≤ 13) :
    bodyVfp e k w ext c = (c.gather k (laneFlags w (y.pReg (fP w)) (laneBytes (fFmt w)) (fun i => (vfpLane y w i).2))).done k
      (fun z => z.setV (fVd w) (laneResult w (y.pReg (fP w)) (laneBytes (fFmt w)) (y.vReg (fVd w))
        (fun i => ((vfpLane y w i).1, vfpPoison y w i)))) := by
  unfold bodyVfp
  dsimp only
  rw [if_neg (by rw [decide_eq_true ⟨h1, h2⟩]; decide), hy]
  rfl

theorem bcastSource_clean {y : Ctx} {i : Nat} (b : Prop) [Decidable b] (h0 : (y.sReg i).p = false) (h1 : (y.sReg (i + 1)).p = false) :
    (if b then (y.pair i, b2n (y.sReg i).p + 2 * b2n (y.sReg (i + 1)).p) else ((y.sReg i).v.toNat, allWords (y.sReg i).p)).2 = 0 := by
  rw [h0, h1]
  split_ifs <;> rfl

theorem laneBytes_eq_eight {f : Nat} (hf : vecFmt f = true) : laneBytes f = 8 ↔ fmtBits f = 64 := by
  obtain ⟨h8, -, -⟩ := laneBytes_vecFmt hf
  omega

/-- An element of a register shifted right (R108). -/
theorem slide_elem (v : BitVec 512) (p : BitVec 16) (k n i : Nat) :
    VR.elem ⟨v >>> k, p⟩ n i % 2 ^ n = v.toNat / 2 ^ (k + n * i) % 2 ^ n := by
  rw [VR.elem_mod, VR.elem, BitVec.toNat_ushiftRight, ← Nat.shiftRight_add, Nat.shiftRight_eq_div_pow]

/-- Settles O36: each operation by the lanes that its body writes, on the formats that it takes. -/
theorem vectorLaneResults : Obligations.VectorLaneResults := by
  intro x s y w c f n a b old bad lanes m
  refine ⟨fun h => ?valu, fun h => ?vfp, fun h => ?perm, fun h => ?bcast, fun h => ?slide⟩
  case valu =>
    obtain ⟨t, ht⟩ := issue_answers (cellBody bodyValu) h
    refine ⟨t, ht, fun hf => ?_, fun h1 h2 hn => ?_⟩
    · exact of_next ht (issued_badFmt h (if_pos (by rw [decide_eq_false hf]; rfl)))
    · have hl : lanes t c m (a.p = 0 ∧ b.p = 0) (fun i => valuLane (minor w) n (f == 2) (a.elem n i) (b.elem n i)) :=
        of_next ht (issued_lanes h hn (vecFmt_int h1 h2) (if_neg (by rw [decide_eq_true ⟨h1, h2⟩]; decide))
          fun hc i => valuDep_clean hc.1 hc.2 ..)
      have as (g : Nat → Nat) (hg : ∀ i, valuLane (minor w) n (f == 2) (a.elem n i) (b.elem n i) % 2 ^ n = g i % 2 ^ n) :
          lanes t c m False g := IssuedLanes.congr hl False.elim hg
      refine ⟨hl, fun hm => as _ fun i => ?_, fun hm => as _ fun i => ?_, fun hm => as _ fun i => ?_⟩ <;> rw [hm]
      · rfl
      · exact wrap_sub_mod (VR.elem_lt ..)
      · rfl
  case vfp =>
    obtain ⟨t, ht⟩ := issue_answers (cellBody bodyVfp) h
    refine ⟨t, ht, fun hf => ?_, fun h1 h2 hn => ?_⟩
    · exact of_next ht (issued_badFmt h (if_pos (by rw [decide_eq_false hf]; rfl)))
    · have hi := of_next ht (issued_gather h hn (bodyVfp_lanes _ _ h.taken.self h1 h2) rfl (fun _ => rfl) rfl)
      refine ⟨_, hi, laneValues_laneResult _ _ _ (vecFmt_float h1 h2), fun hc hold => ?_⟩
      exact laneResult_clean (vfpPoison_clean hc.1 hc.2 hold) hold
  case perm =>
    obtain ⟨t, ht⟩ := issue_answers (cellBody bodyPerm) h
    refine ⟨t, ht, fun hf => ?_, fun hf hn => ?_⟩
    · exact of_next ht (issued_badFmt h (if_pos (by rw [hf]; rfl)))
    · refine of_next ht (issued_lanes h hn hf (if_neg (by rw [hf]; decide)) fun hc i => ?_)
      obtain ⟨ha, hb⟩ := hc
      show a.elemM n _ ||| allWords ((b.elemM n i).testBit 0) = 0
      rw [VR.elemM_clean ha, VR.elemM_clean hb]
      rfl
  case bcast =>
    obtain ⟨t, ht⟩ := issue_answers (cellBody bodyBcast) h
    refine ⟨t, ht, fun hf => ?_, fun hf hn => ?_⟩
    · exact of_next ht (issued_badFmt h (if_pos (by rw [hf]; rfl)))
    · have hl := of_next ht (issued_lanes (clean := (y.sReg (bits w 16 12)).p = false ∧ (y.sReg (bits w 16 12 + 1)).p = false) h hn hf
        (if_neg (by rw [hf]; decide)) fun hc i => bcastSource_clean _ hc.1 hc.2)
      refine hl.congr id fun i => congrArg (· % _) ?_
      exact (apply_ite Prod.fst ..).trans (if_congr (laneBytes_eq_eight hf) rfl rfl)
  case slide =>
    obtain ⟨t, ht⟩ := issue_answers (cellBody bodySlide) h
    refine ⟨t, ht, fun hf => ?_, fun hf hn => ?_⟩
    · exact of_next ht (issued_badFmt h (if_pos (by rw [hf]; rfl)))
    · have hl := of_next ht (issued_lanes (clean := a.p = 0) h hn hf (if_neg (by rw [hf]; decide)) fun hc i => ?_)
      · exact hl.congr id fun i => slide_elem ..
      · refine VR.elemM_clean ?_ _ i
        show a.p >>> fVb w = 0
        rw [hc]
        exact BitVec.zero_ushiftRight
end Sys2Proof.Machine

/-! PROOF. Comparisons, selection, extraction and masks: O37. -/

namespace Sys2Proof.Machine
open Sys2Proof

/-! ### Bits gathered into a mask -/

/-- The number with bit `j` set where `f j` holds. -/
def bitsOf (f : Nat → Bool) (n : Nat) : Nat := (List.range n).foldl (fun acc j => acc + b2n (f j) * 2 ^ j) 0

theorem bitsOf_succ (f : Nat → Bool) (n : Nat) : bitsOf f (n + 1) = 2 ^ n * b2n (f n) + bitsOf f n := by
  unfold bitsOf
  rw [List.range_succ, List.foldl_append, List.foldl_cons, List.foldl_nil]
  ring

theorem bitsOf_lt (f : Nat → Bool) (n : Nat) : bitsOf f n < 2 ^ n := by
  induction n with
  | zero => exact Nat.one_pos
  | succ n ih => cases h : f n <;> simp [bitsOf_succ, h, b2n, Nat.pow_succ] <;> omega

theorem testBit_bitsOf (f : Nat → Bool) {n j : Nat} (hj : j < n) : (bitsOf f n).testBit j = f j := by
  induction n with
  | zero => omega
  | succ n ih =>
    rw [bitsOf_succ, Nat.testBit_two_pow_mul_add _ (bitsOf_lt f n)]
    split_ifs with h
    · exact ih h
    · obtain rfl : j = n := by omega
      cases f j <;> simp [b2n]

theorem getLsbD_bitsOf (f : Nat → Bool) {n j : Nat} (hj : j < n) : (BitVec.ofNat n (bitsOf f n)).getLsbD j = f j := by
  rw [BitVec.getLsbD_ofNat, testBit_bitsOf f hj, decide_eq_true hj, Bool.true_and]

/-- The number of set bits, counted from the top or as a list. -/
theorem popc_eq_countP (x n : Nat) : popc x n = (List.range n).countP x.testBit := by
  induction n with
  | zero => rfl
  | succ n ih =>
    rw [popc, ih, List.range_succ, List.countP_append, Nat.add_comm, List.countP_singleton]
    rfl

/-- The lowest set bit from `i` on, or 64 (04 R111). -/
theorem firstBit_spec (v : BitVec 64) {i n : Nat} (h : i + n = 64) :
    firstBit v i n ≤ 64 ∧ (∀ j, i ≤ j → j < firstBit v i n → v.getLsbD j = false) ∧
      (firstBit v i n < 64 → v.getLsbD (firstBit v i n) = true) := by
  induction n generalizing i with
  | zero => exact ⟨le_rfl, fun j hi hj => BitVec.getLsbD_of_ge _ _ (by omega), fun hlt => absurd hlt (lt_irrefl _)⟩
  | succ n ih =>
    unfold firstBit
    split_ifs with hi
    · exact ⟨by omega, fun j h1 h2 => by omega, fun _ => hi⟩
    · obtain ⟨hle, hlow, hset⟩ := ih (i := i + 1) (by omega)
      refine ⟨hle, fun j h1 h2 => ?_, hset⟩
      rcases Nat.eq_or_lt_of_le h1 with rfl | h1
      · simpa using hi
      · exact hlow j h1 h2

/-- The lowest set bit as PRED writes it. -/
theorem firstBit_word (v : BitVec 64) :
    let r := BitVec.ofNat 32 (firstBit v 0 64)
    r.toNat ≤ 64 ∧ (∀ j < r.toNat, v.getLsbD j = false) ∧ (r.toNat < 64 → v.getLsbD r.toNat = true) := by
  obtain ⟨hle, hlow, hset⟩ := firstBit_spec v (i := 0) (n := 64) rfl
  have hr : (BitVec.ofNat 32 (firstBit v 0 64)).toNat = firstBit v 0 64 := Nat.mod_eq_of_lt (Nat.lt_of_le_of_lt hle (by decide))
  dsimp only
  rw [hr]
  exact ⟨hle, fun j => hlow j (Nat.zero_le j), hset⟩

/-! ### VCMP (04 R107) -/

/-- Bit `j` of the mask that VCMP writes. -/
def vcmpBit (y : Ctx) (w j : Nat) : Bool :=
  let f := fFmt w
  let i := j / laneBytes f
  if fPm w == 0 || (y.pReg (fP w)).v.getLsbD (i * laneBytes f) then
    (vcmpLane f (minor w) ((y.vReg (fVa w)).elem (fmtBits f) i) ((y.vReg (fVb w)).elem (fmtBits f) i)).1
  else fPm w == 1 && (y.pReg (fVd w % 8)).v.getLsbD j

theorem vcmpBit_active {y : Ctx} {w j : Nat} (h : fPm w = 0 ∨ (y.pReg (fP w)).v.getLsbD (j / laneBytes (fFmt w) * laneBytes (fFmt w)) = true) :
    vcmpBit y w j = (vcmpLane (fFmt w) (minor w) ((y.vReg (fVa w)).elem (fmtBits (fFmt w)) (j / laneBytes (fFmt w)))
      ((y.vReg (fVb w)).elem (fmtBits (fFmt w)) (j / laneBytes (fFmt w)))).1 :=
  if_pos (laneOn_active h)

theorem vcmpBit_inactive {y : Ctx} {w j : Nat} (hp : fPm w ≠ 0)
    (hb : (y.pReg (fP w)).v.getLsbD (j / laneBytes (fFmt w) * laneBytes (fFmt w)) = false) :
    vcmpBit y w j = (decide (fPm w = 1) && (y.pReg (fVd w % 8)).v.getLsbD j) :=
  if_neg (ne_true_of_eq_false (laneOn_inactive hp hb))

theorem bodyVcmp_compares (e : Env) {k w : Nat} (ext : Nat) {c : Cell} {y : Ctx} (hy : c.ctx k = y.issuing)
    (hf : if minor w ≤ 5 then 1 ≤ fFmt w ∧ fFmt w ≤ 5 else 11 ≤ fFmt w ∧ fFmt w ≤ 13) :
    ∃ p : Bool, bodyVcmp e k w ext c =
      (c.gather k (laneFlags w (y.pReg (fP w)) (laneBytes (fFmt w)) (fun i => { invalid := (vcmpLane (fFmt w) (minor w)
        ((y.vReg (fVa w)).elem (fmtBits (fFmt w)) i) ((y.vReg (fVb w)).elem (fmtBits (fFmt w)) i)).2 }))).done k
      (fun z => z.setP (fVd w % 8) ⟨BitVec.ofNat 64 (bitsOf (vcmpBit y w) 64), p⟩) := by
  have hok : (if minor w ≤ 5 then decide (1 ≤ fFmt w ∧ fFmt w ≤ 5) else decide (11 ≤ fFmt w ∧ fFmt w ≤ 13)) = true := by
    split_ifs at hf ⊢ <;> exact decide_eq_true hf
  have hb : bodyVcmp e k w ext c = _ := if_neg (by rw [hok]; decide)
  rw [hb, hy]
  exact ⟨_, rfl⟩

/-! ### PRED (04 R111) -/

/-- A context after the mask operation of minor `m`. -/
def Ctx.predOp (w m : Nat) (y : Ctx) : Ctx :=
  let d := bits w 20 18
  let p := y.pReg (bits w 17 15)
  let q := y.pReg (bits w 14 12)
  let i := bits w 11 7
  match m with
  | 0 => y.setP d ⟨p.v &&& q.v, p.p || q.p⟩
  | 1 => y.setP d ⟨p.v ||| q.v, p.p || q.p⟩
  | 2 => y.setP d ⟨p.v ^^^ q.v, p.p || q.p⟩
  | 3 => y.setP d ⟨p.v &&& ~~~q.v, p.p || q.p⟩
  | 4 => y.setP d ⟨~~~p.v, p.p⟩
  | 5 => y.setP d ⟨BitVec.allOnes 64, false⟩
  | 6 => y.setP d ⟨0, false⟩
  | 7 => y.setP d ⟨BitVec.ofNat 64 (y.pair i), y.pairP i⟩
  | 8 => y.setPair i p.v.toNat p.p
  | 9 => y.setS i ⟨BitVec.ofNat 32 (popc p.v.toNat 64), p.p⟩
  | _ => y.setS i ⟨BitVec.ofNat 32 (firstBit p.v 0 64), p.p⟩

theorem bodyPred_eq (e : Env) (k w ext : Nat) (c : Cell) : bodyPred e k w ext c = c.done k (Ctx.predOp w (minor w)) := rfl

theorem Ctx.predOp_count (w : Nat) (y : Ctx) : y.predOp w 9 = y.setS (bits w 11 7)
    ⟨BitVec.ofNat 32 ((List.range 64).countP (fun j => (y.pReg (bits w 17 15)).v.getLsbD j)), (y.pReg (bits w 17 15)).p⟩ := by
  show y.setS _ ⟨BitVec.ofNat 32 (popc _ 64), _⟩ = _
  rw [popc_eq_countP]
  rfl

/-- PRED writes one mask, one register or one pair. -/
theorem Ctx.predOp_writes (w m : Nat) (y : Ctx) : (∃ i v, y.predOp w m = y.setP i v) ∨ (∃ i v p, y.predOp w m = y.setPair i v p) ∨
    ∃ i v, y.predOp w m = y.setS i v := by
  unfold Ctx.predOp
  dsimp only
  split
  iterate 8 exact .inl ⟨_, _, rfl⟩
  · exact .inr (.inl ⟨_, _, _, rfl⟩)
  iterate 2 exact .inr (.inr ⟨_, _, rfl⟩)

theorem Ctx.predOp_keeps (w m : Nat) (y : Ctx) :
    (y.predOp w m).pc = y.pc ∧ (y.predOp w m).stepping = y.stepping ∧ ∀ i, (y.predOp w m).lReg i = y.lReg i := by
  rcases y.predOp_writes w m with ⟨i, v, h⟩ | ⟨i, v, p, h⟩ | ⟨i, v, h⟩ <;> rw [h] <;> exact ⟨rfl, rfl, fun _ => rfl⟩

theorem Ctx.setS_past (y : Ctx) (i : Nat) (v : PW) (n : Nat) :
    { y.issuing.setS i v with pc := y.pc + BitVec.ofNat 10 n } = (y.past n).setS i v := rfl
theorem Ctx.setP_past (y : Ctx) (i : Nat) (v : PP) (n : Nat) :
    { y.issuing.setP i v with pc := y.pc + BitVec.ofNat 10 n } = (y.past n).setP i v := rfl
theorem Ctx.setPair_past (y : Ctx) (i v : Nat) (p : Bool) (n : Nat) :
    { y.issuing.setPair i v p with pc := y.pc + BitVec.ofNat 10 n } = (y.past n).setPair i v p := rfl

/-- The mask operation and moving the PC commute. -/
theorem Ctx.predOp_past (w m : Nat) (y : Ctx) (n : Nat) :
    { y.issuing.predOp w m with pc := y.pc + BitVec.ofNat 10 n } = (y.past n).predOp w m := by
  unfold Ctx.predOp
  dsimp only
  split
  iterate 8 exact Ctx.setP_past ..
  · exact Ctx.setPair_past ..
  iterate 2 exact Ctx.setS_past ..

theorem bodyVsel_selects (e : Env) (k : Nat) {w : Nat} (ext : Nat) (c : Cell) (hf : vecFmt (fFmt w) = true) :
    bodyVsel e k w ext c = c.done k (fun z => z.setV (fVd w) (packLanes (fmtBits (fFmt w)) ((List.range (512 / fmtBits (fFmt w))).map (fun i =>
      let r := if (z.pReg (fP w)).v.getLsbD (i * laneBytes (fFmt w)) then z.vReg (fVa w) else z.vReg (fVb w)
      (r.elem (fmtBits (fFmt w)) i, r.elemM (fmtBits (fFmt w)) i ||| allWords (z.pReg (fP w)).p))))) :=
  if_neg (by rw [hf]; decide)

theorem bodyExtract_pair (e : Env) (k : Nat) {w : Nat} (ext : Nat) (c : Cell) (hf : vecFmt (fFmt w) = true) (h64 : fmtBits (fFmt w) = 64) :
    bodyExtract e k w ext c = c.done k (fun z =>
      let r := z.vReg (bits w 15 12)
      z.setPairW (fRd w) (r.elem 64 (bits w 11 6)) ((r.elemM 64 (bits w 11 6)).testBit 0) ((r.elemM 64 (bits w 11 6)).testBit 1)) := by
  unfold bodyExtract
  simp only [hf, h64, Bool.not_true, Bool.false_eq_true, if_false, if_true]

theorem bodyExtract_word (e : Env) (k : Nat) {w : Nat} (ext : Nat) (c : Cell) (hf : vecFmt (fFmt w) = true) (h64 : fmtBits (fFmt w) ≠ 64) :
    bodyExtract e k w ext c = c.done k (fun z =>
      let r := z.vReg (bits w 15 12)
      z.setS (fRd w) ⟨BitVec.ofNat 32 (r.elem (fmtBits (fFmt w)) (bits w 11 6)), r.elemP (fmtBits (fFmt w)) (bits w 11 6)⟩) := by
  unfold bodyExtract
  simp only [hf, h64, Bool.not_true, Bool.false_eq_true, if_false]

/-- Settles O37: the mask of VCMP bit by bit, VSEL and EXTRACT by their elements, PRED by its operation. -/
theorem comparesSelectsAndMasks : Obligations.ComparesSelectsAndMasks := by
  intro x s hn y w c f n a b m
  refine ⟨fun h hf => ?vcmp, fun h hf => ?vsel, fun h hf => ?extract, fun h => ?pred⟩
  case vcmp =>
    obtain ⟨p, hb⟩ := bodyVcmp_compares (s.env x.cell) (s.extOf x) h.taken.self hf
    obtain ⟨t, ht, hi⟩ := issued_gather h hn hb (Ctx.setP_pc ..) (fun _ => Ctx.lReg_setP ..) (Ctx.setP_stepping ..)
    refine ⟨t, ht, _, hi, fun j hj => ⟨fun ha => ?_, fun hp hm => ?_⟩⟩
    · exact (getLsbD_bitsOf _ hj).trans (vcmpBit_active ha)
    · exact (getLsbD_bitsOf _ hj).trans (vcmpBit_inactive hp hm)
  case vsel =>
    obtain ⟨-, -, hpos⟩ := laneBytes_vecFmt hf
    obtain ⟨t, ht, hi⟩ := issued_regs h hn (bodyVsel_selects _ _ _ _ hf) (fun _ => rfl) (fun _ _ => rfl) (fun _ => rfl)
    refine ⟨t, ht, _, hi, fun i hle => ?_⟩
    rw [elem_packLanes _ _ (by rw [Nat.mul_comm]; exact hle), List.getD_eq_getElem?_getD, List.getElem?_map,
      List.getElem?_range (lane_lt hpos hle)]
    exact (VR.elem_mod ..).trans (apply_ite (fun r : VR => r.elem n i) ..)
  case extract =>
    obtain ⟨t, ht⟩ := issue_answers (cellBody bodyExtract) h
    refine ⟨t, ht, fun h64 => ?_, fun h64 => ?_⟩
    · exact of_next ht (issued_regs h hn (bodyExtract_pair _ _ _ _ hf h64) (fun _ => rfl) (fun _ _ => rfl) (fun _ => rfl))
    · exact of_next ht (issued_regs h hn (bodyExtract_word _ _ _ _ hf h64) (fun _ => rfl) (fun _ _ => rfl) (fun _ => rfl))
  case pred =>
    obtain ⟨t, ht, hi⟩ := issued_regs h hn (bodyPred_eq ..) (fun z => (z.predOp_keeps _ _).1)
      (fun z => (z.predOp_keeps _ _).2.2) (fun z => (z.predOp_keeps _ _).2.1)
    rw [Ctx.predOp_past] at hi
    refine ⟨t, ht, ?_⟩
    generalize minor (s.wordOf x) = m at hi ⊢
    have as {k : Nat} (hk : m = k) := hk ▸ hi
    refine ⟨as, as, as, as, as, as, as, as, as, fun hk => ?_, fun hk => ?_⟩
    · have hi := as hk
      rw [Ctx.predOp_count] at hi
      exact hi
    · exact ⟨_, as hk, firstBit_word _⟩

end Sys2Proof.Machine

/-! PROOF. Receives: O39. -/

namespace Sys2Proof.Machine
open Sys2Proof

/-! ### What an instruction leaves in its cell -/

theorem onlyCell_modCell (n : Nat) (s : State) (f : Cell → Cell) : OnlyCell n s (s.modCell n f) :=
  ⟨rfl, fun m hm => by rw [State.cell_modCell, if_neg hm]⟩

theorem OnlyCell.trans {n : Nat} {s t u : State} (h : OnlyCell n s t) (g : OnlyCell n t u) : OnlyCell n s u := by
  obtain ⟨hs, hm⟩ := h
  obtain ⟨ht, hk⟩ := g
  exact ⟨by rw [ht, hs], fun m hmn => (hk m hmn).trans (hm m hmn)⟩

/-- An instruction of a ready context that reaches its own cell only: what it makes of the taken cell is what the cell holds. -/
theorem issued_cell {r : Row} {x : CtxRef} {s : State} {b : Env → Nat → Nat → Nat → Cell → Cell} {c1 : Cell} (h : Ready r x s)
    (hb : b (s.env x.cell) x.ctx (s.wordOf x) (s.extOf x) ((s.cell x.cell).take x.ctx) = c1) (hs : (c1.ctx x.ctx).stepping = false) :
    ∃ t, s.issue r (cellBody b) x = .next t ∧ OnlyCell x.cell s t ∧ (t.cell x.cell).noCtxs = c1.noCtxs ∧
      ∀ j, (t.cell x.cell).ctx j = c1.ctx j := by
  have hcell : ((cellBody b (s.env x.cell) x.ctx (s.wordOf x) (s.extOf x) (s.modCell x.cell (fun c => c.take x.ctx))).modCell
      x.cell (Cell.stepEnd x.ctx r (s.ctxOf x).pc)).cell x.cell = Cell.stepEnd x.ctx r (s.ctxOf x).pc c1 := by
    simp [cellBody, ← hb]
  refine ⟨_, issue_ready (cellBody b) h,
    ((onlyCell_modCell x.cell s _).trans (onlyCell_modCell x.cell _ _)).trans (onlyCell_modCell x.cell _ _), ?_, fun j => ?_⟩
  · rw [hcell, Cell.noCtxs_stepEnd]
  · rw [hcell, Cell.stepEnd_ctx _ _ _ _ hs]

/-- A part of a cell beside its contexts is the same in cells that agree beside their contexts. -/
theorem Cell.eq_of_noCtxs {α : Type} (part : Cell → α) (hpart : ∀ c, part c.noCtxs = part c) {c d : Cell} (h : c.noCtxs = d.noCtxs) :
    part c = part d := by
  rw [← hpart c, h, hpart d]

theorem Cell.rd_of_noCtxs {c d : Cell} (h : c.noCtxs = d.noCtxs) (f : Fld) : c.rd f = d.rd f :=
  Cell.rd_eq_of_regs (Cell.eq_of_noCtxs Cell.regs (fun _ => rfl) h) f

/-- The record of a fault (03 R75, R76). -/
theorem Cell.raise_record (e : Env) (k code detail pc : Nat) (c : Cell) : ∃ rec, (c.raise e k code detail pc).faults = c.faults ++ [rec] ∧
    rec.code = code ∧ rec.detail = detail ∧ rec.pc = pc := by
  unfold Cell.raise
  dsimp only
  refine ⟨_, congrArg (· ++ [_]) ?_, rfl, rfl, rfl⟩
  split_ifs <;> simp only [Cell.modCtx_faults, Cell.wr_faults]

/-- What a fault of an instruction leaves, with the DETAIL of its record. -/
theorem issued_raise_record {r : Row} {x : CtxRef} {s : State} {b : Env → Nat → Nat → Nat → Cell → Cell} {code detail : Nat}
    (h : Ready r x s) (hb : b (s.env x.cell) x.ctx (s.wordOf x) (s.extOf x) ((s.cell x.cell).take x.ctx) =
      ((s.cell x.cell).take x.ctx).raiseHere (s.env x.cell) x.ctx code detail) :
    ∃ t, s.issue r (cellBody b) x = .next t ∧ OnlyCell x.cell s t ∧ (t.ctxOf x).state = .faulted ∧
      ∃ rec, (t.cell x.cell).faults = (s.cell x.cell).faults ++ [rec] ∧ rec.code = code ∧ rec.detail = detail := by
  have hctx : (((s.cell x.cell).take x.ctx).raiseHere (s.env x.cell) x.ctx code detail).ctx x.ctx =
      { (s.ctxOf x).issuing with state := .faulted, wait := .none } := by
    rw [Cell.raiseHere, Cell.ctx_raise, if_pos rfl, h.taken.self]
  obtain ⟨t, ht, ho, hc, hx⟩ := issued_cell h hb (by rw [hctx]; exact h.free)
  obtain ⟨rec, hrec, hcode, hdetail, -⟩ :=
    Cell.raise_record (s.env x.cell) x.ctx code detail (((s.cell x.cell).take x.ctx).ctx x.ctx).pc.toNat ((s.cell x.cell).take x.ctx)
  exact ⟨t, ht, ho, (congrArg Ctx.state (hx x.ctx)).trans (congrArg Ctx.state hctx), rec, (Cell.eq_of_noCtxs Cell.faults (fun _ => rfl) hc).trans hrec, hcode, hdetail⟩

/-! ### The first match of a list -/

theorem takeFirst_none {α : Type} {p : α → Bool} {l : List α} (h : ∀ a ∈ l, p a = false) : takeFirst p l = none := by
  induction l with
  | nil => rfl
  | cons a l ih =>
    rw [takeFirst, h a List.mem_cons_self, ih fun b hb => h b (List.mem_cons_of_mem _ hb)]
    rfl

theorem takeFirst_append {α : Type} {p : α → Bool} {l l' : List α} {a : α} (h : ∀ b ∈ l, p b = false) (ha : p a = true) :
    takeFirst p (l ++ a :: l') = some (a, l ++ l') := by
  induction l with
  | nil => rw [List.nil_append, takeFirst, if_pos ha, List.nil_append]
  | cons b l ih =>
    rw [List.cons_append, takeFirst, h b List.mem_cons_self, ih fun b' hb => h b' (List.mem_cons_of_mem _ hb)]
    rfl

/-! ### RECV (04 R112) -/

/-- Contexts held for a tag are woken; nothing else of the cell changes. -/
theorem Cell.wakeTagWaiters_eq (c : Cell) : ∃ xs, c.wakeTagWaiters = { c with ctxs := xs } := by
  unfold Cell.wakeTagWaiters
  refine List.foldlRecOn _ _ (motive := fun d : Cell => ∃ xs, d = { c with ctxs := xs }) ⟨c.ctxs, rfl⟩ (fun d hd k _ => ?_)
  obtain ⟨xs, rfl⟩ := hd
  split
  · exact ⟨_, rfl⟩
  · exact ⟨xs, rfl⟩

theorem Cell.noCtxs_wakeTagWaiters (c : Cell) : c.wakeTagWaiters.noCtxs = c.noCtxs := by
  obtain ⟨xs, hxs⟩ := c.wakeTagWaiters_eq
  rw [hxs]
  rfl

/-- A cell whose receive buffer for responses gave an entry: its tag is free. -/
def Cell.tookRsp (c : Cell) (en : RecvEntry) (rest : List RecvEntry) : Cell :=
  { c with recvRsp := rest, tags := c.tags.filter (fun r => r.tag != en.tag) }

@[simp] theorem Cell.ctx_tookRsp (c : Cell) (en : RecvEntry) (rest : List RecvEntry) (k : Nat) : (c.tookRsp en rest).ctx k = c.ctx k := rfl
@[simp] theorem Cell.rd_tookRsp (c : Cell) (en : RecvEntry) (rest : List RecvEntry) (f : Fld) : (c.tookRsp en rest).rd f = c.rd f := rfl

/-- A context that is not blocked is not woken. -/
theorem Cell.ctx_wakeTagWaiters {c : Cell} {k : Nat} (h : (c.ctx k).state ≠ .blocked) : c.wakeTagWaiters.ctx k = c.ctx k := by
  unfold Cell.wakeTagWaiters
  refine List.foldlRecOn _ _ (motive := fun d : Cell => d.ctx k = c.ctx k) rfl (fun d hd j _ => ?_)
  split
  · rw [Cell.wake, Cell.ctx_modCtx]
    split_ifs with hj hb
    · exact absurd hb (by rw [← hj, hd]; exact h)
    · rw [← hj, hd]
    · exact hd
  · exact hd

theorem recvInto_keeps (w : Nat) (en : RecvEntry) (y : Ctx) :
    (recvInto w en y).pc = y.pc ∧ (recvInto w en y).stepping = y.stepping ∧ ∀ i, (recvInto w en y).lReg i = y.lReg i := by
  unfold recvInto
  generalize bytesVal _ 64 = v
  generalize bytesVal _ 8 = u
  dsimp only
  split <;> exact ⟨rfl, rfl, fun _ => rfl⟩

/-- Writing the entry and moving the PC commute. -/
theorem recvInto_past (w : Nat) (en : RecvEntry) (y : Ctx) (n : Nat) :
    { recvInto w en y.issuing with pc := y.pc + BitVec.ofNat 10 n } = recvInto w en (y.past n) := by
  unfold recvInto
  generalize bytesVal _ 64 = v
  generalize bytesVal _ 8 = u
  dsimp only
  split <;> rfl

section
variable (e : Env) (k ext : Nat) {w : Nat} {c : Cell} {y : Ctx}

theorem bodyRecv_underrun (hp : portArm (bits w 20 15) = true) (hq : fget nil0 c.ports (bits w 20 15) = []) :
    bodyRecv e k w ext c = c.raiseHere e k 0x05 (bits w 20 15) := by
  unfold bodyRecv
  simp only [hp, hq, if_true]

theorem bodyRecv_word (hp : portArm (bits w 20 15) = true) {a : AWord} {l : List AWord} (hq : fget nil0 c.ports (bits w 20 15) = a :: l) :
    bodyRecv e k w ext c = ({ c with ports := fset nil0 c.ports (bits w 20 15) l } : Cell).done k (fun z =>
      ((z.setV (bits w 13 10) ⟨a.v, if a.p then BitVec.allOnes 16 else 0⟩).setS (bits w 9 5) ⟨0, false⟩).setS (bits w 9 5 + 1) ⟨64, false⟩) := by
  unfold bodyRecv
  simp only [hp, hq, if_true]

/-- What RECV makes of a cell without a match: the context waits for the entry (03 R64). -/
def Cell.awaits (c : Cell) (k port t m : Nat) : Cell :=
  (c.block k .recv (port * 65536 + t)).modCtx k (fun z => { z with waitMatch := (port, t, m) })

theorem bodyRecv_blocks (hy : c.ctx k = y.issuing) (hp : portArm (bits w 20 15) = false)
    (hq : ∀ en ∈ if bits w 20 15 = 0x30 then c.recvRsp else c.recvReq, entryMatches k (bits w 20 15)
      (bits (y.sReg (bits w 9 5)).v.toNat 11 0) (bits (y.sReg (bits w 9 5)).v.toNat 27 16) en = false) :
    bodyRecv e k w ext c = c.awaits k (bits w 20 15) (bits (y.sReg (bits w 9 5)).v.toNat 11 0) (bits (y.sReg (bits w 9 5)).v.toNat 27 16) := by
  have hnone := takeFirst_none hq
  unfold bodyRecv
  simp only [hp, hy, Ctx.sReg_issuing, Bool.false_eq_true, if_false]
  split_ifs at hnone ⊢ <;> rw [hnone] <;> rfl

theorem bodyRecv_request (hy : c.ctx k = y.issuing) (hp : portArm (bits w 20 15) = false) (hport : bits w 20 15 ≠ 0x30)
    {l : List RecvEntry} {en : RecvEntry} (hq : takeFirst (entryMatches k (bits w 20 15)
      (bits (y.sReg (bits w 9 5)).v.toNat 11 0) (bits (y.sReg (bits w 9 5)).v.toNat 27 16)) c.recvReq = some (en, l)) :
    bodyRecv e k w ext c = ({ c with recvReq := l } : Cell).done k (recvInto w en) := by
  unfold bodyRecv
  simp only [hp, hport, hy, Ctx.sReg_issuing, Bool.false_eq_true, if_false, hq]

theorem bodyRecv_response (hy : c.ctx k = y.issuing) (hp : portArm (bits w 20 15) = false) (hport : bits w 20 15 = 0x30)
    {l : List RecvEntry} {en : RecvEntry} (hq : takeFirst (entryMatches k (bits w 20 15)
      (bits (y.sReg (bits w 9 5)).v.toNat 11 0) (bits (y.sReg (bits w 9 5)).v.toNat 27 16)) c.recvRsp = some (en, l)) :
    bodyRecv e k w ext c =
      (c.tookRsp en l).wakeTagWaiters.done k (recvInto w en) := by
  rw [hport] at hq hp
  unfold bodyRecv
  simp only [hp, hport, hy, Ctx.sReg_issuing, Bool.false_eq_true, if_false, if_true, hq]
  rfl

end

/-- Settles O39: the Armature port by its queue, the receive buffers by their first match. -/
theorem receivesTakeTheOldestMatch : Obligations.ReceivesTakeTheOldestMatch := by
  intro x s h y w c port tv hit
  have hy := h.taken.self
  refine ⟨fun hp hq => ?underrun, fun hp hn a l hq => ?word, fun hp hq => ?blocks, fun hp hport hn l en l' hq hl he => ?request,
    fun hp hport hn l en l' hq hl he => ?response⟩
  case underrun => exact issued_raise_record h (bodyRecv_underrun _ _ _ hp hq)
  case word =>
    obtain ⟨t, ht, hi⟩ := issued_done (c' := { c with ports := fset nil0 c.ports port l }) h hn (bodyRecv_word _ _ _ hp hq) rfl
      (fun _ => rfl) (fun _ _ => rfl) rfl (fun _ => rfl) h.free
    obtain ⟨-, hc, -⟩ := id hi
    have hports : (t.cell x.cell).ports = fset nil0 c.ports port l := Cell.eq_of_noCtxs Cell.ports (fun _ => rfl) hc
    refine ⟨t, ht, ?_, fun p => ?_⟩
    · rw [hports]
      exact hi
    · rw [hports]
      exact fget_fset ..
  case blocks =>
    refine issued_ctxIs h ?_ h.free
    rw [bodyRecv_blocks _ _ _ hy hp hq]
    exact (h.taken.block _ _).modCtx _
  case request =>
    have hfirst : takeFirst hit c.recvReq = some (en, l ++ l') := by rw [hq, takeFirst_append hl he]
    obtain ⟨t, ht, hi⟩ := issued_done (c' := { c with recvReq := l ++ l' }) h hn (bodyRecv_request _ _ _ hy hp hport hfirst) rfl
      (fun _ => rfl) (fun _ _ => rfl) (recvInto_keeps ..).1 (recvInto_keeps ..).2.2 ((recvInto_keeps ..).2.1.trans h.free)
    rw [recvInto_past] at hi
    exact ⟨t, ht, hi⟩
  case response =>
    have hfirst : takeFirst hit c.recvRsp = some (en, l ++ l') := by rw [hq, takeFirst_append hl he]
    have hb := bodyRecv_response (s.env x.cell) x.ctx (s.extOf x) hy hp hport hfirst
    have hctx : ((c.take x.ctx).tookRsp en (l ++ l')).wakeTagWaiters.ctx x.ctx = y.issuing := by
      rw [Cell.ctx_wakeTagWaiters, Cell.ctx_tookRsp, hy]
      rw [Cell.ctx_tookRsp, hy]
      exact CtxState.noConfusion
    have hrest := ((c.take x.ctx).tookRsp en (l ++ l')).noCtxs_wakeTagWaiters
    obtain ⟨hpc, hstep, hloops⟩ := recvInto_keeps w en y.issuing
    have hdone := ((c.take x.ctx).tookRsp en (l ++ l')).wakeTagWaiters.done_ctx x.ctx 1 (recvInto w en) (fun n hn4 => by
      rw [hctx, hloops, hpc, Cell.rd_of_noCtxs hrest, Cell.rd_tookRsp, Cell.rd_take]
      exact hn n hn4) x.ctx
    rw [if_pos rfl, hctx, hpc] at hdone
    obtain ⟨t, ht, ho, hc, hx⟩ := issued_cell h hb (by rw [hdone]; exact hstep.trans h.free)
    rw [Cell.noCtxs_done, hrest] at hc
    exact ⟨t, ht, ((hx x.ctx).trans hdone).trans (recvInto_past ..), Cell.eq_of_noCtxs Cell.recvRsp (fun _ => rfl) hc,
      (Cell.eq_of_noCtxs Cell.recvReq (fun _ => rfl) hc).trans rfl, (Cell.eq_of_noCtxs Cell.spd (fun _ => rfl) hc).trans rfl,
      (Cell.eq_of_noCtxs Cell.regs (fun _ => rfl) hc).trans rfl, Cell.eq_of_noCtxs Cell.tags (fun _ => rfl) hc, ho⟩

end Sys2Proof.Machine

/-! PROOF. Commands to one context: O46. -/

namespace Sys2Proof.Machine
open Sys2Proof

/-! ### Commands to a cell with clocks -/

theorem onCell_powered {s : State} {n : Nat} (hn : n < cellCount) (hp : s.powered n = true) (f : State → State) : s.onCell n f = .next (f s) := by
  unfold State.onCell
  rw [if_pos hn, if_pos hp]

theorem onWin_live {s : State} {n : Nat} (h : Live n s) (f : State → State) : s.onWin n f = .next (f s) := by
  obtain ⟨hn, hp, hf⟩ := h
  unfold State.onWin
  rw [onCell_powered hn hp, hf]
  rfl

theorem onCtxWin_live {s : State} {x : CtxRef} (hk : x.ctx < 4) (h : Live x.cell s) (f : State → State) : s.onCtxWin x f = .next (f s) :=
  (if_pos hk).trans (onWin_live h f)

theorem onCtx_live {s : State} {x : CtxRef} (hk : x.ctx < 4) (h : Live x.cell s) (f : State → State) : s.onCtx x f = .next (f s) :=
  (if_pos hk).trans (onCell_powered h.1 h.2.1 f)

theorem cellIs_modCell (n : Nat) (s : State) (f : Cell → Cell) : CellIs n s (s.modCell n f) (f (s.cell n)) :=
  ⟨onlyCell_modCell n s f, by rw [State.cell_modCell, if_pos rfl]⟩

/-- A command that changes one cell makes of it what is claimed. -/
theorem goes_modCell {o : Out} {n : Nat} {s : State} {f : Cell → Cell} {c : Cell} (ho : o = .next (s.modCell n f)) (hf : f (s.cell n) = c) :
    ∃ t, o = .next t ∧ CellIs n s t c :=
  ⟨_, ho, hf ▸ cellIs_modCell n s f⟩

/-! ### What each command makes of the cell (03 R66, R69) -/

theorem Cell.modCtx_congr (c : Cell) (k : Nat) {f g : Ctx → Ctx} (h : f (c.ctx k) = g (c.ctx k)) : c.modCtx k f = c.modCtx k g :=
  congrArg (c.setCtx k) h

section
variable {c : Cell} {k : Nat}

theorem Cell.start_halted (hm : ¬(k = 3 ∧ c.rd CELL_CTRL_CTX3_ROLE = 1)) (hs : (c.ctx k).state = .halted) :
    c.start k = c.modCtx k (fun z => { z with state := .ready, stepping := false }) :=
  (if_neg hm).trans (if_pos hs)

theorem Cell.start_other (h : (k = 3 ∧ c.rd CELL_CTRL_CTX3_ROLE = 1) ∨ (c.ctx k).state ≠ .halted) : c.start k = c := by
  unfold Cell.start
  split_ifs with hm hs
  · rfl
  · exact absurd hs (h.resolve_left hm)
  · rfl

theorem Cell.haltCtx_runs (hs : (c.ctx k).state = .ready ∨ (c.ctx k).state = .running) :
    c.haltCtx k = c.modCtx k (fun z => { z with state := .halted }) := by
  unfold Cell.haltCtx
  rcases hs with hs | hs <;> simp only [hs]

theorem Cell.haltCtx_blocked (hs : (c.ctx k).state = .blocked) (hw : (c.ctx k).wait ≠ .sync) :
    c.haltCtx k = c.modCtx k (fun z => { z with state := .halted, wait := .none, stepping := false }) := by
  unfold Cell.haltCtx
  simp only [hs, if_neg hw]

theorem Cell.haltCtx_sync (hs : (c.ctx k).state = .blocked) (hw : (c.ctx k).wait = .sync) : c.haltCtx k =
    ({ c with tags := c.tags.filter (fun r => r.tag != (c.ctx k).waitTag), quar := c.quar ++ [(c.ctx k).waitTag] } : Cell).modCtx k
      (fun z => { z with state := .halted, wait := .none, stepping := false }) := by
  unfold Cell.haltCtx
  simp only [hs, if_pos hw]

theorem Cell.haltCtx_still (hs : (c.ctx k).state = .off ∨ (c.ctx k).state = .halted ∨ (c.ctx k).state = .faulted ∨
    (c.ctx k).state = .resetting) : c.haltCtx k = c := by
  unfold Cell.haltCtx
  rcases hs with hs | hs | hs | hs <;> simp only [hs]

theorem Cell.progValid_off (hs : (c.ctx k).state = .off) :
    c.progValid k true = (c.wr (CTX_CONFIG_PROG_VALID.ctx k) 1).modCtx k (fun z => { z with state := .halted }) := by
  unfold Cell.progValid
  simp only [hs, if_true]

theorem Cell.progValid_halted (hs : (c.ctx k).state = .halted) :
    c.progValid k false = (c.wr (CTX_CONFIG_PROG_VALID.ctx k) 0).modCtx k (fun z => { z with state := .off }) := by
  unfold Cell.progValid
  simp only [hs, Bool.false_eq_true, if_false]

theorem Cell.progValid_other (h1 : (c.ctx k).state ≠ .off) (h2 : (c.ctx k).state ≠ .halted) : c.progValid k false = c := by
  unfold Cell.progValid
  split
  · next hs => exact absurd hs h1
  · next hs => exact absurd hs h2
  · rfl

/-! ### Timeouts and wakes (03 R65, 04 R125) -/

theorem Cell.waitOver_iff (c : Cell) (k : Nat) :
    c.waitOver k = true ↔ c.rd (CTX_TIMEOUT_EXP.ctx k) ≠ 31 ∧ 2 ^ c.rd (CTX_TIMEOUT_EXP.ctx k) ≤ (c.ctx k).waitElapsed := by
  simp [Cell.waitOver]

theorem Cell.recvTimeout_expired (e : Env) (hs : (c.ctx k).state = .blocked) (hw : (c.ctx k).wait = .recv) (ho : c.waitOver k = true) :
    c.recvTimeout e k = c.raise e k 0x07 (c.ctx k).waitMatch.1 (c.ctx k).pc.toNat :=
  if_neg (by simp [hs, hw, ho])

theorem Cell.recvTimeout_waits (e : Env) (h : (c.ctx k).wait ≠ .recv ∨ c.waitOver k = false) : c.recvTimeout e k = c :=
  if_pos (.inr h)

theorem Cell.slotTimeout_expired (e : Env) (hs : (c.ctx k).state = .blocked) (hw : (c.ctx k).wait = .slot) (ho : c.waitOver k = true) :
    let w := c.fetchWord k (c.ctx k).pc.toNat
    c.slotTimeout e k = c.spdFault e k (c.ctx k).pc.toNat (if bit w 24 then 1 else 0) (if bit w 25 then 0x44 else 0x43) (slotRing w)
      (c.slotAddr w) :=
  if_neg (by simp [hs, hw, ho])

theorem Cell.spdCapture_eq (j cls code addr : Nat) (c : Cell) : ∃ m, c.spdCapture j cls code addr = { c with regs := m } := by
  unfold Cell.spdCapture
  split
  · exact ⟨c.regs, rfl⟩
  · exact ⟨_, rfl⟩

/-- A fault stops its context, leaves one record and keeps the scratchpad. -/
theorem Cell.raise_leaves (e : Env) (k code detail pc : Nat) (c : Cell) :
    let d := c.raise e k code detail pc
    (d.ctx k).state = .faulted ∧ d.spd = c.spd ∧
      ∃ rec, d.faults = c.faults ++ [rec] ∧ rec.code = code ∧ rec.detail = detail ∧ rec.pc = pc :=
  ⟨by rw [Cell.ctx_raise, if_pos rfl], Cell.raise_spd .., Cell.raise_record ..⟩

theorem Cell.spdFault_leaves (e : Env) (k pc cls code ring addr : Nat) (c : Cell) :
    let d := c.spdFault e k pc cls code ring addr
    (d.ctx k).state = .faulted ∧ d.spd = c.spd ∧ ∃ rec, d.faults = c.faults ++ [rec] ∧ rec.code = code := by
  obtain ⟨m, hm⟩ := Cell.spdCapture_eq k cls code addr c
  obtain ⟨hst, hspd, rec, hrec, hcode, -⟩ := Cell.raise_leaves e k code (spdDetail cls code ring addr) pc { c with regs := m }
  unfold Cell.spdFault
  rw [hm]
  exact ⟨hst, hspd, rec, hrec, hcode⟩

theorem Cell.waittWake_due (e : Env) (hs : (c.ctx k).state = .blocked) (hw : (c.ctx k).wait = .time) (he : (c.ctx k).waitEdge = false)
    (ht : (c.ctx k).waitTick ≤ e.tick) (hstep : (c.ctx k).stepping = false) :
    c.waittWake e k = c.modCtx k (fun z => { z with state := .ready, wait := .none }) := by
  have hdue : c.waittWake e k = c.wakeDone k := if_pos ⟨hs, hw, he, ht⟩
  rw [hdue]
  exact Cell.modCtx_congr _ _ (if_neg (by rw [hstep]; exact Bool.false_ne_true))

theorem Cell.waittWake_early (e : Env) (ht : e.tick < (c.ctx k).waitTick) : c.waittWake e k = c :=
  if_neg fun h => absurd h.2.2.2 (Nat.not_le.mpr ht)

/-! ### The reset of a context (03 R70) -/

theorem Cell.ctxCycle_resets (now : Nat) {d : Cell} (hs : (d.ctx k).state = .resetting) (hd : (d.ctx k).resetDue ≤ now + 1) :
    ((d.ctxCycle now k).ctx k).state = d.idleState k := by
  have h : d.ctxCycle now k = _ := (if_neg (by rw [hs]; exact CtxState.noConfusion)).trans (if_pos ⟨hs, hd⟩)
  rw [h, Cell.ctx_setCtx, if_pos rfl]

/-- The end of a scan writes flags of the cell's own block only. -/
theorem Cell.rd_wr_below (c : Cell) {f g : Fld} (v : Nat) (hf : f.key < 0x400 * 64) (hg : 0x400 ≤ g.off) : (c.wr f v).rd g = c.rd g :=
  Cell.rd_wr_ne c v (by unfold Fld.key at hf ⊢; omega)

theorem Cell.endScan_eq (c : Cell) : ∃ m b l, c.endScan = { c with regs := m, scanning := b, scanImg := l } ∧
    ∀ g : Fld, 0x400 ≤ g.off → ({ c with regs := m } : Cell).rd g = c.rd g := by
  unfold Cell.endScan
  split
  · refine ⟨(((c.wr CELL_SCAN_STATUS_ERROR 1).wr CELL_SCAN_STATUS_BUSY 0).wr CELL_FAULT_SCAN_ERR 1).regs, false, [], rfl, fun g hg => ?_⟩
    calc _ = (((c.wr CELL_SCAN_STATUS_ERROR 1).wr CELL_SCAN_STATUS_BUSY 0).wr CELL_FAULT_SCAN_ERR 1).rd g := Cell.rd_eq_of_regs (by rfl) g
      _ = ((c.wr CELL_SCAN_STATUS_ERROR 1).wr CELL_SCAN_STATUS_BUSY 0).rd g := Cell.rd_wr_below _ _ (by decide) hg
      _ = (c.wr CELL_SCAN_STATUS_ERROR 1).rd g := Cell.rd_wr_below _ _ (by decide) hg
      _ = c.rd g := Cell.rd_wr_below _ _ (by decide) hg
  · exact ⟨c.regs, c.scanning, c.scanImg, rfl, fun _ _ => rfl⟩

/-- Registers dropped elsewhere: a field outside reads what it did. -/
theorem Cell.rd_fdrop {c : Cell} {p : Nat → Bool} {f : Fld} (h : p f.key = false) : ({ c with regs := fdrop p c.regs } : Cell).rd f = c.rd f := by
  unfold Cell.rd rget
  rw [fget_fdrop, if_neg (by rw [h]; exact Bool.false_ne_true)]

/-- The context cleared: its PC at ENTRY, its tag counter kept; the other contexts as they were. -/
theorem Cell.ctx_clearCtx (c : Cell) (k j : Nat) : ∃ st, (c.clearCtx k).ctx j = if j = k then
    { pc := BitVec.ofNat 10 (c.rd (CTX_PC_ENTRY.ctx k)), state := st, tagCtr := (c.ctx k).tagCtr } else c.ctx j := by
  let p := fun key => decide (0x400 + 0x100 * k + 0x38 ≤ key / 64 ∧ key / 64 ≤ 0x400 + 0x100 * k + 0x58)
  have hrd : ({ c with regs := fdrop p c.regs } : Cell).rd (CTX_PC_ENTRY.ctx k) = c.rd (CTX_PC_ENTRY.ctx k) :=
    Cell.rd_fdrop (decide_eq_false (by simp only [Fld.key, Fld.ctx, Fld.up, CTX_PC_ENTRY]; omega))
  refine ⟨({ c with regs := fdrop p c.regs } : Cell).idleState k, ?_⟩
  unfold Cell.clearCtx
  rw [Cell.ctx_setCtx]
  exact if_congr Iff.rfl (by rw [← hrd]; rfl) rfl

/-- The cell as a context reset finds it once the context's tags and locks are gone and its orphan notices wait. -/
def Cell.orphaned (e : Env) (k : Nat) (c : Cell) : Cell :=
  let d := c.endScan.abandonTags k
  { d with locks := d.locks.filter (fun h => h.ctx != k), inj := d.inj ++ (c.orphanCourts k).map (fun p => orphanNotice e k p.1 p.2) }

theorem Cell.orphaned_leaves (e : Env) : let d := c.orphaned e k
    d.rd (CTX_PC_ENTRY.ctx k) = c.rd (CTX_PC_ENTRY.ctx k) ∧ d.ctxs = c.ctxs ∧ (∀ h ∈ d.locks, h.ctx ≠ k) ∧ (∀ r ∈ d.tags, r.ctx ≠ k) ∧
      d.istore = c.istore ∧ d.spd = c.spd ∧ d.ports = c.ports ∧ d.recvReq = c.recvReq := by
  obtain ⟨m, b, l, hscan, hrd⟩ := c.endScan_eq
  unfold Cell.orphaned Cell.abandonTags
  rw [hscan]
  refine ⟨hrd _ (by simp only [Fld.ctx, Fld.up, CTX_PC_ENTRY]; omega), rfl, fun h hh => ?_, fun r hr => ?_, rfl, rfl, rfl, rfl⟩
  · exact bne_iff_ne.mp (List.mem_filter.mp hh).2
  · exact bne_iff_ne.mp (List.mem_filter.mp hr).2

/-- What a context reset leaves in its cell. -/
theorem Cell.ctxReset_leaves (e : Env) (hs : (c.ctx k).state ≠ .resetting) :
    let d := c.ctxReset e k
    d.ctx k = { pc := BitVec.ofNat 10 (c.rd (CTX_PC_ENTRY.ctx k)), tagCtr := (c.ctx k).tagCtr, state := .resetting, resetDue := e.cycle + 10 } ∧
      (∀ j, j ≠ k → d.ctx j = c.ctx j) ∧ (∀ h ∈ d.locks, h.ctx ≠ k) ∧ (∀ r ∈ d.tags, r.ctx ≠ k) ∧ d.istore = c.istore ∧
      d.spd = c.spd ∧ d.ports = c.ports ∧ d.recvReq = c.recvReq := by
  intro d
  have hd : d = ((c.orphaned e k).clearCtx k).modCtx k (fun z => { z with state := .resetting, resetDue := e.cycle + 10 }) := if_neg hs
  obtain ⟨hentry, hctxs, hlocks, htags, hstores⟩ := Cell.orphaned_leaves (c := c) (k := k) e
  have hctx (j : Nat) : (c.orphaned e k).ctx j = c.ctx j := congrArg (fget ctx0 · j) hctxs
  rw [hd]
  refine ⟨?_, fun j hj => ?_, hlocks, htags, hstores⟩
  · obtain ⟨st, hst⟩ := Cell.ctx_clearCtx (c.orphaned e k) k k
    rw [Cell.ctx_modCtx, if_pos rfl, hst, if_pos rfl, hentry, hctx]
  · obtain ⟨st, hst⟩ := Cell.ctx_clearCtx (c.orphaned e k) k j
    rw [Cell.ctx_modCtx, if_neg hj, hst, if_neg hj, hctx]

end

/-- The instruction at a context's PC is the same where its PC and the stores are. -/
theorem Cell.word0_modCtx (c : Cell) (k : Nat) {f : Ctx → Ctx} (h : (f (c.ctx k)).pc = (c.ctx k).pc) : (c.modCtx k f).word0 k = c.word0 k := by
  unfold Cell.word0
  rw [Cell.ctx_modCtx, if_pos rfl, h]
  rfl

theorem Cell.word1_modCtx (c : Cell) (k : Nat) {f : Ctx → Ctx} (h : (f (c.ctx k)).pc = (c.ctx k).pc) : (c.modCtx k f).word1 k = c.word1 k := by
  unfold Cell.word1
  rw [Cell.ctx_modCtx, if_pos rfl, h]
  rfl

theorem Cell.haltCtx_sync_leaves {c : Cell} {k : Nat} (hs : (c.ctx k).state = .blocked) (hw : (c.ctx k).wait = .sync) :
    let d := c.haltCtx k
    (d.ctx k).state = .halted ∧ (c.ctx k).waitTag ∈ d.quar ∧ ∀ r ∈ d.tags, r.tag ≠ (c.ctx k).waitTag := by
  intro d
  have hd := Cell.haltCtx_sync hs hw
  refine ⟨?_, ?_, fun r hr => ?_⟩
  · rw [show d = _ from hd, Cell.ctx_modCtx, if_pos rfl]
  · rw [show d = _ from hd]
    exact List.mem_append_right _ (List.mem_singleton.mpr rfl)
  · rw [show d = _ from hd] at hr
    exact bne_iff_ne.mp (List.mem_filter.mp hr).2

/-- With no reset due for the context, its reset is the cell's own. -/
theorem State.beginReset_undue {s : State} {n k : Nat} (h : (s.resets.all (fun r => !(r.level == 1 && r.unit == 4 * n + k))) = true) :
    s.beginReset n k = s.modCell n (Cell.ctxReset (s.env n) k) := by
  have hnone : s.resets.find? (fun r => r.level == 1 && r.unit == 4 * n + k) = none :=
    List.find?_eq_none.mpr fun r hr => by simpa [not_or, imp_iff_not_or] using List.all_eq_true.mp h r hr
  unfold State.beginReset
  simp only [hnone]

/-- A step starts as its command leaves it: READY and stepping. -/
theorem State.stepCtx_starts {s : State} {n k : Nat} (hm : ¬(k = 3 ∧ (s.cell n).rd CELL_CTRL_CTX3_ROLE = 1))
    (hs : ((s.cell n).ctx k).state = .halted) :
    let s' := s.modCell n (fun c => c.modCtx k (fun z => { z with state := .ready, stepping := true, stepDone := false }))
    (s'.mayIssue n k = false → s.stepCtx n k = s') ∧
      (∀ r, s'.mayIssue n k = true → rowOf ((s.cell n).word0 k) ((s.cell n).word1 k) = some r →
        s.stepCtx n k = s'.issueAt r (rowBody r) n k) := by
  intro s'
  have hcell : s'.cell n = (s.cell n).modCtx k (fun z => { z with state := .ready, stepping := true, stepDone := false }) :=
    (cellIs_modCell n s _).2
  have hstart : s.stepCtx n k = if s'.mayIssue n k then
      match rowOf ((s'.cell n).word0 k) ((s'.cell n).word1 k) with
      | some r => s'.issueAt r (rowBody r) n k
      | none => s'.issueAt .nop (rowBody .nop) n k
    else s' := if_neg (by rintro (h | h); exacts [h hs, hm h])
  refine ⟨fun hi => ?_, fun r hi hr => ?_⟩
  · rw [hstart, if_neg (by rw [hi]; exact Bool.false_ne_true)]
  · rw [hstart, if_pos hi, hcell, Cell.word0_modCtx, Cell.word1_modCtx, hr] <;> rfl

/-- Settles O46: what each command makes of its cell, by the state of the context. -/
theorem contextCommands : Obligations.ContextCommands := by
  intro x s hk hl k n c y goes state expired mq
  have win (f : State → State) := onCtxWin_live hk hl f
  have any (f : State → State) := onCtx_live hk hl f
  refine ⟨fun hm hs => ?_, fun h => ?_, fun hs => ?_, fun hs hw => ?_, fun hs hw => ?_, fun hs => ?_, fun now d hs hd => ?_,
    fun hr hs => ?_, fun hr hs => ?_, fun hs => ?_, fun hs => ?_, fun h1 h2 => ?_, fun hm hs => ?_, fun hs => ?_, fun hs hw ho => ?_,
    fun h => ?_, fun hs hw ho => ?_, fun hs hw he ht hstep => ?_, fun ht => ?_⟩
  · exact goes_modCell (win _) (Cell.start_halted hm hs)
  · exact goes_modCell (win _) (Cell.start_other h)
  · exact goes_modCell (win _) (Cell.haltCtx_runs hs)
  · exact goes_modCell (win _) (Cell.haltCtx_blocked hs hw)
  · obtain ⟨honly, hcell⟩ := cellIs_modCell n s (Cell.haltCtx k)
    obtain ⟨hst, hquar, htags⟩ := Cell.haltCtx_sync_leaves hs hw
    refine ⟨_, win _, ?_, ?_, ?_, honly⟩
    · exact (congrArg (fun d => (Cell.ctx d k).state) hcell).trans hst
    · exact hcell ▸ hquar
    · exact hcell ▸ htags
  · exact goes_modCell (win _) (Cell.haltCtx_still hs)
  · exact Cell.ctxCycle_resets now hs hd
  · exact goes_modCell ((win _).trans (congrArg Host.Outcome.next (State.beginReset_undue hr))) (if_pos hs)
  · obtain ⟨honly, hcell⟩ := cellIs_modCell n s (Cell.ctxReset (s.env n) k)
    obtain ⟨hctx, hrest⟩ := Cell.ctxReset_leaves (s.env n) hs
    refine ⟨_, (win _).trans (congrArg Host.Outcome.next (State.beginReset_undue hr)), honly, ?_, hcell ▸ hrest⟩
    exact (congrArg (fun d => Cell.ctx d k) hcell).trans hctx
  · exact goes_modCell (win _) (Cell.progValid_off hs)
  · exact goes_modCell (win _) (Cell.progValid_halted hs)
  · exact goes_modCell (win _) (Cell.progValid_other h1 h2)
  · obtain ⟨hno, hyes⟩ := State.stepCtx_starts hm hs
    exact ⟨fun hi => (win _).trans (congrArg Host.Outcome.next (hno hi)), fun r hi hr => (win _).trans (congrArg Host.Outcome.next (hyes r hi hr))⟩
  · exact ⟨s, (win _).trans (congrArg Host.Outcome.next (if_pos (.inl hs))), ⟨rfl, fun _ _ => rfl⟩, rfl⟩
  · obtain ⟨honly, hcell⟩ := cellIs_modCell n s (Cell.recvTimeout (s.env n) k)
    rw [Cell.recvTimeout_expired (s.env n) hs hw ((Cell.waitOver_iff c k).mpr ho)] at hcell
    obtain ⟨hst, -, hrec⟩ := Cell.raise_leaves (s.env n) k 0x07 y.waitMatch.1 y.pc.toNat c
    exact ⟨_, any _, honly, (congrArg (fun d => (Cell.ctx d k).state) hcell).trans hst, hcell ▸ hrec⟩
  · refine goes_modCell (any _) (Cell.recvTimeout_waits _ (h.imp_right fun h => ?_))
    exact Bool.eq_false_iff.mpr fun ho => h ((Cell.waitOver_iff c k).mp ho)
  · obtain ⟨honly, hcell⟩ := cellIs_modCell n s (Cell.slotTimeout (s.env n) k)
    rw [Cell.slotTimeout_expired (s.env n) hs hw ((Cell.waitOver_iff c k).mpr ho)] at hcell
    obtain ⟨hst, hspd, hrec⟩ := Cell.spdFault_leaves (s.env n) k _ _ _ _ _ c
    exact ⟨_, any _, honly, (congrArg (fun d => (Cell.ctx d k).state) hcell).trans hst, hcell ▸ hspd, hcell ▸ hrec⟩
  · exact goes_modCell (any _) (Cell.waittWake_due _ hs hw he ht hstep)
  · exact goes_modCell (any _) (Cell.waittWake_early _ ht)

end Sys2Proof.Machine

/-! PROOF. The debug windows of a cell: O47. -/

namespace Sys2Proof.Machine
open Sys2Proof

/-! ### An access to a data window (03 R77) -/

/-- What one access leaves: the cell and the value read as the window's rule says, and nothing else. -/
theorem State.access_leaves (s : State) (n : Nat) (f : Cell → Nat × Cell) :
    let t := s.access n f
    (t = { s with cells := t.cells, readVal := t.readVal, readStat := 0 } ∧ ∀ m, m ≠ n → t.cell m = s.cell m) ∧
      t.readVal = (f (s.cell n)).1 ∧ t.cell n = (f (s.cell n)).2 := by
  obtain ⟨⟨-, hrest⟩, hcell⟩ := cellIs_modCell n s (fun _ => (f (s.cell n)).2)
  exact ⟨⟨rfl, hrest⟩, rfl, hcell⟩

theorem dieHalt_of_powered {s : State} {n : Nat} (h : s.powered n = true) : fget noMark s.dieHalt (cellDie n) = false := by
  unfold State.powered at h
  simpa using Bool.and_elim_left h

theorem onAnyCell_clocked {s : State} {n : Nat} (hn : n < cellCount) (hd : fget noMark s.dieHalt (cellDie n) = false) (f : State → State) :
    s.onAnyCell n f = .next (f s) := by
  unfold State.onAnyCell
  rw [if_pos hn, hd]
  rfl

section
variable {s : State} {n : Nat}

theorem onData_read (h : Live n s) (f : Bool → Nat → Cell → Nat × Cell) : s.onData n none f = .next (s.access n (f false 0)) :=
  onAnyCell_clocked h.1 (dieHalt_of_powered h.2.1) (fun s => s.access n (f false 0))

theorem onData_write (h : Live n s) (v : W64) (f : Bool → Nat → Cell → Nat × Cell) :
    s.onData n (some v) f = .next (s.access n (f true v.toNat)) := onWin_live h _

end

/-! ### Address registers that step on (03 R59, 06 R197, 07 R213) -/

/-- The address field after an access: the next address under AUTOINC. -/
def Cell.stepOn (auto addr : Fld) (next : Nat) (c : Cell) : Cell := if c.rd auto = 1 then c.wr addr next else c

section
variable (auto addr : Fld) (next : Nat) (c : Cell)

theorem Cell.stepOn_eq : ∃ m, c.stepOn auto addr next = { c with regs := m } := by
  unfold Cell.stepOn
  split
  · exact ⟨_, rfl⟩
  · exact ⟨c.regs, rfl⟩

theorem Cell.rd_stepOn_self : (c.stepOn auto addr next).rd addr = if c.rd auto = 1 then next % 2 ^ addr.width else c.rd addr := by
  unfold Cell.stepOn
  split
  · exact Cell.rd_wr_self ..
  · rfl

variable {addr} in
theorem Cell.rd_stepOn_ne {g : Fld} (h : g.key ≠ addr.key) : (c.stepOn auto addr next).rd g = c.rd g := by
  unfold Cell.stepOn
  split
  · exact Cell.rd_wr_ne c _ h
  · rfl

@[simp] theorem Cell.stepOn_istore : (c.stepOn auto addr next).istore = c.istore := by
  obtain ⟨m, h⟩ := c.stepOn_eq auto addr next
  rw [h]

@[simp] theorem Cell.stepOn_spd : (c.stepOn auto addr next).spd = c.spd := by
  obtain ⟨m, h⟩ := c.stepOn_eq auto addr next
  rw [h]

@[simp] theorem Cell.wordP_stepOn (a : Nat) : (c.stepOn auto addr next).wordP a = c.wordP a := by
  obtain ⟨m, h⟩ := c.stepOn_eq auto addr next
  rw [h]
  rfl

@[simp] theorem Cell.stepOn_routes : (c.stepOn auto addr next).routes = c.routes := by
  obtain ⟨m, h⟩ := c.stepOn_eq auto addr next
  rw [h]

end

/-! ### What each window does -/

section
variable (c : Cell) (v : Nat)

theorem Cell.isData_read : let r := (fget w0 c.istore (c.rd CELL_IS_ADDR_CTX * 1024 + c.rd CELL_IS_ADDR_WORD)).toNat
    c.isData false v =
      (r, (c.wr CELL_IS_DATA_WORD r).stepOn CELL_IS_ADDR_AUTOINC CELL_IS_ADDR_WORD ((c.rd CELL_IS_ADDR_WORD + 1) % 1024)) := by
  simp only [Cell.isData, Bool.false_eq_true, if_false, Cell.stepOn]

/-- The cell that a write of CELL_IS_DATA leaves, but for its address register. -/
def Cell.isWritten : Cell :=
  if (c.ctx (c.rd CELL_IS_ADDR_CTX)).state = .off ∨ (c.ctx (c.rd CELL_IS_ADDR_CTX)).state = .halted then
    c.putWord (c.rd CELL_IS_ADDR_CTX * 1024 + c.rd CELL_IS_ADDR_WORD) (BitVec.ofNat 32 v) .ok
  else c.wr CELL_IS_ADDR_BUSY_ERR 1

theorem Cell.isData_write : c.isData true v =
    (0, (c.isWritten v).stepOn CELL_IS_ADDR_AUTOINC CELL_IS_ADDR_WORD ((c.rd CELL_IS_ADDR_WORD + 1) % 1024)) := by
  simp only [Cell.isData, Cell.isWritten, Cell.stepOn, if_true]
  split_ifs <;> rfl

theorem Cell.rd_isWritten {g : Fld} (h : g.key ≠ CELL_IS_ADDR_BUSY_ERR.key) : (c.isWritten v).rd g = c.rd g := by
  unfold Cell.isWritten
  split
  · rfl
  · exact Cell.rd_wr_ne c _ h

theorem Cell.rsData_read : c.rsData false v =
    (c.route (c.rd ARM_RS_ADDR_CTX) (c.rd ARM_RS_ADDR_ENTRY),
      (c.wr ARM_RS_DATA_ENTRY (c.route (c.rd ARM_RS_ADDR_CTX) (c.rd ARM_RS_ADDR_ENTRY))).stepOn ARM_RS_ADDR_AUTOINC ARM_RS_ADDR_ENTRY
        ((c.rd ARM_RS_ADDR_ENTRY + 1) % 256)) := by
  simp only [Cell.rsData, Bool.false_eq_true, if_false, Cell.stepOn]

/-- The cell that a write of ARM_RS_DATA leaves, but for its address register. -/
def Cell.rsWritten : Cell :=
  if c.sched (c.rd ARM_RS_ADDR_CTX) = 0 then
    { c with routes := fset r0 c.routes (256 * c.rd ARM_RS_ADDR_CTX + c.rd ARM_RS_ADDR_ENTRY) (BitVec.ofNat 64 v) }
  else c.wr ARM_RS_ADDR_BUSY_ERR 1

theorem Cell.rsData_write : c.rsData true v =
    (0, (c.rsWritten v).stepOn ARM_RS_ADDR_AUTOINC ARM_RS_ADDR_ENTRY ((c.rd ARM_RS_ADDR_ENTRY + 1) % 256)) := by
  simp only [Cell.rsData, Cell.rsWritten, Cell.stepOn, if_true]
  split_ifs <;> rfl

/-- The register window of a context that is neither HALTED nor FAULTED: only its error flag (03 R57). -/
theorem Cell.regData_closed (w : Bool)
    (h : ¬((c.ctx (c.rd CELL_REG_SEL_CTX)).state = .halted ∨ (c.ctx (c.rd CELL_REG_SEL_CTX)).state = .faulted)) :
    let r := c.regData w v
    r.2.ctxs = c.ctxs ∧ r.2.rd CELL_REG_SEL_ACC_ERR = 1 := by
  intro r
  have hr : r = (0, (c.wr CELL_REG_SEL_ACC_ERR 1).wr CELL_REG_DATA_DATA 0) := if_pos h
  rw [hr]
  refine ⟨(Cell.wr_ctxs ..).trans (Cell.wr_ctxs ..), ?_⟩
  rw [Cell.rd_wr_ne _ _ (by decide), Cell.rd_wr_self]
  rfl

variable {c} in
/-- The register window on an s register of a HALTED or FAULTED context (03 R57). -/
theorem Cell.regData_sReg (w : Bool)
    (h : (c.ctx (c.rd CELL_REG_SEL_CTX)).state = .halted ∨ (c.ctx (c.rd CELL_REG_SEL_CTX)).state = .faulted)
    (hfile : c.rd CELL_REG_SEL_FILE = 0) (hi : c.rd CELL_REG_SEL_INDEX < 32) :
    let k := c.rd CELL_REG_SEL_CTX
    let i := c.rd CELL_REG_SEL_INDEX
    let r := c.regData w v
    (w = false → r.1 = ((c.ctx k).sReg i).v.toNat) ∧ (w = true → r.2.ctx k = (c.ctx k).setS i ⟨BitVec.ofNat 32 v, false⟩) := by
  intro k i r
  have hr : r = _ := if_neg (not_not.mpr h)
  rw [hfile] at hr
  simp only [if_neg (Nat.not_le.mpr hi)] at hr
  rw [hr]
  refine ⟨?_, ?_⟩
  · rintro rfl
    rfl
  · rintro rfl
    exact (congrArg (fget ctx0 · k) ((Cell.wr_ctxs ..).trans (Cell.wr_ctxs ..))).trans
      ((Cell.ctx_setCtx ..).trans (if_pos rfl))

/-- The host's access to a word that it may reach, with good check bits: admitted (06 R197). -/
theorem Cell.spdCheck_word {c : Cell} {a cls : Nat} (ha : a < spdBytes) (ho : ownAdmits (c.ownState (abank a)) cls = true) :
    c.spdCheck cls true [a] = none := by
  simp [Cell.spdCheck, Nat.not_le.mpr ha, ho]

variable {c} in
/-- The host's window on a word that it may reach, with good check bits (06 R197). -/
theorem Cell.hostData_read (ha : 4 * c.rd SPD_HOST_ADDR_ADDR < spdBytes)
    (ho : ownAdmits (c.ownState (abank (4 * c.rd SPD_HOST_ADDR_ADDR))) 7 = true)
    (he : fget ecc0 c.spdEcc (4 * c.rd SPD_HOST_ADDR_ADDR / 4) = .ok) :
    (c.hostData false v).1 = memRead c.spd (4 * c.rd SPD_HOST_ADDR_ADDR) 4 ∧ (c.hostData false v).2.spd = c.spd := by
  simp only [Cell.hostData, Cell.spdCheck_word ha ho, Bool.false_eq_true, if_false, c.spdRead_ok he,
    Nat.mul_div_cancel_left _ (show 0 < 4 by decide)]
  refine ⟨trivial, (Cell.stepOn_spd SPD_HOST_ADDR_AUTOINC SPD_HOST_ADDR_ADDR _ _).trans ?_⟩
  exact (Cell.wr_spd ..).trans (Cell.wr_spd ..)

variable {c} in
theorem Cell.hostData_write (ha : 4 * c.rd SPD_HOST_ADDR_ADDR < spdBytes)
    (ho : ownAdmits (c.ownState (abank (4 * c.rd SPD_HOST_ADDR_ADDR))) 7 = true) :
    (c.hostData true v).2.spd = memWrite c.spd (4 * c.rd SPD_HOST_ADDR_ADDR) 4 (v % 2 ^ 32) ∧
      (c.hostData true v).2.wordP (4 * c.rd SPD_HOST_ADDR_ADDR) = false := by
  simp only [Cell.hostData, Cell.spdCheck_word ha ho, if_true]
  refine ⟨(Cell.stepOn_spd SPD_HOST_ADDR_AUTOINC SPD_HOST_ADDR_ADDR _ _).trans ?_,
    (Cell.wordP_stepOn SPD_HOST_ADDR_AUTOINC SPD_HOST_ADDR_ADDR _ _ _).trans ?_⟩
  · simp only [Cell.spdWrite, Nat.mul_div_cancel_left _ (show 0 < 4 by decide)]
  · rw [Cell.wordP_spdWrite, if_pos rfl]

end

theorem State.cellWin_closed {s : State} {n : Nat} (hn : n < cellCount) (h : s.cellWin n = false) (w : Option W64) :
    execSpdHostDataAccess n w s = .next { s with readVal := 0, readStat := 2 } := if_pos ⟨hn, h⟩

theorem State.cellWin_open {s : State} {n : Nat} (h : s.cellWin n = true) (w : Option W64) :
    execSpdHostDataAccess n w s = s.onData n w (fun b v c => c.hostData b v) :=
  if_neg (by rw [h]; exact fun h => absurd h.2 (Bool.false_ne_true ∘ Eq.symm))

/-- Settles O47: each window's access by the state that admits it, then the access's frame. -/
theorem debugWindows : Obligations.DebugWindows := by
  intro n s hl c ctx i st k open' a rk re only
  have rdOf (f : Bool → Nat → Cell → Nat × Cell) := onData_read hl f
  have wrOf (v : W64) (f : Bool → Nat → Cell → Nat × Cell) := onData_write hl v f
  refine ⟨?_, fun v => ?_, fun ho hf hi => ⟨?_, fun v => ?_⟩, fun hclosed w => ?_, fun hwin w => ?_, fun hwin ha ho he => ⟨?_, fun v => ?_⟩,
    ?_, fun v => ?_⟩
  · obtain ⟨honly, hval, hcell⟩ := State.access_leaves s n (Cell.isData false 0)
    rw [Cell.isData_read] at hval hcell
    exact ⟨_, rdOf _, honly, hval, hcell ▸ (Cell.stepOn_istore ..).trans (Cell.wr_istore ..)⟩
  · obtain ⟨honly, -, hcell⟩ := State.access_leaves s n (Cell.isData true v.toNat)
    rw [Cell.isData_write] at hcell
    refine ⟨_, wrOf v _, honly, ?_, fun hst j => ?_, fun h1 h2 => ?_⟩
    · rw [hcell, Cell.rd_stepOn_self, Cell.rd_isWritten _ _ (by decide), Cell.rd_isWritten _ _ (by decide)]
      exact if_congr Iff.rfl (Nat.mod_mod _ _) rfl
    · rw [hcell, Cell.stepOn_istore, show Cell.isWritten _ _ = _ from if_pos hst]
      exact fget_fset ..
    · rw [hcell, Cell.stepOn_istore, Cell.rd_stepOn_ne _ _ _ (by decide),
        show Cell.isWritten _ _ = _ from if_neg (not_or.mpr ⟨h1, h2⟩)]
      exact ⟨Cell.wr_istore .., Cell.rd_wr_self ..⟩
  · obtain ⟨honly, hval, -⟩ := State.access_leaves s n (Cell.regData false 0)
    exact ⟨_, rdOf _, honly, hval.trans ((Cell.regData_sReg 0 false ho hf hi).1 rfl)⟩
  · obtain ⟨honly, -, hcell⟩ := State.access_leaves s n (Cell.regData true v.toNat)
    exact ⟨_, wrOf v _, honly, (congrArg (Cell.ctx · k) hcell).trans ((Cell.regData_sReg v.toNat true ho hf hi).2 rfl)⟩
  · cases w with
    | none =>
      obtain ⟨honly, -, hcell⟩ := State.access_leaves s n (Cell.regData false 0)
      exact ⟨_, rdOf _, honly, hcell ▸ Cell.regData_closed c 0 false hclosed⟩
    | some v =>
      obtain ⟨honly, -, hcell⟩ := State.access_leaves s n (Cell.regData true v.toNat)
      exact ⟨_, wrOf v _, honly, hcell ▸ Cell.regData_closed c v.toNat true hclosed⟩
  · exact State.cellWin_closed hl.1 hwin w
  · obtain ⟨honly, hval, hcell⟩ := State.access_leaves s n (Cell.hostData · false 0)
    obtain ⟨hread, hspd⟩ := Cell.hostData_read 0 ha ho he
    exact ⟨_, (State.cellWin_open hwin _).trans (rdOf _), honly, hval.trans hread, hcell ▸ hspd⟩
  · obtain ⟨honly, -, hcell⟩ := State.access_leaves s n (Cell.hostData · true v.toNat)
    obtain ⟨hspd, hpoison⟩ := Cell.hostData_write v.toNat ha ho
    refine ⟨_, (State.cellWin_open hwin _).trans (wrOf v _), honly, ?_, ?_, hcell ▸ hpoison⟩
    · rw [hcell, hspd]
      exact fun b hb => memByte_memWrite_out _ _ _ _ _ hb
    · rw [hcell, hspd, memRead_memWrite]
      exact Nat.mod_mod _ _
  · obtain ⟨honly, hval, hcell⟩ := State.access_leaves s n (Cell.rsData false 0)
    rw [Cell.rsData_read] at hval hcell
    exact ⟨_, rdOf _, honly, hval, hcell ▸ (Cell.stepOn_routes ..).trans (Cell.wr_routes ..)⟩
  · obtain ⟨honly, -, hcell⟩ := State.access_leaves s n (Cell.rsData true v.toNat)
    rw [Cell.rsData_write] at hcell
    refine ⟨_, wrOf v _, honly, fun hidle => ?_, fun hbusy => ?_⟩
    · unfold Cell.route
      rw [hcell, Cell.stepOn_routes, show Cell.rsWritten _ _ = _ from if_pos hidle]
      exact (congrArg BitVec.toNat (fget_fset_same ..)).trans (by simp)
    · rw [hcell, Cell.stepOn_routes, Cell.rd_stepOn_ne _ _ _ (by decide), show Cell.rsWritten _ _ = _ from if_neg hbusy]
      exact ⟨Cell.wr_routes .., Cell.rd_wr_self ..⟩

end Sys2Proof.Machine

/-! PROOF. Freeze, scans and the end of a MAC operation: O48. -/

namespace Sys2Proof.Machine
open Sys2Proof

/-! ### A change of every context in turn -/

theorem Cell.ctx_foldl_of_notMem {f : Cell → Nat → Cell} {k : Nat} {l : List Nat}
    (hother : ∀ d, ∀ j ∈ l, j ≠ k → (f d j).ctx k = d.ctx k) (hk : k ∉ l) (c : Cell) : (l.foldl f c).ctx k = c.ctx k := by
  refine List.foldlRecOn l f (motive := fun d => d.ctx k = c.ctx k) rfl fun d hd j hj => ?_
  exact (hother d j hj fun h => hk (h ▸ hj)).trans hd

/-- A step for each context that touches that context only: the context after them all is as its own step leaves it. -/
theorem Cell.ctx_foldl {f : Cell → Nat → Cell} {k : Nat} {y : Ctx} (Inv : Cell → Prop) {l : List Nat}
    (hinv : ∀ d, ∀ j ∈ l, j ≠ k → Inv d → Inv (f d j)) (hother : ∀ d, ∀ j ∈ l, j ≠ k → (f d j).ctx k = d.ctx k)
    (hl : l.Nodup) (hk : k ∈ l) {c : Cell} (h0 : Inv c) (hself : ∀ d, Inv d → d.ctx k = c.ctx k → (f d k).ctx k = y) :
    (l.foldl f c).ctx k = y := by
  induction l generalizing c with
  | nil => exact absurd hk List.not_mem_nil
  | cons j l ih =>
    obtain ⟨hj, hl⟩ := List.nodup_cons.mp hl
    have htail : ∀ d, ∀ i ∈ l, i ≠ k → (f d i).ctx k = d.ctx k := fun d i hi => hother d i (List.mem_cons_of_mem j hi)
    rw [List.foldl_cons]
    by_cases hjk : j = k
    · subst hjk
      exact (Cell.ctx_foldl_of_notMem htail hj _).trans (hself c h0 rfl)
    · have hkeep := hother c j List.mem_cons_self hjk
      exact ih (fun d i hi => hinv d i (List.mem_cons_of_mem j hi)) htail hl ((List.mem_cons.mp hk).resolve_left (Ne.symm hjk))
        (hinv c j List.mem_cons_self hjk h0) fun d hd hctx => hself d hd (hctx.trans hkeep)

theorem lt_of_mem_contexts {j : Nat} (hj : j ∈ [0, 1, 2, 3]) : j < 4 := by
  simp only [List.mem_cons, List.not_mem_nil, or_false] at hj
  omega

theorem mem_contexts {j : Nat} (hj : j < 4) : j ∈ [0, 1, 2, 3] := by
  simp only [List.mem_cons, List.not_mem_nil, or_false]
  omega

/-- The value at a key uses the default at that key only. -/
theorem fget_default {α : Type} {d d' : Nat → α} {k : Nat} (h : d k = d' k) (m : FMap α) : fget d m k = fget d' m k := by
  induction m with
  | nil => exact h
  | cons e m ih => exact if_congr Iff.rfl rfl ih

/-! ### FREEZE (03 R82) -/

/-- A cell outside a slab operation breaks none. -/
theorem State.breakSlab_none {s : State} {n : Nat} (h : (s.cell n).flag CELL_MAC_STATUS_SLAB_HELD = false) : s.breakSlab n = s := by
  have : slabBroken (s.env n) s.phys n s.cells = s.cells := if_pos (by rw [show (cget s.cells n).flag _ = _ from h]; rfl)
  unfold State.breakSlab
  rw [this]

section
variable (c : Cell) (late : Nat)

theorem Cell.freezeWrite_set : c.freezeWrite true = c.wr CELL_CTRL_FREEZE 1 := by
  simp only [Cell.freezeWrite, b2n, if_true]

theorem Cell.freezeWrite_clear : c.freezeWrite false = { c.wr CELL_CTRL_FREEZE 0 with frozen := false } := by
  simp only [Cell.freezeWrite, b2n, Bool.false_eq_true, if_false]

theorem Cell.rd_freezeWrite (v : Bool) : (c.freezeWrite v).rd CELL_CTRL_FREEZE = b2n v := by
  cases v with
  | false =>
    rw [Cell.freezeWrite_clear]
    exact Cell.rd_wr_self c CELL_CTRL_FREEZE 0
  | true =>
    rw [Cell.freezeWrite_set]
    exact Cell.rd_wr_self c CELL_CTRL_FREEZE 1

/-- A context whose instruction is late gets back the registers it held before it. -/
def Cell.abandonLate (j : Nat) : Cell := if bit late j then c.modCtx j (Ctx.abandon (fget c.ctx c.undo j)) else c

theorem Cell.freezeComplete_frozen (h : c.rd CELL_CTRL_FREEZE = 1) :
    c.freezeComplete late = [0, 1, 2, 3].foldl (Cell.abandonLate · late) { c with frozen := true } := if_pos h

theorem Cell.abandonLate_eq (j : Nat) : ∃ xs, c.abandonLate late j = { c with ctxs := xs } := by
  unfold Cell.abandonLate
  split
  · exact ⟨_, rfl⟩
  · exact ⟨c.ctxs, rfl⟩

theorem Cell.ctx_abandonLate (j k : Nat) : (c.abandonLate late j).ctx k =
    if k = j ∧ bit late j = true then Ctx.abandon (fget c.ctx c.undo j) (c.ctx j) else c.ctx k := by
  unfold Cell.abandonLate
  by_cases hb : bit late j = true
  · rw [if_pos hb, Cell.ctx_modCtx]
    exact if_congr (and_iff_left hb).symm rfl rfl
  · rw [if_neg hb, if_neg fun h => hb h.2]

variable {c} in
/-- What FREEZE_COMPLETE makes of a cell with FREEZE set. -/
theorem Cell.freezeComplete_leaves (h : c.rd CELL_CTRL_FREEZE = 1) :
    let d := c.freezeComplete late
    d.frozen = true ∧ d.spd = c.spd ∧
      ∀ j < 4, d.ctx j = if bit late j then Ctx.abandon (fget c.ctx c.undo j) (c.ctx j) else c.ctx j := by
  intro d
  have hd := Cell.freezeComplete_frozen c late h
  have hfold : ∃ xs, d = { c with frozen := true, ctxs := xs } := by
    rw [show d = _ from hd]
    refine List.foldlRecOn _ _ (motive := fun d : Cell => ∃ xs, d = { c with frozen := true, ctxs := xs }) ⟨c.ctxs, rfl⟩ fun d hd j _ => ?_
    obtain ⟨xs, rfl⟩ := hd
    exact Cell.abandonLate_eq _ late j
  obtain ⟨xs, hxs⟩ := hfold
  refine ⟨by rw [hxs], by rw [hxs], fun j hj => ?_⟩
  rw [show d = _ from hd]
  refine Cell.ctx_foldl (fun d => d.undo = c.undo) (fun d i _ _ hu => ?_) (fun d i _ hi => ?_) (by decide) (mem_contexts hj) rfl fun d hu hctx => ?_
  · obtain ⟨xs, h⟩ := Cell.abandonLate_eq d late i
    rw [h]
    exact hu
  · rw [Cell.ctx_abandonLate, if_neg fun h => hi h.1.symm]
  · have hctx : d.ctx j = c.ctx j := hctx
    rw [Cell.ctx_abandonLate, hu, fget_default hctx, hctx]
    exact if_congr (and_iff_right rfl) rfl rfl

end

/-! ### A flag that is set on a condition -/

theorem Cell.setIf_eq (c : Cell) (f : Fld) (b : Bool) : ∃ m, c.setIf f b = { c with regs := m } := by
  unfold Cell.setIf
  split
  · exact ⟨_, rfl⟩
  · exact ⟨c.regs, rfl⟩

theorem Cell.rd_setIf_ne (c : Cell) {f g : Fld} (b : Bool) (h : g.key ≠ f.key) : (c.setIf f b).rd g = c.rd g := by
  unfold Cell.setIf
  split
  · exact Cell.rd_wr_ne c _ h
  · rfl

@[simp] theorem Cell.setIf_ctxs (c : Cell) (f : Fld) (b : Bool) : (c.setIf f b).ctxs = c.ctxs := by
  obtain ⟨m, h⟩ := c.setIf_eq f b
  rw [h]

@[simp] theorem Cell.setIf_spd (c : Cell) (f : Fld) (b : Bool) : (c.setIf f b).spd = c.spd := by
  obtain ⟨m, h⟩ := c.setIf_eq f b
  rw [h]

/-! ### GO of a scan (03 R81) -/

/-- A cell with its scan registers as a write of CELL_SCAN_CTRL leaves them. -/
def Cell.scanSet (v : Nat) (c : Cell) : Cell :=
  ((c.wr CELL_SCAN_CTRL_SECTIONS (bits v 27 16)).wr CELL_SCAN_CTRL_DEST (bits v 3 2)).wr CELL_SCAN_CTRL_DIR (bits v 1 1)

/-- Frozen and isolated. -/
def Cell.shut (d : Cell) : Prop := d.frozen = true ∧ d.flag CELL_CTRL_ISOLATE = true

theorem bits_mod (v hi lo : Nat) : bits v hi lo % 2 ^ (hi + 1 - lo) = bits v hi lo := Nat.mod_mod _ _

theorem bits_one (v i : Nat) : bits v i i = b2n (bit v i) := by
  unfold bits bit b2n
  rw [Nat.add_sub_cancel_left, Nat.shiftRight_eq_div_pow, Nat.testBit_eq_decide_div_mod_eq, Nat.pow_one]
  have : v / 2 ^ i % 2 < 2 := Nat.mod_lt _ (by decide)
  by_cases h : v / 2 ^ i % 2 = 1
  · simp [h]
  · simp [h]
    omega

section
variable (v : Nat) (c : Cell)

theorem Cell.scanSet_sections : (c.scanSet v).rd CELL_SCAN_CTRL_SECTIONS = bits v 27 16 := by
  unfold Cell.scanSet
  rw [Cell.rd_wr_ne _ _ (by decide), Cell.rd_wr_ne _ _ (by decide), Cell.rd_wr_self]
  exact bits_mod v 27 16

theorem Cell.scanSet_dest : (c.scanSet v).rd CELL_SCAN_CTRL_DEST = bits v 3 2 := by
  unfold Cell.scanSet
  rw [Cell.rd_wr_ne _ _ (by decide), Cell.rd_wr_self]
  exact bits_mod v 3 2

theorem Cell.scanSet_dir : (c.scanSet v).flag CELL_SCAN_CTRL_DIR = bit v 1 := by
  unfold Cell.scanSet Cell.flag
  rw [Cell.rd_wr_self, show CELL_SCAN_CTRL_DIR.width = 1 from rfl, bits_one]
  cases bit v 1 <;> rfl

theorem Cell.flag_scanSet_isolate : (c.scanSet v).flag CELL_CTRL_ISOLATE = c.flag CELL_CTRL_ISOLATE := by
  unfold Cell.scanSet Cell.flag
  rw [Cell.rd_wr_ne _ _ (by decide), Cell.rd_wr_ne _ _ (by decide), Cell.rd_wr_ne _ _ (by decide)]

theorem Cell.scanSet_eq : ∃ m, c.scanSet v = { c with regs := m } := ⟨_, rfl⟩

end

/-- Sections read while the context's own state does not matter need the cell frozen; the others a quiet context (R81). -/
theorem Cell.scanOk_iff (c east : Cell) : c.scanOk east = true ↔ c.scanning = false ∧ c.rd CELL_SCAN_CTRL_DEST ≠ 3 ∧
    (if c.flag CELL_SCAN_CTRL_DIR = true then c.shut
     else if c.rd CELL_SCAN_CTRL_DEST = 2 then c.shut ∧ east.shut
     else if ([0, 9, 10, 11].any (fun i => bit (c.rd CELL_SCAN_CTRL_SECTIONS) i)) = true then c.frozen = true
     else ∀ i < 8, bit (c.rd CELL_SCAN_CTRL_SECTIONS) (i + 1) = true →
      (c.ctx (i % 4)).state = .off ∨ (c.ctx (i % 4)).state = .halted ∨ (c.ctx (i % 4)).state = .faulted) := by
  unfold Cell.scanOk
  rw [Bool.and_eq_true, Bool.and_eq_true, Bool.not_eq_true', bne_iff_ne, and_assoc]
  refine and_congr Iff.rfl (and_congr Iff.rfl ?_)
  split_ifs
  · exact Bool.and_eq_true _ _ ▸ Iff.rfl
  · simp only [Bool.and_eq_true, Cell.shut]
  · exact Iff.rfl
  · simp only [List.all_eq_true, List.mem_range, Bool.or_eq_true, Bool.not_eq_true', beq_iff_eq, or_assoc]
    exact forall₂_congr fun i _ => by cases bit (c.rd CELL_SCAN_CTRL_SECTIONS) (i + 1) <;> simp

section
variable {c : Cell} {v now : Nat} {e : Env} {east : Cell}

/-- The cell after a write of CELL_SCAN_CTRL with GO. -/
def Cell.scanWrite (e : Env) (now v : Nat) (c east : Cell) : Cell :=
  let d := if c.scanning then c else c.scanSet v
  { d.scanGo e east with scanStart := if d.scanning then d.scanStart else now }

theorem execScanGo_eq {s : State} {n : Nat} {v : W64} (hn : n < cellCount) (hd : fget noMark s.dieHalt (cellDie n) = false)
    (hgo : bit v.toNat 0 = true) : exec (.scanGo n v) s =
      .next (s.modCell n (Cell.scanWrite (s.env n) s.cycle v.toNat · (if cellCol n < 8 then s.cell (n + 1) else {}))) := by
  show execScanGo n v s = _
  unfold execScanGo Cell.scanWrite
  rw [onAnyCell_clocked hn hd]
  simp only [hgo, if_true]
  rfl

/-- A GO that is refused sets REFUSED alone. -/
theorem Cell.scanWrite_refused (h : (if c.scanning then c else c.scanSet v).scanOk east = false) :
    let d := c.scanWrite e now v east
    d.ctxs = c.ctxs ∧ d.spd = c.spd ∧ d.scanning = c.scanning ∧ d.rd CELL_SCAN_STATUS_REFUSED = 1 := by
  have hset : ∃ m, (if c.scanning then c else c.scanSet v) = { c with regs := m } := by
    split
    · exact ⟨c.regs, rfl⟩
    · exact Cell.scanSet_eq v c
  have hgo : (if c.scanning then c else c.scanSet v).scanGo e east = (if c.scanning then c else c.scanSet v).wr CELL_SCAN_STATUS_REFUSED 1 :=
    if_neg (by rw [h]; exact Bool.false_ne_true)
  unfold Cell.scanWrite
  simp only [hgo]
  generalize (if c.scanning then c else c.scanSet v) = d at hset
  obtain ⟨m, rfl⟩ := hset
  exact ⟨rfl, rfl, rfl, Cell.rd_wr_self ({ c with regs := m } : Cell) CELL_SCAN_STATUS_REFUSED 1⟩

theorem Cell.scanWrite_busy (h : c.scanning = true) : c.scanWrite e now v east = c.wr CELL_SCAN_STATUS_REFUSED 1 := by
  have hno : c.scanOk east = false := Bool.eq_false_iff.mpr fun hok => by
    rw [((Cell.scanOk_iff c east).mp hok).1] at h
    exact Bool.false_ne_true h
  unfold Cell.scanWrite Cell.scanGo
  simp only [h, hno, if_true, Bool.false_eq_true, if_false]
  rfl

/-- The registers of a cell whose scan has started. -/
def Cell.scanOpened (poisoned : Bool) (c : Cell) : Cell :=
  (((c.wr CELL_SCAN_STATUS_BUSY 1).wr CELL_SCAN_STATUS_LINES_DONE 0).wr CELL_SCAN_STATUS_LATE_ARRIVALS 0).setIf CELL_SCAN_STATUS_ERROR poisoned

theorem Cell.rd_scanOpened (p : Bool) (c : Cell) : (c.scanOpened p).rd CELL_SCAN_STATUS_BUSY = 1 := by
  unfold Cell.scanOpened
  rw [Cell.rd_setIf_ne _ _ (by decide), Cell.rd_wr_ne _ _ (by decide), Cell.rd_wr_ne _ _ (by decide), Cell.rd_wr_self]
  rfl

theorem Cell.scanOpened_eq (p : Bool) (c : Cell) : ∃ m, c.scanOpened p = { c with regs := m } := by
  unfold Cell.scanOpened
  obtain ⟨m, h⟩ := (((c.wr CELL_SCAN_STATUS_BUSY 1).wr CELL_SCAN_STATUS_LINES_DONE 0).wr CELL_SCAN_STATUS_LATE_ARRIVALS 0).setIf_eq
    CELL_SCAN_STATUS_ERROR p
  exact ⟨m, h⟩

/-- A GO that is admitted starts the scan; outward it takes the image. -/
theorem Cell.scanWrite_started (hs : c.scanning = false) (h : (c.scanSet v).scanOk east = true) :
    let d := c.scanWrite e now v east
    d.ctxs = c.ctxs ∧ d.spd = c.spd ∧ d.scanning = true ∧ d.scanIn = bit v 1 ∧ d.rd CELL_SCAN_STATUS_BUSY = 1 ∧
      d.scanImg = if bit v 1 then [] else
        ((c.wr CELL_SCAN_CTRL_SECTIONS (bits v 27 16)).wr CELL_SCAN_CTRL_DEST (bits v 3 2) |>.wr CELL_SCAN_CTRL_DIR 0).image e (bits v 27 16) := by
  intro d
  let img := if !(c.scanSet v).flag CELL_SCAN_CTRL_DIR then (c.scanSet v).image e ((c.scanSet v).rd CELL_SCAN_CTRL_SECTIONS) else []
  let opened := (c.scanSet v).scanOpened (img.any (fun l => l.2))
  have hgo : (c.scanSet v).scanGo e east = { opened with scanning := true, scanImg := img, scanIn := !!(c.scanSet v).flag CELL_SCAN_CTRL_DIR } :=
    if_pos h
  have hd : d = { opened with scanning := true, scanImg := img, scanIn := !!(c.scanSet v).flag CELL_SCAN_CTRL_DIR,
                              scanStart := if (c.scanSet v).scanning then (c.scanSet v).scanStart else now } := by
    show Cell.scanWrite e now v c east = _
    unfold Cell.scanWrite
    simp only [hs, Bool.false_eq_true, if_false, hgo]
  have himg : img = if bit v 1 then [] else
      ((c.wr CELL_SCAN_CTRL_SECTIONS (bits v 27 16)).wr CELL_SCAN_CTRL_DEST (bits v 3 2) |>.wr CELL_SCAN_CTRL_DIR 0).image e (bits v 27 16) := by
    simp only [img, Cell.scanSet_dir, Cell.scanSet_sections]
    cases hb : bit v 1 with
    | false => simp only [Cell.scanSet, bits_one, hb, b2n, Bool.not_false, if_true, Bool.false_eq_true, if_false]
    | true => rfl
  obtain ⟨m, hm⟩ := Cell.scanOpened_eq (img.any (fun l => l.2)) (c.scanSet v)
  obtain ⟨m', hm'⟩ := Cell.scanSet_eq v c
  have hopen : opened = { c with regs := m } := by
    rw [show opened = _ from hm, hm']
  have hbusy : opened.rd CELL_SCAN_STATUS_BUSY = 1 := Cell.rd_scanOpened ..
  rw [hd]
  generalize opened = o at hopen hbusy ⊢
  refine ⟨by rw [hopen], by rw [hopen], rfl, ?_, hbusy, himg⟩
  rw [Bool.not_not]
  exact Cell.scanSet_dir v c

end

/-! ### The end of a scan (03 R79, R80) -/

theorem Cell.scanEnd_leaves (c : Cell) (lines : Nat) : let d := c.scanEnd lines
    d.scanning = false ∧ d.rd CELL_SCAN_STATUS_DONE = 1 ∧ d.rd CELL_SCAN_STATUS_BUSY = 0 := by
  let regs := (((c.wr CELL_SCAN_STATUS_BUSY 0).wr CELL_SCAN_STATUS_DONE 1).wr CELL_SCAN_STATUS_LINES_DONE lines).setIf CELL_FAULT_SCAN_ERR
    (c.flag CELL_SCAN_STATUS_ERROR)
  have hdone : regs.rd CELL_SCAN_STATUS_DONE = 1 := by
    rw [Cell.rd_setIf_ne _ _ (by decide), Cell.rd_wr_ne _ _ (by decide), Cell.rd_wr_self]
    rfl
  have hbusy : regs.rd CELL_SCAN_STATUS_BUSY = 0 := by
    rw [Cell.rd_setIf_ne _ _ (by decide), Cell.rd_wr_ne _ _ (by decide), Cell.rd_wr_ne _ _ (by decide), Cell.rd_wr_self]
    rfl
  unfold Cell.scanEnd
  change ({ regs with scanning := false, scanImg := [] } : Cell).scanning = false ∧ _
  exact ⟨rfl, (Cell.rd_eq_of_regs rfl _).trans hdone, (Cell.rd_eq_of_regs rfl _).trans hbusy⟩

/-- The package as the last line of a scan leaves it: an image for the east neighbour is restored there. -/
def State.scanEast (n : Nat) (s : State) : State :=
  if !(s.cell n).scanIn ∧ (s.cell n).rd CELL_SCAN_CTRL_DEST = 2 ∧ cellCol n < 8 then
    s.modCell (n + 1) (fun d => d.restore none s.tick ((s.cell n).rd CELL_SCAN_CTRL_SECTIONS) (s.cell n).scanImg)
  else s

/-- The cell whose scan is over: an image read in is restored in it. -/
def Cell.scanned (tick : Nat) (img : List Line) (sel : Nat) (c : Cell) : Cell :=
  (if c.scanIn then c.restore (some c) tick sel img else c).scanEnd (imageLines sel)

section
variable {s : State} {n : Nat}

theorem execScanDone_idle (hn : n < cellCount) (hd : fget noMark s.dieHalt (cellDie n) = false)
    (h : (s.cell n).scanning = false ∨ s.scanHeld n = true) : exec (.scanDone n) s = .next s := by
  show execScanDone n s = _
  unfold execScanDone
  rw [onAnyCell_clocked hn hd, if_pos (by rcases h with h | h <;> simp [h])]

theorem execScanDone_eq (hn : n < cellCount) (hd : fget noMark s.dieHalt (cellDie n) = false)
    (hs : (s.cell n).scanning = true) (hh : s.scanHeld n = false) :
    let r := s.scanRest n 512
    exec (.scanDone n) s = .next ((r.scanEast n).modCell n
      (Cell.scanned (r.scanEast n).tick (r.cell n).scanImg ((r.cell n).rd CELL_SCAN_CTRL_SECTIONS))) := by
  show execScanDone n s = _
  unfold execScanDone
  rw [onAnyCell_clocked hn hd, if_neg (by simp [hs, hh])]
  rfl

theorem State.scanRest_none (h0 : (s.cell n).scanLeft 0 = false) (h1 : (s.cell n).scanLeft 1 = false) (k : Nat) : s.scanRest n k = s := by
  cases k with
  | zero => rfl
  | succ k => simp only [State.scanRest, h0, h1, Bool.false_eq_true, if_false]

theorem State.scanEast_eq : ∃ cs, s.scanEast n = { s with cells := cs } := by
  unfold State.scanEast
  split
  · exact ⟨_, rfl⟩
  · exact ⟨s.cells, rfl⟩

theorem State.cell_scanEast (m : Nat) : (s.scanEast n).cell m =
    if m = n + 1 ∧ ((s.cell n).scanIn = false ∧ (s.cell n).rd CELL_SCAN_CTRL_DEST = 2 ∧ cellCol n < 8) then
      (s.cell (n + 1)).restore none s.tick ((s.cell n).rd CELL_SCAN_CTRL_SECTIONS) (s.cell n).scanImg
    else s.cell m := by
  unfold State.scanEast
  simp only [Bool.not_eq_true']
  split_ifs with h1 h2 h2
  · rw [State.cell_modCell, if_pos h2.1]
  · rw [State.cell_modCell, if_neg fun h => h2 ⟨h, h1⟩]
  · exact absurd h2.2 h1
  · rfl

end

/-! ### The end of a MAC operation (04 R123) -/

/-- A wake of the contexts that wait for the block: each is READY at its own instruction. -/
theorem Cell.ctx_wakeMac (c : Cell) {j : Nat} (hj : j < 4) (hs : (c.ctx j).state = .blocked) (hw : (c.ctx j).wait = .mac) :
    c.wakeMac.ctx j = { c.ctx j with state := .ready, wait := .none } := by
  unfold Cell.wakeMac
  refine Cell.ctx_foldl (fun _ => True) (fun _ _ _ _ _ => trivial) (fun d i _ hi => ?_) (by decide) (mem_contexts hj) trivial fun d _ hctx => ?_
  · split
    · rw [Cell.wake, Cell.ctx_modCtx, if_neg (Ne.symm hi)]
    · rfl
  · rw [if_pos (by rw [hctx]; exact ⟨hs, hw⟩), Cell.wake, Cell.ctx_modCtx, if_pos rfl, hctx, if_pos hs]

theorem Cell.macIdle_ctxs (c : Cell) : c.macIdle.ctxs = c.ctxs := by
  unfold Cell.macIdle
  simp only [Cell.wr_ctxs]

/-- The cell as the end of its operation finds it, before the contexts that wait are woken. -/
def Cell.letGo (op : MacOp) (n : Nat) (c : Cell) : Cell := { c.macIdle.dropFeeds n with macOp := some { op with left := true } }

theorem Cell.letGo_ctxs (op : MacOp) (n : Nat) (c : Cell) : (c.letGo op n).ctxs = c.ctxs := by
  unfold Cell.letGo Cell.dropFeeds
  exact c.macIdle_ctxs

theorem Cell.leftMac_eq (op : MacOp) (n : Nat) (c : Cell) : c.leftMac op n = { (c.letGo op n).wakeMac with macOp := none } := rfl

theorem Cell.ctx_leftMac (op : MacOp) (n : Nat) (c : Cell) {j : Nat} (hj : j < 4) (hs : (c.ctx j).state = .blocked)
    (hw : (c.ctx j).wait = .mac) : (c.leftMac op n).ctx j = { c.ctx j with state := .ready, wait := .none } := by
  have hctx : (c.letGo op n).ctx j = c.ctx j := Cell.ctx_eq_of_ctxs (c.letGo_ctxs op n) j
  rw [Cell.leftMac_eq]
  generalize c.letGo op n = d at hctx ⊢
  have hwake := Cell.ctx_wakeMac d hj (by rw [hctx]; exact hs) (by rw [hctx]; exact hw)
  rw [hctx] at hwake
  have hkeep : ({ d.wakeMac with macOp := none } : Cell).ctxs = d.wakeMac.ctxs := rfl
  exact (Cell.ctx_eq_of_ctxs hkeep j).trans hwake

theorem Cell.leftMac_acc (op : MacOp) (n : Nat) (c : Cell) : (c.leftMac op n).acc = c.acc := by
  unfold Cell.leftMac
  obtain ⟨xs, hx⟩ := ({ c.macIdle.dropFeeds n with macOp := some { op with left := true } } : Cell).wakeMac_eq
  rw [hx]
  rfl

theorem Cell.rd_leftMac_busy (op : MacOp) (n : Nat) (c : Cell) : (c.leftMac op n).rd CELL_MAC_STATUS_BUSY = 0 := by
  rw [Cell.rd_leftMac, Cell.rd_wr_ne _ _ (by decide), Cell.rd_wr_ne _ _ (by decide), Cell.rd_wr_self]
  rfl

/-- Nothing of an operation that has ended is left to compute. -/
theorem macUpTo_ended (e : Env) (ph : Nat → Nat) (n now tau : Nat) (port : Option Nat) (k : Nat) {cs : Cells} {op : MacOp}
    (hop : (cget cs n).macOp = some op) (hended : op.ended = true) : macUpTo e ph n now tau port k cs = cs := by
  cases k with
  | zero => rfl
  | succ k =>
    unfold macUpTo
    simp only [hop, hended, if_true]

theorem cget_macComplete_ended (e : Env) (ph : Nat → Nat) (now : Nat) {n : Nat} {cs : Cells} {op : MacOp}
    (hop : (cget cs n).macOp = some op) (hended : op.ended = true) (hleft : op.left = false) (hd : (cget cs n).drain = [])
    (hfreeze : (cget cs n).flag CELL_CTRL_FREEZE = false) (hslab : (cget cs n).flag CELL_SLAB_CFG_ENABLE = false)
    (harb : (cget cs n).arbWait = false) (m : Nat) :
    cget (macComplete e ph now n cs) m = if m = n then (cget cs n).leftMac op n else cget cs m := by
  unfold macComplete
  simp only [hfreeze, Bool.false_eq_true, if_false, hop, macUpTo_ended _ _ _ _ _ _ _ hop hended, harb, hleft, hended, Bool.or_self,
    Bool.not_true, opSlab_solo ph _ _ hslab]
  exact cget_macLeaves_solo e op hd m

/-- A write to the window of a cell without clocks or behind a fence is ignored (03 R77). -/
theorem onWin_shut {s : State} {n : Nat} (hn : n < cellCount) (h : s.fused n = true ∨ s.cellFenced n = true) (f : State → State) :
    s.onWin n f = .next s := by
  unfold State.onWin State.onCell
  by_cases hp : s.powered n = true
  · have hfused : s.fused n ≠ true := fun hfu => by simp [State.powered, hfu] at hp
    rw [if_pos hn, if_pos hp]
    exact congrArg Host.Outcome.next (if_pos (h.resolve_left hfused))
  · rw [if_pos hn, if_neg hp]

/-- Settles O48: each command's effect on its cell, by the flags and the scan that it finds. -/
theorem freezeScanAndMacEnd : Obligations.FreezeScanAndMacEnd := by
  intro n s hn hd c
  have any (f : State → State) : s.onAnyCell n f = .next (f s) := onAnyCell_clocked hn hd f
  refine ⟨fun v => ?_, fun late => ?_, ?_, execScanDone_idle hn hd, fun hs hh => ?_,
    fun hfu hfe => ?_, fun h => ?_, fun op hfu hop hended hleft hdrain hfreeze hslab harb => ?_⟩
  · have hexec : exec (.freezeWrite n v) s = .next ((if v then s.breakSlab n else s).modCell n (Cell.freezeWrite v)) :=
      any fun s => (if v then s.breakSlab n else s).modCell n (Cell.freezeWrite v)
    refine ⟨_, hexec, ?_, fun hv hno => ?_, fun hv => ?_⟩
    · rw [(cellIs_modCell n _ _).2]
      exact Cell.rd_freezeWrite ..
    · have hstay : (if v then s.breakSlab n else s) = s := by rw [if_pos hv, State.breakSlab_none hno]
      rw [hstay, hv, ← Cell.freezeWrite_set]
      exact cellIs_modCell n s _
    · have hstay : (if v then s.breakSlab n else s) = s := if_neg (by rw [hv]; exact Bool.false_ne_true)
      rw [hstay, hv, ← Cell.freezeWrite_clear]
      exact cellIs_modCell n s _
  · obtain ⟨honly, hcell⟩ := cellIs_modCell n s (Cell.freezeComplete late.toNat)
    refine ⟨_, any fun s => s.modCell n (Cell.freezeComplete late.toNat), honly, fun hno => ?_, fun hset => ?_⟩
    · rw [hcell]
      exact if_neg hno
    · rw [hcell]
      exact Cell.freezeComplete_leaves late.toNat hset
  · intro v sel dest quiet both admitted hgo
    let east : Cell := if cellCol n < 8 then s.cell (n + 1) else {}
    obtain ⟨honly, hcell⟩ := cellIs_modCell n s (Cell.scanWrite (s.env n) s.cycle v.toNat · east)
    have hadm : admitted ↔ c.scanning = false ∧ (c.scanSet v.toNat).scanOk east = true := by
      rw [Cell.scanOk_iff, Cell.scanSet_dest, Cell.scanSet_dir, Cell.scanSet_sections]
      refine (and_congr_right fun hs => ?_)
      rw [show (c.scanSet v.toNat).scanning = false from hs, and_iff_right rfl]
      simp only [Cell.shut, Cell.flag_scanSet_isolate]
      exact Iff.rfl
    refine ⟨_, execScanGo_eq hn hd hgo, honly, ?_⟩
    rw [hcell]
    have hbusy : c.scanning = true → c.scanWrite (s.env n) s.cycle v.toNat east = c.wr CELL_SCAN_STATUS_REFUSED 1 := Cell.scanWrite_busy
    by_cases ha : admitted
    · obtain ⟨hs, hok⟩ := hadm.mp ha
      obtain ⟨hctxs, hspd, hstart⟩ := Cell.scanWrite_started (now := s.cycle) (e := s.env n) hs hok
      exact ⟨hctxs, hspd, fun _ => hstart, fun hno => absurd ha hno, hbusy⟩
    · have hno : (if c.scanning then c else c.scanSet v.toNat).scanOk east = false := by
        refine Bool.eq_false_iff.mpr fun hok => ha (hadm.mpr ?_)
        cases hs : c.scanning with
        | false => exact ⟨rfl, by rwa [hs] at hok⟩
        | true =>
          rw [hs] at hok
          exact absurd (hs.symm.trans ((Cell.scanOk_iff c east).mp hok).1) (by decide)
      obtain ⟨hctxs, hspd, hrefused⟩ := Cell.scanWrite_refused (now := s.cycle) (e := s.env n) hno
      exact ⟨hctxs, hspd, fun h => absurd h ha, fun _ => hrefused, hbusy⟩
  · obtain ⟨honly, hcell⟩ := cellIs_modCell n ((s.scanRest n 512).scanEast n)
      (Cell.scanned ((s.scanRest n 512).scanEast n).tick ((s.scanRest n 512).cell n).scanImg
        (((s.scanRest n 512).cell n).rd CELL_SCAN_CTRL_SECTIONS))
    obtain ⟨hend, hdone, hbusy⟩ := Cell.scanEnd_leaves (_ : Cell) (imageLines (((s.scanRest n 512).cell n).rd CELL_SCAN_CTRL_SECTIONS))
    refine ⟨_, execScanDone_eq hn hd hs hh, hcell ▸ hend, hcell ▸ hdone, hcell ▸ hbusy, fun h0 h1 => ?_⟩
    rw [State.scanRest_none h0 h1] at honly hcell ⊢
    obtain ⟨cs, heast⟩ := State.scanEast_eq (s := s) (n := n)
    have hself : (s.scanEast n).cell n = c := by rw [State.cell_scanEast, if_neg fun h => absurd h.1 (Nat.ne_add_one n)]
    refine ⟨?_, ?_, fun h => ?_, fun m hm hne => ?_⟩
    · rw [heast]
      rfl
    · rw [hcell, hself, heast]
      rfl
    · rw [honly.2 _ (Nat.succ_ne_self n), State.cell_scanEast, if_pos ⟨rfl, h⟩]
    · rw [honly.2 m hm, State.cell_scanEast, if_neg fun h => hne.elim (· h.1) (· h.2)]
  · have hlive : Live n s := ⟨hn, by simp [State.powered, hd, hfu], hfe⟩
    exact goes_modCell (onWin_live hlive (fun s => s.modCell n Cell.macFlagsRestart)) rfl
  · exact onWin_shut hn h (fun s => s.modCell n Cell.macFlagsRestart)
  · have hp : s.powered n = true := by simp [State.powered, hd, hfu]
    have hcell := cget_macComplete_ended (s.env n) s.phys s.cycle hop hended hleft hdrain hfreeze hslab harb
    refine ⟨_, execMacOpComplete_eq hn hp, ⟨rfl, fun m hm => (hcell m).trans (if_neg hm)⟩, ?_⟩
    have hn' : State.cell { s with cells := macComplete (s.env n) s.phys s.cycle n s.cells } n = c.leftMac op n := (hcell n).trans (if_pos rfl)
    rw [hn']
    refine ⟨Cell.leftMac_macOp .., Cell.leftMac_acc .., Cell.rd_leftMac_busy .., (Cell.sameBlock_leftMac ..).spd, fun j hj hs hw => ?_⟩
    rw [Cell.ctx_leftMac op n c hj hs hw]
    exact ⟨rfl, rfl⟩

end Sys2Proof.Machine

/-! PROOF. The cells of a niche are different cells. -/

namespace Sys2Proof.Machine
open Sys2Proof

/-! ### The cells of a niche are different cells (02 R21, 16 R462) -/

theorem idX_mkId {x : Nat} (y : Nat) (hx : x < 128) : idX (mkId x y) = x := by
  unfold idX mkId
  omega

theorem idY_mkId {x y : Nat} (hx : x < 128) (hy : y < 128) : idY (mkId x y) = y := by
  unfold idY mkId
  omega

/-- The physical column of a logical one: past the fence, one further on. -/
def fenced (f k : Nat) : Nat := if k < f then k else k + 1

theorem fenced_le {f k : Nat} (hk : k < 8) : fenced f k < 9 := by
  unfold fenced
  split <;> omega

theorem fenced_inj {f k l : Nat} (h : fenced f k = fenced f l) : k = l := by
  unfold fenced at h
  split at h <;> split at h <;> omega

/-- The physical cell of place `j` of court `q`. -/
theorem State.phys_place (s : State) {q j : Nat} (hq : q < 144) (hj : j < 64) :
    s.phys (mkId (8 * (q % 12) + j % 8) (8 * (q / 12) + j / 8)) = rowBase q (j / 8) + fenced (s.fence q (j / 8)) (j % 8) := by
  unfold State.phys fenced
  rw [idX_mkId _ (by omega), idY_mkId (by omega) (by omega)]
  have hcourt : 12 * ((8 * (q / 12) + j / 8) / 8) + (8 * (q % 12) + j % 8) / 8 = q := by omega
  have hrow : (8 * (q / 12) + j / 8) % 8 = j / 8 := by omega
  have hcol : (8 * (q % 12) + j % 8) % 8 = j % 8 := by omega
  simp only [hcourt, hrow, hcol]

/-- The digits of a physical cell number: die, block, row and column. -/
theorem cellNumber_digits {d x y z e u v w : Nat} (hx : x < 36) (hy : y < 8) (hz : z < 9) (hu : u < 36) (hv : v < 8) (hw : w < 9)
    (h : d * 2592 + x * 72 + y * 9 + z = e * 2592 + u * 72 + v * 9 + w) : d = e ∧ x = u ∧ y = v ∧ z = w := by
  omega

/-- The die and the block in it name the court. -/
theorem court_of_dieBlock {p q : Nat} (hd : courtDie p = courtDie q)
    (hb : p / 12 % 6 * 6 + p % 12 % 6 = q / 12 % 6 * 6 + q % 12 % 6) : p = q := by
  unfold courtDie at hd
  have hrow : p / 12 = q / 12 := by omega
  have hcol : p % 12 = q % 12 := by omega
  omega

/-- A physical number names one court, row and column. -/
theorem rowBase_inj {p q r t a b : Nat} (hr : r < 8) (ht : t < 8) (ha : a < 9) (hb : b < 9)
    (h : rowBase p r + a = rowBase q t + b) : p = q ∧ r = t ∧ a = b := by
  obtain ⟨hdie, hblock, hrow, hcol⟩ := cellNumber_digits (x := p / 12 % 6 * 6 + p % 12 % 6) (u := q / 12 % 6 * 6 + q % 12 % 6)
    (by omega) hr ha (by omega) ht hb h
  exact ⟨court_of_dieBlock hdie hblock, hrow, hcol⟩

theorem State.nicheCells_nodup (s : State) (i : Nat) : (s.nicheCells i).Nodup := by
  have hplaces : s.nicheCells i = (s.nicheCourts i).flatMap (fun q => (List.range 64).map
      (fun j => s.phys (mkId (8 * (q % 12) + j % 8) (8 * (q / 12) + j / 8)))) := by
    unfold State.nicheCells State.nicheIds courtIds
    rw [List.map_flatMap]
    simp only [List.map_map, Function.comp_def]
  have hcourt {q : Nat} (hq : q ∈ s.nicheCourts i) : q < 144 := List.mem_range.mp (List.mem_filter.mp hq).1
  have hsame {p q a b : Nat} (hp : p ∈ s.nicheCourts i) (hq : q ∈ s.nicheCourts i) (ha : a < 64) (hb : b < 64)
      (h : s.phys (mkId (8 * (p % 12) + a % 8) (8 * (p / 12) + a / 8)) = s.phys (mkId (8 * (q % 12) + b % 8) (8 * (q / 12) + b / 8))) :
      p = q ∧ a = b := by
    rw [s.phys_place (hcourt hp) ha, s.phys_place (hcourt hq) hb] at h
    obtain ⟨hpq, hrow, hcol⟩ := rowBase_inj (by omega) (by omega) (fenced_le (by omega)) (fenced_le (by omega)) h
    rw [hpq, hrow] at hcol
    have := fenced_inj hcol
    exact ⟨hpq, by omega⟩
  rw [hplaces, List.nodup_flatMap]
  refine ⟨fun q hq => ?_, ?_⟩
  · refine List.Nodup.map_on (fun a ha b hb h => ?_) List.nodup_range
    exact (hsame hq hq (List.mem_range.mp ha) (List.mem_range.mp hb) h).2
  · refine List.Pairwise.imp_of_mem (fun hp hq hne => ?_) (List.nodup_range.filter _)
    refine List.disjoint_left.mpr fun n hn hn' => hne ?_
    obtain ⟨a, ha, rfl⟩ := List.mem_map.mp hn
    obtain ⟨b, hb, h⟩ := List.mem_map.mp hn'
    exact (hsame hp hq (List.mem_range.mp ha) (List.mem_range.mp hb) h.symm).1

end Sys2Proof.Machine

/-! PROOF. What a frame edge and the maquette's take-over make of one cell. -/

namespace Sys2Proof.Machine
open Sys2Proof

/-! ### Fields that a fault leaves alone -/

theorem Cell.rd_wr_arm (c : Cell) {f g : Fld} (v : Nat) (hg : 0x800 ≤ g.off) (hf : f.key < 0x800 * 64) : (c.wr f v).rd g = c.rd g :=
  Cell.rd_wr_ne c v (by unfold Fld.key at hf ⊢; omega)

theorem Cell.rd_recAt (c : Cell) (n : Nat) (g : Fld) : ({ c with recAt := n } : Cell).rd g = c.rd g := rfl
theorem Cell.rd_faults (c : Cell) (l : List FaultRec) (g : Fld) : ({ c with faults := l } : Cell).rd g = c.rd g := rfl

/-- A fault writes registers of the core only. -/
theorem Cell.rd_raise (e : Env) {k : Nat} (hk : k < 4) (code detail pc : Nat) (c : Cell) {g : Fld} (hg : 0x800 ≤ g.off) :
    (c.raise e k code detail pc).rd g = c.rd g := by
  have hcell (c : Cell) (f : Fld) (v : Nat) (hf : f.key < 0x800 * 64) : (c.wr f v).rd g = c.rd g := Cell.rd_wr_arm c v hg hf
  have hctx (c : Cell) (f : Fld) (v : Nat) (hf : f.off < 0x480 ∧ f.lsb < 64) : (c.wr (f.ctx k) v).rd g = c.rd g :=
    hcell c _ v (by simp only [Fld.key, Fld.ctx, Fld.up]; omega)
  unfold Cell.raise
  dsimp only
  rw [Cell.rd_faults, Cell.rd_modCtx]
  split_ifs <;> simp (disch := decide) only [Cell.rd_recAt, hcell, hctx]

theorem Cell.raise_armDue (e : Env) (k code detail pc : Nat) (c : Cell) : (c.raise e k code detail pc).armDue = c.armDue := by
  unfold Cell.raise
  dsimp only
  split_ifs <;> simp only [Cell.modCtx_armDue, Cell.wr_armDue]

/-! ### Schedules at a frame edge (07 R219) -/

theorem Cell.setSched_ctxs (c : Cell) (k st : Nat) : (c.setSched k st).ctxs = c.ctxs := by
  unfold Cell.setSched
  simp only [Cell.wr_ctxs]

theorem Cell.setSched_armDue (c : Cell) (k st : Nat) : (c.setSched k st).armDue = c.armDue := by
  unfold Cell.setSched
  simp only [Cell.wr_armDue]

theorem Cell.sched_setSched (c : Cell) (k st : Nat) : (c.setSched k st).sched k = st % 2 ^ 2 := by
  unfold Cell.setSched Cell.sched
  exact (Cell.rd_wr_ne _ _ (by simp only [Fld.key, Fld.arm, Fld.up, ARM_SCHED_STATUS_STATE, ARM_STATUS_ACTIVE]; omega)).trans (Cell.rd_wr_self ..)

/-- The route schedule of context `k` has no start to come and does not run into the edge. -/
def Cell.Calm (c : Cell) (k : Nat) : Prop :=
  fget z0 c.armDue k = 0 ∧ (c.sched k ≠ 2 ∨ c.rd (ARM_SCHED_CTRL_MODE.arm k) = 2)

theorem Cell.Calm.congr {c d : Cell} {k : Nat} (h : c.Calm k) (hdue : fget z0 d.armDue k = fget z0 c.armDue k)
    (hst : d.sched k = c.sched k) (hmode : d.rd (ARM_SCHED_CTRL_MODE.arm k) = c.rd (ARM_SCHED_CTRL_MODE.arm k)) : d.Calm k := by
  unfold Cell.Calm
  rw [hdue, hst, hmode]
  exact h

/-- The start of an ARMED schedule, set at an edge. -/
def Cell.armAt (e : Env) (k : Nat) (c : Cell) : Cell :=
  { c.setSched k 1 with armDue := fset z0 c.armDue k (e.cycle + c.rd (ARM_SCHED_CTRL_OFFSET.arm k) + 1) }

/-- What a frame edge does to the schedule of one context. -/
def Cell.schedStep (e : Env) (c : Cell) (k : Nat) : Cell :=
  match c.sched k with
  | 2 => if c.rd (ARM_SCHED_CTRL_MODE.arm k) = 2 then c else c.overrun e k
  | 1 =>
    let d := if fget z0 c.armDue k ≠ 0 then c.schedFault e k 0x85 0xFF else c
    if c.flag (ARM_SCHED_CTRL_ENABLE.arm k) && decide (c.rd (ARM_SCHED_CTRL_MODE.arm k) < 2) then d.armAt e k else d
  | 0 => if c.flag (ARM_SCHED_CTRL_ENABLE.arm k) && c.rd (ARM_SCHED_CTRL_MODE.arm k) == 0 then c.armAt e k else c
  | _ => c

theorem Cell.schedEdge_eq (e : Env) (c : Cell) : c.schedEdge e = [0, 1, 2, 3].foldl (Cell.schedStep e) c := rfl

/-- What a change of the schedule of context `k` leaves of the other contexts and their schedules. -/
structure Cell.SchedApart (k : Nat) (c d : Cell) : Prop where
  ctx : ∀ j, j ≠ k → d.ctx j = c.ctx j
  due : ∀ j, j ≠ k → fget z0 d.armDue j = fget z0 c.armDue j
  rd : ∀ (j : Nat) (f : Fld), j ≠ k → 0xC40 ≤ f.off ∧ f.off ≤ 0xC48 ∧ f.lsb < 64 → d.rd (f.arm j) = c.rd (f.arm j)

namespace Cell.SchedApart
variable {k : Nat} {c d : Cell}

theorem refl (c : Cell) : SchedApart k c c := ⟨fun _ _ => rfl, fun _ _ => rfl, fun _ _ _ _ => rfl⟩

theorem trans {b : Cell} (h : SchedApart k b c) (g : SchedApart k c d) : SchedApart k b d :=
  ⟨fun j hj => (g.ctx j hj).trans (h.ctx j hj), fun j hj => (g.due j hj).trans (h.due j hj),
    fun j f hj hf => (g.rd j f hj hf).trans (h.rd j f hj hf)⟩

theorem calm (h : SchedApart k c d) {j : Nat} (hj : j ≠ k) (hc : c.Calm j) : d.Calm j := by
  unfold Cell.Calm Cell.sched
  rw [h.due j hj, h.rd j _ hj (by decide), h.rd j _ hj (by decide)]
  exact hc

/-- A write of a field of the context's own schedule, or of a field before the schedules. -/
theorem wr (c : Cell) {f : Fld} (v : Nat)
    (hf : f.key < 0xC40 * 64 ∨ ∃ g : Fld, f = g.arm k ∧ 0xC40 ≤ g.off ∧ g.off ≤ 0xC48 ∧ g.lsb < 64) : SchedApart k c (c.wr f v) := by
  refine ⟨fun j _ => ?_, fun j _ => ?_, fun j g hj hg => Cell.rd_wr_ne c v ?_⟩
  · exact Cell.ctx_eq_of_ctxs (Cell.wr_ctxs ..) j
  · rw [Cell.wr_armDue]
  · simp only [Fld.key, Fld.arm, Fld.up] at hf ⊢
    rcases hf with hf | ⟨g', rfl, hg'⟩
    · omega
    · dsimp only
      omega

theorem setSched (c : Cell) (st : Nat) : SchedApart k c (c.setSched k st) :=
  (wr c _ (.inr ⟨ARM_SCHED_STATUS_STATE, rfl, by decide⟩)).trans (wr _ _ (.inl (by decide)))

theorem armDue (c : Cell) (v : Nat) : SchedApart k c { c with armDue := fset z0 c.armDue k v } :=
  ⟨fun _ _ => rfl, fun _ hj => fget_fset_ne _ _ _ hj, fun _ _ _ _ => rfl⟩

theorem armAt (e : Env) (c : Cell) : SchedApart k c (c.armAt e k) := by
  have h := (setSched c 1 (k := k)).trans (armDue (c.setSched k 1) (e.cycle + c.rd (ARM_SCHED_CTRL_OFFSET.arm k) + 1))
  rw [c.setSched_armDue k 1] at h
  exact h

theorem raise (e : Env) (hk : k < 4) (code detail pc : Nat) (c : Cell) : SchedApart k c (c.raise e k code detail pc) := by
  refine ⟨fun j hj => ?_, fun j _ => ?_, fun j f _ hf => ?_⟩
  · rw [Cell.ctx_raise, if_neg hj]
  · rw [Cell.raise_armDue]
  · exact Cell.rd_raise e hk _ _ _ c (by simp only [Fld.arm, Fld.up]; omega)

theorem overrun (e : Env) (hk : k < 4) (c : Cell) : SchedApart k c (c.overrun e k) := by
  have hend : SchedApart k c (c.endSched k 3) := ⟨fun _ _ => rfl, fun _ _ => rfl, fun _ _ _ _ => rfl⟩
  exact hend.trans (raise e hk ..)

theorem schedStep (e : Env) (hk : k < 4) (c : Cell) : SchedApart k c (c.schedStep e k) := by
  unfold Cell.schedStep
  split
  · split_ifs
    · exact refl c
    · exact overrun e hk c
  · have hfault : SchedApart k c (if fget z0 c.armDue k ≠ 0 then c.schedFault e k 0x85 0xFF else c) := by
      split_ifs
      · exact raise e hk ..
      · exact refl c
    dsimp only
    generalize (if fget z0 c.armDue k ≠ 0 then c.schedFault e k 0x85 0xFF else c) = d at hfault ⊢
    split_ifs
    · exact hfault.trans (armAt e d)
    · exact hfault
  · split_ifs
    · exact armAt e c
    · exact refl c
  · exact refl c

end Cell.SchedApart

theorem Cell.armAt_ctxs (e : Env) (k : Nat) (c : Cell) : (c.armAt e k).ctxs = c.ctxs := c.setSched_ctxs k 1

/-- An edge leaves the context of a calm schedule as it is. -/
theorem Cell.ctx_schedStep_calm (e : Env) {c : Cell} {k : Nat} (h : c.Calm k) : (c.schedStep e k).ctx k = c.ctx k := by
  have harm : (c.armAt e k).ctx k = c.ctx k := Cell.ctx_eq_of_ctxs (c.armAt_ctxs e k) k
  obtain ⟨hdue, hrun⟩ := h
  unfold Cell.schedStep
  split
  · next hst => rw [if_pos (hrun.resolve_left fun h => h hst)]
  · rw [if_neg (not_not.mpr hdue)]
    dsimp only
    split_ifs
    · exact harm
    · rfl
  · split_ifs
    · exact harm
    · rfl
  · rfl

theorem Cell.ctx_schedEdge (e : Env) {c : Cell} {k : Nat} (hk : k < 4) (h : c.Calm k) : (c.schedEdge e).ctx k = c.ctx k := by
  rw [Cell.schedEdge_eq]
  refine Cell.ctx_foldl (fun d => d.Calm k) (fun d j hj hne hd => ?_) (fun d j hj hne => ?_) (by decide) (mem_contexts hk) h
    fun d hd hctx => (Cell.ctx_schedStep_calm e hd).trans hctx
  · exact (Cell.SchedApart.schedStep e (lt_of_mem_contexts hj) d).calm hne.symm hd
  · exact (Cell.SchedApart.schedStep e (lt_of_mem_contexts hj) d).ctx k hne.symm

/-! ### The maquette takes over a cell (03 R73) -/

/-- A context that does not run, whose schedule is idle with no start to come. -/
def Cell.Stopped (c : Cell) (k : Nat) : Prop :=
  ((c.ctx k).state = .halted ∨ (c.ctx k).state = .off ∨ (c.ctx k).state = .resetting) ∧ fget z0 c.armDue k = 0 ∧ c.sched k = 0

theorem Cell.Stopped.calm {c : Cell} {k : Nat} (h : c.Stopped k) : c.Calm k := ⟨h.2.1, .inl (by rw [h.2.2]; decide)⟩

theorem Cell.SchedApart.stopped {c d : Cell} {k j : Nat} (h : Cell.SchedApart k c d) (hj : j ≠ k) (hc : c.Stopped j) : d.Stopped j := by
  unfold Cell.Stopped Cell.sched
  rw [h.ctx j hj, h.due j hj, h.rd j _ hj (by decide)]
  exact hc

theorem Cell.SchedApart.modCtx (c : Cell) (k : Nat) (f : Ctx → Ctx) : Cell.SchedApart k c (c.modCtx k f) :=
  ⟨fun j hj => by rw [Cell.ctx_modCtx, if_neg hj], fun _ _ => rfl, fun _ _ _ _ => rfl⟩

theorem Cell.SchedApart.haltCtx (c : Cell) (k : Nat) : Cell.SchedApart k c (c.haltCtx k) := by
  unfold Cell.haltCtx
  dsimp only
  split
  · exact modCtx c k _
  · exact modCtx c k _
  · split_ifs
    · exact ⟨fun j hj => by rw [Cell.ctx_modCtx, if_neg hj]; rfl, fun _ _ => rfl, fun _ _ _ _ => rfl⟩
    · exact modCtx c k _
  · exact refl c

theorem Cell.SchedApart.armCut (c : Cell) (k : Nat) : Cell.SchedApart k c (c.armCut k) := by
  have hcalm : Cell.SchedApart k c (c.armCalm k) := ⟨fun _ _ => rfl, fun _ hj => fget_fset_ne z0 c.armDue 0 hj, fun _ _ _ _ => rfl⟩
  have hend (d : Cell) (m : FMap Nat) : Cell.SchedApart k d { d with armEnd := m } := ⟨fun _ _ => rfl, fun _ _ => rfl, fun _ _ _ _ => rfl⟩
  exact (hcalm.trans (setSched (c.armCalm k) 0)).trans (hend _ _)

/-- One of the contexts 0 to 2 stops for the maquette. -/
def Cell.mqStop (c : Cell) (k : Nat) : Cell :=
  (((c.haltCtx k).armCut k).wr (ARM_SCHED_CTRL_ENABLE.arm k) 0).modCtx k (fun x => if x.state = .faulted then { x with state := .halted } else x)

theorem Cell.SchedApart.mqStop (c : Cell) (k : Nat) : Cell.SchedApart k c (c.mqStop k) :=
  (((haltCtx c k).trans (armCut _ k)).trans (wr _ 0 (.inr ⟨ARM_SCHED_CTRL_ENABLE, rfl, by decide⟩))).trans (modCtx _ k _)

theorem Cell.haltCtx_state (c : Cell) (k : Nat) : ((c.haltCtx k).ctx k).state = .halted ∨ ((c.haltCtx k).ctx k).state = .off ∨
    ((c.haltCtx k).ctx k).state = .resetting ∨ ((c.haltCtx k).ctx k).state = .faulted := by
  cases hs : (c.ctx k).state with
  | ready => exact .inl (by rw [Cell.haltCtx_runs (.inl hs), Cell.ctx_modCtx, if_pos rfl])
  | running => exact .inl (by rw [Cell.haltCtx_runs (.inr hs), Cell.ctx_modCtx, if_pos rfl])
  | blocked =>
    by_cases hw : (c.ctx k).wait = .sync
    · exact .inl (Cell.haltCtx_sync_leaves hs hw).1
    · exact .inl (by rw [Cell.haltCtx_blocked hs hw, Cell.ctx_modCtx, if_pos rfl])
  | off => exact .inr (.inl (by rw [Cell.haltCtx_still (.inl hs), hs]))
  | halted => exact .inl (by rw [Cell.haltCtx_still (.inr (.inl hs)), hs])
  | faulted => exact .inr (.inr (.inr (by rw [Cell.haltCtx_still (.inr (.inr (.inl hs))), hs])))
  | resetting => exact .inr (.inr (.inl (by rw [Cell.haltCtx_still (.inr (.inr (.inr hs))), hs])))

theorem Cell.armCut_idle (c : Cell) (k : Nat) : fget z0 (c.armCut k).armDue k = 0 ∧ (c.armCut k).sched k = 0 ∧ (c.armCut k).ctxs = c.ctxs := by
  refine ⟨?_, (c.armCalm k).sched_setSched k 0, (c.armCalm k).setSched_ctxs k 0⟩
  have hdue : (c.armCut k).armDue = (c.armCalm k).armDue := (c.armCalm k).setSched_armDue k 0
  rw [hdue]
  exact fget_fset_same z0 c.armDue k 0

theorem Cell.mqStop_stopped (c : Cell) (k : Nat) : (c.mqStop k).Stopped k := by
  obtain ⟨hdue, hst, hctxs⟩ := (c.haltCtx k).armCut_idle k
  have hstate := c.haltCtx_state k
  have hctx : (((c.haltCtx k).armCut k).wr (ARM_SCHED_CTRL_ENABLE.arm k) 0).ctx k = (c.haltCtx k).ctx k :=
    Cell.ctx_eq_of_ctxs ((Cell.wr_ctxs ..).trans hctxs) k
  have hne : (ARM_SCHED_STATUS_STATE.arm k).key ≠ (ARM_SCHED_CTRL_ENABLE.arm k).key := by
    simp only [Fld.key, Fld.arm, Fld.up, ARM_SCHED_STATUS_STATE, ARM_SCHED_CTRL_ENABLE]
    omega
  refine ⟨?_, ?_, ?_⟩
  · unfold Cell.mqStop
    rw [Cell.ctx_modCtx, if_pos rfl, hctx]
    rcases hstate with h | h | h | h <;> simp [h]
  · unfold Cell.mqStop
    rw [Cell.modCtx_armDue, Cell.wr_armDue]
    exact hdue
  · unfold Cell.mqStop Cell.sched
    rw [Cell.rd_modCtx, Cell.rd_wr_ne _ _ hne]
    exact hst

/-- What a step makes true of its own context and the others' steps keep is true in the end. -/
theorem Cell.foldl_establishes {f : Cell → Nat → Cell} {k : Nat} (P : Cell → Prop) {l : List Nat} (hk : k ∈ l)
    (hself : ∀ d, P (f d k)) (hother : ∀ d, ∀ j ∈ l, j ≠ k → P d → P (f d j)) (c : Cell) : P (l.foldl f c) := by
  induction l generalizing c with
  | nil => exact absurd hk List.not_mem_nil
  | cons j l ih =>
    have htail : ∀ d, ∀ i ∈ l, i ≠ k → P d → P (f d i) := fun d i hi => hother d i (List.mem_cons_of_mem j hi)
    rw [List.foldl_cons]
    by_cases hkl : k ∈ l
    · exact ih hkl htail _
    · have hj : k = j := (List.mem_cons.mp hk).resolve_right hkl
      refine List.foldlRecOn l f (motive := P) (hj ▸ hself c) fun d hd i hi => htail d i hi (fun h => hkl (h ▸ hi)) hd

/-- The maquette's own context and schedule, once contexts 0 to 2 are stopped. -/
def Cell.mqArm (c : Cell) : Cell :=
  ((c.wr (CTX_CONFIG_PRIO.ctx 3) 0).armEnable 3 true).modCtx 3 (fun x => { x with state := .ready, wait := .none, stepping := false })

theorem Cell.mqTake_eq (c : Cell) : c.mqTake = ([0, 1, 2].foldl Cell.mqStop c).mqArm := rfl

theorem Cell.SchedApart.armEnable (c : Cell) (k : Nat) : Cell.SchedApart k c (c.armEnable k true) := by
  have hw : Cell.SchedApart k c (c.wr (ARM_SCHED_CTRL_ENABLE.arm k) (b2n true)) := wr c _ (.inr ⟨ARM_SCHED_CTRL_ENABLE, rfl, by decide⟩)
  unfold Cell.armEnable
  dsimp only
  rw [if_pos rfl]
  split_ifs
  · exact hw.trans (setSched _ 1)
  · exact hw

theorem Cell.SchedApart.mqArm (c : Cell) : Cell.SchedApart 3 c c.mqArm :=
  ((wr c 0 (.inl (by decide))).trans (armEnable _ 3)).trans (modCtx _ 3 _)

theorem Cell.armEnable_calm {c : Cell} {k : Nat} (h : c.Calm k) : (c.armEnable k true).Calm k := by
  have hen : (c.wr (ARM_SCHED_CTRL_ENABLE.arm k) (b2n true)).Calm k := by
    refine h.congr (by rw [Cell.wr_armDue]) (Cell.rd_wr_ne c _ ?_) (Cell.rd_wr_ne c _ ?_) <;>
      simp only [Fld.key, Fld.arm, Fld.up, ARM_SCHED_STATUS_STATE, ARM_SCHED_CTRL_MODE, ARM_SCHED_CTRL_ENABLE] <;> omega
  unfold Cell.armEnable
  dsimp only
  rw [if_pos rfl]
  generalize c.wr (ARM_SCHED_CTRL_ENABLE.arm k) (b2n true) = d at hen ⊢
  split_ifs
  · refine ⟨?_, .inl ?_⟩
    · rw [d.setSched_armDue k 1]
      exact hen.1
    · rw [d.sched_setSched k 1]
      decide
  · exact hen

/-- After the take-over contexts 0 to 2 are stopped and context 3 is READY; its schedule is calm where it was. -/
theorem Cell.mqTake_leaves (c : Cell) :
    (∀ k < 3, c.mqTake.Stopped k) ∧ (c.mqTake.ctx 3).state = .ready ∧ (c.Calm 3 → c.mqTake.Calm 3) := by
  rw [Cell.mqTake_eq]
  refine ⟨fun k hk => ?_, ?_, fun h => ?_⟩
  · refine (Cell.SchedApart.mqArm _).stopped (by omega) ?_
    refine Cell.foldl_establishes (fun d => d.Stopped k) (by simp; omega) (Cell.mqStop_stopped · k) (fun d j _ hj hd => ?_) c
    exact (Cell.SchedApart.mqStop d j).stopped hj.symm hd
  · unfold Cell.mqArm
    rw [Cell.ctx_modCtx, if_pos rfl]
  · have hstop : ([0, 1, 2].foldl Cell.mqStop c).Calm 3 := by
      refine List.foldlRecOn [0, 1, 2] Cell.mqStop (motive := fun d => d.Calm 3) h fun d hd j hj => ?_
      exact (Cell.SchedApart.mqStop d j).calm (by rintro rfl; simp at hj) hd
    generalize [0, 1, 2].foldl Cell.mqStop c = d at hstop ⊢
    have hprio : (d.wr (CTX_CONFIG_PRIO.ctx 3) 0).Calm 3 :=
      (Cell.SchedApart.wr (k := 0) d 0 (.inl (by decide))).calm (by decide) hstop
    exact Cell.armEnable_calm hprio

/-! ### A cell sees the edge (13 R390, 17 R486) -/

/-- A context that waits for the edge goes on. -/
def Ctx.seesEdge (x : Ctx) : Ctx :=
  if x.state = .blocked ∧ x.wait = .time ∧ x.waitEdge then
    if x.stepping then { x with state := .halted, wait := .none, stepping := false, stepDone := true }
    else { x with state := .ready, wait := .none }
  else x

theorem Cell.ctx_edgeWake (c : Cell) {k : Nat} (hk : k < 4) : c.edgeWake.ctx k = (c.ctx k).seesEdge := by
  unfold Cell.edgeWake
  refine Cell.ctx_foldl (fun _ => True) (fun _ _ _ _ _ => trivial) (fun d j _ hj => ?_) (by decide) (mem_contexts hk) trivial
    fun d _ hctx => ?_
  · split_ifs
    · rw [Cell.wakeDone, Cell.ctx_modCtx, if_neg hj.symm]
    · rfl
  · unfold Ctx.seesEdge
    rw [← hctx]
    split_ifs
    · rw [Cell.wakeDone, Cell.ctx_modCtx, if_pos rfl, if_pos ‹_›]
    · rw [Cell.wakeDone, Cell.ctx_modCtx, if_pos rfl, if_neg ‹_›]
    · rfl

theorem Cell.ctx_watchRestart (c : Cell) {k : Nat} (hk : k < 4) : c.watchRestart.ctx k = { c.ctx k with watch := 0 } := by
  unfold Cell.watchRestart
  rw [Cell.ctx_foldl_modCtx (fun _ x => { x with watch := 0 }) _ (by decide), if_pos (mem_contexts hk)]

theorem Cell.ctx_frameEdge (e : Env) (fused mq : Bool) (c : Cell) {k : Nat} (hk : k < 4) :
    (c.frameEdge e fused mq).ctx k = { ((((if mq && !fused then c.mqTake else c).schedEdge e).ctx k).seesEdge) with watch := 0 } := by
  have hkeep (d : Cell) (m : FMap Nat) : ({ d with armDue := m, bktBad := [] } : Cell).ctx k = d.ctx k := rfl
  unfold Cell.frameEdge
  dsimp only
  rw [Cell.ctx_watchRestart _ hk, Cell.ctx_edgeWake _ hk, hkeep]

theorem Cell.frameEdge_bktBad (e : Env) (fused mq : Bool) (c : Cell) : (c.frameEdge e fused mq).bktBad = [] := by
  have hwake (d : Cell) : ∃ xs, d.edgeWake = { d with ctxs := xs } := by
    unfold Cell.edgeWake
    refine List.foldlRecOn _ _ (motive := fun d' : Cell => ∃ xs, d' = { d with ctxs := xs }) ⟨d.ctxs, rfl⟩ fun d' hd j _ => ?_
    obtain ⟨xs, rfl⟩ := hd
    split
    · exact ⟨_, rfl⟩
    · exact ⟨xs, rfl⟩
  have hwatch (d : Cell) : ∃ xs, d.watchRestart = { d with ctxs := xs } := ⟨_, rfl⟩
  unfold Cell.frameEdge
  obtain ⟨xs, hxs⟩ := hwatch _
  obtain ⟨ys, hys⟩ := hwake _
  rw [hxs, hys]

/-- A context that waits for the edge is READY after it where its schedule is calm. -/
theorem Cell.frameEdge_wakes (e : Env) (fused : Bool) {c : Cell} {k : Nat} (hk : k < 4) (hc : c.Calm k)
    (hs : (c.ctx k).state = .blocked) (hw : (c.ctx k).wait = .time) (he : (c.ctx k).waitEdge = true) (hstep : (c.ctx k).stepping = false) :
    ((c.frameEdge e fused false).ctx k).state = .ready := by
  rw [Cell.ctx_frameEdge e fused false c hk, Bool.false_and, if_neg Bool.false_ne_true, Cell.ctx_schedEdge e hk hc]
  simp [Ctx.seesEdge, hs, hw, he, hstep]

theorem Ctx.seesEdge_running {x : Ctx} (h : x.state ≠ .blocked) : x.seesEdge = x := if_neg fun hb => h hb.1

/-- The maquette's edge in a cell: context 3 goes on where its schedule is calm, contexts 0 to 2 are stopped. -/
theorem Cell.frameEdge_takes (e : Env) (c : Cell) :
    (c.Calm 3 → ((c.frameEdge e false true).ctx 3).state = .ready) ∧ ∀ k < 3, ((c.frameEdge e false true).ctx k).state = .halted ∨
      ((c.frameEdge e false true).ctx k).state = .off ∨ ((c.frameEdge e false true).ctx k).state = .resetting := by
  obtain ⟨hstop, hready, hcalm⟩ := c.mqTake_leaves
  refine ⟨fun h => ?_, fun k hk => ?_⟩
  · rw [Cell.ctx_frameEdge e false true c (by decide)]
    simp only [Bool.not_false, Bool.and_self, if_true]
    rw [Cell.ctx_schedEdge e (by decide) (hcalm h), Ctx.seesEdge_running (by rw [hready]; decide)]
    exact hready
  · obtain ⟨hstate, -⟩ := hstop k hk
    rw [Cell.ctx_frameEdge e false true c (by omega)]
    simp only [Bool.not_false, Bool.and_self, if_true]
    rw [Cell.ctx_schedEdge e (by omega) (hstop k hk).calm, Ctx.seesEdge_running (by rcases hstate with h | h | h <;> rw [h] <;> decide)]
    exact hstate

end Sys2Proof.Machine

/-! PROOF. Frames start and are seen: O3. -/

namespace Sys2Proof.Machine
open Sys2Proof

/-! ### Niches and courts changed in turn -/

theorem State.niche_modNiche (s : State) (i : Nat) (f : Niche → Niche) (j : Nat) :
    (s.modNiche i f).niche j = if j = i then f (s.niche i) else s.niche j := fget_fset ..

theorem State.modCourts_eq (s : State) (qs : List Nat) (f : Court → Court) : ∃ cs, s.modCourts qs f = { s with courts := cs } := by
  unfold State.modCourts
  refine List.foldlRecOn qs _ (motive := fun t : State => ∃ cs, t = { s with courts := cs }) ⟨s.courts, rfl⟩ fun t ht q _ => ?_
  obtain ⟨cs, rfl⟩ := ht
  exact ⟨_, rfl⟩

theorem State.court_modCourts (f : Court → Court) {qs : List Nat} (hq : qs.Nodup) (s : State) (p : Nat) :
    (s.modCourts qs f).court p = if p ∈ qs then f (s.court p) else s.court p := by
  unfold State.modCourts
  induction qs generalizing s with
  | nil => simp
  | cons q qs ih =>
    obtain ⟨hnot, hqs⟩ := List.nodup_cons.mp hq
    rw [List.foldl_cons, ih hqs, State.court_modCourt]
    by_cases h : p = q
    · subst h
      simp [hnot]
    · simp [h]

/-! ### Every cell of a niche sees the edge (13 R390) -/

/-- From `s` to `t` the cells of a list see an edge; besides them only records for the logs are new, and none without a poisoned
bucket line. -/
structure CellsSee (mq : Bool) (ns : List Nat) (s t : State) : Prop where
  frame : t = { s with cells := t.cells, events := t.events }
  cell : ∀ m, t.cell m = if m ∈ ns then (s.cell m).frameEdge (s.env m) (s.fused m) mq else s.cell m
  quiet : (∀ n ∈ ns, (s.cell n).bktBad = []) → t.events = s.events

theorem State.bucketPoison_eq (s : State) (i n b k : Nat) : ∃ ev, s.bucketPoison i n b k = { s with events := ev } := ⟨_, rfl⟩

theorem State.events_foldl {f : State → Nat → State} (hf : ∀ s k, ∃ ev, f s k = { s with events := ev }) (l : List Nat) (t : State) :
    ∃ ev, l.foldl f t = { t with events := ev } := by
  refine List.foldlRecOn l f (motive := fun u : State => ∃ ev, u = { t with events := ev }) ⟨t.events, rfl⟩ fun u hu k _ => ?_
  obtain ⟨ev, rfl⟩ := hu
  exact hf _ k

theorem State.modCell_withEvents (s : State) (n : Nat) (g : Cell → Cell) (ev : FMap (List FaultRec)) :
    let t : State := { s.modCell n g with events := ev }
    t = { s with cells := t.cells, events := ev } ∧ ∀ m, t.cell m = if m ∈ [n] then g (s.cell m) else s.cell m := by
  refine ⟨rfl, fun m => (State.cell_modCell s n g m).trans ?_⟩
  by_cases hm : m = n
  · subst hm
    rw [if_pos rfl, if_pos (List.mem_singleton.mpr rfl)]
  · rw [if_neg hm, if_neg fun h => hm (List.mem_singleton.mp h)]

theorem State.modCell_sameEvents (s : State) (n : Nat) (g : Cell → Cell) :
    s.modCell n g = { s.modCell n g with events := s.events } := rfl

theorem State.cellEdge_eq (i b : Nat) (mq : Bool) (s : State) (n : Nat) :
    ∃ ev, s.cellEdge i b mq n = { s.modCell n (Cell.frameEdge (s.env n) (s.fused n) mq) with events := ev } ∧
      ((s.cell n).bktBad = [] → ev = s.events) := by
  unfold State.cellEdge
  by_cases hbad : (s.cell n).bktBad = []
  · rw [hbad]
    exact ⟨s.events, s.modCell_sameEvents n _, fun _ => rfl⟩
  · obtain ⟨ev, hev⟩ := State.events_foldl (fun s k => State.bucketPoison_eq s i n b k) (s.cell n).bktBad
      (s.modCell n (Cell.frameEdge (s.env n) (s.fused n) mq))
    exact ⟨ev, hev, fun h => absurd h hbad⟩

theorem CellsSee.cellEdge (i b : Nat) (mq : Bool) (s : State) (n : Nat) : CellsSee mq [n] s (s.cellEdge i b mq n) := by
  obtain ⟨ev, h, hev⟩ := s.cellEdge_eq i b mq n
  obtain ⟨hframe, hcell⟩ := s.modCell_withEvents n (Cell.frameEdge (s.env n) (s.fused n) mq) ev
  rw [← h] at hframe hcell
  have hevents : (s.cellEdge i b mq n).events = ev := congrArg State.events h
  refine ⟨hframe.trans (by rw [hevents]), fun m => (hcell m).trans ?_, fun hq => hevents.trans (hev (hq n (List.mem_singleton.mpr rfl)))⟩
  split
  · next hm => rw [List.mem_singleton.mp hm]
  · rfl

section
variable {mq : Bool} {ns : List Nat} {s t : State}

theorem CellsSee.env (h : CellsSee mq ns s t) (m : Nat) : t.env m = s.env m := (congrArg (State.env · m) h.frame).trans rfl
theorem CellsSee.fused (h : CellsSee mq ns s t) (m : Nat) : t.fused m = s.fused m := (congrArg (State.fused · m) h.frame).trans rfl

theorem CellsSee.cons {n : Nat} {u : State} (hn : n ∉ ns) (h : CellsSee mq [n] s t) (g : CellsSee mq ns t u) : CellsSee mq (n :: ns) s u := by
  have hother {m : Nat} (hm : m ≠ n) : t.cell m = s.cell m := (h.cell m).trans (if_neg fun h => hm (List.mem_singleton.mp h))
  refine ⟨g.frame.trans ?_, fun m => ?_, fun hq => ?_⟩
  · rw [h.frame]
  · by_cases hm : m = n
    · subst hm
      rw [g.cell, if_neg hn, h.cell, if_pos (List.mem_singleton.mpr rfl), if_pos List.mem_cons_self]
    · rw [g.cell, h.env, h.fused, hother hm]
      exact if_congr (by simp [hm]) rfl rfl
  · refine (g.quiet fun m hm => ?_).trans (h.quiet fun m hm => hq m ?_)
    · rw [hother fun h => hn (h ▸ hm)]
      exact hq m (List.mem_cons_of_mem n hm)
    · exact List.mem_singleton.mp hm ▸ List.mem_cons_self

end

theorem cellsSee_foldl (i b : Nat) (mq : Bool) {ns : List Nat} (hns : ns.Nodup) (s : State) :
    CellsSee mq ns s (ns.foldl (State.cellEdge i b mq) s) := by
  induction ns generalizing s with
  | nil => exact ⟨rfl, fun _ => rfl, fun _ => rfl⟩
  | cons n ns ih =>
    obtain ⟨hn, hns⟩ := List.nodup_cons.mp hns
    exact (CellsSee.cellEdge i b mq s n).cons hn (ih hns _)

/-! ### Triggers (13 R390) -/

/-- The edge of a niche is raised, with its bucket, its tick and its entry. -/
structure Raised (s : State) (i b tick : Nat) (e : Option (Nat × Nat × Nat)) (t : State) : Prop where
  frame : t = { s with cells := t.cells, niches := t.niches, pkgRegs := t.pkgRegs }
  niche : t.niche i = { s.niche i with trig := some s.cycle, count := (s.niche i).count + 1,
                                       edges := (s.niche i).edges ++ [⟨s.cycle + 16, b, tick, e⟩] }
  other : ∀ j, j ≠ i → t.niche j = s.niche j
  count : t.rd (TMB_NFRAME_FRAME_CNT.by16 i) = (s.rd (TMB_NFRAME_FRAME_CNT.by16 i) + 1) % 2 ^ 24
  ctx : ∀ n k, k < 4 → { (t.cell n).ctx k with waitObj := ((s.cell n).ctx k).waitObj } = (s.cell n).ctx k

theorem Cell.ctx_edgeKnown (tick : Nat) (c : Cell) (k : Nat) : ∃ o, (c.edgeKnown tick).ctx k = { c.ctx k with waitObj := o } := by
  unfold Cell.edgeKnown
  refine List.foldlRecOn _ _ (motive := fun d : Cell => ∃ o, d.ctx k = { c.ctx k with waitObj := o }) ⟨(c.ctx k).waitObj, rfl⟩ fun d hd j _ => ?_
  obtain ⟨o, ho⟩ := hd
  split
  · rw [Cell.ctx_modCtx]
    split
    · next h => exact ⟨_, by rw [← h, ho]⟩
    · exact ⟨o, ho⟩
  · exact ⟨o, ho⟩

theorem cmodAll_edgeKnown (tick : Nat) (ns : List Nat) (cs : Cells) (n k : Nat) :
    ∃ o, (cget (cmodAll cs ns (Cell.edgeKnown tick)) n).ctx k = { (cget cs n).ctx k with waitObj := o } := by
  unfold cmodAll
  refine List.foldlRecOn _ _ (motive := fun ds : Cells => ∃ o, (cget ds n).ctx k = { (cget cs n).ctx k with waitObj := o })
    ⟨((cget cs n).ctx k).waitObj, rfl⟩ fun ds hd m _ => ?_
  obtain ⟨o, ho⟩ := hd
  rw [cget_cmod]
  split
  · next h =>
    obtain ⟨o', ho'⟩ := Cell.ctx_edgeKnown tick (cget ds m) k
    exact ⟨o', by rw [ho', ← h, ho]⟩
  · exact ⟨o, ho⟩

theorem State.trigger_niches (s : State) (i b tick : Nat) (e : Option (Nat × Nat × Nat)) : (s.trigger i b tick e).niches =
    fset niche0 s.niches i { s.niche i with trig := some s.cycle, count := (s.niche i).count + 1,
                                            edges := (s.niche i).edges ++ [⟨s.cycle + 16, b, tick, e⟩] } := rfl

theorem State.trigger_cells (s : State) (i b tick : Nat) (e : Option (Nat × Nat × Nat)) :
    ∃ v ns, (s.trigger i b tick e).cells = cmodAll s.cells ns (Cell.edgeKnown v) := ⟨_, _, rfl⟩

theorem State.trigger_pkgRegs (s : State) (i b tick : Nat) (e : Option (Nat × Nat × Nat)) : (s.trigger i b tick e).pkgRegs =
    (s.wr (TMB_NFRAME_FRAME_CNT.by16 i) (s.rd (TMB_NFRAME_FRAME_CNT.by16 i) + 1)).pkgRegs := rfl

theorem State.niche_of_niches {t : State} {m : FMap Niche} (h : t.niches = m) (j : Nat) : t.niche j = fget niche0 m j := h ▸ rfl

theorem State.rd_of_pkgRegs {s t : State} (h : t.pkgRegs = s.pkgRegs) (f : Fld) : t.rd f = s.rd f := by
  unfold State.rd
  rw [h]

theorem State.trigger_raised (s : State) (i b tick : Nat) (e : Option (Nat × Nat × Nat)) : Raised s i b tick e (s.trigger i b tick e) := by
  have hniche (j : Nat) := State.niche_of_niches (s.trigger_niches i b tick e) j
  refine ⟨rfl, ?_, fun j hj => ?_, ?_, fun n k _ => ?_⟩
  · exact (hniche i).trans (fget_fset_same ..)
  · exact (hniche j).trans (fget_fset_ne _ _ _ hj)
  · exact (State.rd_of_pkgRegs (s.trigger_pkgRegs i b tick e) _).trans (State.rd_wr_self ..)
  · obtain ⟨v, ns, hv⟩ := s.trigger_cells i b tick e
    obtain ⟨o, ho⟩ := cmodAll_edgeKnown v ns s.cells n k
    unfold State.cell
    rw [hv, ho]

/-- Fields of the niches' rings and of the generators lie apart. -/
theorem ringField_ne {f g : Fld} {i r : Nat} (hi : i < 16) (hf : f.off = 0x5008 ∧ f.lsb < 64) (hg : g.off < 0x4000 ∧ g.lsb < 64) :
    (g.by16 i).key ≠ (f.by16 r).key := by
  simp only [Fld.key, Fld.by16, Fld.up]
  omega

theorem Raised.of_regs {s t : State} {m : Regs} {i b tick : Nat} {e : Option (Nat × Nat × Nat)}
    (hcnt : ({ s with pkgRegs := m } : State).rd (TMB_NFRAME_FRAME_CNT.by16 i) = s.rd (TMB_NFRAME_FRAME_CNT.by16 i))
    (h : Raised { s with pkgRegs := m } i b tick e t) : Raised s i b tick e t :=
  ⟨h.frame, h.niche, h.other, h.count.trans (by rw [hcnt]), h.ctx⟩

/-- The next waiting entry starts a frame (10 R310). -/
theorem State.startEntry_leaves (s : State) {i : Nat} (hi : i < 16) (r : Nat) (hslots : s.ringSlots r ≤ 256) :
    let k := s.rd (NCH_RST_RD.by16 r)
    let n := s.rd (NCH_RST_COUNT.by16 r)
    let t := s.startEntry i r
    Raised s i (s.entryBucket i r k) s.tick (some (r, k, fget z0 (s.ring r).tag k - 1)) t ∧
      (n ≤ 511 → t.rd (NCH_RST_COUNT.by16 r) = n - 1) ∧ t.rd (NCH_RST_RD.by16 r) = (k + 1) % s.ringSlots r := by
  intro k n t
  let u := (s.wr (NCH_RST_RD.by16 r) ((k + 1) % s.ringSlots r)).wr (NCH_RST_COUNT.by16 r) (n - 1)
  have hne : (NCH_RST_RD.by16 r).key ≠ (NCH_RST_COUNT.by16 r).key := by
    simp only [Fld.key, Fld.by16, Fld.up, NCH_RST_COUNT, NCH_RST_RD]
    omega
  have hu (g : Fld) (h1 : g.key ≠ (NCH_RST_RD.by16 r).key) (h2 : g.key ≠ (NCH_RST_COUNT.by16 r).key) : u.rd g = s.rd g :=
    (State.rd_wr_ne _ _ h2).trans (State.rd_wr_ne _ _ h1)
  have htick : u.tick = s.tick := hu TMB_TICK_TICK
    (by simp only [Fld.key, Fld.by16, Fld.up, NCH_RST_RD, TMB_TICK_TICK]; omega)
    (by simp only [Fld.key, Fld.by16, Fld.up, NCH_RST_COUNT, TMB_TICK_TICK]; omega)
  have hraised := u.trigger_raised i (s.entryBucket i r k) u.tick (some (r, k, fget z0 (s.ring r).tag k - 1))
  have ht : t = u.trigger i (s.entryBucket i r k) u.tick (some (r, k, fget z0 (s.ring r).tag k - 1)) := rfl
  have hrd (g : Fld) (hg : g.off = 0x5008 ∧ g.lsb < 64) : t.rd (g.by16 r) = u.rd (g.by16 r) := by
    rw [ht]
    exact (State.rd_of_pkgRegs (u.trigger_pkgRegs ..) _).trans (State.rd_wr_ne u _ (ringField_ne hi hg (by decide)).symm)
  refine ⟨?_, fun hn => ?_, ?_⟩
  · rw [ht]
    rw [htick] at hraised ⊢
    exact Raised.of_regs (m := u.pkgRegs) (hu _ (ringField_ne hi (by decide) (by decide)) (ringField_ne hi (by decide) (by decide))) hraised
  · rw [hrd _ (by decide)]
    exact (State.rd_wr_self ..).trans (Nat.mod_eq_of_lt (by show n - 1 < 512; omega))
  · rw [hrd _ (by decide)]
    refine (State.rd_wr_ne _ _ hne).trans ((State.rd_wr_self ..).trans (Nat.mod_eq_of_lt ?_))
    have := Nat.mod_lt (k + 1) (show 0 < s.ringSlots r from Nat.succ_pos _)
    show (k + 1) % s.ringSlots r < 256
    omega

theorem State.frameDue_iff (s : State) (i : Nat) : s.frameDue i = true ↔ ∀ c, (s.niche i).trig = some c → c + s.frameLen i ≤ s.cycle := by
  unfold State.frameDue
  split
  · next t ht => simp [ht]
  · next ht => simp [ht]

/-! ### The edge -/

/-- The niche after an edge, by the edge and whether the maquette takes over at it. -/
def Niche.afterEdge (y : Niche) (e : Edge) (mq : Bool) : Niche :=
  { y with frame := e.entry, edgeTick := e.tick, slots := [], fresh := false, mq := false, mqOn := y.mqOn || mq, hang := 0 }

/-- Whether the maquette of a niche takes over at an edge of a tick (16 R471). -/
def State.takesOver (s : State) (i tick : Nat) : Bool :=
  (s.niche i).mq || (match (s.niche i).mqTick with | some t => !(s.niche i).mqOn && decide (t ≤ tick) | none => false)

/-- The package once the cells have seen the edge and contexts are released where the niche has started. -/
def State.released (s : State) (i : Nat) (e : Edge) : State :=
  let u := (s.nicheCells i).foldl (State.cellEdge i e.bucket (s.takesOver i e.tick)) s
  if (s.niche i).fresh && !s.takesOver i e.tick then u.releaseContexts i else u

theorem State.seeEdge_eq (s : State) (i : Nat) (e : Edge) :
    let u := s.released i e
    let v := (u.modCourts (u.nicheCourts i) (fun c => { c with edge := some u.cycle })).modNiche i (Niche.afterEdge · e (s.takesOver i e.tick))
    s.seeEdge i e = if s.takesOver i e.tick then v.nicheEvent i 0x06 else v := rfl

theorem State.released_none {s : State} {i : Nat} {e : Edge} (h : s.takesOver i e.tick = true ∨ (s.niche i).cast = none ∨ (s.niche i).fresh = false) :
    CellsSee (s.takesOver i e.tick) (s.nicheCells i) s (s.released i e) := by
  have hsee := cellsSee_foldl i e.bucket (s.takesOver i e.tick) (s.nicheCells_nodup i) s
  unfold State.released
  dsimp only
  split_ifs with hf
  · rw [Bool.and_eq_true, Bool.not_eq_true'] at hf
    have hnone : (s.niche i).cast = none := by
      rcases h with h | h | h
      · exact absurd (h.symm.trans hf.2) (by decide)
      · exact h
      · exact absurd (h.symm.trans hf.1) (by decide)
    generalize (s.nicheCells i).foldl (State.cellEdge i e.bucket (s.takesOver i e.tick)) s = u at hsee ⊢
    have hu : (u.niche i).cast = none := (congrArg (fun v => (State.niche v i).cast) hsee.frame).trans hnone
    unfold State.releaseContexts
    simp only [hu]
    exact hsee
  · exact hsee

/-- What an edge that releases no contexts leaves. -/
structure EdgeSeen (i : Nat) (e : Edge) (l : List Edge) (mq : Bool) (s t : State) : Prop where
  niche : t.niche i = Niche.afterEdge { s.niche i with edges := l } e mq
  cell : ∀ m, t.cell m = if m ∈ s.nicheCells i then (s.cell m).frameEdge (s.env m) (s.fused m) mq else s.cell m
  court : ∀ q < 144, t.court q = if s.nicheHas i q then { s.court q with edge := some s.cycle } else s.court q
  frame : mq = false → (∀ n ∈ s.nicheCells i, (s.cell n).bktBad = []) → t = { s with cells := t.cells, courts := t.courts, niches := t.niches }

theorem State.nicheEvent_frame (s : State) (i code : Nat) : ∃ ev m, s.nicheEvent i code = { s with events := ev, pkgRegs := m } := by
  unfold State.nicheEvent State.resEvent
  dsimp only
  split_ifs
  · exact ⟨_, _, rfl⟩
  · exact ⟨_, _, rfl⟩

section
variable {mq : Bool} {ns : List Nat} {s u : State}

theorem CellsSee.niche (h : CellsSee mq ns s u) (i : Nat) : u.niche i = s.niche i := (congrArg (State.niche · i) h.frame).trans rfl
theorem CellsSee.court (h : CellsSee mq ns s u) (q : Nat) : u.court q = s.court q := (congrArg (State.court · q) h.frame).trans rfl
theorem CellsSee.cycle (h : CellsSee mq ns s u) : u.cycle = s.cycle := (congrArg State.cycle h.frame).trans rfl
theorem CellsSee.nicheCourts (h : CellsSee mq ns s u) (i : Nat) : u.nicheCourts i = s.nicheCourts i :=
  (congrArg (State.nicheCourts · i) h.frame).trans rfl

end

theorem State.nicheCourts_nodup (s : State) (i : Nat) : (s.nicheCourts i).Nodup := List.nodup_range.filter _

theorem State.mem_nicheCourts {s : State} {i q : Nat} (hq : q < 144) : q ∈ s.nicheCourts i ↔ s.nicheHas i q = true := by
  unfold State.nicheCourts
  rw [List.mem_filter, List.mem_range, and_iff_right hq]

theorem State.edgeNow_seen {s : State} {i : Nat} {e : Edge} {l : List Edge} (hedges : (s.niche i).edges = e :: l) (hdue : e.due ≤ s.cycle)
    (h : s.takesOver i e.tick = true ∨ (s.niche i).cast = none ∨ (s.niche i).fresh = false) :
    EdgeSeen i e l (s.takesOver i e.tick) s (s.edgeNow i) := by
  let s0 := s.modNiche i (fun n => { n with edges := l })
  have hnow : s.edgeNow i = s0.seeEdge i e := by
    unfold State.edgeNow
    simp only [hedges, if_pos hdue]
    rfl
  have hy : s0.niche i = { s.niche i with edges := l } := (State.niche_modNiche s i _ i).trans (if_pos rfl)
  have hmq : s0.takesOver i e.tick = s.takesOver i e.tick := by
    unfold State.takesOver
    rw [hy]
  have hsee : CellsSee (s.takesOver i e.tick) (s.nicheCells i) s0 (s0.released i e) := by
    have := State.released_none (s := s0) (i := i) (e := e) (by rw [hmq, hy]; exact h)
    rwa [hmq] at this
  have hseen := s0.seeEdge_eq i e
  rw [hmq] at hseen
  rw [hnow, hseen]
  generalize s0.released i e = u at hsee
  generalize s.takesOver i e.tick = mq at hsee
  let w := u.modCourts (u.nicheCourts i) (fun c => { c with edge := some u.cycle })
  let v := w.modNiche i (Niche.afterEdge · e mq)
  obtain ⟨cs, hcs⟩ : ∃ cs, w = { u with courts := cs } := u.modCourts_eq ..
  have hniche : v.niche i = Niche.afterEdge { s.niche i with edges := l } e mq := by
    have hw : w.niche i = s0.niche i := (congrArg (State.niche · i) hcs).trans (hsee.niche i)
    rw [State.niche_modNiche, if_pos rfl, hw, hy]
  have hcell (m : Nat) : v.cell m = if m ∈ s.nicheCells i then (s.cell m).frameEdge (s.env m) (s.fused m) mq else s.cell m :=
    (congrArg (State.cell · m) hcs).trans (hsee.cell m)
  have hcourt (q : Nat) (hq : q < 144) : v.court q = if s.nicheHas i q then { s.court q with edge := some s.cycle } else s.court q := by
    have hw : w.court q = _ := State.court_modCourts _ (u.nicheCourts_nodup i) u q
    rw [hsee.court, hsee.cycle, hsee.nicheCourts] at hw
    exact hw.trans (if_congr (State.mem_nicheCourts hq) rfl rfl)
  have hframe (hq : ∀ n ∈ s.nicheCells i, (s.cell n).bktBad = []) :
      v = { s with cells := v.cells, courts := v.courts, niches := v.niches } := by
    have hu : u = { s0 with cells := u.cells } := hsee.frame.trans (by rw [hsee.quiet hq])
    have hw : w = { s with niches := s0.niches, cells := u.cells, courts := cs } := by
      rw [hcs]
      exact congrArg (fun u : State => { u with courts := cs }) hu
    exact congrArg (fun w : State => { w with niches := v.niches, cells := v.cells, courts := v.courts }) hw
  cases mq with
  | false => exact ⟨hniche, hcell, hcourt, fun _ => hframe⟩
  | true =>
    obtain ⟨ev, m, hev⟩ := v.nicheEvent_frame i 0x06
    rw [if_pos rfl]
    refine ⟨(congrArg (State.niche · i) hev).trans hniche, fun m => (congrArg (State.cell · m) hev).trans (hcell m),
      fun q hq => (congrArg (State.court · q) hev).trans (hcourt q hq), fun h => absurd h (by decide)⟩

/-! ### A write of MODE (13 R390, R391) -/

/-- A generator whose MODE has been set: no trigger yet, no frame counted. -/
def State.modeSet (s : State) (i mode : Nat) : State :=
  ((s.wr (TMB_NFRAME_MODE.by16 i) mode).modNiche i (fun n => { n with trig := none, count := 0 })).notePod

section
variable (s : State) (i : Nat)

/-- Fields of a generator's own register. -/
theorem generatorField_ne {f g : Fld} (hf : f.off = 0x3108 ∧ f.lsb < 64) (hg : g.off = 0x3108 ∧ g.lsb < 64) (h : f.lsb ≠ g.lsb) :
    (f.by16 i).key ≠ (g.by16 i).key := by
  simp only [Fld.key, Fld.by16, Fld.up]
  omega

theorem generatorField_late {f g : Fld} (hf : f.off = 0x3108) (hg : g.key < 0x3100 * 64) : (f.by16 i).key ≠ g.key := by
  simp only [Fld.key, Fld.by16, Fld.up] at hg ⊢
  omega

theorem State.rd_notePod {f : Fld} (hf : f.off = 0x3108) : s.notePod.rd (f.by16 i) = s.rd (f.by16 i) :=
  State.rd_wr_ne s _ (generatorField_late i hf (by decide))

theorem State.frameMode_set (mode : Nat) : (s.modeSet i mode).frameMode i = mode % 2 ^ 2 :=
  (State.rd_notePod _ i rfl).trans (State.rd_wr_self s (TMB_NFRAME_MODE.by16 i) mode)

theorem State.niche_modeSet (mode : Nat) : (s.modeSet i mode).niche i = { s.niche i with trig := none, count := 0 } := by
  have h : (s.modeSet i mode).niches = fset niche0 s.niches i { s.niche i with trig := none, count := 0 } := rfl
  exact (State.niche_of_niches h i).trans (fget_fset_same ..)

theorem State.frameMode_trigger (b tick : Nat) (e : Option (Nat × Nat × Nat)) : (s.trigger i b tick e).frameMode i = s.frameMode i :=
  (State.rd_of_pkgRegs (s.trigger_pkgRegs i b tick e) _).trans
    (State.rd_wr_ne s _ (generatorField_ne i (by decide) (by decide) (by decide)))

theorem State.writeMode_off : s.writeMode i 0 = (s.wr (TMB_NFRAME_MODE.by16 i) 0).notePod := rfl
theorem State.writeMode_free : s.writeMode i 1 = (s.modeSet i 1).trigger i (s.defBucket i) s.tick none := rfl
theorem State.writeMode_event : s.writeMode i 2 = s.modeSet i 2 := rfl

theorem State.writeMode_refused (h : s.frameTicks4 i % 4 ≠ 0 ∨ s.rd TMB_STATUS_STATE ≠ 2) :
    s.writeMode i 3 = s.frameRefused i TMB_NFRAME_FRAME_ERR := if_pos ⟨rfl, h⟩

theorem State.frameRefused_leaves : let t := s.frameRefused i TMB_NFRAME_FRAME_ERR
    t.rd (TMB_NFRAME_FRAME_ERR.by16 i) = 1 ∧ t.frameMode i = s.frameMode i ∧ t.niches = s.niches ∧ t.cells = s.cells := by
  intro t
  let u := s.wr (TMB_NFRAME_FRAME_ERR.by16 i) 1
  have ht {f : Fld} (hf : f.off = 0x3108) : t.rd (f.by16 i) = u.rd (f.by16 i) :=
    State.rd_wr_ne _ _ (generatorField_late i hf (by decide))
  refine ⟨(ht rfl).trans (State.rd_wr_self ..), (ht rfl).trans (State.rd_wr_ne s _ ?_), rfl, rfl⟩
  exact generatorField_ne i (by decide) (by decide) (by decide)

end

theorem State.modeWrite_clean {s : State} {i : Nat} (hi : i < 16) {v : BitVec 32} (h29 : v.getLsbD 29 = false) (h28 : v.getLsbD 28 = false) :
    exec (.tmbNframeModeWrite i v) s = .next (s.writeMode i (v.toNat / 2 ^ 30)) := by
  show execTmbNframeModeWrite i v s = _
  unfold execTmbNframeModeWrite
  rw [if_neg (by omega)]
  simp only [h29, h28, Bool.false_eq_true, if_false]

/-- Settles O3: the triggers by their mode's condition, the edge by what each cell, each court and the niche make of it. -/
theorem framesStartAndAreSeen : Obligations.FramesStartAndAreSeen := by
  intro s i hi cnt y raised due calm ready
  have hlow : ¬16 ≤ i := by omega
  have hraised {t : State} {b tick : Nat} {e : Option (Nat × Nat × Nat)} (h : Raised s i b tick e t) : raised t b tick e :=
    ⟨h.frame, h.niche, h.other, h.count, h.ctx⟩
  have hdue : s.frameDue i = true ↔ due := s.frameDue_iff i
  have htakes {e : Edge} (h : y.mq = true) : s.takesOver i e.tick = true := by
    unfold State.takesOver
    rw [show (s.niche i).mq = true from h, Bool.true_or]
  refine ⟨fun hm hg hd => ?_, fun h => ?_, fun r hm hg hd hr he hslots => ?_, fun h => ?_, fun hm hg ht => ?_, fun h => ?_,
    fun e l hedges hed hmq hmt hcast hbkt => ?_, fun h => ?_, fun e l hedges hed hmq => ?_, fun hmq => ?_, fun v h29 h28 => ?_⟩
  · refine ⟨s.trigger i (s.defBucket i) s.tick none, ?_, hraised (s.trigger_raised ..)⟩
    exact (if_neg hlow).trans (congrArg Host.Outcome.next (if_pos ⟨hm, hg, hdue.mpr hd⟩))
  · refine (if_neg hlow).trans (congrArg Host.Outcome.next (if_neg fun ⟨h1, h2, h3⟩ => ?_))
    rcases h with h | h | h
    · exact h h1
    · exact absurd (h.symm.trans h2) (by decide)
    · exact h (hdue.mp h3)
  · obtain ⟨ht, hcount, hrd⟩ := s.startEntry_leaves hi r hslots
    refine ⟨s.startEntry i r, ?_, hraised ht, hcount, hrd⟩
    refine (if_neg hlow).trans (congrArg Host.Outcome.next ((if_pos ⟨hm, hg, hdue.mpr hd⟩).trans ?_))
    simp only [hr, if_pos he]
  · refine (if_neg hlow).trans (congrArg Host.Outcome.next ?_)
    by_cases hc : s.frameMode i = 2 ∧ s.genOn i = true ∧ s.frameDue i = true
    · have hlate : ∀ r ∈ s.waitingRing i, s.entryDue i r = false := by
        rcases h with h | h | h | h
        · exact absurd hc.1 h
        · exact absurd (h.symm.trans hc.2.1) (by decide)
        · exact absurd (hdue.mp hc.2.2) h
        · exact h
      rw [if_pos hc]
      cases hw : s.waitingRing i with
      | none => rfl
      | some r => exact if_neg (by rw [hlate r hw]; exact Bool.false_ne_true)
    · exact if_neg hc
  · refine ⟨s.trigger i (s.defBucket i) (s.podTick i) none, ?_, hraised (s.trigger_raised ..)⟩
    exact (if_neg hlow).trans (congrArg Host.Outcome.next (if_pos ⟨hm, hg, ht⟩))
  · refine (if_neg hlow).trans (congrArg Host.Outcome.next (if_neg fun ⟨h1, h2, h3⟩ => ?_))
    rcases h with h | h | h
    · exact h h1
    · exact absurd (h.symm.trans h2) (by decide)
    · exact absurd h3 (Nat.not_le.mpr h)
  · have hno : s.takesOver i e.tick = false := by
      unfold State.takesOver
      rw [show (s.niche i).mq = false from hmq, show (s.niche i).mqTick = none from hmt]
      rfl
    have hseen := State.edgeNow_seen hedges hed (.inr hcast)
    rw [hno] at hseen
    refine ⟨s.edgeNow i, if_neg hlow, hseen.frame rfl hbkt, ?_, hseen.court, fun n hn k hk => ?_, fun n hn k hk => ?_,
      fun n hn => (hseen.cell n).trans (if_neg hn)⟩
    · rw [hseen.niche]
      simp only [Niche.afterEdge, Bool.or_false]
      rw [show (s.niche i).mq = false from hmq]
    · intro x hs hw he hstep hc
      show (((s.edgeNow i).cell n).ctx k).state = .ready
      rw [hseen.cell, if_pos hn]
      exact Cell.frameEdge_wakes _ _ hk hc hs hw he hstep
    · rw [hseen.cell, if_pos hn, Cell.ctx_frameEdge _ _ _ _ hk]
  · refine (if_neg hlow).trans (congrArg Host.Outcome.next ?_)
    unfold State.edgeNow
    cases hl : (s.niche i).edges with
    | nil => rfl
    | cons e l => exact if_neg (Nat.not_le.mpr (h e (by rw [show y.edges = e :: l from hl]; rfl)))
  · have hseen := State.edgeNow_seen hedges hed (.inl (htakes hmq))
    rw [htakes hmq] at hseen
    refine ⟨s.edgeNow i, ?_, ?_, ?_, ?_, fun n hn hfu => ?_⟩
    · exact (if_neg hlow).trans (congrArg Host.Outcome.next (if_pos hmq))
    · rw [hseen.niche]
      exact Bool.or_true _
    · rw [hseen.niche]
      rfl
    · rw [hseen.niche]
      rfl
    · obtain ⟨hready, hstop⟩ := (s.cell n).frameEdge_takes (s.env n)
      have hc := hseen.cell n
      rw [if_pos hn, hfu] at hc
      refine ⟨fun h => ?_, fun k hk => ?_⟩
      · show (((s.edgeNow i).cell n).ctx 3).state = .ready
        rw [hc]
        exact hready h
      · rw [hc]
        exact hstop k hk
  · exact (if_neg hlow).trans (congrArg Host.Outcome.next (if_neg fun h => absurd (hmq.symm.trans h) (by decide)))
  · intro m
    have hexec (k : Nat) (hk : m = k) : exec (.tmbNframeModeWrite i v) s = .next (s.writeMode i k) := hk ▸ State.modeWrite_clean hi h29 h28
    refine ⟨fun h => ?_, fun h => ?_, fun h => ?_, fun h herr => ?_⟩
    · exact ⟨_, hexec 0 h, (State.rd_notePod _ i rfl).trans (State.rd_wr_self ..), rfl, rfl⟩
    · have hy : ((s.modeSet i 1).trigger i (s.defBucket i) s.tick none).niche i = _ := ((s.modeSet i 1).trigger_raised ..).niche
      rw [s.niche_modeSet i 1] at hy
      refine ⟨_, hexec 1 h, ?_, ?_, ?_⟩
      · exact (State.frameMode_trigger ..).trans (s.frameMode_set i 1)
      · rw [s.writeMode_free i, hy]
        rfl
      · rw [s.writeMode_free i, hy]
    · exact ⟨_, hexec 2 h, s.frameMode_set i 2, s.niche_modeSet i 2, rfl⟩
    · refine ⟨_, hexec 3 h, ?_⟩
      rw [s.writeMode_refused i herr]
      exact s.frameRefused_leaves i

end Sys2Proof.Machine

/-! PROOF. The package operations of a reset that leave its units, memory and due resets alone: used for O19. -/

namespace Sys2Proof.Machine
open Sys2Proof

/-! ### What stands through a reset -/

/-- The keys of the timebase and of the reset block RST_STATUS to RST_CRASH. -/
def standing (k : Nat) : Bool := k == TMB_TICK_TICK.key || decide (0x7000 * 64 ≤ k ∧ k < 0x7020 * 64)

theorem standing_eq_false {k : Nat} (h : k < 0x3000 * 64 ∨ 0x3001 * 64 ≤ k ∧ k < 0x7000 * 64 ∨ 0x7020 * 64 ≤ k) : standing k = false := by
  have htick : TMB_TICK_TICK.key = 0x3000 * 64 := rfl
  simp only [standing, htick, Bool.or_eq_false_iff, beq_eq_false_iff_ne, decide_eq_false_iff_not]
  omega

/-- Memory, fault logs, due resets, and the reset block are the same. -/
structure State.Standing (s t : State) : Prop where
  hbm : t.hbm = s.hbm
  resets : t.resets = s.resets
  flog : t.flog = s.flog
  pkgResets : t.pkgResets = s.pkgResets
  rd : ∀ f : Fld, standing f.key = true → t.rd f = s.rd f

/-- Cells and courts are the same as well. -/
structure State.UnitsKept (s t : State) : Prop extends s.Standing t where
  cells : t.cells = s.cells
  courts : t.courts = s.courts

theorem State.Standing.refl (s : State) : s.Standing s := ⟨rfl, rfl, rfl, rfl, fun _ _ => rfl⟩

theorem State.Standing.trans {s t u : State} (h : s.Standing t) (g : t.Standing u) : s.Standing u :=
  ⟨g.hbm.trans h.hbm, g.resets.trans h.resets, g.flog.trans h.flog, g.pkgResets.trans h.pkgResets, fun f hf => (g.rd f hf).trans (h.rd f hf)⟩

theorem State.UnitsKept.refl (s : State) : s.UnitsKept s := ⟨.refl s, rfl, rfl⟩

theorem State.UnitsKept.trans {s t u : State} (h : s.UnitsKept t) (g : t.UnitsKept u) : s.UnitsKept u :=
  ⟨h.toStanding.trans g.toStanding, g.cells.trans h.cells, g.courts.trans h.courts⟩

theorem State.UnitsKept.cell {s t : State} (h : s.UnitsKept t) (n : Nat) : t.cell n = s.cell n := congrArg (cget · n) h.cells

theorem State.UnitsKept.court {s t : State} (h : s.UnitsKept t) (q : Nat) : t.court q = s.court q := congrArg (fget court0 · q) h.courts

theorem State.UnitsKept.foldl {α : Type} {f : State → α → State} {l : List α} (h : ∀ s : State, ∀ a ∈ l, s.UnitsKept (f s a)) (s : State) :
    s.UnitsKept (l.foldl f s) :=
  List.foldlRecOn l f (motive := fun t => s.UnitsKept t) (.refl s) fun t ht a ha => ht.trans (h t a ha)

/-- A change made under a condition only. -/
theorem State.UnitsKept.ite {s t u : State} {p : Prop} [Decidable p] (ht : s.UnitsKept t) (hu : s.UnitsKept u) :
    s.UnitsKept (if p then t else u) := by
  split
  · exact ht
  · exact hu

/-! ### Register writes, records and drops -/

section
variable (s : State)

theorem State.unitsKept_wr {f : Fld} (v : Nat) (h : standing f.key = false) : s.UnitsKept (s.wr f v) :=
  ⟨⟨rfl, rfl, rfl, rfl, fun _ hg => s.rd_wr_ne v fun he => Bool.false_ne_true (h.symm.trans (he ▸ hg))⟩, rfl, rfl⟩

theorem State.unitsKept_dieWr (d : Nat) (f : Fld) (v : Nat) : s.UnitsKept (s.dieWr d f v) := ⟨⟨rfl, rfl, rfl, rfl, fun _ _ => rfl⟩, rfl, rfl⟩

theorem State.unitsKept_event (d : Nat) (r : FaultRec) : s.UnitsKept (s.event d r) := ⟨⟨rfl, rfl, rfl, rfl, fun _ _ => rfl⟩, rfl, rfl⟩

theorem State.unitsKept_modLink (l : Nat) (f : Link → Link) : s.UnitsKept (s.modLink l f) := ⟨⟨rfl, rfl, rfl, rfl, fun _ _ => rfl⟩, rfl, rfl⟩

theorem State.unitsKept_vector (port fn v : Nat) : s.UnitsKept (s.vector port fn v) := ⟨⟨rfl, rfl, rfl, rfl, fun _ _ => rfl⟩, rfl, rfl⟩

theorem State.unitsKept_dropRegs {lo hi : Nat} (h : ∀ k, standing k = true → k / 64 < lo ∨ hi ≤ k / 64) : s.UnitsKept (s.dropRegs lo hi) := by
  refine ⟨⟨rfl, rfl, rfl, rfl, fun f hf => ?_⟩, rfl, rfl⟩
  have hout := h f.key hf
  unfold State.dropRegs State.rd rget
  rw [fget_fdrop, if_neg]
  exact decide_eq_true_iff.not.mpr (by omega)

/-- The standing keys lie at the timebase and from 0x7000 to 0x7020. -/
theorem offset_of_standing {k : Nat} (h : standing k = true) : k / 64 = 0x3000 ∨ 0x7000 ≤ k / 64 ∧ k / 64 < 0x7020 := by
  have htick : TMB_TICK_TICK.key = 0x3000 * 64 := rfl
  simp only [standing, htick, Bool.or_eq_true, beq_iff_eq, decide_eq_true_iff] at h
  omega

theorem State.unitsKept_alert {f : Fld} (h : standing f.key = false) : s.UnitsKept (s.alert f) := s.unitsKept_wr 1 h

theorem State.unitsKept_addSat {f : Fld} (n : Nat) (h : standing f.key = false) : s.UnitsKept (s.addSat f n) := s.unitsKept_wr _ h

theorem State.unitsKept_resEvent (d code : Nat) (r : FaultRec) : s.UnitsKept (s.resEvent d code r) :=
  .trans ((s.unitsKept_event _ _).trans (State.unitsKept_wr _ _ (by decide))) (.ite (State.unitsKept_alert _ (by decide)) (.refl _))

theorem State.unitsKept_tmbEvent (code : Nat) (r : FaultRec) : s.UnitsKept (s.tmbEvent code r) :=
  .trans ((s.unitsKept_event _ _).trans (State.unitsKept_wr _ _ (by decide))) (.ite (State.unitsKept_alert _ (by decide)) (.refl _))

theorem State.unitsKept_nicheEvent (i code : Nat) : s.UnitsKept (s.nicheEvent i code) := s.unitsKept_resEvent _ _ _

/-- A niche's registers lie below the standing keys. -/
theorem standing_nicheTable {f : Fld} {i : Nat} (hi : i < 16) (hf : f.key < 0x2000 * 64) : standing (f.niche i).key = false :=
  standing_eq_false (.inl (by simp only [Fld.niche, Fld.up, Fld.key] at hf ⊢; omega))

theorem State.unitsKept_nicheVector (i : Nat) : s.UnitsKept (s.nicheVector i) :=
  .trans (.ite (s.unitsKept_vector _ _ _) (.refl s)) (.ite (State.unitsKept_vector _ _ _ _) (.refl _))

theorem State.unitsKept_setNiche {i : Nat} (hi : i < 16) (st : Nat) : s.UnitsKept (s.setNiche i st) :=
  .ite (.refl s) (((s.unitsKept_wr _ (standing_nicheTable hi (by decide))).trans
    (State.unitsKept_wr _ _ (standing_nicheTable hi (by decide)))).trans (State.unitsKept_nicheVector _ i))

theorem State.unitsKept_notePod : s.UnitsKept s.notePod := s.unitsKept_wr _ (by decide)

/-! ### Flaws and the package's health (16 R459, R482, R483) -/

theorem State.unitsKept_stopFrames : s.UnitsKept s.stopFrames := by
  refine .trans (State.UnitsKept.foldl (fun s i hi => ?_) s) (State.unitsKept_wr _ _ (by decide))
  have hi : i < 16 := List.mem_range.mp hi
  refine .ite (.trans (s.unitsKept_wr _ (standing_eq_false ?_)) (State.unitsKept_setNiche _ hi _)) (.refl s)
  have hkey : (TMB_NFRAME_MODE.niche i).key = (0x3108 + 0x10 * i) * 64 + 62 := rfl
  omega

theorem State.unitsKept_replace : s.UnitsKept s.replace :=
  .ite (.refl s) ((((s.unitsKept_wr _ (by decide)).trans (State.unitsKept_alert _ (by decide))).trans
    (State.unitsKept_resEvent _ _ _ _)).trans (State.unitsKept_stopFrames _))

theorem State.unitsKept_replaceSoon : s.UnitsKept s.replaceSoon :=
  .ite (.refl s) (((s.unitsKept_wr _ (by decide)).trans (State.unitsKept_alert _ (by decide))).trans (State.unitsKept_resEvent _ _ _ _))

theorem State.unitsKept_withFlaws (fs : List Flaw) : s.UnitsKept { s with flaws := fs } := ⟨⟨rfl, rfl, rfl, rfl, fun _ _ => rfl⟩, rfl, rfl⟩

theorem State.unitsKept_withDecided (ns : List Nat) : s.UnitsKept { s with decided := ns } := ⟨⟨rfl, rfl, rfl, rfl, fun _ _ => rfl⟩, rfl, rfl⟩

theorem State.unitsKept_addFlaw (f : Flaw) : s.UnitsKept (s.addFlaw f) :=
  .ite s.unitsKept_replace (.trans (.trans ((s.unitsKept_withFlaws _).trans (State.unitsKept_wr _ _ (by decide)))
    (.ite (State.unitsKept_replaceSoon _) (.refl _))) (.ite (State.unitsKept_replace _) (.refl _)))

theorem State.unitsKept_decideCell (n cause : Nat) : s.UnitsKept (s.decideCell n cause) := by
  refine .ite (.refl s) (.trans (((s.unitsKept_addFlaw _).trans (State.unitsKept_addSat _ (f := RES_PKG_STATUS_FENCED) 1 (by decide))).trans
    (State.unitsKept_resEvent _ (cellDie n) 0x01 _)) (State.unitsKept_withDecided _ _))

theorem State.unitsKept_repairRow (f : Flaw) : s.UnitsKept (s.repairRow f) :=
  .ite (s.unitsKept_withFlaws _) (.ite (.ite (.refl s) (((s.unitsKept_addFlaw _).trans (State.unitsKept_addSat _ _ (by decide))).trans
    (State.unitsKept_resEvent _ _ _ _))) (s.unitsKept_decideCell _ _))

theorem State.unitsKept_repairRows (d : Nat) : s.UnitsKept (s.repairRows d) := .foldl (fun s f _ => s.unitsKept_repairRow f) s

theorem State.unitsKept_bootDegraded : s.UnitsKept s.bootDegraded :=
  .foldl (fun s _ _ => .ite (.trans (((s.unitsKept_addFlaw _).trans (State.unitsKept_addSat _ _ (by decide))).trans
    (State.unitsKept_resEvent _ _ _ _)) (.ite (.refl _) (State.unitsKept_replaceSoon _))) (.refl s)) s

/-! ### Links (12 R366, 13 R384) -/

theorem State.unitsKept_withPod (p : PodTime) : s.UnitsKept { s with pod := p } := ⟨⟨rfl, rfl, rfl, rfl, fun _ _ => rfl⟩, rfl, rfl⟩

theorem State.unitsKept_parentLost : s.UnitsKept s.parentLost := by
  unfold State.parentLost
  refine (s.unitsKept_withPod { s.pod with good := 0, bad := 0 }).trans ?_
  generalize { s with pod := { s.pod with good := 0, bad := 0 } } = t
  dsimp only
  split
  · exact (((t.unitsKept_wr (f := TMB_STATUS_PARENT_LINK) _ (by decide)).trans (State.unitsKept_wr _ (f := TMB_STATUS_HOPS) _ (by decide))).trans
      (State.unitsKept_wr _ (f := TMB_STATUS_STATE) 1 (by decide))).trans (State.unitsKept_tmbEvent _ 2 {})
  · exact ((t.unitsKept_wr (f := TMB_STATUS_PARENT_VALID) 0 (by decide)).trans (State.unitsKept_wr _ (f := TMB_STATUS_STATE) 3 (by decide))).trans
      (State.unitsKept_tmbEvent _ 3 {})

theorem State.unitsKept_parentGone (l : Nat) : s.UnitsKept (s.parentGone l) :=
  .trans (s.unitsKept_withPod _) (.ite (State.unitsKept_parentLost _) (.refl _))

theorem State.unitsKept_setLink (l st : Nat) : s.UnitsKept (s.setLink l st) :=
  .trans (s.unitsKept_dieWr _ _ _) (.ite (State.unitsKept_parentGone _ l) (.refl _))

theorem State.unitsKept_enableLink (l : Nat) : s.UnitsKept (s.enableLink l) :=
  .ite ((s.unitsKept_setLink l 1).trans (State.unitsKept_modLink _ l _)) (.refl s)

theorem State.unitsKept_startLink (l : Nat) : s.UnitsKept (s.startLink l) :=
  .ite ((s.unitsKept_dieWr _ _ _).trans (State.unitsKept_enableLink _ l)) (.refl s)

theorem State.unitsKept_resetLinks (d : Nat) : s.UnitsKept (s.resetLinks d) :=
  .foldl (fun s _ _ => (s.unitsKept_dieWr _ _ _).trans (State.unitsKept_modLink _ _ _)) s

/-! ### Watchdogs, images, sessions and ports -/

theorem State.unitsKept_watchdogs (d : Nat) : s.UnitsKept (s.watchdogs d) :=
  ((s.unitsKept_dieWr _ _ _).trans (State.unitsKept_dieWr _ _ _ _)).trans (State.unitsKept_dieWr _ _ _ _)

theorem State.unitsKept_bootImage (d : Nat) : s.UnitsKept (s.bootImage d) := ⟨⟨rfl, rfl, rfl, rfl, fun _ _ => rfl⟩, rfl, rfl⟩

theorem State.unitsKept_endSessions : s.UnitsKept s.endSessions :=
  .trans (s.unitsKept_wr (f := SEC_STATUS_SESSIONS) 0 (by decide)) ⟨⟨rfl, rfl, rfl, rfl, fun _ _ => rfl⟩, rfl, rfl⟩

theorem State.unitsKept_fromNv : s.UnitsKept s.fromNv := ⟨⟨rfl, rfl, rfl, rfl, fun _ _ => rfl⟩, rfl, rfl⟩

theorem State.unitsKept_loseFlaws : s.UnitsKept s.loseFlaws := .trans (s.unitsKept_wr _ (by decide)) (State.unitsKept_withFlaws _ _)

theorem State.unitsKept_fnReset (fn : Nat) : s.UnitsKept (s.fnReset fn) := by
  refine .trans (s.unitsKept_dropRegs (lo := 0x10000 + 0x20000 * (fn / 17) + 0x1000 * (fn % 17)) fun k hk => .inl ?_)
    ⟨⟨rfl, rfl, rfl, rfl, fun _ _ => rfl⟩, rfl, rfl⟩
  have := offset_of_standing hk
  omega

theorem State.unitsKept_portReset (port : Nat) : s.UnitsKept (s.portReset port) := .foldl (fun s _ _ => s.unitsKept_fnReset _) s

end

end Sys2Proof.Machine

/-! PROOF. What a die reset clears of its die and leaves elsewhere: used for O19. -/

namespace Sys2Proof.Machine
open Sys2Proof

/-! ### Entries of a sparse store changed key by key -/

section
variable {α : Type} [DecidableEq α] {d : Nat → α} {p : Nat → Prop} [DecidablePred p] {f : α → α} {k : Nat}

omit [DecidableEq α] in
theorem fget_of_keys_ne {m : FMap α} (h : ∀ e ∈ m, e.1 ≠ k) : fget d m k = d k := by
  induction m with
  | nil => rfl
  | cons e m ih => exact (if_neg (h e List.mem_cons_self)).trans (ih fun e he => h e (List.mem_cons_of_mem _ he))

theorem fget_foldl_fmod_ne (hk : ¬p k) (l : List (Nat × α)) (m : FMap α) :
    fget d (l.foldl (fun m e => if p e.1 then fmod d m e.1 f else m) m) k = fget d m k := by
  refine List.foldlRecOn l _ (motive := fun n => fget d n k = fget d m k) rfl fun n hn e _ => ?_
  split
  · next he => rw [fget_fmod_ne d n f fun h : k = e.1 => hk (h ▸ he), hn]
  · exact hn

/-- What the change leaves alone is as it was at every key. -/
theorem fget_foldl_fmod_keep {β : Type} {g : α → β} (hg : ∀ x, g (f x) = g x) (l : List (Nat × α)) (m : FMap α) :
    g (fget d (l.foldl (fun m e => if p e.1 then fmod d m e.1 f else m) m) k) = g (fget d m k) := by
  refine List.foldlRecOn l _ (motive := fun n => g (fget d n k) = g (fget d m k)) rfl fun n hn e _ => ?_
  split
  · by_cases he : k = e.1
    · rw [he, fget_fmod_same, hg, ← he, hn]
    · rw [fget_fmod_ne d n f he, hn]
  · exact hn

/-- What the change always makes true, and the default has, holds at every chosen key of the store. -/
theorem fget_foldl_fmod_self {P : α → Prop} (hf : ∀ x, P (f x)) (hd : P (d k)) (hk : p k) (m : FMap α) :
    P (fget d (m.foldl (fun m e => if p e.1 then fmod d m e.1 f else m) m) k) := by
  have hgo (l : List (Nat × α)) : ∀ n : FMap α, (P (fget d n k) ∨ ∃ e ∈ l, e.1 = k) →
      P (fget d (l.foldl (fun m e => if p e.1 then fmod d m e.1 f else m) n) k) := by
    induction l with
    | nil => exact fun n h => h.resolve_right fun ⟨e, he, _⟩ => List.not_mem_nil he
    | cons e l ih =>
      refine fun n h => ih _ ?_
      dsimp only
      by_cases he : e.1 = k
      · rw [if_pos (he ▸ hk), he, fget_fmod_same]
        exact .inl (hf _)
      · refine h.imp (fun h => ?_) fun ⟨a, ha, hak⟩ => ⟨a, (List.mem_cons.mp ha).resolve_left fun h => he (h ▸ hak), hak⟩
        split
        · rwa [fget_fmod_ne d n f (Ne.symm he)]
        · exact h
  refine hgo m m ?_
  by_cases h : ∃ e ∈ m, e.1 = k
  · exact .inr h
  · exact .inl ((fget_of_keys_ne (d := d) fun e he hek => h ⟨e, he, hek⟩) ▸ hd)

end

/-! ### Plinths kept -/

/-- Plinth data, memory, fault logs, due resets and the reset block are the same. -/
structure State.PlinthsKept (s t : State) : Prop extends s.Standing t where
  plinth : ∀ q, (t.court q).plinth = (s.court q).plinth

theorem State.UnitsKept.plinthsKept {s t : State} (h : s.UnitsKept t) : s.PlinthsKept t :=
  ⟨h.toStanding, fun q => congrArg Court.plinth (h.court q)⟩

theorem State.PlinthsKept.refl (s : State) : s.PlinthsKept s := ⟨.refl s, fun _ => rfl⟩

theorem State.PlinthsKept.trans {s t u : State} (h : s.PlinthsKept t) (g : t.PlinthsKept u) : s.PlinthsKept u :=
  ⟨h.toStanding.trans g.toStanding, fun q => (g.plinth q).trans (h.plinth q)⟩

theorem State.PlinthsKept.ite {s t u : State} {p : Prop} [Decidable p] (ht : s.PlinthsKept t) (hu : s.PlinthsKept u) :
    s.PlinthsKept (if p then t else u) := by
  split
  · exact ht
  · exact hu

theorem State.PlinthsKept.foldl {α : Type} {f : State → α → State} {l : List α} (h : ∀ s : State, ∀ a ∈ l, s.PlinthsKept (f s a)) (s : State) :
    s.PlinthsKept (l.foldl f s) :=
  List.foldlRecOn l f (motive := fun t => s.PlinthsKept t) (.refl s) fun t ht a ha => ht.trans (h t a ha)

theorem State.plinthsKept_modCell (s : State) (n : Nat) (f : Cell → Cell) : s.PlinthsKept (s.modCell n f) :=
  ⟨⟨rfl, rfl, rfl, rfl, fun _ _ => rfl⟩, fun _ => rfl⟩

theorem State.plinthsKept_modCells (s : State) (ns : List Nat) (f : Cell → Cell) : s.PlinthsKept (s.modCells ns f) :=
  ⟨⟨rfl, rfl, rfl, rfl, fun _ _ => rfl⟩, fun _ => rfl⟩

theorem State.standing_modCourt (s : State) (q : Nat) (f : Court → Court) : s.Standing (s.modCourt q f) := ⟨rfl, rfl, rfl, rfl, fun _ _ => rfl⟩

theorem State.plinthsKept_modCourt (s : State) (q : Nat) {f : Court → Court} (h : ∀ c, (f c).plinth = c.plinth) : s.PlinthsKept (s.modCourt q f) := by
  refine ⟨s.standing_modCourt q f, fun p => ?_⟩
  rw [State.court_modCourt]
  split
  · next hp =>
    rw [h, hp]
  · rfl

/-! ### The row remap of a die (16 R462, R466) -/

theorem courtDie_cellCourt {n : Nat} (h : cellDie n < 4) : courtDie (cellCourt n) = cellDie n := by
  unfold courtDie cellCourt cellBlock
  omega

/-- A remap changes the row map of the cell's court only. -/
theorem State.remapRow_eq (s : State) (n : Nat) : ∃ v, s.remapRow n = s ∨ s.remapRow n = s.modCourt (cellCourt n) (fun c => c.wr RES_ROWMAP_ROWS v) := by
  unfold State.remapRow
  dsimp only
  split_ifs
  · exact ⟨0, .inl rfl⟩
  · exact ⟨_, .inr rfl⟩
  · exact ⟨_, .inr rfl⟩

/-- Cells, plinths and the courts of the other dies are the same. -/
structure State.DieRemapped (d : Nat) (s t : State) : Prop extends s.PlinthsKept t where
  cells : t.cells = s.cells
  court : ∀ q, courtDie q ≠ d → t.court q = s.court q

theorem State.DieRemapped.refl (d : Nat) (s : State) : s.DieRemapped d s := ⟨.refl s, rfl, fun _ _ => rfl⟩

theorem State.DieRemapped.trans {d : Nat} {s t u : State} (h : s.DieRemapped d t) (g : t.DieRemapped d u) : s.DieRemapped d u :=
  ⟨h.toPlinthsKept.trans g.toPlinthsKept, g.cells.trans h.cells, fun q hq => (g.court q hq).trans (h.court q hq)⟩

theorem State.UnitsKept.dieRemapped {s t : State} (h : s.UnitsKept t) (d : Nat) : s.DieRemapped d t :=
  ⟨h.plinthsKept, h.cells, fun q _ => h.court q⟩

theorem State.plinthsKept_remapRow (s : State) (n : Nat) : s.PlinthsKept (s.remapRow n) := by
  obtain ⟨v, h | h⟩ := s.remapRow_eq n
  · rw [h]
    exact .refl s
  · rw [h]
    exact s.plinthsKept_modCourt _ fun _ => rfl

theorem State.dieRemapped_remapRow (s : State) {n d : Nat} (hd : d < 4) (hn : cellDie n = d) : s.DieRemapped d (s.remapRow n) := by
  refine ⟨s.plinthsKept_remapRow n, ?_, fun q hq => ?_⟩
  · obtain ⟨v, h | h⟩ := s.remapRow_eq n <;> rw [h]
    rfl
  · obtain ⟨v, h | h⟩ := s.remapRow_eq n <;> rw [h]
    rw [State.court_modCourt, if_neg fun hqn => hq (by rw [hqn, courtDie_cellCourt (hn ▸ hd), hn])]

theorem State.dieRemapped_mapDie (s : State) {d : Nat} (hd : d < 4) : s.DieRemapped d (s.mapDie d) := by
  let ns := ((s.fuses ++ s.flaws).filter (fun f => f.kind == 1 && cellDie f.loc == d)).map (fun f => f.loc)
  have hrows : s.DieRemapped d (ns.foldl State.remapRow s) := by
    refine List.foldlRecOn ns _ (motive := fun t => s.DieRemapped d t) (.refl d s) fun t ht n hn => ht.trans ?_
    obtain ⟨f, hf, rfl⟩ := List.mem_map.mp hn
    obtain ⟨-, hdie⟩ := (Bool.and_eq_true_iff).mp (List.mem_filter.mp hf).2
    exact t.dieRemapped_remapRow hd (beq_iff_eq.mp hdie)
  have hlast : (ns.foldl State.remapRow s).UnitsKept (s.mapDie d) := ⟨⟨rfl, rfl, rfl, rfl, fun _ _ => rfl⟩, rfl, rfl⟩
  exact hrows.trans (hlast.dieRemapped d)

/-! ### The units of a die cleared (17 R487) -/

/-- The stores that a die reset leaves empty. -/
def Cell.Blank (c : Cell) : Prop := c.spd = [] ∧ c.istore = [] ∧ c.acc = []

/-- The die's log and cells are cleared; every plinth, the other dies' units and logs, and memory are the same. -/
structure State.DieCleared (d : Nat) (s t : State) : Prop where
  hbm : t.hbm = s.hbm
  resets : t.resets = s.resets
  pkgResets : t.pkgResets = s.pkgResets
  rd : ∀ f : Fld, standing f.key = true → t.rd f = s.rd f
  flog : t.flog = fdrop (fun k => k / 1024 == d) s.flog
  blank : ∀ n, cellDie n = d → (t.cell n).Blank
  cell : ∀ n, cellDie n ≠ d → t.cell n = s.cell n
  plinth : ∀ q, (t.court q).plinth = (s.court q).plinth
  court : ∀ q, courtDie q ≠ d → t.court q = s.court q

/-- What comes before or after and leaves the units alone changes nothing of it. -/
theorem State.DieCleared.of_kept {d : Nat} {s t u v : State} (h : s.UnitsKept t) (g : t.DieCleared d u) (k : u.DieRemapped d v) : s.DieCleared d v where
  hbm := k.hbm.trans (g.hbm.trans h.hbm)
  resets := k.resets.trans (g.resets.trans h.resets)
  pkgResets := k.pkgResets.trans (g.pkgResets.trans h.pkgResets)
  rd f hf := (k.rd f hf).trans ((g.rd f hf).trans (h.rd f hf))
  flog := by rw [k.flog, g.flog, h.flog]
  blank n hn := by rw [show v.cell n = u.cell n from congrArg (cget · n) k.cells]; exact g.blank n hn
  cell n hn := (congrArg (cget · n) k.cells).trans ((g.cell n hn).trans (h.cell n))
  plinth q := (k.plinth q).trans ((g.plinth q).trans (h.plinthsKept.plinth q))
  court q hq := (k.court q hq).trans ((g.court q hq).trans (h.court q))

/-- The stores, registers and logs of a die dropped. -/
def State.dropDie (s : State) (d : Nat) : State :=
  { s with
    dieStart := fset z0 s.dieStart d s.cycle
    cells := s.cells.foldl (fun m (e : Nat × Cell) => if cellDie e.1 = d then fmod cell0 m e.1 Cell.dieReset else m) s.cells
    courts := s.courts.foldl (fun m (e : Nat × Court) => if courtDie e.1 = d then fmod court0 m e.1 Court.dieReset else m) s.courts
    flights := s.flights.filter (fun f => cellDie (s.phys f.dest) != d)
    dieRegs := fset regs0 s.dieRegs d (regsReset Machine.dieRegs Dom.die.rank (fget regs0 s.dieRegs d))
    flog := fdrop (fun k => k / 1024 == d) s.flog
    dieSnap := ferase s.dieSnap d
    mailbox := ferase s.mailbox d }

theorem State.dieCleared_dropDie (s : State) (d : Nat) : s.DieCleared d (s.dropDie d) where
  hbm := rfl
  resets := rfl
  pkgResets := rfl
  rd _ _ := rfl
  flog := rfl
  blank _ hn := fget_foldl_fmod_self (p := fun k => cellDie k = d) (P := Cell.Blank) (fun _ => ⟨rfl, rfl, rfl⟩) ⟨rfl, rfl, rfl⟩ hn s.cells
  cell _ hn := fget_foldl_fmod_ne (p := fun k => cellDie k = d) hn s.cells s.cells
  plinth _ := fget_foldl_fmod_keep (p := fun k => courtDie k = d) (f := Court.dieReset) (g := Court.plinth) (fun _ => rfl) s.courts s.courts
  court _ hq := fget_foldl_fmod_ne (p := fun k => courtDie k = d) hq s.courts s.courts

theorem State.dieCleared_clearDie (s : State) {d : Nat} (hd : d < 4) : s.DieCleared d (s.clearDie d) := by
  let a := (List.range 24).foldl (fun s j => State.setLink s (24 * d + j) 0) s
  have ha : s.UnitsKept a := .foldl (fun s _ _ => s.unitsKept_setLink _ _) s
  have hlast : (a.dropDie d).DieRemapped d (((((a.dropDie d).repairRows d).mapDie d).watchdogs d).resetLinks d) :=
    ((State.unitsKept_repairRows (a.dropDie d) d).dieRemapped d).trans (.trans (State.dieRemapped_mapDie _ hd)
      (((State.unitsKept_watchdogs _ d).trans (State.unitsKept_resetLinks _ d)).dieRemapped d))
  exact .of_kept ha (a.dieCleared_dropDie d) hlast

end Sys2Proof.Machine

/-! PROOF. A reset step begins, and what a niche reset leaves: used for O19. -/

namespace Sys2Proof.Machine
open Sys2Proof

/-! ### A reset step begins (17 R491, R500) -/

section
variable (s : State) (r : ResetReq)

/-- The level noted and its resets counted in RST_STATUS. -/
def State.countStep : State :=
  let s := s.wr RST_STATUS_LAST_LEVEL r.level
  match r.level with
  | 3 => s.addSat RST_STATUS_NICHE_CNT 1
  | 4 => s.addSat RST_STATUS_DIE_CNT 1
  | 5 => s.addSat RST_STATUS_PKG_CNT 1
  | _ => s

/-- The cells that a crash cast has frozen let go. -/
def State.thaw : State := { s.modCells s.crashFrozen (Cell.freezeWrite false) with crashFrozen := [] }

/-- The record of the cause in RST_CAUSE. -/
def State.noteCause : State :=
  let s := (((s.wr RST_CAUSE_SEQ r.seq).wr RST_CAUSE_DIE r.die).wr RST_CAUSE_CODE r.code).wr RST_CAUSE_LEVEL r.level
  ((s.wr RST_CAUSE_TRIGGER r.trigger).wr RST_CAUSE_NICHE (r.niche.getD 0)).wr RST_CAUSE_NICHE_VALID (b2n r.niche.isSome)

theorem State.resetBegun_eq : s.resetBegun r = if r.level < 2 then s.countStep r else ((s.countStep r).thaw).noteCause r := rfl

/-- Only the package's registers differ. -/
def State.RegsOnly (s t : State) : Prop := t = { s with pkgRegs := t.pkgRegs }

variable {s} in
theorem State.RegsOnly.trans {t u : State} (h : s.RegsOnly t) (g : t.RegsOnly u) : s.RegsOnly u := by
  unfold State.RegsOnly at *
  rw [g, h]

theorem State.regsOnly_wr (f : Fld) (v : Nat) : s.RegsOnly (s.wr f v) := rfl

theorem State.regsOnly_countStep : s.RegsOnly (s.countStep r) := by
  unfold State.countStep
  dsimp only
  split
  · exact (s.regsOnly_wr _ _).trans (State.regsOnly_wr _ _ _)
  · exact (s.regsOnly_wr _ _).trans (State.regsOnly_wr _ _ _)
  · exact (s.regsOnly_wr _ _).trans (State.regsOnly_wr _ _ _)
  · exact s.regsOnly_wr _ _

theorem State.regsOnly_noteCause : s.RegsOnly (s.noteCause r) :=
  ((((((s.regsOnly_wr _ _).trans (State.regsOnly_wr _ _ _)).trans (State.regsOnly_wr _ _ _)).trans (State.regsOnly_wr _ _ _)).trans
    (State.regsOnly_wr _ _ _)).trans (State.regsOnly_wr _ _ _)).trans (State.regsOnly_wr _ _ _)

/-! ### What RST_STATUS and RST_CAUSE show -/

theorem State.rd_countStep {f : Fld} (h : f.key < 0x7000 * 64 + 5 ∨ 0x7001 * 64 ≤ f.key) : (s.countStep r).rd f = s.rd f := by
  have hlast : RST_STATUS_LAST_LEVEL.key = 0x7000 * 64 + 5 := rfl
  have hniche : RST_STATUS_NICHE_CNT.key = 0x7000 * 64 + 16 := rfl
  have hdie : RST_STATUS_DIE_CNT.key = 0x7000 * 64 + 32 := rfl
  have hpkg : RST_STATUS_PKG_CNT.key = 0x7000 * 64 + 48 := rfl
  unfold State.countStep State.addSat
  dsimp only
  split <;> repeat rw [State.rd_wr_ne _ _ (by omega)]

theorem State.rd_countStep_last (hr : r.level < 8) : (s.countStep r).rd RST_STATUS_LAST_LEVEL = r.level := by
  have hself : (s.wr RST_STATUS_LAST_LEVEL r.level).rd RST_STATUS_LAST_LEVEL = r.level := by
    rw [State.rd_wr_self]
    exact Nat.mod_eq_of_lt hr
  unfold State.countStep State.addSat
  dsimp only
  split
  · rw [State.rd_wr_ne _ _ (by decide), hself]
  · rw [State.rd_wr_ne _ _ (by decide), hself]
  · rw [State.rd_wr_ne _ _ (by decide), hself]
  · exact hself

theorem State.rd_countStep_die (hr : r.level = 4) : (s.countStep r).rd RST_STATUS_DIE_CNT = min (s.rd RST_STATUS_DIE_CNT + 1) 65535 := by
  have hstep : s.countStep r = (s.wr RST_STATUS_LAST_LEVEL r.level).addSat RST_STATUS_DIE_CNT 1 := by
    unfold State.countStep
    rw [hr]
    rfl
  rw [hstep, State.addSat, State.rd_wr_self, State.rd_wr_ne _ _ (by decide)]
  exact Nat.mod_eq_of_lt (lt_of_le_of_lt (min_le_right _ _) (by decide))

theorem State.rd_noteCause {f : Fld} (h : f.key < 0x7008 * 64 ∨ 0x7009 * 64 ≤ f.key) : (s.noteCause r).rd f = s.rd f := by
  have h1 : RST_CAUSE_SEQ.key = 0x7008 * 64 + 32 := rfl
  have h2 : RST_CAUSE_DIE.key = 0x7008 * 64 + 30 := rfl
  have h3 : RST_CAUSE_CODE.key = 0x7008 * 64 + 16 := rfl
  have h4 : RST_CAUSE_LEVEL.key = 0x7008 * 64 + 4 := rfl
  have h5 : RST_CAUSE_TRIGGER.key = 0x7008 * 64 := rfl
  have h6 : RST_CAUSE_NICHE.key = 0x7008 * 64 + 8 := rfl
  have h7 : RST_CAUSE_NICHE_VALID.key = 0x7008 * 64 + 7 := rfl
  unfold State.noteCause
  dsimp only
  repeat rw [State.rd_wr_ne _ _ (by omega)]

theorem State.rd_noteCause_level (hr : r.level < 8) : (s.noteCause r).rd RST_CAUSE_LEVEL = r.level := by
  unfold State.noteCause
  dsimp only
  rw [State.rd_wr_ne _ _ (by decide), State.rd_wr_ne _ _ (by decide), State.rd_wr_ne _ _ (by decide), State.rd_wr_self]
  exact Nat.mod_eq_of_lt hr

theorem State.rd_noteCause_trigger (hr : r.trigger < 16) : (s.noteCause r).rd RST_CAUSE_TRIGGER = r.trigger := by
  unfold State.noteCause
  dsimp only
  rw [State.rd_wr_ne _ _ (by decide), State.rd_wr_ne _ _ (by decide), State.rd_wr_self]
  exact Nat.mod_eq_of_lt hr

/-- A step from cell level on that begins: the registers it writes, and what stays. -/
structure State.StepBegun (s t : State) : Prop where
  same : t = { s with pkgRegs := t.pkgRegs, cells := t.cells, crashFrozen := [] }
  cells : s.crashFrozen = [] → t.cells = s.cells
  last : t.rd RST_STATUS_LAST_LEVEL = r.level
  cause : t.rd RST_CAUSE_LEVEL = r.level
  trigger : r.trigger < 16 → t.rd RST_CAUSE_TRIGGER = r.trigger
  dies : r.level = 4 → t.rd RST_STATUS_DIE_CNT = min (s.rd RST_STATUS_DIE_CNT + 1) 65535
  rd : ∀ f : Fld, f.key < 0x7000 * 64 + 5 ∨ 0x7009 * 64 ≤ f.key → t.rd f = s.rd f

variable {s} in
/-- Register writes around the thaw leave the rest to it. -/
theorem State.RegsOnly.thaw {t u : State} (h : s.RegsOnly t) (g : t.thaw.RegsOnly u) :
    u = { s with pkgRegs := u.pkgRegs, cells := u.cells, crashFrozen := [] } := by
  obtain ⟨m, rfl⟩ : ∃ m, t = { s with pkgRegs := m } := ⟨_, h⟩
  obtain ⟨m', rfl⟩ : ∃ m', u = { State.thaw _ with pkgRegs := m' } := ⟨_, g⟩
  rfl

theorem State.stepBegun (h2 : 2 ≤ r.level) (h8 : r.level < 8) : s.StepBegun r (s.resetBegun r) := by
  rw [State.resetBegun_eq, if_neg (by omega)]
  have hcount := s.regsOnly_countStep r
  have hcause := (s.countStep r).thaw.regsOnly_noteCause r
  refine ⟨hcount.thaw hcause, fun hf => ?_, ?_, ?_, fun ht => ?_, fun h4 => ?_, fun f hf => ?_⟩
  · have hcells : (s.countStep r).cells = s.cells := (congrArg State.cells hcount).trans rfl
    have hfrozen : (s.countStep r).crashFrozen = [] := (congrArg State.crashFrozen hcount).trans hf
    refine ((congrArg State.cells hcause).trans (?_ : (s.countStep r).thaw.cells = _)).trans hcells
    unfold State.thaw State.modCells
    rw [hfrozen]
    rfl
  · rw [State.rd_noteCause _ _ (by decide)]
    exact s.rd_countStep_last r h8
  · exact State.rd_noteCause_level _ r h8
  · exact State.rd_noteCause_trigger _ r ht
  · rw [State.rd_noteCause _ _ (by decide)]
    exact s.rd_countStep_die r h4
  · rw [State.rd_noteCause _ _ (by omega)]
    exact s.rd_countStep r (by omega)

end

end Sys2Proof.Machine

/-! PROOF. What a niche reset and a die reset leave: used for O19. -/

namespace Sys2Proof.Machine
open Sys2Proof

/-! ### Niche resets keep plinths and memory (17 R487, R488) -/

section
variable (s : State)

theorem State.plinthsKept_abandonHeal {i : Nat} (hi : i < 16) : s.PlinthsKept (s.abandonHeal i) := by
  have hstep : standing (RES_HEAL_STATUS_STEP.by8 i).key = false := standing_eq_false (by
    have : (RES_HEAL_STATUS_STEP.by8 i).key = (0x6100 + 8 * i) * 64 := rfl
    omega)
  unfold State.abandonHeal
  dsimp only
  split
  · exact .refl s
  · have hrelease : s.PlinthsKept (s.healRelease i) := s.plinthsKept_modCells _ _
    have hrows (t : State) (ns : List Nat) : t.PlinthsKept (ns.foldl State.remapRow t) := .foldl (fun t n _ => t.plinthsKept_remapRow n) t
    exact ((hrelease.trans (State.unitsKept_wr _ 0 hstep).plinthsKept).trans (hrows _ _)).trans (State.unitsKept_nicheEvent _ i 0x03).plinthsKept

theorem State.plinthsKept_raspEndNow (n : Nat) : s.PlinthsKept (s.raspEndNow n) := by
  unfold State.raspEndNow State.raspCut
  dsimp only
  split
  · exact .refl s
  · rw [if_neg Bool.false_ne_true]
    have hsig : s.PlinthsKept (s.modCourt (cellCourt n) (fun k => k.wr RES_RASP_SIG_SIG k.raspKept)) := s.plinthsKept_modCourt _ fun _ => rfl
    exact .trans (.ite hsig (.refl s)) (State.plinthsKept_modCell _ n _)

/-- A queue emptied, its descriptors counted as completed. -/
def Court.dropQueue (n done : Nat) (c : Court) : Court :=
  (c.setQueue n []).wr (DMA_QST_COMPLETED.queue n) ((c.rd (DMA_QST_COMPLETED.queue n) + done) % 65536)

theorem Court.dropQueue_plinth (n done : Nat) (c : Court) : (c.dropQueue n done).plinth = c.plinth := rfl

theorem State.plinthsKept_dmaReset (q : Nat) : s.PlinthsKept (s.dmaReset q) := by
  unfold State.dmaReset
  refine .trans (s.plinthsKept_modCourt q (f := fun c => { c with dmaIn := [] }) fun _ => rfl) (.foldl (fun t n _ => ?_) _)
  have hevents (u : State) (l : List DmaOp) (r : State → DmaOp → FaultRec) :
      u.PlinthsKept (l.foldl (fun u o => u.event (courtDie q) (r u o)) u) := .foldl (fun u o _ => (u.unitsKept_event _ _).plinthsKept) u
  exact .trans (t.plinthsKept_modCourt q (f := Court.dropQueue n ((t.court q).queue n).length) fun c => c.dropQueue_plinth n _) (hevents _ _ _)

theorem Court.syncReset_plinth (c : Court) : c.syncReset.plinth = c.plinth := by
  unfold Court.syncReset
  refine List.foldlRecOn _ _ (motive := fun d : Court => d.plinth = c.plinth) rfl fun d hd k _ => ?_
  split
  · exact hd
  · exact hd

/-- What a niche reset makes of a court whose DMA has ended. -/
def Court.nicheCleared (c : Court) : Court := { c with regs := regsReset courtRegs Dom.niche.rank c.regs, syncIn := [], out := [], snap := [] }

theorem Court.nicheCleared_plinth (c : Court) : c.nicheCleared.plinth = c.plinth := rfl

theorem State.plinthsKept_courtNicheReset (q : Nat) : s.PlinthsKept (s.courtNicheReset q) :=
  (s.plinthsKept_dmaReset q).trans (State.plinthsKept_modCourt _ q (f := fun c => (c.rifReset.syncReset).nicheCleared) fun c =>
    (Court.nicheCleared_plinth _).trans c.rifReset.syncReset_plinth)

theorem State.unitsKept_freshRing {r : Nat} (hr : r < 128) : s.UnitsKept (s.freshRing r) := by
  refine .trans (s.unitsKept_dropRegs (lo := 0x5008 + 16 * r) (hi := 0x5010 + 16 * r) fun k hk => ?_) ⟨⟨rfl, rfl, rfl, rfl, fun _ _ => rfl⟩, rfl, rfl⟩
  have := offset_of_standing hk
  omega

theorem State.unitsKept_unpair (i : Nat) : s.UnitsKept (s.unpair i) := by
  refine .foldl (fun s p hp => .ite ?_ (.refl s)) s
  have hp : p < 8 := List.mem_range.mp hp
  refine .trans (s.unitsKept_wr (f := RES_PENDANT_VALID.by16 p) 0 (standing_eq_false ?_)) ⟨⟨rfl, rfl, rfl, rfl, fun _ _ => rfl⟩, rfl, rfl⟩
  have : (RES_PENDANT_VALID.by16 p).key = (0x6200 + 16 * p) * 64 + 63 := rfl
  omega

theorem State.plinthsKept_bindNiche (i : Nat) : s.PlinthsKept (s.bindNiche i) :=
  .foldl (fun t _ _ => t.plinthsKept_modCell _ _) s

theorem State.plinthsKept_nicheClear {i : Nat} (hi : i < 16) : s.PlinthsKept (s.nicheClear i) := by
  have hpod : ∀ k, standing k = true → k / 64 < 0x3100 + 16 * i ∨ 0x3110 + 16 * i ≤ k / 64 := fun k hk => by
    have := offset_of_standing hk
    omega
  have hcells := (s.plinthsKept_abandonHeal hi).trans
    ((State.PlinthsKept.foldl (l := s.nicheCells i) (fun t n _ => t.plinthsKept_raspEndNow n) (s.abandonHeal i)).trans
      (State.PlinthsKept.foldl (l := s.nicheCells i) (fun t n _ => t.plinthsKept_modCell n (fun c => c.nicheReset (t.env n))) _))
  have hcourts (t : State) : t.PlinthsKept ((t.nicheCourts i).foldl State.courtNicheReset t) :=
    .foldl (fun t q _ => t.plinthsKept_courtNicheReset q) t
  have hregs (t : State) : t.PlinthsKept ((t.dropRegs (0x3100 + 16 * i) (0x3110 + 16 * i)).notePod) :=
    ((t.unitsKept_dropRegs hpod).trans (State.unitsKept_notePod _)).plinthsKept
  have hrings (t : State) : t.PlinthsKept (((t.nicheRings i).foldl State.freshRing t).unpair i) :=
    (State.UnitsKept.trans (.foldl (fun t r hr => t.unitsKept_freshRing (List.mem_range.mp (List.mem_filter.mp hr).1)) t)
      (State.unitsKept_unpair _ i)).plinthsKept
  have hlast (t : State) : t.PlinthsKept { t.bindNiche i with niches := ferase t.niches i } :=
    (t.plinthsKept_bindNiche i).trans (State.UnitsKept.plinthsKept ⟨⟨rfl, rfl, rfl, rfl, fun _ _ => rfl⟩, rfl, rfl⟩)
  exact hcells.trans ((hcourts _).trans ((hregs _).trans ((hrings _).trans (hlast _))))

theorem State.plinthsKept_nicheReset {i : Nat} (hi : i < 16) : s.PlinthsKept (s.nicheReset i) :=
  (((s.unitsKept_setNiche hi 4).plinthsKept.trans (State.plinthsKept_nicheClear _ hi)).trans
    (State.unitsKept_addSat _ 1 (standing_nicheTable hi (by decide))).plinthsKept).trans (State.unitsKept_setNiche _ hi 1).plinthsKept

/-! ### The units of a niche written again (14 R424) -/

/-- Plinths and the stores of every cell are the same. -/
structure State.StoresKept (s t : State) : Prop extends s.PlinthsKept t where
  blank : ∀ n, (s.cell n).Blank → (t.cell n).Blank

theorem State.StoresKept.refl : s.StoresKept s := ⟨.refl s, fun _ h => h⟩

variable {s} in
theorem State.StoresKept.trans {t u : State} (h : s.StoresKept t) (g : t.StoresKept u) : s.StoresKept u :=
  ⟨h.toPlinthsKept.trans g.toPlinthsKept, fun n hn => g.blank n (h.blank n hn)⟩

variable {s} in
theorem State.UnitsKept.storesKept {t : State} (h : s.UnitsKept t) : s.StoresKept t := ⟨h.plinthsKept, fun n hn => (h.cell n).symm ▸ hn⟩

theorem State.StoresKept.foldl {α : Type} {f : State → α → State} {l : List α} (h : ∀ s : State, ∀ a ∈ l, s.StoresKept (f s a)) :
    s.StoresKept (l.foldl f s) :=
  List.foldlRecOn l f (motive := fun t => s.StoresKept t) (.refl s) fun t ht a ha => ht.trans (h t a ha)

theorem State.storesKept_modCell (n : Nat) {f : Cell → Cell} (h : ∀ c, c.Blank → (f c).Blank) : s.StoresKept (s.modCell n f) := by
  refine ⟨s.plinthsKept_modCell n f, fun m hm => ?_⟩
  rw [State.cell_modCell]
  split
  · next hmn => exact h _ (hmn ▸ hm)
  · exact hm

theorem State.storesKept_modCourt (q : Nat) {f : Court → Court} (h : ∀ c, (f c).plinth = c.plinth) : s.StoresKept (s.modCourt q f) :=
  ⟨s.plinthsKept_modCourt q h, fun _ hn => hn⟩

theorem Cell.Blank.wr {c : Cell} (h : c.Blank) (f : Fld) (v : Nat) : (c.wr f v).Blank := h

theorem Cell.Blank.bindTo {c : Cell} (h : c.Blank) (i : Nat) (on : Bool) : (c.bindTo i on).Blank :=
  List.foldlRecOn [0, 1, 2, 3] _ (motive := Cell.Blank) h fun _ hd _ _ => (hd.wr _ _).wr _ _

theorem Court.plinth_withRoutes (c : Court) (m : FMap W64) : ({ c with rt := m } : Court).plinth = c.plinth := rfl

theorem State.storesKept_writeNiche (i : Nat) : s.StoresKept (s.writeNiche i) := by
  have hbind : s.StoresKept (s.bindNiche i) := .foldl _ fun t _ _ => t.storesKept_modCell _ fun _ hc => ((hc.bindTo i true).wr _ _).wr _ _
  exact hbind.trans (.foldl _ fun t _ _ => t.storesKept_modCourt _ fun c => c.plinth_withRoutes _)

end

end Sys2Proof.Machine

/-! PROOF. Die resets: used for O19. -/

namespace Sys2Proof.Machine
open Sys2Proof

/-! ### Due steps -/

section
variable (s : State) (r : ResetReq)

theorem State.covers_self (hr : 1 ≤ r.level) (hr' : r.level ≤ 6) : s.covers r r = true := by
  unfold State.covers
  obtain h | h | h | h | h | h : r.level = 1 ∨ r.level = 2 ∨ r.level = 3 ∨ r.level = 4 ∨ r.level = 5 ∨ r.level = 6 := by omega
  all_goals simp [h, ResetReq.cell]

/-- The only due step taken leaves none due. -/
theorem State.resetDone_eq (h : ∀ q ∈ s.resets, s.covers r q = true) : s.resetDone r = { s.wr RST_STATUS_ESCALATING 0 with resets := [] } := by
  have hnone : s.resets.filter (fun q => !s.covers r q) = [] :=
    List.filter_eq_nil_iff.mpr fun q hq => by simp [h q hq]
  unfold State.resetDone
  rw [hnone]
  rfl

end

/-! ### The reset of a die (17 R487) -/

/-- What follows the clearing of a die first: its Atelier's image, the flaws that degrade courts, sessions, the second host port. -/
def State.restartHead (s : State) (d : Nat) : State :=
  let s := (s.bootImage d).bootDegraded
  let s := if d = s.primary then s.endSessions else s
  if d = 3 ∧ s.portOn 1 then s.portReset 1 else s

/-- The links of a die start. -/
def State.startLinks (s : State) (d : Nat) : State := (List.range 24).foldl (fun s j => s.startLink (24 * d + j)) s

/-- The created niches with a court on a die. -/
def State.dieNiches (s : State) (d : Nat) : List Nat :=
  (List.range 16).filter (fun i => s.nicheState i != 0 && (s.nicheCourts i).any (fun q => courtDie q == d))

theorem State.resetDie_eq (s : State) (r : ResetReq) : s.resetDie r =
    (let u := (s.resetDone r).resetBegun r
     let ns := u.dieNiches r.unit
     (ns.foldl State.writeNiche (((ns.foldl State.nicheReset u).clearDie r.unit).restartHead r.unit)).startLinks r.unit) := rfl

section
variable (s : State) (d : Nat)

theorem State.unitsKept_restartHead : s.UnitsKept (s.restartHead d) := by
  have hend (t : State) : t.UnitsKept (if d = t.primary then t.endSessions else t) := .ite t.unitsKept_endSessions (.refl t)
  have hport (t : State) : t.UnitsKept (if d = 3 ∧ t.portOn 1 then t.portReset 1 else t) := .ite (t.unitsKept_portReset 1) (.refl t)
  exact ((s.unitsKept_bootImage d).trans (State.unitsKept_bootDegraded _)).trans ((hend _).trans (hport _))

theorem State.unitsKept_startLinks : s.UnitsKept (s.startLinks d) := .foldl (fun s _ _ => s.unitsKept_startLink _) s

theorem State.storesKept_writeNiches (ns : List Nat) : s.StoresKept (ns.foldl State.writeNiche s) := .foldl _ fun t i _ => t.storesKept_writeNiche i

end

/-- The state once a die reset has begun, its die cleared and restarted. -/
structure State.DieRestarted (d : Nat) (u t : State) : Prop where
  hbm : t.hbm = u.hbm
  resets : t.resets = u.resets
  rd : ∀ f : Fld, standing f.key = true → t.rd f = u.rd f
  flog : t.flog = fdrop (fun k => k / 1024 == d) u.flog
  blank : ∀ n, cellDie n = d → (t.cell n).Blank
  plinth : ∀ q, (t.court q).plinth = (u.court q).plinth
  others : u.dieNiches d = [] → (∀ n, cellDie n ≠ d → t.cell n = u.cell n) ∧ ∀ q, courtDie q ≠ d → t.court q = u.court q

theorem State.dieRestarted (u : State) {d : Nat} (hd : d < 4) : let ns := u.dieNiches d
    u.DieRestarted d ((ns.foldl State.writeNiche (((ns.foldl State.nicheReset u).clearDie d).restartHead d)).startLinks d) := by
  intro ns
  have hlt : ∀ i ∈ ns, i < 16 := fun i hi => List.mem_range.mp (List.mem_filter.mp hi).1
  have hniches : u.PlinthsKept (ns.foldl State.nicheReset u) := .foldl (fun t i hi => t.plinthsKept_nicheReset (hlt i hi)) u
  have hclear := State.dieCleared_clearDie (ns.foldl State.nicheReset u) hd
  generalize hu : ns.foldl State.nicheReset u = v at hniches hclear ⊢
  have hhead := (v.clearDie d).unitsKept_restartHead d
  have hlast : (v.clearDie d).StoresKept ((ns.foldl State.writeNiche ((v.clearDie d).restartHead d)).startLinks d) :=
    hhead.storesKept.trans ((State.storesKept_writeNiches _ ns).trans (State.unitsKept_startLinks _ d).storesKept)
  refine ⟨?_, ?_, fun f hf => ?_, ?_, fun n hn => ?_, fun q => ?_, fun hns => ?_⟩
  · rw [hlast.hbm, hclear.hbm, hniches.hbm]
  · rw [hlast.resets, hclear.resets, hniches.resets]
  · rw [hlast.rd f hf, hclear.rd f hf, hniches.rd f hf]
  · rw [hlast.flog, hclear.flog, hniches.flog]
  · exact hlast.blank n (hclear.blank n hn)
  · rw [hlast.plinth, hclear.plinth, hniches.plinth]
  · have hnil : ns = [] := hns
    rw [hnil] at hu ⊢
    have huv : u = v := hu
    have hrest : (v.clearDie d).UnitsKept (((v.clearDie d).restartHead d).startLinks d) := hhead.trans (State.unitsKept_startLinks _ d)
    rw [huv]
    exact ⟨fun n hn => (hrest.cell n).trans (hclear.cell n hn), fun q hq => (hrest.court q).trans (hclear.court q hq)⟩

/-! ### DIE_RESET -/

/-- A die reset that is due and may be taken. -/
theorem dieReset_due {s : State} {r : ResetReq} {d : Nat} (hd : d < 4) (hr : s.resets = [r]) (h4 : r.level = 4) (hu : r.unit = d)
    (hs : s.inService = true) (hok : bit (s.rd MGT_BOOT_STATUS_DIE_OK) d = true) : exec (.dieReset d) s = .next (s.resetDie r) := by
  have hfind : s.resets.find? (fun r => r.level == 4 && r.unit == d) = some r := by
    rw [hr, List.find?_cons_of_pos (by simp [h4, hu])]
  have hexec : exec (.dieReset d) s = if 4 ≤ d then .fault .noSuchUnit
    else .next (match s.resets.find? (fun r => r.level == 4 && r.unit == d) with
      | some r => if s.inService ∧ bit (s.rd MGT_BOOT_STATUS_DIE_OK) d then s.resetDie r else s
      | none => s) := rfl
  rw [hexec, if_neg (by omega), hfind]
  simp only [hs, hok, and_self, if_true]

theorem dieReset_other {s : State} {d : Nat} (hd : d < 4)
    (h : (∀ r ∈ s.resets, r.level ≠ 4 ∨ r.unit ≠ d) ∨ s.inService = false ∨ bit (s.rd MGT_BOOT_STATUS_DIE_OK) d = false) :
    exec (.dieReset d) s = .next s := by
  have hexec : exec (.dieReset d) s = if 4 ≤ d then .fault .noSuchUnit
    else .next (match s.resets.find? (fun r => r.level == 4 && r.unit == d) with
      | some r => if s.inService ∧ bit (s.rd MGT_BOOT_STATUS_DIE_OK) d then s.resetDie r else s
      | none => s) := rfl
  rw [hexec, if_neg (by omega)]
  rcases h with h | h
  · have hnone : s.resets.find? (fun r => r.level == 4 && r.unit == d) = none :=
      List.find?_eq_none.mpr fun r hr => by simpa [not_or, imp_iff_not_or] using h r hr
    rw [hnone]
  · have hno : ¬(s.inService = true ∧ bit (s.rd MGT_BOOT_STATUS_DIE_OK) d = true) := by
      rintro ⟨h1, h2⟩
      rcases h with h | h
      · exact Bool.false_ne_true (h.symm.trans h1)
      · exact Bool.false_ne_true (h.symm.trans h2)
    split
    · rw [if_neg hno]
    · rfl

/-- What a due die reset leaves. -/
theorem resetDie_leaves {s : State} {r : ResetReq} {d : Nat} (hd : d < 4) (hr : s.resets = [r]) (h4 : r.level = 4) (hu : r.unit = d)
    (hf : s.crashFrozen = []) :
    let t := s.resetDie r
    t.resets = [] ∧ t.rd RST_STATUS_LAST_LEVEL = 4 ∧ t.rd RST_CAUSE_LEVEL = 4 ∧
      t.rd RST_STATUS_DIE_CNT = min (s.rd RST_STATUS_DIE_CNT + 1) 65535 ∧ t.hbm = s.hbm ∧
      (∀ k < 1024, fget flog0 t.flog (1024 * d + k) = 0) ∧ (∀ k, k / 1024 ≠ d → fget flog0 t.flog k = fget flog0 s.flog k) ∧
      (∀ n, cellDie n = d → (t.cell n).Blank) ∧ (∀ q, (t.court q).plinth = (s.court q).plinth) ∧
      ((∀ i < 16, s.nicheState i = 0) → (∀ n, cellDie n ≠ d → t.cell n = s.cell n) ∧ ∀ q, courtDie q ≠ d → t.court q = s.court q) := by
  have hdone := s.resetDone_eq r (by
    rw [hr]
    intro q hq
    rw [List.mem_singleton.mp hq]
    exact s.covers_self r (by omega) (by omega))
  generalize ha : { s.wr RST_STATUS_ESCALATING 0 with resets := [] } = a at hdone
  have hrd (f : Fld) (hf : f.key ≠ RST_STATUS_ESCALATING.key) : a.rd f = s.rd f := by
    rw [← ha]
    exact s.rd_wr_ne 0 hf
  have hbegun := a.stepBegun r (by omega) (by omega)
  have hcells : (a.resetBegun r).cells = s.cells := (hbegun.cells (by rw [← ha]; exact hf)).trans (by rw [← ha]; rfl)
  have hrest := (a.resetBegun r).dieRestarted (hu ▸ hd : r.unit < 4)
  rw [State.resetDie_eq, hdone]
  generalize a.resetBegun r = u at *
  have hcourts : u.courts = s.courts := (congrArg State.courts hbegun.same).trans (by rw [← ha]; rfl)
  have hhbm : u.hbm = s.hbm := (congrArg State.hbm hbegun.same).trans (by rw [← ha]; rfl)
  have hflog : u.flog = s.flog := (congrArg State.flog hbegun.same).trans (by rw [← ha]; rfl)
  have hresets : u.resets = [] := (congrArg State.resets hbegun.same).trans (by rw [← ha])
  subst hu
  refine ⟨hrest.resets.trans hresets, ?_, ?_, ?_, hrest.hbm.trans hhbm, fun k hk => ?_, fun k hk => ?_, hrest.blank, fun q => ?_, fun hn => ?_⟩
  · rw [hrest.rd _ (by decide), hbegun.last, h4]
  · rw [hrest.rd _ (by decide), hbegun.cause, h4]
  · rw [hrest.rd _ (by decide), hbegun.dies h4, hrd _ (by decide)]
  · rw [hrest.flog, fget_fdrop, if_pos (by rw [beq_iff_eq]; omega)]
    rfl
  · rw [hrest.flog, fget_fdrop, if_neg (by rw [beq_iff_eq]; exact hk), hflog]
  · rw [hrest.plinth]
    exact congrArg (fun cs => (fget court0 cs q).plinth) hcourts
  · have hnone : u.dieNiches r.unit = [] := List.filter_eq_nil_iff.mpr fun i hi => by
      have hkey : (NCH_STATE_STATE.niche i).key = (0x1008 + 0x10 * i) * 64 := rfl
      have hi : i < 16 := List.mem_range.mp hi
      have hstate : u.nicheState i = 0 := by
        unfold State.nicheState
        rw [hbegun.rd _ (by omega), hrd _ (by rw [hkey, show RST_STATUS_ESCALATING.key = 0x7000 * 64 + 4 from rfl]; omega)]
        exact hn i hi
      simp [hstate]
    obtain ⟨hc, hq⟩ := hrest.others hnone
    exact ⟨fun n h => (hc n h).trans (congrArg (cget · n) hcells), fun q h => (hq q h).trans (congrArg (fget court0 · q) hcourts)⟩

end Sys2Proof.Machine

/-! PROOF. Package resets, power cycles and their requests: used for O19. -/

namespace Sys2Proof.Machine
open Sys2Proof

/-! ### The package cleared (17 R487) -/

/-- No niche, ring, queue, link buffer or scratchpad holds anything, and every die stands still. -/
structure State.PackageClear (t : State) : Prop where
  halt : ∀ d < 4, fget noMark t.dieHalt d = true
  niches : t.niches = []
  rings : t.rings = []
  hostQs : t.hostQs = []
  flights : t.flights = []
  link : ∀ l, (t.link l).rx = [] ∧ (t.link l).retry = []
  spd : ∀ n, cellDie n < 4 → (t.cell n).spd = []

theorem fget_of_forall {α : Type} {d : Nat → α} {P : α → Prop} {m : FMap α} (hd : ∀ k, P (d k)) (hm : ∀ e ∈ m, P e.2) (k : Nat) : P (fget d m k) := by
  induction m with
  | nil => exact hd k
  | cons e m ih =>
    unfold fget
    split
    · exact hm e List.mem_cons_self
    · exact ih fun e he => hm e (List.mem_cons_of_mem _ he)

/-- Each die cleared and its image chosen. -/
def State.clearDies (s : State) : State := [0, 1, 2, 3].foldl (fun s d => (s.clearDie d).bootImage d) s

/-- Memory, due resets and the count of package resets are the same, and the standing registers. -/
structure State.Through (s t : State) : Prop where
  hbm : t.hbm = s.hbm
  resets : t.resets = s.resets
  pkgResets : t.pkgResets = s.pkgResets
  rd : ∀ f : Fld, standing f.key = true → t.rd f = s.rd f

theorem State.Through.trans {s t u : State} (h : s.Through t) (g : t.Through u) : s.Through u :=
  ⟨g.hbm.trans h.hbm, g.resets.trans h.resets, g.pkgResets.trans h.pkgResets, fun f hf => (g.rd f hf).trans (h.rd f hf)⟩

theorem State.UnitsKept.through {s t : State} (h : s.UnitsKept t) : s.Through t := ⟨h.hbm, h.resets, h.pkgResets, h.rd⟩

theorem State.DieCleared.through {d : Nat} {s t : State} (h : s.DieCleared d t) : s.Through t := ⟨h.hbm, h.resets, h.pkgResets, h.rd⟩

/-- The dies before `k` are cleared. -/
def State.ClearedBelow (s : State) (k : Nat) : Prop := ∀ n, cellDie n < k → (s.cell n).Blank

theorem State.clearDie_step (s : State) {d : Nat} (hd : d < 4) (h : s.ClearedBelow d) :
    s.Through ((s.clearDie d).bootImage d) ∧ ((s.clearDie d).bootImage d).ClearedBelow (d + 1) := by
  have hclear := s.dieCleared_clearDie hd
  have himage := (s.clearDie d).unitsKept_bootImage d
  refine ⟨hclear.through.trans himage.through, fun n hn => ?_⟩
  rw [himage.cell n]
  by_cases hnd : cellDie n = d
  · exact hclear.blank n hnd
  · rw [hclear.cell n hnd]
    exact h n (by omega)

theorem State.clearDies_leaves (s : State) : s.Through s.clearDies ∧ s.clearDies.ClearedBelow 4 := by
  unfold State.clearDies
  simp only [List.foldl_cons, List.foldl_nil]
  obtain ⟨h0, b0⟩ := s.clearDie_step (d := 0) (by decide) fun n hn => absurd hn (Nat.not_lt_zero _)
  obtain ⟨h1, b1⟩ := State.clearDie_step _ (d := 1) (by decide) b0
  obtain ⟨h2, b2⟩ := State.clearDie_step _ (d := 2) (by decide) b1
  obtain ⟨h3, b3⟩ := State.clearDie_step _ (d := 3) (by decide) b2
  exact ⟨((h0.trans h1).trans h2).trans h3, b3⟩

/-- The registers of the package after a package reset (R15). -/
def pkgRegsReset (m : Regs) : Regs := fdrop (fun k => decide (0x10000 ≤ k / 64)) (regsReset Machine.pkgRegs Dom.package.rank m)

theorem rget_pkgRegsReset_tick (m : Regs) : rget pkgRst (pkgRegsReset m) TMB_TICK_TICK = rget pkgRst m TMB_TICK_TICK := by
  unfold pkgRegsReset regsReset rget
  rw [fget_fdrop, if_neg (by decide), fget_fdrop, if_neg (by decide)]

theorem nicheState_dom : ∀ i < 16, (regDom Machine.pkgRegs (NCH_STATE_STATE.niche i).key).rank ≤ Dom.package.rank ∧ pkgRst (NCH_STATE_STATE.niche i).key = 0 := by
  decide

theorem rget_pkgRegsReset_niche (m : Regs) {i : Nat} (hi : i < 16) : rget pkgRst (pkgRegsReset m) (NCH_STATE_STATE.niche i) = 0 := by
  obtain ⟨hdom, hzero⟩ := nicheState_dom i hi
  have hkey : (NCH_STATE_STATE.niche i).key = (0x1008 + 0x10 * i) * 64 := rfl
  unfold pkgRegsReset regsReset rget
  rw [fget_fdrop, if_neg (decide_eq_true_iff.not.mpr (by omega)), fget_fdrop, if_pos (decide_eq_true hdom), hzero]

/-! ### What a package reset leaves -/

/-- The dirty segments widened by the niches' windows, the error records dropped, sessions ended and the stored objects read back. -/
def State.readBack (s : State) : State :=
  (State.endSessions { s with dirty := s.dirty ++ segsWithout ((List.range 16).flatMap s.windows) s.dirty, errLog := [], hbmErrs := [] }).fromNv.loseFlaws

theorem State.unitsKept_readBack (s : State) : s.UnitsKept s.readBack := by
  have hdrop : s.UnitsKept { s with dirty := s.dirty ++ segsWithout ((List.range 16).flatMap s.windows) s.dirty, errLog := [], hbmErrs := [] } :=
    ⟨⟨rfl, rfl, rfl, rfl, fun _ _ => rfl⟩, rfl, rfl⟩
  exact ((hdrop.trans (State.unitsKept_endSessions _)).trans (State.unitsKept_fromNv _)).trans (State.unitsKept_loseFlaws _)

/-- What a package reset clears outside the dies. -/
def State.dropPackage (s : State) : State :=
  { s with
    dieRegs := [0, 1, 2, 3].foldl (fun m d => fset regs0 m d (regsReset Machine.dieRegs Dom.package.rank (fget regs0 m d))) s.dieRegs
    pkgRegs := pkgRegsReset s.pkgRegs
    niches := [], rings := [], pends := [], hostQs := [], hostRings := [], irq := []
    links := s.links.map (fun e => (e.1, { saved := e.2.saved : Link })) |>.filter (fun e => e.2 != {})
    pod := {}, flights := [], doubts := [], lastReset := [], crashFrozen := [], crashOpen := false
    dieHalt := [(0, true), (1, true), (2, true), (3, true)]
    mgmt := { s.mgmt with powerOn := false, seamsOut := [], kept := [], gate := false, goal := none } }

theorem State.clearPackage_eq (s : State) : s.clearPackage = s.readBack.clearDies.dropPackage := by
  unfold State.clearPackage State.dropPackage State.clearDies State.readBack pkgRegsReset
  rfl

theorem State.packageClear_dropPackage {s : State} (h : s.ClearedBelow 4) : s.dropPackage.PackageClear where
  halt := by
    change ∀ d < 4, fget noMark [(0, true), (1, true), (2, true), (3, true)] d = true
    decide
  niches := rfl
  rings := rfl
  hostQs := rfl
  flights := rfl
  link l := by
    refine fget_of_forall (P := fun k : Link => k.rx = [] ∧ k.retry = []) (fun _ => ⟨rfl, rfl⟩) (fun e he => ?_) l
    obtain ⟨a, -, rfl⟩ := List.mem_map.mp (List.mem_filter.mp he).1
    exact ⟨rfl, rfl⟩
  spd n hn := (h n hn).1

theorem State.pkgRegs_dropPackage (s : State) : s.dropPackage.pkgRegs = pkgRegsReset s.pkgRegs := rfl

theorem State.tick_dropPackage (s : State) : s.dropPackage.tick = s.tick := by
  unfold State.tick State.rd
  rw [State.pkgRegs_dropPackage]
  exact rget_pkgRegsReset_tick _

theorem State.nicheState_dropPackage (s : State) {i : Nat} (hi : i < 16) : s.dropPackage.nicheState i = 0 := by
  unfold State.nicheState State.rd
  rw [State.pkgRegs_dropPackage]
  exact rget_pkgRegsReset_niche _ hi

/-- A package cleared, with memory, due resets, their counts and the timebase as they were. -/
structure State.PackageDropped (s t : State) : Prop extends t.PackageClear where
  hbm : t.hbm = s.hbm
  resets : t.resets = s.resets
  pkgResets : t.pkgResets = s.pkgResets
  tick : t.tick = s.tick
  nicheState : ∀ i < 16, t.nicheState i = 0

theorem State.Through.packageDropped {s u : State} (h : s.Through u) (hb : u.ClearedBelow 4) : s.PackageDropped u.dropPackage where
  toPackageClear := State.packageClear_dropPackage hb
  hbm := h.hbm
  resets := h.resets
  pkgResets := h.pkgResets
  tick := u.tick_dropPackage.trans (h.rd TMB_TICK_TICK (by decide))
  nicheState _ hi := u.nicheState_dropPackage hi

/-- A package reset clears the dies first and then what lies outside them. -/
theorem State.packageDropped_clearPackage (s : State) : s.PackageDropped s.clearPackage := by
  obtain ⟨hdies, hblank⟩ := s.readBack.clearDies_leaves
  rw [State.clearPackage_eq]
  exact (s.unitsKept_readBack.through.trans hdies).packageDropped hblank

/-! ### Steps that become due -/

theorem State.demand_eq {s : State} (h : s.resets = []) (r : ResetReq) :
    s.demand r = { s.wr RST_STATUS_ESCALATING 1 with resets := [{ r.norm with since := s.tick }] } := by
  unfold State.demand
  simp only [h, List.any_nil, List.filter_nil, List.nil_append, if_neg Bool.false_ne_true]

/-! ### PACKAGE_RESET -/

/-- The state of bring-up shown, every die busy, the package resets of the last hour noted. -/
def State.showReset (s : State) (boot : Nat) (ts : List Nat) : State :=
  { (s.wr MGT_BOOT_STATUS_STATE boot).wr RST_STATUS_DIE_BUSY 0xF with pkgResets := ts }

/-- The clock is taken as back. -/
def State.clockBack (s : State) : State :=
  if s.mgmt.clockLost then State.event { s with mgmt := { s.mgmt with clockLost := false } } 0 { code := 0x41, space := 3, kind := 6 } else s

/-- A third package reset within the hour makes a power cycle due. -/
def State.hourly (s : State) (r : ResetReq) (ts : List Nat) : State :=
  if 3 ≤ ts.length then s.demand { r with level := 6, unit := 0, trigger := 8 } else s

/-- The package resets of the last hour, this one included. -/
def State.lastHour (s : State) : List Nat := s.pkgResets.filter (fun t => decide (s.tick < t + hourTicks)) ++ [s.tick]

/-- A package reset that has begun. -/
def State.beginPackage (s : State) (r : ResetReq) : State := (s.resetDone { r with level := 5 }).resetBegun { r with level := 5 }

/-- The end of a package reset, once everything is cleared. -/
def State.closeReset (s : State) (r : ResetReq) (boot : Nat) : State := ((s.showReset boot s.lastHour).clockBack).hourly r s.lastHour

theorem State.resetPackage_eq (s : State) (r : ResetReq) (boot : Nat) : s.resetPackage r boot = ((s.beginPackage r).clearPackage).closeReset r boot := by
  unfold State.resetPackage State.closeReset State.beginPackage State.hourly State.clockBack State.showReset State.lastHour
  rfl

/-- Outside the registers of the reset and boot blocks, the due resets and the count of package resets, nothing differs that a
cleared package shows. -/
structure State.Shown (s t : State) : Prop where
  same : ∃ m rs ps g e, t = { s with pkgRegs := m, resets := rs, pkgResets := ps, mgmt := g, events := e }
  rd : ∀ f : Fld, f.key < 0x7000 * 64 → t.rd f = s.rd f

theorem State.Shown.trans {s t u : State} (h : s.Shown t) (g : t.Shown u) : s.Shown u := by
  obtain ⟨⟨m, rs, ps, x, e, rfl⟩, h⟩ := h
  obtain ⟨⟨m', rs', ps', x', e', rfl⟩, g⟩ := g
  exact ⟨⟨m', rs', ps', x', e', rfl⟩, fun f hf => (g f hf).trans (h f hf)⟩

theorem State.Shown.refl (s : State) : s.Shown s := ⟨⟨_, _, _, _, _, rfl⟩, fun _ _ => rfl⟩

theorem State.shown_wr (s : State) {f : Fld} (v : Nat) (h : 0x7000 * 64 ≤ f.key) : s.Shown (s.wr f v) :=
  ⟨⟨_, _, _, _, _, rfl⟩, fun _ hg => s.rd_wr_ne v (by omega)⟩

theorem State.shown_showReset (s : State) (boot : Nat) (ts : List Nat) : s.Shown (s.showReset boot ts) :=
  ((s.shown_wr boot (by decide)).trans (State.shown_wr _ 0xF (by decide))).trans ⟨⟨_, _, _, _, _, rfl⟩, fun _ _ => rfl⟩

theorem State.shown_clockBack (s : State) : s.Shown s.clockBack := by
  unfold State.clockBack
  split
  · exact ⟨⟨_, _, _, _, _, rfl⟩, fun _ _ => rfl⟩
  · exact .refl s

theorem State.shown_demand (s : State) (r : ResetReq) : s.Shown (s.demand r) := by
  unfold State.demand
  dsimp only
  split
  · exact .refl s
  · exact (s.shown_wr (f := RST_STATUS_ESCALATING) 1 (by decide)).trans ⟨⟨_, _, _, _, _, rfl⟩, fun _ _ => rfl⟩

theorem State.shown_hourly (s : State) (r : ResetReq) (ts : List Nat) : s.Shown (s.hourly r ts) := by
  unfold State.hourly
  split
  · exact s.shown_demand _
  · exact .refl s

theorem State.clockBack_pkgRegs (s : State) : s.clockBack.pkgRegs = s.pkgRegs := by
  unfold State.clockBack
  split <;> rfl

theorem State.clockBack_resets (s : State) : s.clockBack.resets = s.resets := by
  unfold State.clockBack
  split <;> rfl

theorem State.clockBack_pkgResets (s : State) : s.clockBack.pkgResets = s.pkgResets := by
  unfold State.clockBack
  split <;> rfl

theorem State.demand_pkgResets (s : State) (r : ResetReq) : (s.demand r).pkgResets = s.pkgResets := by
  unfold State.demand
  dsimp only
  split <;> rfl

theorem State.hourly_pkgResets (s : State) (r : ResetReq) (ts : List Nat) : (s.hourly r ts).pkgResets = s.pkgResets := by
  unfold State.hourly
  split
  · exact s.demand_pkgResets _
  · rfl

theorem State.rd_demand (s : State) (r : ResetReq) {f : Fld} (h : f.key ≠ RST_STATUS_ESCALATING.key) : (s.demand r).rd f = s.rd f := by
  unfold State.demand
  dsimp only
  split
  · rfl
  · exact s.rd_wr_ne 1 h

theorem State.rd_hourly (s : State) (r : ResetReq) (ts : List Nat) {f : Fld} (h : f.key ≠ RST_STATUS_ESCALATING.key) : (s.hourly r ts).rd f = s.rd f := by
  unfold State.hourly
  split
  · exact s.rd_demand _ h
  · rfl

theorem State.rd_showReset (s : State) (boot : Nat) (ts : List Nat) (f : Fld) :
    (s.showReset boot ts).rd f = ((s.wr MGT_BOOT_STATUS_STATE boot).wr RST_STATUS_DIE_BUSY 0xF).rd f :=
  State.rd_of_pkgRegs (t := s.showReset boot ts) (s := (s.wr MGT_BOOT_STATUS_STATE boot).wr RST_STATUS_DIE_BUSY 0xF) rfl f

theorem State.shown_closeReset (s : State) (r : ResetReq) (boot : Nat) : s.Shown (s.closeReset r boot) :=
  ((s.shown_showReset boot _).trans (State.shown_clockBack _)).trans (State.shown_hourly _ r _)

theorem State.rd_closeReset (s : State) {boot : Nat} (r : ResetReq) (hb : boot < 16) :
    (s.closeReset r boot).rd MGT_BOOT_STATUS_STATE = boot ∧ (s.closeReset r boot).rd RST_STATUS_DIE_BUSY = 15 := by
  unfold State.closeReset
  refine ⟨?_, ?_⟩
  · rw [State.rd_hourly _ _ _ (by decide), State.rd_of_pkgRegs (State.clockBack_pkgRegs _), State.rd_showReset, State.rd_wr_ne _ _ (by decide),
      State.rd_wr_self]
    exact Nat.mod_eq_of_lt hb
  · rw [State.rd_hourly _ _ _ (by decide), State.rd_of_pkgRegs (State.clockBack_pkgRegs _), State.rd_showReset]
    exact State.rd_wr_self _ _ _

theorem State.PackageClear.shown {s t : State} (h : s.PackageClear) (g : s.Shown t) : t.PackageClear := by
  obtain ⟨m, rs, ps, x, e, rfl⟩ := g.same
  exact ⟨h.halt, h.niches, h.rings, h.hostQs, h.flights, h.link, h.spd⟩

/-- A package reset that has begun: memory, counts and the timebase as they were. -/
theorem State.beginPackage_leaves (s : State) (r : ResetReq) : (s.beginPackage r).hbm = s.hbm ∧ (s.beginPackage r).pkgResets = s.pkgResets ∧
    (s.beginPackage r).tick = s.tick ∧ (s.beginPackage r).resets = s.resets.filter (fun q => !s.covers { r with level := 5 } q) := by
  have hbegun := (s.resetDone { r with level := 5 }).stepBegun { r with level := 5 } (Nat.le_add_left 2 3) (Nat.le_add_left 6 2)
  refine ⟨(congrArg State.hbm hbegun.same).trans rfl, (congrArg State.pkgResets hbegun.same).trans rfl, ?_, (congrArg State.resets hbegun.same).trans rfl⟩
  refine (hbegun.rd TMB_TICK_TICK (by decide)).trans ?_
  exact s.rd_wr_ne (f := RST_STATUS_ESCALATING) (g := TMB_TICK_TICK) _ (by decide)

/-- The end of a package reset, from a package that has been cleared. -/
theorem State.PackageDropped.shown {u v t : State} (h : u.PackageDropped v) (g : v.Shown t) :
    t.PackageClear ∧ t.hbm = u.hbm ∧ t.tick = u.tick ∧ ∀ i < 16, t.nicheState i = 0 := by
  refine ⟨h.toPackageClear.shown g, ?_, (g.rd TMB_TICK_TICK (by decide)).trans h.tick, fun i hi => ?_⟩
  · obtain ⟨m, rs, ps, x, e, ht⟩ := g.same
    exact (congrArg State.hbm ht).trans h.hbm
  · have hkey : (NCH_STATE_STATE.niche i).key = (0x1008 + 0x10 * i) * 64 := rfl
    exact (g.rd _ (by omega)).trans (h.nicheState i hi)

/-- What a package reset leaves, whatever was due. -/
theorem resetPackage_leaves (s : State) (r : ResetReq) {boot : Nat} (hb : boot < 16) :
    (s.resetPackage r boot).PackageClear ∧ (s.resetPackage r boot).hbm = s.hbm ∧ (s.resetPackage r boot).tick = s.tick ∧
      (∀ i < 16, (s.resetPackage r boot).nicheState i = 0) ∧ (s.resetPackage r boot).rd MGT_BOOT_STATUS_STATE = boot ∧
      (s.resetPackage r boot).rd RST_STATUS_DIE_BUSY = 15 := by
  obtain ⟨hhbm, -, htick, -⟩ := s.beginPackage_leaves r
  have hdrop := (s.beginPackage r).packageDropped_clearPackage
  rw [State.resetPackage_eq]
  obtain ⟨hclear, hmem, ht, hniche⟩ := hdrop.shown (State.shown_closeReset _ r boot)
  exact ⟨hclear, hmem.trans hhbm, ht.trans htick, hniche, State.rd_closeReset _ r hb⟩

/-- The third package reset within an hour makes a power cycle due. -/
theorem State.hourly_resets {s : State} (h : s.resets = []) (r : ResetReq) (ts : List Nat) :
    (ts.length < 3 → (s.hourly r ts).resets = []) ∧ (3 ≤ ts.length → ∃ x, (s.hourly r ts).resets = [x] ∧ x.level = 6 ∧ x.trigger = 8) := by
  unfold State.hourly
  refine ⟨fun h3 => ?_, fun h3 => ?_⟩
  · rw [if_neg (by omega), h]
  · rw [if_pos h3, State.demand_eq h]
    exact ⟨_, rfl, rfl, rfl⟩

theorem State.closeReset_resets {s : State} (h : s.resets = []) (r : ResetReq) (boot : Nat) :
    (s.lastHour.length < 3 → (s.closeReset r boot).resets = []) ∧
      (3 ≤ s.lastHour.length → ∃ x, (s.closeReset r boot).resets = [x] ∧ x.level = 6 ∧ x.trigger = 8) := by
  have hshow : (s.showReset boot s.lastHour).resets = s.resets := rfl
  exact State.hourly_resets ((State.clockBack_resets _).trans (hshow.trans h)) r s.lastHour

theorem State.closeReset_pkgResets (s : State) (r : ResetReq) (boot : Nat) : (s.closeReset r boot).pkgResets = s.lastHour := by
  unfold State.closeReset
  rw [State.hourly_pkgResets, State.clockBack_pkgResets]
  rfl

/-- A package reset with nothing else due counts itself. -/
theorem resetPackage_counts {s : State} {r : ResetReq} (hr : s.resets = [r]) (h5 : r.level = 5) (boot : Nat) :
    (s.resetPackage r boot).pkgResets = s.lastHour ∧ (s.lastHour.length < 3 → (s.resetPackage r boot).resets = []) ∧
      (3 ≤ s.lastHour.length → ∃ x, (s.resetPackage r boot).resets = [x] ∧ x.level = 6 ∧ x.trigger = 8) := by
  have hlevel : { r with level := 5 } = r := by rw [← h5]
  obtain ⟨-, hcount, htick, hresets⟩ := s.beginPackage_leaves r
  have hnone : s.resets.filter (fun q => !s.covers { r with level := 5 } q) = [] := List.filter_eq_nil_iff.mpr fun q hq => by
    rw [hr] at hq
    rw [List.mem_singleton.mp hq, hlevel, s.covers_self r (by omega) (by omega)]
    decide
  have hdrop := (s.beginPackage r).packageDropped_clearPackage
  have hts : (s.beginPackage r).clearPackage.lastHour = s.lastHour := by
    unfold State.lastHour
    rw [hdrop.pkgResets, hdrop.tick, hcount, htick]
  have hnow : (s.beginPackage r).clearPackage.resets = [] := hdrop.resets.trans (hresets.trans hnone)
  rw [State.resetPackage_eq, ← hts]
  exact ⟨State.closeReset_pkgResets _ r boot, State.closeReset_resets hnow r boot⟩

theorem packageReset_due {s : State} {r : ResetReq} (hr : s.resets = [r]) (h5 : r.level = 5) (hh : s.resetHeld = false) :
    exec .packageReset s = .next (s.resetPackage r 1) := by
  have hexec : exec .packageReset s = .next (match s.resets.find? (fun r => r.level == 5) with
    | some r => if s.resetHeld then s else s.resetPackage r 1
    | none => s) := rfl
  rw [hexec, hr, List.find?_cons_of_pos (by simp [h5])]
  simp only [hh, Bool.false_eq_true, if_false]

theorem packageReset_held {s : State} (h : s.resets = [] ∨ s.resetHeld = true) : exec .packageReset s = .next s := by
  have hexec : exec .packageReset s = .next (match s.resets.find? (fun r => r.level == 5) with
    | some r => if s.resetHeld then s else s.resetPackage r 1
    | none => s) := rfl
  rw [hexec]
  rcases h with h | h
  · rw [h]
    rfl
  · split
    · rw [if_pos h]
    · rfl

end Sys2Proof.Machine

/-! PROOF. Power cycles, SYS_RST# and requests for resets: used for O19. -/

namespace Sys2Proof.Machine
open Sys2Proof

/-! ### POWER_CYCLE (17 R497) -/

/-- The crash summary written where NV writes are possible. -/
def State.keepSummary (s : State) : State :=
  if s.flag PWR_STATUS_NV_OK then
    { s with mgmt := { s.mgmt with nv := s.mgmt.nv ++ [⟨3, (s.mgmt.nv.filter (fun e => e.area == 3)).length % 16, s.crashSummary⟩] } } else s

/-- PWR_CYCLE_REQ# held. -/
def State.askCycle (s : State) : State := { s with mgmt := { s.mgmt with cycleReq := true } }

theorem State.powerCycle_eq (s : State) (r : ResetReq) :
    s.powerCycle r true = ((((s.resetDone r).resetBegun { r with level := 6 }).askCycle).keepSummary).alert MGT_ALERT_PWR_CYCLE := by
  unfold State.powerCycle State.keepSummary State.askCycle
  simp only [true_and]

/-- A summary changes the NV store only. -/
theorem State.keepSummary_leaves (s : State) : ∃ l, s.keepSummary = { s with mgmt := { s.mgmt with nv := s.mgmt.nv ++ l } } ∧
    (s.rd PWR_STATUS_NV_OK = 0 → l = []) ∧ (s.rd PWR_STATUS_NV_OK = 1 → l.length = 1) := by
  unfold State.keepSummary State.flag
  split
  · next h => exact ⟨_, rfl, fun h0 => by simp [h0] at h, fun _ => rfl⟩
  · next h => exact ⟨[], by rw [List.append_nil], fun _ => rfl, fun h1 => by simp [h1] at h⟩

theorem powerCycle_leaves {s : State} {r : ResetReq} (hr : s.resets = [r]) (h6 : r.level = 6) :
    (s.powerCycle r true).resets = [] ∧ (s.powerCycle r true).rd MGT_ALERT_PWR_CYCLE = 1 ∧ (s.powerCycle r true).mgmt.cycleReq = true ∧
      (s.powerCycle r true).rd RST_STATUS_LAST_LEVEL = 6 ∧ (s.powerCycle r true).hbm = s.hbm ∧
      (s.rd PWR_STATUS_NV_OK = 0 → (s.powerCycle r true).mgmt.nv = s.mgmt.nv) ∧
      (s.rd PWR_STATUS_NV_OK = 1 → (s.powerCycle r true).mgmt.nv.length = s.mgmt.nv.length + 1) := by
  have hdone := s.resetDone_eq r (by
    rw [hr]
    intro q hq
    rw [List.mem_singleton.mp hq]
    exact s.covers_self r (by omega) (by omega))
  have hbegun := (s.resetDone r).stepBegun { r with level := 6 } (Nat.le_add_left 2 4) (Nat.le_add_left 7 1)
  have hnv : ((s.resetDone r).resetBegun { r with level := 6 }).rd PWR_STATUS_NV_OK = s.rd PWR_STATUS_NV_OK := by
    refine (hbegun.rd PWR_STATUS_NV_OK (by decide)).trans ?_
    rw [hdone]
    exact s.rd_wr_ne (f := RST_STATUS_ESCALATING) (g := PWR_STATUS_NV_OK) 0 (by decide)
  rw [State.powerCycle_eq]
  generalize (s.resetDone r).resetBegun { r with level := 6 } = u at hbegun hnv
  have hmgmt : u.mgmt = s.mgmt := (congrArg State.mgmt hbegun.same).trans rfl
  have hstore : u.mgmt.nv = s.mgmt.nv := by rw [hmgmt]
  have hhbm : u.hbm = s.hbm := (congrArg State.hbm hbegun.same).trans rfl
  have hresets : u.resets = [] := (congrArg State.resets hbegun.same).trans (by rw [hdone])
  obtain ⟨l, hkeep, h0, h1⟩ := u.askCycle.keepSummary_leaves
  have hask : u.askCycle.rd PWR_STATUS_NV_OK = s.rd PWR_STATUS_NV_OK := hnv
  rw [hkeep, State.alert]
  refine ⟨hresets, State.rd_wr_self _ _ _, rfl, ?_, hhbm, fun hz => ?_, fun ho => ?_⟩
  · exact (State.rd_wr_ne _ _ (by decide)).trans hbegun.last
  · rw [h0 (hask.trans hz), List.append_nil]
    exact hstore
  · refine (List.length_append ..).trans ?_
    rw [h1 (hask.trans ho)]
    exact congrArg (fun l => l.length + 1) hstore

theorem powerCycle_due {s : State} {r : ResetReq} (hr : s.resets = [r]) (h6 : r.level = 6) : exec .powerCycle s = .next (s.powerCycle r true) := by
  have hexec : exec .powerCycle s = .next (match s.resets.find? (fun r => r.level == 6) with
    | some r => s.powerCycle r true
    | none => s) := rfl
  rw [hexec, hr, List.find?_cons_of_pos (by simp [h6])]

theorem powerCycle_undue {s : State} (h : ∀ r ∈ s.resets, r.level ≠ 6) : exec .powerCycle s = .next s := by
  have hexec : exec .powerCycle s = .next (match s.resets.find? (fun r => r.level == 6) with
    | some r => s.powerCycle r true
    | none => s) := rfl
  rw [hexec, List.find?_eq_none.mpr fun r hr => by simpa using h r hr]

/-! ### SYS_RST# (21 R577) -/

theorem sysRstAssert_again {s : State} (h : s.mgmt.sysRst = true) : exec .sysRstAssert s = .next s :=
  congrArg Host.Outcome.next (if_pos h)

theorem sysRstAssert_first {s : State} (h : s.mgmt.sysRst = false) : exec .sysRstAssert s =
    .next { s.haltAll.resetPackage (askedReset 5 0 none) 0 with mgmt := { (s.haltAll.resetPackage (askedReset 5 0 none) 0).mgmt with sysRst := true } } :=
  congrArg Host.Outcome.next (if_neg (by rw [h]; exact Bool.false_ne_true))

/-! ### Requests for resets (17 R500) -/

/-- A request with nothing due makes its step due. -/
theorem State.demand_asks {s : State} (h : s.resets = []) (r : ResetReq) : ∃ x, s.demand r = { s with resets := [x], pkgRegs := (s.demand r).pkgRegs } ∧
    PkgSets [(RST_STATUS_ESCALATING, 1)] s (s.demand r) ∧ x.level = r.norm.level ∧ x.unit = r.norm.unit ∧ x.trigger = r.norm.trigger := by
  rw [State.demand_eq h]
  refine ⟨_, rfl, fun g => ?_, rfl, rfl, rfl⟩
  have hrd : (s.wr RST_STATUS_ESCALATING 1).rd g = newest [(RST_STATUS_ESCALATING, 1)] g (s.rd g) := by
    rw [State.rd_wr]
    unfold newest
    by_cases hg : g.key = RST_STATUS_ESCALATING.key
    · rw [if_pos hg, List.find?_cons_of_pos (by simp [hg])]
      rfl
    · rw [if_neg hg, List.find?_cons_of_neg (by simpa using Ne.symm hg)]
      rfl
  exact hrd

theorem pkgResetReq_asks {s : State} : exec .pkgResetReq s = .next (s.demand { level := 5, unit := 0, trigger := 3 }) := rfl

theorem pwrcycReq_asks {s : State} : exec .pwrcycReq s = .next (s.demand { level := 6, unit := 0, trigger := 3 }) := rfl

/-- DIE_REQ with one bit set asks for that die alone. -/
theorem dieResetReq_one (s : State) : exec (.dieResetReq 0) s = .next s ∧
    exec (.dieResetReq 1) s = .next (s.demand { level := 4, unit := 0, trigger := 3, die := 0 }) ∧
    exec (.dieResetReq 2) s = .next (s.demand { level := 4, unit := 1, trigger := 3, die := 1 }) ∧
    exec (.dieResetReq 4) s = .next (s.demand { level := 4, unit := 2, trigger := 3, die := 2 }) ∧
    exec (.dieResetReq 8) s = .next (s.demand { level := 4, unit := 3, trigger := 3, die := 3 }) := ⟨rfl, rfl, rfl, rfl, rfl⟩

/-- The level and unit of each due step. -/
def State.due (s : State) : List (Nat × Nat) := s.resets.map (fun x => (x.level, x.unit))

/-- A die's step is not absorbed by another die's. -/
theorem State.due_demand_die {s : State} {d : Nat} (hd : d ≠ 0) (h : ∀ p ∈ s.due, p.1 = 4 ∧ p.2 ≠ d) :
    (s.demand { level := 4, unit := d, trigger := 3, die := d }).due = s.due ++ [(4, d)] := by
  have hdue : ∀ q ∈ s.resets, q.level = 4 ∧ q.unit ≠ d := fun q hq => h (q.level, q.unit) (List.mem_map.mpr ⟨q, hq, rfl⟩)
  have hnorm : ({ level := 4, unit := d, trigger := 3, die := d } : ResetReq).norm = { level := 4, unit := d, trigger := 3, die := d } :=
    if_neg fun h => hd h.2
  unfold State.demand State.due
  rw [hnorm]
  dsimp only
  rw [if_neg, List.filter_eq_self.mpr]
  · exact List.map_append
  · intro q hq
    obtain ⟨h4, hne⟩ := hdue q hq
    simp [State.covers, h4, Ne.symm hne]
  · intro hany
    obtain ⟨q, hq, hcov⟩ := List.any_eq_true.mp hany
    obtain ⟨h4, hne⟩ := hdue q hq
    simp [State.covers, h4, hne] at hcov

/-- With bits 1 to 3 set each of the dies 1 to 3 is asked for. -/
theorem dieResetReq_three {s : State} (h : s.resets = []) :
    ∃ t, exec (.dieResetReq 14) s = .next t ∧ t.resets.map (fun x => (x.level, x.unit)) = [(4, 1), (4, 2), (4, 3)] := by
  have h0 : s.due = [] := by rw [State.due, h]; rfl
  have h1 := State.due_demand_die (d := 1) (by decide) (fun p hp => by rw [h0] at hp; exact absurd hp List.not_mem_nil)
  rw [h0] at h1
  have h2 := State.due_demand_die (d := 2) (by decide) (by rw [h1]; decide)
  rw [h1] at h2
  have h3 := State.due_demand_die (d := 3) (by decide) (by rw [h2]; decide)
  rw [h2] at h3
  exact ⟨_, rfl, h3⟩

end Sys2Proof.Machine

/-! PROOF. Cell resets: used for O19. -/

namespace Sys2Proof.Machine
open Sys2Proof

/-! ### The stores of a cell -/

/-- Scratchpad, instruction and route stores are the same. -/
structure Cell.Lasting (c d : Cell) : Prop where
  spd : d.spd = c.spd
  istore : d.istore = c.istore
  routes : d.routes = c.routes

theorem Cell.Lasting.refl (c : Cell) : c.Lasting c := ⟨rfl, rfl, rfl⟩

theorem Cell.Lasting.trans {c d e : Cell} (h : c.Lasting d) (g : d.Lasting e) : c.Lasting e :=
  ⟨g.spd.trans h.spd, g.istore.trans h.istore, g.routes.trans h.routes⟩

theorem Cell.Lasting.foldl {α : Type} {f : Cell → α → Cell} (h : ∀ (c : Cell) a, c.Lasting (f c a)) (l : List α) (c : Cell) : c.Lasting (l.foldl f c) :=
  List.foldlRecOn l f (motive := fun d => c.Lasting d) (.refl c) fun d hd a _ => hd.trans (h d a)

theorem Cell.lasting_raise (e : Env) (k code detail pc : Nat) (c : Cell) : c.Lasting (c.raise e k code detail pc) := by
  refine ⟨Cell.raise_spd .., ?_, ?_⟩
  · unfold Cell.raise
    dsimp only
    split_ifs <;> simp only [Cell.modCtx_istore, Cell.wr_istore]
  · unfold Cell.raise
    dsimp only
    split_ifs <;> simp only [Cell.modCtx_routes, Cell.wr_routes]

theorem Cell.raise_rasp (e : Env) (k code detail pc : Nat) (c : Cell) : (c.raise e k code detail pc).rasp = c.rasp := by
  unfold Cell.raise
  dsimp only
  split_ifs <;> simp only [Cell.modCtx_rasp, Cell.wr_rasp]

/-! ### A slab broken up (05 R141) -/

/-- The stores are the same, and whether a rasp pass runs. -/
def Cell.Steady (c d : Cell) : Prop := c.Lasting d ∧ d.rasp = c.rasp

theorem Cell.Steady.refl (c : Cell) : c.Steady c := ⟨.refl c, rfl⟩

theorem Cell.Steady.trans {c d e : Cell} (h : c.Steady d) (g : d.Steady e) : c.Steady e := ⟨h.1.trans g.1, g.2.trans h.2⟩

theorem Cell.steady_wakeMac (c : Cell) : c.Steady c.wakeMac := by
  obtain ⟨xs, h⟩ := c.wakeMac_eq
  rw [h]
  exact ⟨⟨rfl, rfl, rfl⟩, rfl⟩

/-- Every cell of a machine is steady. -/
def Steady (cs ds : Cells) : Prop := ∀ n, (cget cs n).Steady (cget ds n)

theorem Steady.refl (cs : Cells) : Steady cs cs := fun _ => .refl _

theorem Steady.trans {cs ds es : Cells} (h : Steady cs ds) (g : Steady ds es) : Steady cs es := fun n => (h n).trans (g n)

theorem Steady.foldl {α : Type} {f : Cells → α → Cells} (h : ∀ cs a, Steady cs (f cs a)) (l : List α) (cs : Cells) : Steady cs (l.foldl f cs) :=
  List.foldlRecOn l f (motive := fun ds => Steady cs ds) (.refl cs) fun ds hd a _ => hd.trans (h ds a)

theorem steady_cmod (cs : Cells) (n : Nat) {f : Cell → Cell} (h : ∀ c : Cell, c.Steady (f c)) : Steady cs (cmod cs n f) := fun m => by
  have hget : cget (cmod cs n f) m = if m = n then f (cget cs n) else cget cs m := fget_fset ..
  rw [hget]
  split
  · next hm => exact hm ▸ h _
  · exact .refl _

theorem steady_cmodAll (cs : Cells) (ns : List Nat) {f : Cell → Cell} (h : ∀ c : Cell, c.Steady (f c)) : Steady cs (cmodAll cs ns f) :=
  .foldl (fun cs n => steady_cmod cs n h) ns cs

theorem steady_stopSlab (cs : Cells) (ns : List Nat) (o : Nat) : Steady cs (stopSlab cs ns o) := by
  have hidle (c : Cell) : c.Steady (c.macIdle.dropFeeds o) := ⟨⟨rfl, rfl, rfl⟩, rfl⟩
  refine .trans (steady_cmodAll cs ns fun c => ?_) (steady_cmodAll _ _ fun c => ?_)
  · dsimp only
    split
    · exact hidle c
    · exact (hidle c).trans (Cell.steady_wakeMac _)
  · exact .trans (d := c.wr CELL_MAC_STATUS_DRAINING 0) ⟨⟨rfl, rfl, rfl⟩, rfl⟩ (Cell.steady_wakeMac _)

theorem steady_stopDrain (cs : Cells) (ns : List Nat) (o : Nat) : Steady cs (stopDrain cs ns o) :=
  (steady_cmod cs o (f := fun c => { c with drain := [] }) fun _ => ⟨⟨rfl, rfl, rfl⟩, rfl⟩).trans
    (steady_cmodAll _ ns (f := fun c => c.wr CELL_MAC_STATUS_DRAINING 0) fun _ => ⟨⟨rfl, rfl, rfl⟩, rfl⟩)

theorem Cell.steady_raise (e : Env) (k code detail pc : Nat) (c : Cell) : c.Steady (c.raise e k code detail pc) :=
  ⟨c.lasting_raise e k code detail pc, c.raise_rasp e k code detail pc⟩

theorem steady_raiseOrigin (e : Env) (ctx pc : Nat) (cs : Cells) (o : Nat) (fs : List (Nat × Nat)) : Steady cs (raiseOrigin e ctx pc cs o fs) := by
  unfold raiseOrigin
  refine .foldl (fun cs f => ?_) fs cs
  exact steady_cmod cs o fun c => Cell.steady_raise _ _ _ _ _ c

theorem steady_slabBroken (e : Env) (ph : Nat → Nat) (n : Nat) (cs : Cells) : Steady cs (slabBroken e ph n cs) := by
  have hclose (cs : Cells) (ns : List Nat) : Steady cs (cmodAll cs ns (fun c => { c.wr CELL_MAC_ACC_SEL_OPEN 0 with openCfg := none })) :=
    steady_cmodAll cs ns fun _ => ⟨⟨rfl, rfl, rfl⟩, rfl⟩
  unfold slabBroken
  split
  · exact .refl cs
  · refine .foldl (fun cs o => ?_) _ cs
    dsimp only
    split
    · exact .refl cs
    · split
      · exact .refl cs
      · split
        · exact .refl cs
        · exact (((steady_stopDrain cs _ o).trans (steady_stopSlab _ _ o)).trans (hclose _ _)).trans (steady_raiseOrigin _ _ _ _ o _)

theorem State.breakSlab_eq (s : State) (n : Nat) : ∃ cs, s.breakSlab n = { s with cells := cs } ∧ Steady s.cells cs :=
  ⟨_, rfl, steady_slabBroken (s.env n) s.phys n s.cells⟩

/-! ### A rasp pass ended without restore (16 R480) -/

theorem State.raspEndNow_idle {s : State} {n : Nat} (h : (s.cell n).rasp = false) : s.raspEndNow n = s :=
  if_pos (by rw [h]; rfl)

/-- It changes the cell, keeping its stores, and its court. -/
theorem State.raspEndNow_eq (s : State) (n : Nat) : ∃ cs qs, s.raspEndNow n = { s with cells := cs, courts := qs } ∧
    (s.cell n).Lasting (cget cs n) := by
  by_cases h : (s.cell n).rasp = false
  · rw [State.raspEndNow_idle h]
    exact ⟨s.cells, s.courts, rfl, .refl _⟩
  · have hcut (t : State) : (t.cell n).Lasting (cget (t.modCell n (fun c => { c with rasp := false, raspSteps := 0, raspSr := false })).cells n) := by
      rw [show cget (t.modCell n _).cells n = (t.modCell n (fun c => { c with rasp := false, raspSteps := 0, raspSr := false })).cell n from rfl,
        State.cell_modCell, if_pos rfl]
      exact ⟨rfl, rfl, rfl⟩
    have hend : s.raspEndNow n = (if s.raspCell (cellCourt n) = n then s.modCourt (cellCourt n) (fun k => k.wr RES_RASP_SIG_SIG k.raspKept) else s).modCell n
        (fun c => { c with rasp := false, raspSteps := 0, raspSr := false }) := if_neg (by simpa using h)
    rw [hend]
    split
    · exact ⟨_, _, rfl, hcut _⟩
    · exact ⟨_, s.courts, rfl, hcut s⟩

/-! ### The contexts of a cell reset (17 R487) -/

/-- A context that waits for nothing and does not run. -/
def Ctx.Idle (x : Ctx) : Prop := x.wait = .none ∧ (x.state = .halted ∨ x.state = .off)

theorem Cell.lasting_resetCtx (e : Env) (k : Nat) (c : Cell) : c.Lasting (c.resetCtx e k) := by
  obtain ⟨m, b, l, hscan, -⟩ := c.endScan_eq
  unfold Cell.resetCtx
  rw [hscan]
  exact ⟨rfl, rfl, rfl⟩

theorem Cell.ctx_resetCtx (e : Env) (k j : Nat) (c : Cell) : (j = k → ((c.resetCtx e k).ctx j).Idle) ∧ (j ≠ k → (c.resetCtx e k).ctx j = c.ctx j) := by
  obtain ⟨-, hctxs, -⟩ := Cell.orphaned_leaves (c := c) (k := k) e
  have hreset : c.resetCtx e k = (c.orphaned e k).clearCtx k := rfl
  rw [hreset]
  refine ⟨fun hj => ?_, fun hj => ?_⟩
  · unfold Cell.clearCtx
    rw [Cell.ctx_setCtx, if_pos hj]
    refine ⟨rfl, ?_⟩
    unfold Cell.idleState
    dsimp only
    split
    · exact .inl rfl
    · exact .inr rfl
  · obtain ⟨st, hst⟩ := Cell.ctx_clearCtx (c.orphaned e k) k j
    rw [hst, if_neg hj]
    exact congrArg (fget ctx0 · j) hctxs

theorem Cell.idle_resetCtxs (e : Env) {k : Nat} (l : List Nat) (c : Cell) (h : k ∈ l ∨ (c.ctx k).Idle) :
    ((l.foldl (fun c k => c.resetCtx e k) c).ctx k).Idle := by
  induction l generalizing c with
  | nil => exact h.resolve_left List.not_mem_nil
  | cons j l ih =>
    obtain ⟨hself, hother⟩ := c.ctx_resetCtx e j k
    refine ih (c.resetCtx e j) ?_
    by_cases hj : k = j
    · exact .inr (hself hj)
    · refine h.imp (fun h => (List.mem_cons.mp h).resolve_left hj) fun h => ?_
      rw [hother hj]
      exact h

/-! ### A cell reset in its cell -/

theorem Cell.wr_eq (c : Cell) (f : Fld) (v : Nat) : ∃ m, c.wr f v = { c with regs := m } := ⟨_, rfl⟩

theorem Cell.setSched_eq (c : Cell) (k st : Nat) : ∃ m, c.setSched k st = { c with regs := m } := by
  unfold Cell.setSched
  obtain ⟨m, h⟩ := c.wr_eq (ARM_SCHED_STATUS_STATE.arm k) st
  rw [h]
  exact Cell.wr_eq { c with regs := m } _ _

theorem Cell.armCut_eq (k : Nat) (c : Cell) : ∃ m x y z, c.armCut k = { c with regs := m, armDue := x, armGo := y, armEnd := z } := by
  obtain ⟨m, h⟩ := (c.armCalm k).setSched_eq k 0
  unfold Cell.armCut
  rw [h]
  exact ⟨m, _, _, _, rfl⟩

theorem Cell.armReset_eq (c : Cell) : ∃ m x y z, c.armReset =
    { c with regs := m, armDue := x, armGo := y, armEnd := z, armRead := [], armComb := [], armStore := none, ringEnd := [], offer := none } := by
  have hcut : ∃ m x y z, [0, 1, 2, 3].foldl (fun c k => Cell.armCut k c) c = { c with regs := m, armDue := x, armGo := y, armEnd := z } := by
    refine List.foldlRecOn _ _ (motive := fun d : Cell => ∃ m x y z, d = { c with regs := m, armDue := x, armGo := y, armEnd := z })
      ⟨c.regs, c.armDue, c.armGo, c.armEnd, rfl⟩ fun d hd k _ => ?_
    obtain ⟨m, x, y, z, rfl⟩ := hd
    exact Cell.armCut_eq k _
  obtain ⟨m, x, y, z, h⟩ := hcut
  refine ⟨m, x, y, z, ?_⟩
  unfold Cell.armReset
  rw [h]

theorem Cell.keepScan_eq (old c : Cell) : ∃ m, Cell.keepScan old c = { c with regs := m } ∧
    ({ c with regs := m } : Cell).rd CELL_FAULT_REC_VALID = c.rd CELL_FAULT_REC_VALID := by
  unfold Cell.keepScan
  split
  · refine ⟨_, rfl, ?_⟩
    exact (Cell.rd_wr_ne _ _ (by decide)).trans ((Cell.rd_wr_ne _ _ (by decide)).trans (Cell.rd_wr_ne c _ (by decide)))
  · exact ⟨c.regs, rfl, rfl⟩

theorem Cell.rd_regsReset_fault (c : Cell) : ({ c with regs := regsReset cellRegs Dom.cell.rank c.regs } : Cell).rd CELL_FAULT_REC_VALID = 0 := by
  unfold Cell.rd rget regsReset
  rw [fget_fdrop, if_pos (by decide)]
  decide

/-- What a cell reset makes of a cell whose contexts and schedules are stopped. -/
def Cell.cellCleared (quiet : Bool) (c : Cell) : Cell :=
  { c with regs := regsReset cellRegs Dom.cell.rank c.regs, quar := if quiet then [] else c.quar, quarEnd := !quiet }

theorem Cell.cellReset_eq (e : Env) (quiet : Bool) (c : Cell) : c.cellReset e quiet =
    Cell.keepScan c (([0, 1, 2, 3].foldl (fun c k => c.resetCtx e k) c).unitsClear.armReset.cellCleared quiet) := rfl

/-- A cell reset has cleared the MAC block, the receive buffers and the ports. -/
structure Cell.UnitsCleared (c : Cell) : Prop where
  acc : c.acc = []
  recvReq : c.recvReq = []
  recvRsp : c.recvRsp = []
  macOp : c.macOp = none
  ports : c.ports = []
  rasp : c.rasp = false

theorem Cell.unitsCleared_cleared (quiet : Bool) (c : Cell) : (c.unitsClear.armReset.cellCleared quiet).UnitsCleared ∧
    c.Lasting (c.unitsClear.armReset.cellCleared quiet) ∧ ∀ k, (c.unitsClear.armReset.cellCleared quiet).ctx k = c.ctx k := by
  obtain ⟨m, x, y, z, h⟩ := c.unitsClear.armReset_eq
  rw [h]
  exact ⟨⟨rfl, rfl, rfl, rfl, rfl, rfl⟩, ⟨rfl, rfl, rfl⟩, fun _ => rfl⟩

/-- What a cell reset clears and keeps. -/
theorem Cell.cellReset_leaves (e : Env) (quiet : Bool) (c : Cell) : (c.cellReset e quiet).UnitsCleared ∧ c.Lasting (c.cellReset e quiet) ∧
    (c.cellReset e quiet).rd CELL_FAULT_REC_VALID = 0 ∧ ∀ k < 4, ((c.cellReset e quiet).ctx k).Idle := by
  have hlast : c.Lasting ([0, 1, 2, 3].foldl (fun c k => c.resetCtx e k) c) := .foldl (fun c k => c.lasting_resetCtx e k) _ c
  have hidle (k : Nat) (hk : k < 4) := Cell.idle_resetCtxs e [0, 1, 2, 3] c (.inl (mem_contexts hk))
  rw [Cell.cellReset_eq]
  generalize [0, 1, 2, 3].foldl (fun c k => c.resetCtx e k) c = b at hlast hidle
  obtain ⟨⟨h1, h2, h3, h4, h5, h6⟩, hkept, hctx⟩ := b.unitsCleared_cleared quiet
  have hfault : (b.unitsClear.armReset.cellCleared quiet).rd CELL_FAULT_REC_VALID = 0 := Cell.rd_regsReset_fault _
  generalize b.unitsClear.armReset.cellCleared quiet = d at h1 h2 h3 h4 h5 h6 hkept hctx hfault
  obtain ⟨m, hkeep, hrd⟩ := Cell.keepScan_eq c d
  rw [hkeep]
  refine ⟨⟨h1, h2, h3, h4, h5, h6⟩, ?_, hrd.trans hfault, fun k hk => ?_⟩
  · exact hlast.trans (hkept.trans ⟨rfl, rfl, rfl⟩)
  · have hk : ({ d with regs := m } : Cell).ctx k = b.ctx k := (rfl : _ = d.ctx k).trans (hctx k)
    rw [hk]
    exact hidle k ‹_›

/-! ### CELL_RESET -/

/-- A cell reset outside any niche with no step due. -/
theorem cellReset_exec {s : State} {n : Nat} (hn : n < cellCount) (hp : s.powered n = true) (hr : s.resets = []) (hq : s.nicheAt (cellCourt n) = none) :
    exec (.cellReset n) s = .next (((s.stepTaken (askedReset 2 n none)).insidePause n (fun s => s.resetCell n))) := by
  have hfind : (s.resets.find? (fun r => r.level == 2 && r.unit == n)).getD (askedReset 2 n (s.nicheAt (cellCourt n))) = askedReset 2 n none := by
    rw [hr, hq]
    rfl
  have hexec : exec (.cellReset n) s = s.onCell n (fun s =>
    (s.stepTaken ((s.resets.find? (fun r => r.level == 2 && r.unit == n)).getD (askedReset 2 n (s.nicheAt (cellCourt n))))).insidePause n
      (fun s => s.resetCell n)) := rfl
  rw [hexec, onCell_powered hn hp, hfind]

/-- What a reset of a cell leaves in it and around it. -/
theorem State.resetCell_leaves (s : State) (n : Nat) : ∃ cs qs, s.resetCell n = { s with cells := cs, courts := qs } ∧
    (cget cs n).UnitsCleared ∧ (s.cell n).Lasting (cget cs n) ∧ (cget cs n).rd CELL_FAULT_REC_VALID = 0 ∧
      (∀ k < 4, ((cget cs n).ctx k).Idle) ∧ ((s.cell n).rasp = false → qs = s.courts) := by
  obtain ⟨bs, hbreak, hsteady⟩ := s.breakSlab_eq n
  obtain ⟨es, qs, hend, hlast⟩ := State.raspEndNow_eq (s.breakSlab n) n
  have hcourts : (s.cell n).rasp = false → qs = s.courts := fun h => by
    have hidle : ((s.breakSlab n).cell n).rasp = false := by
      rw [hbreak]
      exact (hsteady n).2.trans h
    have := (congrArg State.courts hend).symm.trans (congrArg State.courts (State.raspEndNow_idle hidle))
    exact this.trans (by rw [hbreak])
  have hsame : (s.cell n).Lasting (cget es n) := by
    rw [hbreak] at hlast
    exact (hsteady n).1.trans hlast
  have hreset : ∃ e quiet, s.resetCell n = { s with cells := cmod es n (fun c => c.cellReset e quiet), courts := qs } := by
    unfold State.resetCell
    rw [hend, hbreak]
    exact ⟨_, _, rfl⟩
  obtain ⟨e, quiet, hreset⟩ := hreset
  obtain ⟨hclear, hkept, hfault, hidle⟩ := (cget es n).cellReset_leaves e quiet
  have hget : cget (cmod es n (fun c => c.cellReset e quiet)) n = (cget es n).cellReset e quiet := (fget_fset ..).trans (if_pos rfl)
  refine ⟨_, qs, hreset, ?_⟩
  rw [hget]
  exact ⟨hclear, hsame.trans hkept, hfault, hidle, hcourts⟩

/-- The step noted for a cell reset that was asked for. -/
structure State.CellStep (s t : State) : Prop where
  cells : t.cells = s.cells
  courts : t.courts = s.courts
  hbm : t.hbm = s.hbm
  niches : t.niches = s.niches
  last : t.rd RST_STATUS_LAST_LEVEL = 2
  cause : t.rd RST_CAUSE_LEVEL = 2
  trigger : t.rd RST_CAUSE_TRIGGER = 3
  rd : ∀ f : Fld, f.key < 0x7000 * 64 → t.rd f = s.rd f

/-- The step noted among the last resets. -/
def State.noteReset (s : State) (r : ResetReq) : State :=
  { s with lastReset := s.lastReset.filter (fun p => !(p.2.level == r.level && p.2.unit == r.unit)) ++ [(s.tick, r)] }

theorem State.stepTaken_eq (s : State) (r : ResetReq) : s.stepTaken r = ((s.resetDone r).resetBegun r).noteReset r := rfl

theorem State.rd_noteReset (s : State) (r : ResetReq) (f : Fld) : (s.noteReset r).rd f = s.rd f := rfl

theorem State.cellStep_stepTaken (s : State) {r : ResetReq} (h2 : r.level = 2) (h3 : r.trigger = 3) (hf : s.crashFrozen = []) :
    s.CellStep (s.stepTaken r) := by
  have hbegun := (s.resetDone r).stepBegun r (by omega) (by omega)
  rw [State.stepTaken_eq]
  generalize (s.resetDone r).resetBegun r = u at hbegun
  refine ⟨hbegun.cells hf, (congrArg State.courts hbegun.same).trans rfl, (congrArg State.hbm hbegun.same).trans rfl,
    (congrArg State.niches hbegun.same).trans rfl, ?_, ?_, ?_, fun f hfk => ?_⟩
  · rw [State.rd_noteReset, hbegun.last, h2]
  · rw [State.rd_noteReset, hbegun.cause, h2]
  · rw [State.rd_noteReset, hbegun.trigger (by omega), h3]
  · rw [State.rd_noteReset, hbegun.rd f (by omega)]
    exact s.rd_wr_ne (f := RST_STATUS_ESCALATING) _ (by rw [show RST_STATUS_ESCALATING.key = 0x7000 * 64 + 4 from rfl]; omega)

/-- The niche of a court shows in registers below the reset block. -/
theorem State.nicheAt_congr {s t : State} (h : ∀ f : Fld, f.key < 0x7000 * 64 → t.rd f = s.rd f) (q : Nat) : t.nicheAt q = s.nicheAt q := by
  have hhas : ∀ i ∈ List.range 16, t.nicheHas i q = s.nicheHas i q := fun i hi => by
    have hi : i < 16 := List.mem_range.mp hi
    have hrd (f : Fld) (hf : f.key < 0x2000 * 64) : t.rd (f.niche i) = s.rd (f.niche i) := h _ (by
      simp only [Fld.niche, Fld.up, Fld.key] at hf ⊢
      omega)
    unfold State.nicheHas State.flag
    rw [hrd _ (by decide), hrd _ (by decide), hrd _ (by decide), hrd _ (by decide), hrd _ (by decide)]
  exact List.find?_congr hhas

/-- What a cell reset asked for outside any niche leaves. -/
theorem cellReset_leaves {s : State} {n : Nat} (hn : n < cellCount) (hp : s.powered n = true) (hr : s.resets = []) (hf : s.crashFrozen = [])
    (hq : s.nicheAt (cellCourt n) = none) : ∃ t, exec (.cellReset n) s = .next t ∧ (t.cell n).UnitsCleared ∧ (s.cell n).Lasting (t.cell n) ∧
      (t.cell n).rd CELL_FAULT_REC_VALID = 0 ∧ (∀ k < 4, ((t.cell n).ctx k).Idle) ∧ t.rd RST_STATUS_LAST_LEVEL = 2 ∧ t.rd RST_CAUSE_LEVEL = 2 ∧
      t.rd RST_CAUSE_TRIGGER = 3 ∧ ((s.cell n).rasp = false → t.courts = s.courts) ∧ t.hbm = s.hbm ∧ t.niches = s.niches := by
  have hstep := s.cellStep_stepTaken (r := askedReset 2 n none) rfl rfl hf
  have hexec := cellReset_exec hn hp hr hq
  generalize s.stepTaken (askedReset 2 n none) = u at hstep hexec
  have hpause : u.insidePause n (fun s => s.resetCell n) = u.resetCell n := by
    unfold State.insidePause
    rw [State.nicheAt_congr hstep.rd, hq]
  obtain ⟨cs, qs, hreset, hclear, hlast, hfault, hidle, hcourts⟩ := u.resetCell_leaves n
  have hcell : u.cell n = s.cell n := congrArg (cget · n) hstep.cells
  rw [hcell] at hlast hcourts
  rw [hpause, hreset] at hexec
  exact ⟨_, hexec, hclear, hlast, hfault, hidle, hstep.last, hstep.cause, hstep.trigger, fun h => (hcourts h).trans hstep.courts, hstep.hbm, hstep.niches⟩

end Sys2Proof.Machine

/-! PROOF. The crash cast: used for O19. -/

namespace Sys2Proof.Machine
open Sys2Proof

/-! ### Rasp passes cut short and slabs broken up before a crash cast (16 R480) -/

/-- Only courts and the cell `n` differ. -/
structure State.CellTouched (n : Nat) (s t : State) : Prop where
  same : ∃ cs qs, t = { s with cells := cs, courts := qs }
  cell : ∀ m, m ≠ n → t.cell m = s.cell m

theorem State.CellTouched.refl (n : Nat) (s : State) : s.CellTouched n s := ⟨⟨_, _, rfl⟩, fun _ _ => rfl⟩

theorem State.CellTouched.trans {n : Nat} {s t u : State} (h : s.CellTouched n t) (g : t.CellTouched n u) : s.CellTouched n u := by
  obtain ⟨⟨cs, qs, rfl⟩, h⟩ := h
  obtain ⟨⟨cs', qs', rfl⟩, g⟩ := g
  exact ⟨⟨cs', qs', rfl⟩, fun m hm => (g m hm).trans (h m hm)⟩

theorem State.CellTouched.ite {n : Nat} {s t u : State} {p : Prop} [Decidable p] (ht : s.CellTouched n t) (hu : s.CellTouched n u) :
    s.CellTouched n (if p then t else u) := by
  split
  · exact ht
  · exact hu

theorem State.cellTouched_modCell (s : State) (n : Nat) (f : Cell → Cell) : s.CellTouched n (s.modCell n f) :=
  ⟨⟨_, _, rfl⟩, fun m hm => by rw [State.cell_modCell, if_neg hm]⟩

theorem State.cellTouched_modCourt (s : State) (n q : Nat) (f : Court → Court) : s.CellTouched n (s.modCourt q f) := ⟨⟨_, _, rfl⟩, fun _ _ => rfl⟩

theorem State.cellTouched_raspBack (s : State) (n : Nat) : s.CellTouched n (s.raspBack n) := by
  unfold State.raspBack
  exact (s.cellTouched_modCourt n _ _).trans (State.cellTouched_modCell _ n _)

theorem State.cellTouched_raspLeave (s : State) (n : Nat) : s.CellTouched n (s.raspLeave n) := by
  have hback (t : State) : t.CellTouched n (if (t.cell n).raspSr then t.raspBack n else t) := .ite (t.cellTouched_raspBack n) (.refl n t)
  unfold State.raspLeave
  exact ((s.cellTouched_modCell n _).trans (hback _)).trans (State.cellTouched_modCell _ n _)

theorem State.cellTouched_raspCut (s : State) (n : Nat) : s.CellTouched n (s.raspCut n true) := by
  have hsig (t : State) : t.CellTouched n (if t.raspCell (cellCourt n) = n then t.modCourt (cellCourt n) (fun k => k.wr RES_RASP_SIG_SIG k.raspKept) else t) :=
    .ite (t.cellTouched_modCourt n _ _) (.refl n t)
  unfold State.raspCut
  dsimp only
  split
  · exact .refl n s
  · rw [if_pos rfl]
    exact (hsig s).trans (State.cellTouched_raspLeave _ n)

/-- Due resets and the number of crash casts are the same, and the scratchpads of the cells without a rasp pass. -/
structure State.Cut (s t : State) : Prop where
  resets : t.resets = s.resets
  crashSeq : t.crashSeq = s.crashSeq
  spd : ∀ n, (s.cell n).rasp = false → (t.cell n).rasp = false ∧ (t.cell n).spd = (s.cell n).spd

theorem State.Cut.refl (s : State) : s.Cut s := ⟨rfl, rfl, fun _ h => ⟨h, rfl⟩⟩

theorem State.Cut.trans {s t u : State} (h : s.Cut t) (g : t.Cut u) : s.Cut u where
  resets := g.resets.trans h.resets
  crashSeq := g.crashSeq.trans h.crashSeq
  spd n hn := by
    obtain ⟨h1, h2⟩ := h.spd n hn
    obtain ⟨g1, g2⟩ := g.spd n h1
    exact ⟨g1, g2.trans h2⟩

theorem State.cut_raspCut (s : State) (n : Nat) : s.Cut (s.raspCut n true) := by
  obtain ⟨⟨cs, qs, heq⟩, hcell⟩ := s.cellTouched_raspCut n
  refine ⟨by rw [heq], by rw [heq], fun m hm => ?_⟩
  by_cases hmn : m = n
  · have hidle : s.raspCut n true = s := if_pos (by rw [← hmn, hm]; rfl)
    rw [hidle]
    exact ⟨hm, rfl⟩
  · rw [hcell m hmn]
    exact ⟨hm, rfl⟩

theorem State.cut_breakSlab (s : State) (n : Nat) : s.Cut (s.breakSlab n) := by
  obtain ⟨cs, heq, hsteady⟩ := s.breakSlab_eq n
  refine ⟨by rw [heq], by rw [heq], fun m hm => ?_⟩
  rw [heq]
  exact ⟨(hsteady m).2.trans hm, (hsteady m).1.spd⟩

/-- Rasp passes of the cells to be dumped are cut short and their slabs broken up. -/
def State.cutCells (s : State) (ns : List Nat) : State := ns.foldl (fun s n => (s.raspCut n true).breakSlab n) s

theorem State.cut_cutCells (s : State) (ns : List Nat) : s.Cut (s.cutCells ns) :=
  List.foldlRecOn ns _ (motive := fun t => s.Cut t) (.refl s) fun t ht n _ => ht.trans ((t.cut_raspCut n).trans (State.cut_breakSlab _ n))

/-! ### Cells frozen -/

/-- A cell frozen at once (R82). -/
def Cell.freezeNow (c : Cell) : Cell := (c.freezeWrite true).freezeComplete 0

theorem Cell.freezeNow_leaves (c : Cell) : c.freezeNow.frozen = true ∧ c.freezeNow.spd = c.spd := by
  have hset : (c.freezeWrite true).rd CELL_CTRL_FREEZE = 1 := c.rd_freezeWrite true
  obtain ⟨hfrozen, hspd, -⟩ := Cell.freezeComplete_leaves 0 hset
  exact ⟨hfrozen, hspd.trans (by rw [Cell.freezeWrite_set]; rfl)⟩

theorem cget_cmodAll_freezeNow (ns : List Nat) (cs : Cells) (n : Nat) :
    (cget (cmodAll cs ns Cell.freezeNow) n).spd = (cget cs n).spd ∧
      ((cget cs n).frozen = true ∨ n ∈ ns → (cget (cmodAll cs ns Cell.freezeNow) n).frozen = true) := by
  have hget (cs : Cells) (m : Nat) : cget (cmod cs m Cell.freezeNow) n = if n = m then (cget cs m).freezeNow else cget cs n := fget_fset ..
  unfold cmodAll
  induction ns generalizing cs with
  | nil => exact ⟨rfl, fun h => h.resolve_right List.not_mem_nil⟩
  | cons m ns ih =>
    obtain ⟨hspd, hfrozen⟩ := ih (cmod cs m Cell.freezeNow)
    rw [List.foldl_cons]
    by_cases hnm : n = m
    · obtain ⟨h1, h2⟩ := (cget cs m).freezeNow_leaves
      rw [hget, if_pos hnm] at hspd hfrozen
      exact ⟨hspd.trans (h2.trans (by rw [hnm])), fun _ => hfrozen (.inl h1)⟩
    · rw [hget, if_neg hnm] at hspd hfrozen
      exact ⟨hspd, fun h => hfrozen (h.imp_right fun h => (List.mem_cons.mp h).resolve_left hnm)⟩

/-! ### What a dump changes -/

/-- Registers, due resets and the marks of the crash cast are the same, and of every cell its scratchpad and whether it is frozen. -/
structure State.Dumped (s t : State) : Prop where
  resets : t.resets = s.resets
  crashSeq : t.crashSeq = s.crashSeq
  crashOpen : t.crashOpen = s.crashOpen
  pkgRegs : t.pkgRegs = s.pkgRegs
  cell : ∀ n, (t.cell n).frozen = (s.cell n).frozen ∧ (t.cell n).spd = (s.cell n).spd

theorem State.Dumped.refl (s : State) : s.Dumped s := ⟨rfl, rfl, rfl, rfl, fun _ => ⟨rfl, rfl⟩⟩

theorem State.Dumped.trans {s t u : State} (h : s.Dumped t) (g : t.Dumped u) : s.Dumped u where
  resets := g.resets.trans h.resets
  crashSeq := g.crashSeq.trans h.crashSeq
  crashOpen := g.crashOpen.trans h.crashOpen
  pkgRegs := g.pkgRegs.trans h.pkgRegs
  cell n := ⟨(g.cell n).1.trans (h.cell n).1, (g.cell n).2.trans (h.cell n).2⟩

theorem State.Dumped.foldl {α : Type} {f : State → α → State} (h : ∀ (s : State) a, s.Dumped (f s a)) (l : List α) (s : State) : s.Dumped (l.foldl f s) :=
  List.foldlRecOn l f (motive := fun t => s.Dumped t) (.refl s) fun t ht a _ => ht.trans (h t a)

/-- A line written changes memory, its poison marks and its checks only. -/
theorem State.linePut_eq (s : State) (a : Nat) (v : VR) : ∃ m p e, s.linePut a v = { s with hbm := m, hbmPoison := p, hbmEcc := e } := ⟨_, _, _, rfl⟩

theorem State.hbmPut_eq (s : State) (a : Nat) (v : VR) : ∃ k, s.hbmPut a v = { s.linePut a v with hbmCheck := k } := by
  unfold State.hbmPut State.partly
  exact ⟨_, rfl⟩

theorem State.dumped_hbmPut (s : State) (a : Nat) (v : VR) : s.Dumped (s.hbmPut a v) := by
  obtain ⟨k, hput⟩ := s.hbmPut_eq a v
  obtain ⟨m, p, e, hline⟩ := s.linePut_eq a v
  rw [hput, hline]
  exact ⟨rfl, rfl, rfl, rfl, fun _ => ⟨rfl, rfl⟩⟩

theorem State.dumped_hbmPutAll (vs : List VR) (s : State) (a : Nat) : s.Dumped (s.hbmPutAll a vs) := by
  induction vs generalizing s a with
  | nil => exact .refl s
  | cons v vs ih => exact (s.dumped_hbmPut a v).trans (ih (s.hbmPut a v) (a + 64))

theorem State.dumped_modCell (s : State) (n : Nat) {f : Cell → Cell} (h : (f (s.cell n)).frozen = (s.cell n).frozen ∧ (f (s.cell n)).spd = (s.cell n).spd) :
    s.Dumped (s.modCell n f) := by
  refine ⟨rfl, rfl, rfl, rfl, fun m => ?_⟩
  rw [State.cell_modCell]
  split
  · next hm => rw [hm]; exact h
  · exact ⟨rfl, rfl⟩

theorem Cell.spdRead_keeps (c : Cell) (a : Nat) : (c.spdRead a).2.2.frozen = c.frozen ∧ (c.spdRead a).2.2.spd = c.spd := by
  unfold Cell.spdRead
  dsimp only
  split
  · exact ⟨rfl, rfl⟩
  · exact ⟨rfl, rfl⟩
  · exact ⟨rfl, rfl⟩

theorem Cell.viewLoad_keeps (l : List (Nat × List (Nat × Nat))) (c : Cell) : (c.viewLoad l).2.frozen = c.frozen ∧ (c.viewLoad l).2.spd = c.spd := by
  induction l generalizing c with
  | nil => exact ⟨rfl, rfl⟩
  | cons p l ih =>
    obtain ⟨h1, h2⟩ := c.spdRead_keeps p.1
    obtain ⟨g1, g2⟩ := ih (c.spdRead p.1).2.2
    exact ⟨g1.trans h1, g2.trans h2⟩

theorem Cell.line6_keeps (c : Cell) (a : Nat) : (c.line6 a).2.frozen = c.frozen ∧ (c.line6 a).2.spd = c.spd := by
  unfold Cell.line6
  exact Cell.viewLoad_keeps _ c

theorem Cell.excerpt_keeps (c : Cell) : c.excerpt.2.frozen = c.frozen ∧ c.excerpt.2.spd = c.spd := by
  unfold Cell.excerpt
  generalize (List.range 16).flatMap (fun b => [0x3000 * b, 0x3000 * b + 0x2FC0]) = l
  refine List.foldlRecOn l _ (motive := fun r : List VR × Cell => r.2.frozen = c.frozen ∧ r.2.spd = c.spd) ⟨rfl, rfl⟩ fun r hr a _ => ?_
  obtain ⟨h1, h2⟩ := r.2.line6_keeps a
  dsimp only
  exact ⟨h1.trans hr.1, h2.trans hr.2⟩

theorem State.dumped_dumpCell (r : ResetReq) (s : State) (n : Nat) : s.Dumped (State.dumpCell r s n) := by
  have hbanks : s.Dumped (s.modCell n (fun _ => (s.cell n).excerpt.2)) := s.dumped_modCell n (s.cell n).excerpt_keeps
  have hfree (t : State) (v : Nat) : t.Dumped { t with free := v } := ⟨rfl, rfl, rfl, rfl, fun _ => ⟨rfl, rfl⟩⟩
  have hputs (t : State) (a b c : Nat) (v w : VR) (vs : List VR) : t.Dumped (((t.hbmPut a v).hbmPutAll b vs).hbmPut c w) :=
    ((t.dumped_hbmPut a v).trans (State.dumped_hbmPutAll vs _ b)).trans (State.dumped_hbmPut _ c w)
  unfold State.dumpCell
  exact (hbanks.trans (hfree _ _)).trans (hputs _ _ _ _ _ _ _)

theorem State.dumped_dumpCourt (s : State) (q : Nat) : s.Dumped (s.dumpCourt q) := State.dumped_hbmPutAll _ s _

theorem State.dumped_dumpLog (s : State) (d : Nat) : s.Dumped (s.dumpLog d) := State.dumped_hbmPutAll _ s _

theorem State.dumped_dirEntry (s : State) (r : ResetReq) (n : Nat) (b : Bool) : s.Dumped (s.dirEntry r n b) := s.dumped_hbmPut _ _

end Sys2Proof.Machine

/-! PROOF. Resets reach their units: O19. -/

namespace Sys2Proof.Machine
open Sys2Proof

/-! ### The crash cast in steps (17 R493, R495, R496) -/

/-- A crash cast opened over cells of which `k` are to be recorded. -/
def State.openCast (s : State) (ns : List Nat) (k : Nat) : State :=
  let s := { s with crashSeq := s.crashSeq + 1, crashOpen := true, crashFrozen := (s.crashFrozen ++ ns).dedup }
  ((s.wr RST_CRASH_CRASH_SEQ s.crashSeq).wr RST_CRASH_INCOMPLETE 0).wr RST_CRASH_CELLS (min k ns.length)

/-- Its directory entry, the fault logs, the first `k` cells and their courts written. -/
def State.dumpAll (s : State) (r : ResetReq) (ns : List Nat) (k : Nat) : State :=
  let s := s.dirEntry r (min k ns.length) false
  let s := (resetDies r).foldl State.dumpLog s
  let s := (ns.take k).foldl (State.dumpCell r) s
  (((ns.take k).map cellCourt).dedup).foldl State.dumpCourt s

/-- A crash cast that has recorded every cell ends. -/
def State.closeCast (s : State) : State := { (s.wr RST_CRASH_NEW 1).alert MGT_ALERT_CRASH with crashOpen := false }

/-- The cells frozen, the cast opened and written. -/
def State.castCells (s : State) (r : ResetReq) (ns : List Nat) (k : Nat) : State :=
  (((s.cutCells ns).modCells ns Cell.freezeNow).openCast ns k).dumpAll r ns k

theorem State.crashCast_eq (s : State) (r : ResetReq) (k : Nat) : s.crashCast r k =
    if k < (s.crashCells r).length then s.castCells r (s.crashCells r) k else (s.castCells r (s.crashCells r) k).closeCast := rfl

theorem State.dumped_dumpAll (s : State) (r : ResetReq) (ns : List Nat) (k : Nat) : s.Dumped (s.dumpAll r ns k) := by
  have hlogs (t : State) : t.Dumped ((resetDies r).foldl State.dumpLog t) := .foldl State.dumped_dumpLog _ t
  have hcells (t : State) : t.Dumped ((ns.take k).foldl (State.dumpCell r) t) := .foldl (State.dumped_dumpCell r) _ t
  have hcourts (t : State) : t.Dumped ((((ns.take k).map cellCourt).dedup).foldl State.dumpCourt t) := .foldl State.dumped_dumpCourt _ t
  exact (((s.dumped_dirEntry r _ false).trans (hlogs _)).trans (hcells _)).trans (hcourts _)

theorem State.openCast_eq (s : State) (ns : List Nat) (k : Nat) : ∃ m fs,
    s.openCast ns k = { s with pkgRegs := m, crashSeq := s.crashSeq + 1, crashOpen := true, crashFrozen := fs } :=
  ⟨_, _, ((State.regsOnly_wr _ _ _).trans (State.regsOnly_wr _ _ _)).trans (State.regsOnly_wr _ _ _)⟩

/-- What the registers show of a cast that is open. -/
theorem State.rd_openCast (s : State) (ns : List Nat) (k : Nat) : (s.openCast ns k).rd RST_CRASH_CRASH_SEQ = (s.crashSeq + 1) % 2 ^ 32 ∧
    (s.openCast ns k).rd RST_CRASH_INCOMPLETE = 0 ∧ (s.openCast ns k).rd RST_CRASH_CELLS = min k ns.length % 2 ^ 14 := by
  unfold State.openCast
  dsimp only
  refine ⟨?_, ?_, ?_⟩
  · rw [State.rd_wr_ne _ _ (by decide), State.rd_wr_ne _ _ (by decide)]
    exact State.rd_wr_self _ _ _
  · rw [State.rd_wr_ne _ _ (by decide)]
    exact State.rd_wr_self _ _ _
  · exact State.rd_wr_self _ _ _

/-- A cast of cells, before it may end. -/
structure State.Casting (s : State) (ns : List Nat) (k : Nat) (t : State) : Prop where
  resets : t.resets = s.resets
  crashSeq : t.crashSeq = s.crashSeq + 1
  crashOpen : t.crashOpen = true
  seq : t.rd RST_CRASH_CRASH_SEQ = (s.crashSeq + 1) % 2 ^ 32
  incomplete : t.rd RST_CRASH_INCOMPLETE = 0
  count : t.rd RST_CRASH_CELLS = min k ns.length % 2 ^ 14
  cells : ∀ n ∈ ns, (t.cell n).frozen = true ∧ ((s.cell n).rasp = false → (t.cell n).spd = (s.cell n).spd)

theorem State.casting_castCells (s : State) (r : ResetReq) (ns : List Nat) (k : Nat) : s.Casting ns k (s.castCells r ns k) := by
  have hcut := s.cut_cutCells ns
  unfold State.castCells
  generalize s.cutCells ns = u at hcut
  have hfreeze (n : Nat) := cget_cmodAll_freezeNow ns u.cells n
  have hseq : (u.modCells ns Cell.freezeNow).crashSeq = s.crashSeq := hcut.crashSeq
  have hresets : (u.modCells ns Cell.freezeNow).resets = s.resets := hcut.resets
  have hcell (n : Nat) : (u.modCells ns Cell.freezeNow).cell n = cget (cmodAll u.cells ns Cell.freezeNow) n := rfl
  generalize u.modCells ns Cell.freezeNow = v at hseq hresets hcell
  obtain ⟨h1, h2, h3⟩ := v.rd_openCast ns k
  have hdump := (v.openCast ns k).dumped_dumpAll r ns k
  obtain ⟨m, fs, hopen⟩ := v.openCast_eq ns k
  rw [hopen] at h1 h2 h3 hdump ⊢
  refine ⟨hdump.resets.trans hresets, hdump.crashSeq.trans (congrArg (· + 1) hseq), hdump.crashOpen, ?_, ?_, ?_, fun n hn => ?_⟩
  · rw [State.rd_of_pkgRegs hdump.pkgRegs, h1, hseq]
  · rw [State.rd_of_pkgRegs hdump.pkgRegs, h2]
  · rw [State.rd_of_pkgRegs hdump.pkgRegs, h3]
  · obtain ⟨hfrozen, hspd⟩ := hdump.cell n
    have hthen : v.cell n = _ := hcell n
    obtain ⟨hkept, hnow⟩ := hfreeze n
    rw [← hthen] at hkept hnow
    exact ⟨hfrozen.trans (hnow (.inr hn)), fun h => (hspd.trans hkept).trans (hcut.spd n h).2⟩

theorem State.closeCast_eq (s : State) : ∃ m, s.closeCast = { s with pkgRegs := m, crashOpen := false } := by
  have h := (s.regsOnly_wr RST_CRASH_NEW 1).trans (State.regsOnly_wr _ MGT_ALERT_CRASH 1)
  exact ⟨_, congrArg (fun t : State => { t with crashOpen := false }) h⟩

/-- The end of a cast leaves what it has recorded. -/
theorem State.Casting.close {s t : State} {ns : List Nat} {k : Nat} (h : s.Casting ns k t) :
    t.closeCast.resets = s.resets ∧ t.closeCast.crashSeq = s.crashSeq + 1 ∧ t.closeCast.rd RST_CRASH_CRASH_SEQ = (s.crashSeq + 1) % 2 ^ 32 ∧
      t.closeCast.rd RST_CRASH_INCOMPLETE = 0 ∧ t.closeCast.rd RST_CRASH_CELLS = min k ns.length % 2 ^ 14 ∧
      (∀ n ∈ ns, (t.closeCast.cell n).frozen = true ∧ ((s.cell n).rasp = false → (t.closeCast.cell n).spd = (s.cell n).spd)) ∧
      t.closeCast.crashOpen = false ∧ t.closeCast.rd RST_CRASH_NEW = 1 ∧ t.closeCast.rd MGT_ALERT_CRASH = 1 := by
  have hrd (f : Fld) : t.closeCast.rd f = ((t.wr RST_CRASH_NEW 1).alert MGT_ALERT_CRASH).rd f := rfl
  obtain ⟨m, hclose⟩ := t.closeCast_eq
  refine ⟨?_, ?_, ?_, ?_, ?_, ?_, ?_, ?_, ?_⟩
  · rw [hclose]
    exact h.resets
  · rw [hclose]
    exact h.crashSeq
  · rw [hrd, State.alert, State.rd_wr_ne _ _ (by decide), State.rd_wr_ne _ _ (by decide), h.seq]
  · rw [hrd, State.alert, State.rd_wr_ne _ _ (by decide), State.rd_wr_ne _ _ (by decide), h.incomplete]
  · rw [hrd, State.alert, State.rd_wr_ne _ _ (by decide), State.rd_wr_ne _ _ (by decide), h.count]
  · rw [hclose]
    exact h.cells
  · rw [hclose]
  · rw [hrd, State.alert, State.rd_wr_ne _ _ (by decide)]
    exact State.rd_wr_self _ _ _
  · rw [hrd, State.alert]
    exact State.rd_wr_self _ _ _

/-! ### CRASH_CAST -/

theorem crashCast_exec (s : State) (level unit k : Nat) : exec (.crashCast level unit k) s =
    .next (match s.resets.find? (fun r => r.level == level && r.unit == unit) with
      | some r => if 2 ≤ level ∧ level ≤ 5 ∧ (s.castDies r).any (fun d => !fget noMark s.dieHalt d) then s.crashCast r k else s
      | none => s) := rfl

theorem crashCast_none {s : State} {level unit : Nat} (k : Nat) (h : (∀ r ∈ s.resets, r.level ≠ level ∨ r.unit ≠ unit) ∨ level < 2 ∨ 5 < level) :
    exec (.crashCast level unit k) s = .next s := by
  rw [crashCast_exec]
  rcases h with h | h
  · have hnone : s.resets.find? (fun r => r.level == level && r.unit == unit) = none :=
      List.find?_eq_none.mpr fun r hr => by simpa [not_or, imp_iff_not_or] using h r hr
    rw [hnone]
  · split
    · rw [if_neg (by omega)]
    · rfl

/-- Where the clocks of every die have been halted nothing is written. -/
theorem crashCast_halted {s : State} {r : ResetReq} (level unit k : Nat) (hr : s.resets = [r]) (h : ∀ d ∈ s.castDies r, fget noMark s.dieHalt d = true) :
    exec (.crashCast level unit k) s = .next s := by
  rw [crashCast_exec]
  split
  · next q hq =>
    have hqr : q = r := List.mem_singleton.mp (hr ▸ List.mem_of_find?_eq_some hq)
    refine congrArg Host.Outcome.next (if_neg fun hall => ?_)
    obtain ⟨d, hd, hlive⟩ := List.any_eq_true.mp hall.2.2
    rw [h d (hqr ▸ hd)] at hlive
    exact Bool.false_ne_true hlive
  · rfl

theorem crashCast_live {s : State} {r : ResetReq} {level unit : Nat} (k : Nat) (hr : s.resets = [r]) (hl : r.level = level) (hu : r.unit = unit)
    (h2 : 2 ≤ level) (h5 : level ≤ 5) (h : ∃ d ∈ s.castDies r, fget noMark s.dieHalt d = false) :
    exec (.crashCast level unit k) s = .next (s.crashCast r k) := by
  obtain ⟨d, hd, hlive⟩ := h
  have hany : (s.castDies r).any (fun d => !fget noMark s.dieHalt d) = true := List.any_eq_true.mpr ⟨d, hd, by rw [hlive]; rfl⟩
  rw [crashCast_exec, hr, List.find?_cons_of_pos (by simp [hl, hu])]
  exact congrArg Host.Outcome.next (if_pos ⟨h2, h5, hany⟩)

/-! ### CRASH_CAST_ABANDON -/

theorem State.halfRead_keeps (s : State) (h : Nat) : (s.halfRead h).2.2.hbm = s.hbm ∧ (s.halfRead h).2.2.resets = s.resets := by
  unfold State.halfRead
  dsimp only
  split
  · exact ⟨rfl, rfl⟩
  · exact ⟨rfl, rfl⟩
  · unfold State.hbmEvent State.dieAdd
    split <;> simp only [State.event_hbm, State.event_resets, State.dieWr_hbm, State.dieWr_resets, and_self]

theorem State.hbmLine_keeps (s : State) (a : Nat) : (s.hbmLine a).2.hbm = s.hbm ∧ (s.hbmLine a).2.resets = s.resets := by
  obtain ⟨h1, h2⟩ := s.halfRead_keeps (2 * (a / 64))
  obtain ⟨g1, g2⟩ := (s.halfRead (2 * (a / 64))).2.2.halfRead_keeps (2 * (a / 64) + 1)
  exact ⟨g1.trans h1, g2.trans h2⟩

/-- A line written leaves every byte outside it. -/
theorem State.linePut_same (s : State) {a : Nat} (v : VR) (ha : a % 64 = 0) : SameBytes a 64 s.hbm (s.linePut a v).hbm := fun b hb => by
  have hline : (s.linePut a v).hbm = memWrite (memWrite s.hbm (32 * (2 * (a / 64))) 32 (v.v.toNat % 2 ^ 256)) (32 * (2 * (a / 64) + 1)) 32 (v.v.toNat / 2 ^ 256) := rfl
  rw [hline, memByte_memWrite_out _ _ _ _ _ (by omega), memByte_memWrite_out _ _ _ _ _ (by omega)]

theorem State.crashBase_aligned (s : State) : s.crashBase % 64 = 0 := by
  unfold State.crashBase State.hbmT State.hbmC
  split_ifs <;> decide

/-- The line of the directory entry, marked INCOMPLETE. -/
def markIncomplete (v : VR) : VR := ⟨BitVec.ofNat 512 (v.v.toNat - bits v.v.toNat 168 168 * 2 ^ 168 + 2 ^ 168), v.p⟩

theorem crashCastAbandon_open {s : State} (h : s.crashOpen = true) : ∃ t, exec .crashCastAbandon s = .next t ∧ t.crashOpen = false ∧
    t.rd RST_CRASH_INCOMPLETE = 1 ∧ t.resets = s.resets ∧ SameBytes (s.crashBase + 64 * (s.crashSeq % 256)) 64 s.hbm t.hbm := by
  have hexec : exec .crashCastAbandon s = .next (if s.crashOpen then
      let a := s.crashBase + 64 * (s.crashSeq % 256)
      let x := s.hbmLine a
      let u := x.2.hbmPut a (markIncomplete x.1)
      { u.wr RST_CRASH_INCOMPLETE 1 with crashOpen := false }
    else s) := rfl
  rw [if_pos h] at hexec
  have halign : (s.crashBase + 64 * (s.crashSeq % 256)) % 64 = 0 := by
    have := s.crashBase_aligned
    omega
  generalize s.crashBase + 64 * (s.crashSeq % 256) = a at hexec halign
  obtain ⟨hhbm, hresets⟩ := s.hbmLine_keeps a
  dsimp only at hexec
  generalize (s.hbmLine a).1 = l at hexec
  generalize (s.hbmLine a).2 = u at hexec hhbm hresets
  obtain ⟨k, hput⟩ := u.hbmPut_eq a (markIncomplete l)
  have hline := u.linePut_same (markIncomplete l) halign
  rw [hhbm] at hline
  obtain ⟨m, p, e, hput'⟩ := u.linePut_eq a (markIncomplete l)
  rw [hput'] at hput hline
  rw [hput] at hexec
  exact ⟨_, hexec, rfl, State.rd_wr_self _ RST_CRASH_INCOMPLETE 1, hresets, hline⟩

theorem crashCastAbandon_closed {s : State} (h : s.crashOpen = false) : exec .crashCastAbandon s = .next s :=
  congrArg Host.Outcome.next (if_neg (by rw [h]; exact Bool.false_ne_true))

/-! ### The obligation -/

/-- Settles O19: each reset command, by what is due. -/
theorem resetsReachTheirUnits : Obligations.ResetsReachTheirUnits := by
  refine ⟨fun s n hn hp hr hf hq => ?_, fun s d hd => ⟨dieReset_other hd, fun r hr h4 hu hs hok hf => ?_⟩,
    fun s => ⟨packageReset_held, fun r hr h5 hh => ?_⟩,
    fun s => ⟨powerCycle_undue, fun r hr h6 => ⟨_, powerCycle_due hr h6, powerCycle_leaves hr h6⟩, sysRstAssert_again, fun h => ?_, fun h => ?_⟩,
    fun s level unit k => ⟨crashCast_none k, crashCastAbandon_closed, crashCastAbandon_open, fun r hr h => crashCast_halted level unit k hr h,
      fun r hr hl hu h2 h5 h => ?_⟩⟩
  · obtain ⟨t, hexec, hclear, hlast, hfault, hidle, hlevel, hcause, htrigger, hcourts, hhbm, hniches⟩ := cellReset_leaves hn hp hr hf hq
    exact ⟨t, hexec, ⟨hlast.spd, hlast.istore, hlast.routes, hclear.acc, hclear.recvReq, hclear.recvRsp, hclear.macOp, hclear.ports, hclear.rasp, hfault, hidle⟩,
      hlevel, hcause, htrigger, hcourts, hhbm, hniches⟩
  · obtain ⟨hresets, hlast, hcause, hcount, hhbm, hlog, hlogs, hblank, hplinth, hothers⟩ := resetDie_leaves hd hr h4 hu hf
    exact ⟨_, dieReset_due hd hr h4 hu hs hok, hresets, hlast, hcause, hcount, hhbm, hlog, hlogs, hblank, hplinth, fun hn _ => hothers hn⟩
  · obtain ⟨hclear, hhbm, htick, hniche, hstate, hbusy⟩ := resetPackage_leaves s r (boot := 1) (by decide)
    exact ⟨_, packageReset_due hr h5 hh, hclear.halt, hstate, hbusy, hhbm, hclear.niches, hclear.rings, hclear.hostQs, hclear.flights, hniche, hclear.link,
      hclear.spd, htick, resetPackage_counts hr h5 1⟩
  · obtain ⟨hclear, hhbm, -, -, hstate, -⟩ := resetPackage_leaves s.haltAll (askedReset 5 0 none) (boot := 0) (by decide)
    have hexec := sysRstAssert_first h
    have hhalt : s.haltAll.hbm = s.hbm := rfl
    rw [hhalt] at hhbm
    generalize s.haltAll.resetPackage (askedReset 5 0 none) 0 = u at hexec hclear hhbm hstate
    exact ⟨_, hexec, rfl, hclear.halt, hstate, hhbm, hclear.niches⟩
  · intro asks
    obtain ⟨h0, h1, h2, h4, h8⟩ := dieResetReq_one s
    have ask {i : Instr} {r : ResetReq} (hi : exec i s = .next (s.demand r)) (ht : r.norm.trigger = 3) : asks i r.norm.level r.norm.unit := by
      obtain ⟨x, heq, hsets, hl, hu, htr⟩ := State.demand_asks h r
      exact ⟨_, x, hi, heq, hsets, hl, hu, htr.trans ht⟩
    exact ⟨h0, ask h1 rfl, ask h2 rfl, ask h4 rfl, ask h8 rfl, dieResetReq_three h, ask pkgResetReq_asks rfl, ask pwrcycReq_asks rfl⟩
  · have hcast := s.casting_castCells r (s.crashCells r) k
    refine ⟨_, crashCast_live k hr hl hu h2 h5 h, ?_⟩
    rw [State.crashCast_eq]
    by_cases hk : k < (s.crashCells r).length
    · rw [if_pos hk]
      exact ⟨hcast.resets.trans hr, hcast.crashSeq, hcast.seq, hcast.incomplete, hcast.cells, hcast.count, fun h => absurd hk (by omega), fun _ => hcast.crashOpen⟩
    · rw [if_neg hk]
      obtain ⟨hresets, hseq, hshow, hincomplete, hcount, hcells, hdone, hnew, halert⟩ := hcast.close
      exact ⟨hresets.trans hr, hseq, hshow, hincomplete, hcells, hcount, fun _ => ⟨hdone, hnew, halert⟩, fun h => absurd h hk⟩

end Sys2Proof.Machine

/-! PROOF. Integer operations: O4. -/

namespace Sys2Proof.Machine
open Sys2Proof

/-! ### What SALU leaves alone in a context -/

theorem saluCtx_keeps (w : Nat) (b : PW) (y : Ctx) :
    (saluCtx w b y).pc = y.pc ∧ (saluCtx w b y).stepping = y.stepping ∧ ∀ n, (saluCtx w b y).lReg n = y.lReg n := by
  obtain ⟨ss, as, us, hy, -⟩ := saluCtx_frame w b y
  rw [hy]
  exact ⟨rfl, rfl, fun _ => rfl⟩

/-- Writing the result and moving the PC commute. -/
theorem saluCtx_past (w : Nat) (b : PW) (y : Ctx) (n : Nat) :
    { saluCtx w b y.issuing with pc := y.pc + BitVec.ofNat 10 n } = saluCtx w b (y.past n) := by
  obtain ⟨ss, as, us, hy, hlike⟩ := saluCtx_frame w b y.issuing
  rw [hy, hlike (y.past n) rfl rfl rfl]
  rfl

/-! ### Results of SALU and SALUI (04 R92) -/

/-- The operations on words: one result, with the poison of both operands (R91). -/
theorem saluCtx_word {w m : Nat} (hm : minor w = m) (hlow : m ≤ 0x0F) (b : PW) (y : Ctx) :
    saluCtx w b y = y.setS (fRd w) ⟨alu32 m (y.sReg (fRs1 w)).v b.v, (y.sReg (fRs1 w)).p || b.p⟩ := by
  subst hm
  exact if_pos hlow

theorem saluCtx_addPairs {w : Nat} (hm : minor w = 0x10) (b : PW) (y : Ctx) : saluCtx w b y =
    y.setPairW (fRd w) (y.pair (fRs1 w) + y.pair (fRs2 w)) ((y.sReg (fRs1 w)).p || b.p) (y.pairP (fRs1 w) || y.pairP (fRs2 w)) := by
  simp only [saluCtx, hm]
  rfl

theorem saluCtx_addToA {w : Nat} (hm : minor w = 0x16) (b : PW) (y : Ctx) : saluCtx w b y =
    y.setA (fRd w % 8) ⟨(y.sReg (fRs1 w)).v + b.v, (y.sReg (fRs1 w)).p || b.p⟩ := by
  simp only [saluCtx, hm]
  rfl

theorem saluCtx_moveFromA {w : Nat} (hm : minor w = 0x17) (b : PW) (y : Ctx) :
    saluCtx w b y = y.setS (fRd w) (y.aReg (fRs1 w % 8)) := by
  simp only [saluCtx, hm]
  rfl

/-- SALU of a ready context leaves what saluCtx says. -/
theorem issued_salu {x : CtxRef} {s : State} (h : Ready .salu x s) (hn : NoReturn 1 x s) :
    ∃ t, exec (.salu x) s = .next t ∧
      Issued x s t (s.cell x.cell) (saluCtx (s.wordOf x) ((s.ctxOf x).sReg (fRs2 (s.wordOf x))) ((s.ctxOf x).past 1)) := by
  rw [← saluCtx_past]
  exact issued_regs (b := bodySalu) (f := fun z => saluCtx (s.wordOf x) (z.sReg (fRs2 (s.wordOf x))) z) h hn rfl
    (fun z => (saluCtx_keeps _ _ z).1) (fun z => (saluCtx_keeps _ _ z).2.2) (fun z => (saluCtx_keeps _ _ z).2.1)

/-- SALUI likewise, with the sign-extended immediate in place of rs2. -/
theorem issued_salui {x : CtxRef} {s : State} (h : Ready .salui x s) (hn : NoReturn 1 x s) :
    ∃ t, exec (.salui x) s = .next t ∧
      Issued x s t (s.cell x.cell) (saluCtx (s.wordOf x) ⟨BitVec.ofInt 32 (signed 11 (bits (s.wordOf x) 10 0)), false⟩ ((s.ctxOf x).past 1)) := by
  rw [← saluCtx_past]
  exact issued_regs (b := bodySalui) h hn rfl
    (fun z => (saluCtx_keeps _ _ z).1) (fun z => (saluCtx_keeps _ _ z).2.2) (fun z => (saluCtx_keeps _ _ z).2.1)

/-! ### SMUL (04 R94) -/

/-- What SMUL makes of a context. -/
def smulCtx (w : Nat) (y : Ctx) : Ctx :=
  if minor w = 7 then y.setPairW (fRd w) (y.pair (fRs1 w) * y.pair (fRs2 w)) ((y.sReg (fRs1 w)).p || (y.sReg (fRs2 w)).p)
    (y.pairP (fRs1 w) || y.pairP (fRs2 w))
  else y.setS (fRd w) ⟨mul32 (minor w) (y.sReg (fRs1 w)).v (y.sReg (fRs2 w)).v, (y.sReg (fRs1 w)).p || (y.sReg (fRs2 w)).p⟩

theorem smulCtx_keeps (w : Nat) (y : Ctx) :
    (smulCtx w y).pc = y.pc ∧ (smulCtx w y).stepping = y.stepping ∧ ∀ n, (smulCtx w y).lReg n = y.lReg n := by
  unfold smulCtx
  split <;> exact ⟨rfl, rfl, fun _ => rfl⟩

theorem smulCtx_past (w : Nat) (y : Ctx) (n : Nat) :
    { smulCtx w y.issuing with pc := y.pc + BitVec.ofNat 10 n } = smulCtx w (y.past n) := by
  unfold smulCtx
  split <;> rfl

theorem smulCtx_word {w m : Nat} (hm : minor w = m) (h7 : m ≠ 7) (y : Ctx) : smulCtx w y =
    y.setS (fRd w) ⟨mul32 m (y.sReg (fRs1 w)).v (y.sReg (fRs2 w)).v, (y.sReg (fRs1 w)).p || (y.sReg (fRs2 w)).p⟩ := by
  subst hm
  exact if_neg h7

theorem issued_smul {x : CtxRef} {s : State} (h : Ready .smul x s) (hn : NoReturn 1 x s) :
    ∃ t, exec (.smul x) s = .next t ∧ Issued x s t (s.cell x.cell) (smulCtx (s.wordOf x) ((s.ctxOf x).past 1)) := by
  rw [← smulCtx_past]
  exact issued_regs (b := bodySmul) h hn rfl (fun z => (smulCtx_keeps (s.wordOf x) z).1)
    (fun z => (smulCtx_keeps (s.wordOf x) z).2.2) (fun z => (smulCtx_keeps (s.wordOf x) z).2.1)

theorem mul32_low (a b : BitVec 32) : mul32 0 a b = BitVec.ofNat 32 (a.toNat * b.toNat) := rfl

theorem mul32_divu (a b : BitVec 32) : mul32 4 a b = if b = 0 then BitVec.allOnes 32 else a / b := by
  show (if b = 0 then BitVec.ofNat 32 0xFFFFFFFF else BitVec.ofNat 32 (a.toNat / b.toNat)) = _
  rw [← BitVec.toNat_udiv, BitVec.ofNat_toNat, BitVec.setWidth_eq]
  rfl

theorem mul32_remu (a b : BitVec 32) : mul32 6 a b = if b = 0 then a else a % b := by
  show (if b = 0 then a else BitVec.ofNat 32 (a.toNat % b.toNat)) = _
  rw [← BitVec.toNat_umod, BitVec.ofNat_toNat, BitVec.setWidth_eq]

/-- Settles O4: each result by its minor, from the one equation that says what its instruction makes of its context. -/
theorem integerResults : Obligations.IntegerResults := by
  intro x s hn y w a b i sets
  refine ⟨fun h => ?lui, fun h => ?salu, fun h => ?salui, fun h => ?smul⟩
  case lui =>
    have hi := issued_regs (b := bodyLui) h hn rfl (fun _ => rfl) (fun _ _ => rfl) (fun _ => rfl)
    rw [Nat.mul_comm] at hi
    exact hi
  case salu =>
    obtain ⟨t, ht, hi⟩ := issued_salu h hn
    have word {m : Nat} (hm : minor w = m) (hlow : m ≤ 0x0F) : sets (alu32 m a.v b.v) (a.p || b.p) t := by
      rw [saluCtx_word hm hlow] at hi
      exact hi
    have other {z : Ctx} (hz : saluCtx w b (y.past 1) = z) : Issued x s t (s.cell x.cell) z := hz ▸ hi
    refine ⟨t, ht, hi, fun hm => word hm (by decide), fun hm => word hm (by decide), fun hm => word hm (by decide),
      fun hm => word hm (by decide), fun hm => ?ltu, fun hm => ?adds, fun hm => other (saluCtx_addPairs hm _ _), fun hm => other (saluCtx_addToA hm _ _),
      fun hm => other (saluCtx_moveFromA hm _ _)⟩
    case ltu => simpa only [alu32, BitVec.ult, decide_eq_true_eq] using word hm (by decide)
    case adds =>
      rw [← satInt_32]
      exact word hm (by decide)
  case salui =>
    obtain ⟨t, ht, hi⟩ := issued_salui h hn
    have word {m : Nat} (hm : minor w = m) (hlow : m ≤ 0x0F) : sets (alu32 m a.v i.v) a.p t := by
      rw [saluCtx_word hm hlow] at hi
      rw [← Bool.or_false a.p]
      exact hi
    exact ⟨t, ht, hi, fun hm => word hm (by decide), fun hm => word hm (by decide)⟩
  case smul =>
    obtain ⟨t, ht, hi⟩ := issued_smul h hn
    have word {m : Nat} (hm : minor w = m) (h7 : m ≠ 7) : sets (mul32 m a.v b.v) (a.p || b.p) t := by
      rw [smulCtx_word hm h7] at hi
      exact hi
    refine ⟨t, ht, fun hm => ?_, fun hm => word hm (by decide), fun hm => word hm (by decide), fun hm => word hm (by decide),
      fun hm => ?_, fun hm => word hm (by decide), fun hm => ?_, fun hm => ?_⟩
    · rw [← mul32_low]; exact word hm (by decide)
    · rw [← mul32_divu]; exact word hm (by decide)
    · rw [← mul32_remu]; exact word hm (by decide)
    · rw [smulCtx, if_pos hm] at hi
      exact hi

end Sys2Proof.Machine

/-! PROOF. Branches and jumps: O5. -/

namespace Sys2Proof.Machine
open Sys2Proof

/-! ### Poisoned conditions and targets (04 R91) -/

/-- What POISON_CONSUMED of an instruction leaves: its context as it was but stopped, and a record with the operand's number and
the instruction's PC. -/
theorem issued_poisoned {r : Row} {x : CtxRef} {s : State} {b : Env → Nat → Nat → Nat → Cell → Cell} {op : Nat} (h : Ready r x s)
    (hb : b (s.env x.cell) x.ctx (s.wordOf x) (s.extOf x) ((s.cell x.cell).take x.ctx) =
      ((s.cell x.cell).take x.ctx).poisoned (s.env x.cell) x.ctx op) :
    ∃ t, s.issue r (cellBody b) x = .next t ∧ t.ctxOf x = { (s.ctxOf x).issuing with state := .faulted, wait := .none } ∧
      OnlyCell x.cell s t ∧ ∃ rec, (t.cell x.cell).faults = (s.cell x.cell).faults ++ [rec] ∧ rec.code = 0x09 ∧ rec.detail = op ∧
        rec.pc = (s.ctxOf x).pc.toNat := by
  have hctx : (((s.cell x.cell).take x.ctx).poisoned (s.env x.cell) x.ctx op).ctx x.ctx =
      { (s.ctxOf x).issuing with state := .faulted, wait := .none } := by
    rw [Cell.poisoned, Cell.raiseHere, Cell.ctx_raise, if_pos rfl, h.taken.self]
  obtain ⟨t, ht, ho, hc, hx⟩ := issued_cell h hb (by rw [hctx]; exact h.free)
  obtain ⟨rec, hrec, hcode, hdetail, hpc⟩ :=
    Cell.raise_record (s.env x.cell) x.ctx 0x09 op (((s.cell x.cell).take x.ctx).ctx x.ctx).pc.toNat ((s.cell x.cell).take x.ctx)
  rw [h.taken.self] at hpc
  exact ⟨t, ht, (hx x.ctx).trans hctx, ho, rec, (Cell.eq_of_noCtxs Cell.faults (fun _ => rfl) hc).trans hrec, hcode, hdetail, hpc⟩

/-! ### BR, J, JAL and JR (04 R95, R96) -/

/-- A context of the taken cell whose PC a jump sets. -/
theorem Cell.CtxIs.jump {c d : Cell} {k : Nat} {y : Ctx} (h : c.CtxIs d k y) (pc : BitVec 10) : c.CtxIs (d.jump k pc) k { y with pc := pc } :=
  h.modCtx _

section
variable (e : Env) (ext : Nat) {k w : Nat} {c : Cell} {y : Ctx} (hy : c.ctx k = y.issuing)
include hy

theorem bodyBr_registers (hm : minor w < 8) : bodyBr e k w ext c =
    if (y.sReg (fRd w)).p then c.poisoned e k 0
    else if (y.sReg (fRs1 w)).p then c.poisoned e k 1
    else if brCond (minor w) (y.sReg (fRd w)).v (y.sReg (fRs1 w)).v then c.jump k (y.pc + BitVec.ofInt 10 (signed 11 (bits w 10 0)))
    else c.advance k 1 := by
  unfold bodyBr
  rw [hy]
  exact if_neg (Nat.not_le.mpr hm)

theorem bodyBr_predicate (hm : 8 ≤ minor w) : bodyBr e k w ext c =
    if (y.pReg (bits w 18 16)).p then c.poisoned e k 0
    else if (y.pReg (bits w 18 16)).v ≠ 0 ↔ minor w = 8 then c.jump k (y.pc + BitVec.ofInt 10 (signed 11 (bits w 10 0)))
    else c.advance k 1 := by
  have htaken : (((y.pReg (bits w 18 16)).v != 0) == (minor w == 8)) = true ↔ ((y.pReg (bits w 18 16)).v ≠ 0 ↔ minor w = 8) := by
    rw [beq_iff_eq, Bool.eq_iff_iff, bne_iff_ne, beq_iff_eq]
  unfold bodyBr
  rw [hy]
  simp only [Ctx.pReg_issuing, if_pos hm, htaken]
  rfl

theorem bodyJr_target : bodyJr e k w ext c =
    if (y.sReg (fRs1 w)).p then c.poisoned e k 0 else c.jump k ((y.sReg (fRs1 w)).v.setWidth 10) := by
  unfold bodyJr
  rw [hy, ← BitVec.ofNat_toNat]
  rfl

end

/-- Settles O5: for each instruction the branch of its equation that its registers take. -/
theorem branchesAndJumps : Obligations.BranchesAndJumps := by
  intro x s y w goes faults
  have jumps {r : Row} (h : Ready r x s) {b : Env → Nat → Nat → Nat → Cell → Cell} {pc : BitVec 10}
      (hb : b (s.env x.cell) x.ctx w (s.extOf x) ((s.cell x.cell).take x.ctx) = ((s.cell x.cell).take x.ctx).jump x.ctx pc) :
      ∃ t, s.issue r (cellBody b) x = .next t ∧ goes pc t := 
    issued_ctxIs h (hb ▸ h.taken.jump pc) h.free
  refine ⟨fun h => ?br, fun h => ?j, fun h => ?jal, fun h => ?jr⟩
  case br =>
    obtain ⟨t, ht⟩ := issue_answers (cellBody bodyBr) h
    have regs := bodyBr_registers (w := w) (s.env x.cell) (s.extOf x) h.taken.self
    have pred := bodyBr_predicate (w := w) (s.env x.cell) (s.extOf x) h.taken.self
    have falls (hb : bodyBr (s.env x.cell) x.ctx w (s.extOf x) ((s.cell x.cell).take x.ctx) = ((s.cell x.cell).take x.ctx).advance x.ctx 1)
        (hn : NoReturn 1 x s) : goes (y.pc + 1) t := of_next ht (issued_ctxIs h (hb ▸ h.passed hn) h.free)
    refine ⟨t, ht, fun hm h0 => ?_, fun hm h0 h1 => ?_, fun hm h0 h1 => ⟨fun hc => ?_, fun hc hn => ?_⟩, fun hm h0 => ?_,
      fun hm h0 => ⟨fun hc => ?_, fun hc hn => ?_⟩⟩
    · exact of_next ht (issued_poisoned h ((regs hm).trans (if_pos h0)))
    · exact of_next ht (issued_poisoned h (by rw [regs hm, h0, if_neg Bool.false_ne_true, if_pos h1]))
    · exact of_next ht (jumps h (by rw [regs hm, h0, h1, if_neg Bool.false_ne_true, if_neg Bool.false_ne_true, if_pos hc]))
    · exact falls (by rw [regs hm, h0, h1, hc]; rfl) hn
    · exact of_next ht (issued_poisoned h ((pred hm).trans (if_pos h0)))
    · exact of_next ht (jumps h (by rw [pred hm, h0, if_neg Bool.false_ne_true, if_pos hc]))
    · exact falls (by rw [pred hm, h0, if_neg Bool.false_ne_true, if_neg hc]) hn
  case j => exact jumps h (by rw [bodyJ, h.taken.self]; rfl)
  case jal =>
    refine issued_ctxIs (b := bodyJal) h ?_ h.free
    rw [bodyJal, h.taken.self]
    exact (h.taken.modCtx _).jump _
  case jr =>
    obtain ⟨t, ht⟩ := issue_answers (cellBody bodyJr) h
    have target := bodyJr_target (w := w) (s.env x.cell) (s.extOf x) h.taken.self
    refine ⟨t, ht, fun h0 => of_next ht (jumps h ?_), fun h0 => of_next ht (issued_poisoned h (target.trans (if_pos h0)))⟩
    rw [target, h0, if_neg Bool.false_ne_true]

end Sys2Proof.Machine

/-! PROOF. Loops: O6. -/

namespace Sys2Proof.Machine
open Sys2Proof

/-! ### A word of the row LOOP (04 R97) -/

theorem okRow_eq_some {b : Bool} {r r' : Row} : okRow b r = some r' ↔ b = true ∧ r = r' := by
  cases b <;> simp [okRow]

theorem rowScalar_loop {w ext : Nat} (h : rowScalar w ext = some .loop) : bits w 9 0 ≠ 0 := by
  unfold rowScalar at h
  dsimp only at h
  split at h
  case h_6 => split at h <;> simp [okRow_eq_some] at h
  case h_7 =>
    obtain ⟨hok, -⟩ := okRow_eq_some.mp h
    simp only [Bool.and_eq_true, bne_iff_ne] at hok
    exact hok.1.2
  all_goals simp [okRow_eq_some] at h

theorem rowMem_ne_loop (w : Nat) : rowMem w ≠ some .loop := by
  unfold rowMem
  dsimp only
  split <;> simp [okRow_eq_some, ite_eq_iff]

theorem rowVec_ne_loop (w : Nat) : rowVec w ≠ some .loop := by
  unfold rowVec
  dsimp only
  split
  case h_3 => split <;> simp [okRow_eq_some]
  case h_4 => split <;> simp [okRow_eq_some]
  case h_5 => split <;> simp [okRow_eq_some]
  all_goals simp [okRow_eq_some]

theorem rowSys_ne_loop (w ext : Nat) : rowSys w ext ≠ some .loop := by
  unfold rowSys
  dsimp only
  split
  case h_2 => generalize (_ && _ : Bool) = ok; split <;> simp [okRow_eq_some]
  case h_9 =>
    split_ifs
    · exact nofun
    · split <;> simp [okRow_eq_some]
  case h_10 => split <;> simp [okRow_eq_some]
  all_goals simp [okRow_eq_some]

/-- LEN of a LOOP is not 0: such a word is undefined. -/
theorem rowOf_loop {w ext : Nat} (h : rowOf w ext = some .loop) : bits w 9 0 ≠ 0 := by
  unfold rowOf at h
  dsimp only at h
  split_ifs at h
  · exact rowScalar_loop h
  · exact absurd h (rowMem_ne_loop w)
  · exact absurd h (rowVec_ne_loop w)
  · exact absurd h (rowSys_ne_loop w ext)

/-! ### Advances of a cell that an instruction has changed -/

/-- The PC passes an instruction at whose last word no loop ends. -/
theorem Cell.CtxIs.advance {c d : Cell} {k : Nat} {y : Ctx} (h : c.CtxIs d k y) (words : Nat)
    (hn : ∀ n < 4, y.lReg n = 0 ∨ d.rd ((loopEnd n).ctx k) ≠ (y.pc + BitVec.ofNat 10 (words - 1)).toNat) :
    c.CtxIs (d.advance k words) k { y with pc := y.pc + BitVec.ofNat 10 words } := by
  rw [Cell.advance_none _ _ _ (by rw [h.self]; exact hn)]
  exact h.modCtx _

/-- An instruction of a ready context that makes its cell `c1` and then changes its own context only. -/
theorem issued_changed {r : Row} {x : CtxRef} {s : State} {b : Env → Nat → Nat → Nat → Cell → Cell} {c' c1 : Cell} {y : Ctx}
    (h : Ready r x s) (hb : c1.CtxIs (b (s.env x.cell) x.ctx (s.wordOf x) (s.extOf x) ((s.cell x.cell).take x.ctx)) x.ctx y)
    (hc : c1.noCtxs = c'.noCtxs) (hx : ∀ j, c1.ctx j = ((s.cell x.cell).take x.ctx).ctx j) (hs : y.stepping = false) :
    ∃ t, s.issue r (cellBody b) x = .next t ∧ Issued x s t c' y :=
  issued_of b h rfl (hb.rest.trans hc) hb.self hs fun j _ hj => (hb.other j hj).trans (hx j)

/-! ### The bounds of a loop (04 R97) -/

theorem loopEnd_key {n : Nat} (hn : n < 4) (k : Nat) : ((loopEnd n).ctx k).key = (0x440 + 8 * n + 0x100 * k) * 64 + 16 := by
  interval_cases n <;> rfl

theorem loopStart_key {n : Nat} (hn : n < 4) (k : Nat) : ((loopStart n).ctx k).key = (0x440 + 8 * n + 0x100 * k) * 64 := by
  interval_cases n <;> rfl

theorem loopEnd_width {n : Nat} (hn : n < 4) (k : Nat) : ((loopEnd n).ctx k).width = 10 := by
  interval_cases n <;> rfl

/-- A cell in which a loop of a context has its first and last address. -/
def Cell.loopBounds (c : Cell) (k n : Nat) (first last : BitVec 10) : Cell :=
  (c.wr ((loopStart n).ctx k) first.toNat).wr ((loopEnd n).ctx k) last.toNat

theorem Cell.rd_loopEnd_loopBounds (c : Cell) (k : Nat) {n m : Nat} (first last : BitVec 10) (hn : n < 4) (hm : m < 4) :
    (c.loopBounds k n first last).rd ((loopEnd m).ctx k) = if m = n then last.toNat else c.rd ((loopEnd m).ctx k) := by
  have hlast : last.toNat % 2 ^ ((loopEnd n).ctx k).width = last.toNat := by
    rw [loopEnd_width hn]
    exact Nat.mod_eq_of_lt last.isLt
  unfold Cell.loopBounds
  rw [Cell.rd_wr, hlast, Cell.rd_wr_ne _ _ (by rw [loopEnd_key hm, loopStart_key hn]; omega), loopEnd_key hm, loopEnd_key hn]
  exact if_congr (by omega) rfl rfl

/-- A last address one word or more behind an address is another address. -/
theorem add_ofNat_ne_self (pc : BitVec 10) {len : Nat} (h0 : len ≠ 0) (hlen : len < 1024) : pc + BitVec.ofNat 10 len ≠ pc := by
  bv_omega

/-- The count of a LOOP: the immediate, or a register. -/
def loopCount (w : Nat) (y : Ctx) : PW := if bit w 18 then ⟨BitVec.ofNat 32 (bits w 17 10), false⟩ else y.sReg (bits w 17 13)

theorem bodyLoop_sets (e : Env) {k w : Nat} (ext : Nat) {c : Cell} {y : Ctx} (hy : c.ctx k = y.issuing) (hp : (loopCount w y).p = false) :
    let last := y.pc + BitVec.ofNat 10 (bits w 9 0)
    let d := (c.loopBounds k (bits w 20 19) (y.pc + 1) last).modCtx k (fun z => z.setL (bits w 20 19) (loopCount w y).v)
    bodyLoop e k w ext c = if (loopCount w y).v = 0 then d.jump k (last + 1) else d.advance k 1 := by
  unfold bodyLoop
  rw [hy]
  exact if_neg (ne_true_of_eq_false hp)

/-! ### The return test (04 R97) -/

/-- Loops that do not end here leave the test to those after them. -/
theorem loopTest_append (c : Cell) (k : Nat) (last next : BitVec 10) (y : Ctx) {l : List Nat} (l' : List Nat)
    (h : ∀ n ∈ l, y.lReg n = 0 ∨ c.rd ((loopEnd n).ctx k) ≠ last.toNat) :
    loopTest c k last next y (l ++ l') = loopTest c k last next y l' := by
  induction l with
  | nil => rfl
  | cons n l ih =>
    have hn : ¬ (y.lReg n ≠ 0 ∧ c.rd ((loopEnd n).ctx k) = last.toNat) := by
      rcases h n List.mem_cons_self with h | h <;> simp [h]
    rw [List.cons_append, loopTest, if_neg hn]
    exact ih fun m hm => h m (List.mem_cons_of_mem _ hm)

theorem loopTest_returns (c : Cell) (k : Nat) {last : BitVec 10} (next : BitVec 10) {y : Ctx} {n : Nat} (l : List Nat)
    (h0 : y.lReg n ≠ 0) (h1 : y.lReg n ≠ 1) (hend : c.rd ((loopEnd n).ctx k) = last.toNat) :
    loopTest c k last next y (n :: l) = { y.setL n (y.lReg n - 1) with pc := BitVec.ofNat 10 (c.rd ((loopStart n).ctx k)) } := by
  have hleft : (y.setL n (y.lReg n - 1)).lReg n ≠ 0 := by
    rw [Ctx.lReg_setL, if_pos rfl]
    exact sub_ne_zero.mpr h1
  rw [loopTest, if_pos ⟨h0, hend⟩]
  exact if_pos hleft

theorem loopTest_ends (c : Cell) (k : Nat) {last : BitVec 10} (next : BitVec 10) {y : Ctx} {n : Nat} (l : List Nat)
    (h1 : y.lReg n = 1) (hend : c.rd ((loopEnd n).ctx k) = last.toNat) :
    loopTest c k last next y (n :: l) = loopTest c k last next (y.setL n 0) l := by
  rw [loopTest, if_pos ⟨by rw [h1]; decide, hend⟩, h1]
  exact if_neg (by simp)

/-- The order of the test around a loop: those of higher number before it, those of lower number after it. -/
theorem loops_around {n : Nat} (hn : n < 4) : ∃ before after, [3, 2, 1, 0] = before ++ n :: after ∧
    (∀ m ∈ before, n < m ∧ m < 4) ∧ ∀ m ∈ after, m < n := by
  interval_cases n
  · exact ⟨[3, 2, 1], [], by decide⟩
  · exact ⟨[3, 2], [0], by decide⟩
  · exact ⟨[3], [1, 0], by decide⟩
  · exact ⟨[], [2, 1, 0], by decide⟩

/-- Settles O6: LOOP by its two ways on, the return test by what stands before and after the loop in its order. -/
theorem loopSetsUpAndReturns : Obligations.LoopSetsUpAndReturns := by
  constructor
  · intro x s y w n cnt last c h hp
    have hn : n < 4 := Nat.mod_lt _ (by decide)
    have hlen := rowOf_loop h.row
    have hb := bodyLoop_sets (s.env x.cell) (s.extOf x) h.taken.self hp
    let c1 := ((s.cell x.cell).take x.ctx).loopBounds x.ctx n (y.pc + 1) last
    have bounded : c1.CtxIs c1 x.ctx y.issuing := ⟨rfl, h.taken.self, fun _ _ => rfl⟩
    have counted := bounded.modCtx (fun z => z.setL n cnt.v)
    obtain ⟨t, ht⟩ := issue_answers (cellBody bodyLoop) h
    refine ⟨t, ht, fun h0 => ?_, fun h0 hother => ?_⟩
    · rw [← h0]
      refine of_next ht (issued_changed (c' := c) (c1 := c1) (y := { y.issuing.setL n cnt.v with pc := last + 1 }) h ?_ rfl
        (fun _ => rfl) h.free)
      rw [hb.trans (if_pos h0)]
      exact counted.jump _
    · refine of_next ht (issued_changed (c' := c) (c1 := c1) (y := (y.past 1).setL n cnt.v) h ?_ rfl (fun _ => rfl) h.free)
      rw [hb.trans (if_neg h0)]
      refine counted.advance 1 fun m hm => ?_
      have hpc : (y.issuing.setL n cnt.v).pc + BitVec.ofNat 10 (1 - 1) = y.pc := BitVec.add_zero _
      rw [Cell.rd_modCtx, Cell.rd_loopEnd_loopBounds _ _ _ _ hn hm, hpc]
      by_cases hmn : m = n
      · rw [if_pos hmn]
        exact .inr fun heq => add_ofNat_ne_self y.pc hlen (Nat.mod_lt _ (by decide)) (BitVec.eq_of_toNat_eq heq)
      · rw [if_neg hmn, Ctx.lReg_setL, if_neg hmn]
        exact hother m hm hmn
  · intro c k words n hk hn y last hhigh h0 hend
    obtain ⟨before, after, horder, hbefore, hafter⟩ := loops_around hn
    have hctx : (c.advance k words).ctx k = loopTest c k last (y.pc + BitVec.ofNat 10 words) y (n :: after) := by
      rw [Cell.advance, Cell.ctx_modCtx, if_pos rfl, horder]
      exact loopTest_append _ _ _ _ _ _ fun m hm => hhigh m (hbefore m hm).2 (hbefore m hm).1
    refine ⟨fun h1 => hctx.trans (loopTest_returns _ _ _ _ h0 h1 hend), fun h1 hlow => ?_⟩
    rw [hctx, loopTest_ends _ _ _ _ h1 hend]
    refine loopTest_none _ _ _ _ _ _ fun m hm => ?_
    rw [Ctx.lReg_setL, if_neg (hafter m hm).ne]
    exact hlow m (hafter m hm)

end Sys2Proof.Machine

/-! PROOF. Atomics: O24. -/

namespace Sys2Proof.Machine
open Sys2Proof

/-! ### Instructions that change the scratchpad -/

/-- What an instruction leaves whose cell differs in the scratchpad only, told by the cell that it leaves. -/
theorem Issued.spd {x : CtxRef} {s t : State} {c c' : Cell} {y : Ctx} (hi : Issued x s t c' y)
    (heq : c' = { c with spd := c'.spd, spdPoison := c'.spdPoison, spdEcc := c'.spdEcc }) :
    Issued x s t { c with spd := (t.cell x.cell).spd, spdPoison := (t.cell x.cell).spdPoison, spdEcc := (t.cell x.cell).spdEcc } y ∧
      (t.cell x.cell).spd = c'.spd ∧ ∀ b, (t.cell x.cell).wordP b = c'.wordP b := by
  obtain ⟨-, hc, -⟩ := id hi
  have hspd : (t.cell x.cell).spd = c'.spd := Cell.eq_of_noCtxs Cell.spd (fun _ => rfl) hc
  have hpoison : (t.cell x.cell).spdPoison = c'.spdPoison := Cell.eq_of_noCtxs Cell.spdPoison (fun _ => rfl) hc
  have hecc : (t.cell x.cell).spdEcc = c'.spdEcc := Cell.eq_of_noCtxs Cell.spdEcc (fun _ => rfl) hc
  refine ⟨?_, hspd, fun b => by unfold Cell.wordP; rw [hpoison]⟩
  rw [hspd, hpoison, hecc, ← heq]
  exact hi

/-! ### A word or a double written whole -/

/-- The little-endian words of a number written at an address, each with its poison. -/
def Cell.spdPut (c : Cell) (a n v : Nat) (p q : Bool) : Cell :=
  if n = 8 then (c.spdWrite a (v % 2 ^ 32) p).spdWrite (a + 4) (v / 2 ^ 32 % 2 ^ 32) q else c.spdWrite a (v % 2 ^ 32) p

theorem Cell.spdPut_eq (c : Cell) (a n v : Nat) (p q : Bool) : c.spdPut a n v p q =
    { c with spd := (c.spdPut a n v p q).spd, spdPoison := (c.spdPut a n v p q).spdPoison, spdEcc := (c.spdPut a n v p q).spdEcc } := by
  unfold Cell.spdPut
  split <;> rfl

theorem Cell.noCtxs_spdPut (c : Cell) (a n v : Nat) (p q : Bool) : (c.spdPut a n v p q).noCtxs = c.noCtxs.spdPut a n v p q := by
  unfold Cell.spdPut
  split <;> rfl

@[simp] theorem Cell.ctx_spdPut (c : Cell) (a n v : Nat) (p q : Bool) (j : Nat) : (c.spdPut a n v p q).ctx j = c.ctx j := by
  unfold Cell.spdPut
  split <;> rfl

@[simp] theorem Cell.rd_spdPut (c : Cell) (a n v : Nat) (p q : Bool) (f : Fld) : (c.spdPut a n v p q).rd f = c.rd f := by
  unfold Cell.spdPut
  split <;> rfl

theorem Cell.sameBytes_spdPut (c : Cell) {a n : Nat} (v : Nat) (p q : Bool) (hn : n = 4 ∨ n = 8) (hal : a % n = 0) :
    SameBytes a n c.spd (c.spdPut a n v p q).spd := by
  intro b hb
  unfold Cell.spdPut
  rcases hn with rfl | rfl
  · exact memByte_memWrite_out _ _ _ _ _ (by omega)
  · show memByte (memWrite (memWrite c.spd _ 4 _) _ 4 _) b = _
    rw [memByte_memWrite_out _ _ _ _ _ (by omega), memByte_memWrite_out _ _ _ _ _ (by omega)]

theorem Cell.memRead_spdPut_word (c : Cell) {a : Nat} (v : Nat) (p q : Bool) (hal : a % 4 = 0) :
    memRead (c.spdPut a 4 v p q).spd a 4 = v % 2 ^ 32 := by
  have h0 : 4 * (a / 4) = a := by omega
  show memRead (memWrite c.spd (4 * (a / 4)) 4 _) a 4 = _
  rw [h0, memRead_memWrite]
  exact Nat.mod_mod _ _

theorem Cell.memRead_spdPut_double (c : Cell) {a : Nat} (v : Nat) (p q : Bool) (hal : a % 8 = 0) :
    memRead (c.spdPut a 8 v p q).spd a 8 = v % 2 ^ 64 := by
  have h0 : 4 * (a / 4) = a := by omega
  have h4 : 4 * ((a + 4) / 4) = a + 4 := by omega
  show memRead (memWrite (memWrite c.spd (4 * (a / 4)) 4 _) (4 * ((a + 4) / 4)) 4 _) a (4 + 4) = _
  rw [memRead_add, h4, memRead_memWrite_out _ _ (by omega), memRead_memWrite, h0, memRead_memWrite]
  omega

theorem Cell.wordP_spdPut_word (c : Cell) (a v : Nat) (p q : Bool) : (c.spdPut a 4 v p q).wordP a = p :=
  (Cell.wordP_spdWrite ..).trans (if_pos rfl)

/-! ### AADD and ASWAP (04 R103, 06 R186) -/

section
variable (e : Env) {k w : Nat} {c : Cell} {y : Ctx} (hy : c.ctx k = y.issuing) {a : Nat}
include hy

theorem atomBody_word (add : Bool) (hm : minor w % 2 ≠ 1) (ha : a = (y.aReg (bits w 10 8)).v.toNat + bits w 7 0 * 4)
    (hs : c.coreSound (y.aReg (bits w 10 8)) a 4) :
    atomBody add e k w c = (c.spdPut a 4 (if add then memRead c.spd a 4 + (y.sReg (fRs1 w)).v.toNat else (y.sReg (fRs1 w)).v.toNat)
      (if add then c.wordP a || (y.sReg (fRs1 w)).p else (y.sReg (fRs1 w)).p) false).done k
      (fun z => z.setS (fRd w) ⟨BitVec.ofNat 32 (memRead c.spd a 4), c.wordP a⟩) := by
  obtain ⟨hp, hal, hr, ho, he⟩ := hs
  have h0 : 4 * (a / 4) = a := by omega
  unfold atomBody
  simp only [hy, Ctx.aReg_issuing, Ctx.sReg_issuing, beq_eq_false_iff_ne.mpr hm, Bool.false_eq_true, if_false, ← ha, hp,
    c.spdCheck_core (by decide) hal hr ho, c.spdRead_ok (a := a) (he 0 (by decide)), h0]
  rfl

theorem atomBody_double (add : Bool) (hm : minor w % 2 = 1) (ha : a = (y.aReg (bits w 10 8)).v.toNat + bits w 7 0 * 8)
    (hs : c.coreSound (y.aReg (bits w 10 8)) a 8) :
    atomBody add e k w c = (c.spdPut a 8 (if add then memRead c.spd a 8 + y.pair (fRs1 w) else y.pair (fRs1 w))
      (if add then c.wordP a || c.wordP (a + 4) || y.pairP (fRs1 w) else (y.sReg (fRs1 w)).p)
      (if add then c.wordP a || c.wordP (a + 4) || y.pairP (fRs1 w) else (y.sReg (fRs1 w + 1)).p)).done k
      (fun z => z.setPair (fRd w) (memRead c.spd a 8) (c.wordP a || c.wordP (a + 4))) := by
  obtain ⟨hp, hal, hr, ho, he⟩ := hs
  have h0 : 4 * (a / 4) = a := by omega
  have h4 : 4 * ((a + 4) / 4) = a + 4 := by omega
  have hold : memRead c.spd a 8 = memRead c.spd a 4 + 2 ^ 32 * memRead c.spd (a + 4) 4 := memRead_add c.spd a 4 4
  unfold atomBody
  simp only [hy, Ctx.aReg_issuing, Ctx.sReg_issuing, Ctx.pair_issuing, Ctx.pairP_issuing, beq_iff_eq.mpr hm, Bool.false_eq_true, if_false, if_true, ← ha, hp,
    c.spdCheck_core (by decide) hal hr ho, c.spdRead_ok (a := a) (he 0 (by decide)), c.spdRead_ok (a := a + 4) (he 4 (by decide)), h0, h4, hold]
  rfl

end

/-- An instruction of a ready context that writes a word or a double, then registers, and goes on. -/
theorem issued_put {r : Row} {x : CtxRef} {s : State} {b : Env → Nat → Nat → Nat → Cell → Cell} {a n v : Nat} {p q : Bool} {f : Ctx → Ctx}
    (h : Ready r x s) (hn : NoReturn 1 x s) (hb : b (s.env x.cell) x.ctx (s.wordOf x) (s.extOf x) ((s.cell x.cell).take x.ctx) =
      (((s.cell x.cell).take x.ctx).spdPut a n v p q).done x.ctx f)
    (hp : ∀ z, (f z).pc = z.pc) (hl : ∀ z n, (f z).lReg n = z.lReg n) (hs : ∀ z, (f z).stepping = z.stepping) :
    ∃ t, s.issue r (cellBody b) x = .next t ∧
      Issued x s t { s.cell x.cell with spd := (t.cell x.cell).spd, spdPoison := (t.cell x.cell).spdPoison
                                        spdEcc := (t.cell x.cell).spdEcc }
        { f (s.ctxOf x).issuing with pc := (s.ctxOf x).pc + BitVec.ofNat 10 1 } ∧
      (t.cell x.cell).spd = ((s.cell x.cell).spdPut a n v p q).spd ∧
      ∀ b, (t.cell x.cell).wordP b = ((s.cell x.cell).spdPut a n v p q).wordP b := by
  obtain ⟨t, ht, hi⟩ := issued_done h hn (c' := (s.cell x.cell).spdPut a n v p q) hb
    (by rw [Cell.noCtxs_spdPut, Cell.noCtxs_spdPut, Cell.noCtxs_take]) (fun j => Cell.ctx_spdPut ..)
    (fun m _ => by rw [Cell.rd_spdPut, Cell.rd_take]) (hp _) (hl _) ((hs _).trans h.free)
  exact ⟨t, ht, hi.spd (Cell.spdPut_eq ..)⟩

/-- Settles O24: AADD and ASWAP by their common body, on a word or a double. -/
theorem atomicsReturnTheOldWord : Obligations.AtomicsReturnTheOldWord := by
  intro x s add h hn y w c n a hp hal hr ho he
  have hexec : exec (if add then .aadd x else .aswap x) s =
      s.issue (if add then .aadd else .aswap) (cellBody (fun e k w _ c => atomBody add e k w c)) x := by cases add <;> rfl
  have hcore : (c.take x.ctx).coreSound (y.aReg (bits w 10 8)) a n := ⟨hp, hal, hr, ho, he⟩
  rw [hexec]
  by_cases hm : minor w % 2 = 1
  · have hn8 : n = 8 := if_pos hm
    rw [hn8] at hcore hal
    have hb := atomBody_double (c := c.take x.ctx) (y := y) (w := w) (a := a) (s.env x.cell) h.taken.self add hm
      (congrArg ((y.aReg (bits w 10 8)).v.toNat + bits w 7 0 * ·) hn8) hcore
    simp only [Cell.take_spd, Cell.take_wordP] at hb
    obtain ⟨t, ht, hi, hspd, -⟩ := issued_put (b := fun e k w _ c => atomBody add e k w c) h hn hb (by simp) (by simp) (by simp)
    refine ⟨t, ht, ?_, fun h4 => absurd (h4.symm.trans hn8) (by decide), fun _ => ⟨hi, ?_⟩⟩
    · rw [hspd, hn8]
      exact c.sameBytes_spdPut _ _ _ (.inr rfl) hal
    · rw [hspd]
      exact c.memRead_spdPut_double _ _ _ hal
  · have hn4 : n = 4 := if_neg hm
    rw [hn4] at hcore hal
    have hb := atomBody_word (c := c.take x.ctx) (y := y) (w := w) (a := a) (s.env x.cell) h.taken.self add hm
      (congrArg ((y.aReg (bits w 10 8)).v.toNat + bits w 7 0 * ·) hn4) hcore
    simp only [Cell.take_spd, Cell.take_wordP] at hb
    obtain ⟨t, ht, hi, hspd, hw⟩ := issued_put (b := fun e k w _ c => atomBody add e k w c) h hn hb (by simp) (by simp) (by simp)
    refine ⟨t, ht, ?_, fun _ => ⟨hi, ?_, ?_⟩, fun h8 => absurd (h8.symm.trans hn4) (by decide)⟩
    · rw [hspd, hn4]
      exact c.sameBytes_spdPut _ _ _ (.inl rfl) hal
    · rw [hspd]
      exact c.memRead_spdPut_word _ _ _ hal
    · rw [hw]
      exact c.wordP_spdPut_word _ _ _ _

end Sys2Proof.Machine

/-! PROOF. Views of the scratchpad: used for O23, O25 and O41. -/

namespace Sys2Proof.Machine
open Sys2Proof

/-! ### Loads of a view (06 R177) -/

theorem Cell.spdRead_noCtxs (c : Cell) (a : Nat) :
    c.noCtxs.spdRead a = ((c.spdRead a).1, (c.spdRead a).2.1, (c.spdRead a).2.2.noCtxs) := by
  have hecc : c.noCtxs.spdEcc = c.spdEcc := rfl
  unfold Cell.spdRead
  simp only [hecc]
  cases fget ecc0 c.spdEcc (a / 4) <;> rfl

/-- Contexts have no part in a load. -/
theorem Cell.viewLoad_noCtxs (c : Cell) (l : List (Nat × List (Nat × Nat))) :
    c.noCtxs.viewLoad l = ((c.viewLoad l).1, (c.viewLoad l).2.noCtxs) := by
  induction l generalizing c with
  | nil => rfl
  | cons e l ih => rw [Cell.viewLoad, Cell.viewLoad, Cell.spdRead_noCtxs, ih]

/-- The register that a load of a view gives is the same in cells that agree beside their contexts. -/
theorem Cell.viewLoad_of_noCtxs {c d : Cell} (h : c.noCtxs = d.noCtxs) (l : List (Nat × List (Nat × Nat))) :
    (c.viewLoad l).1 = (d.viewLoad l).1 :=
  Cell.eq_of_noCtxs (fun c => (c.viewLoad l).1) (fun c => by rw [Cell.viewLoad_noCtxs]) h

/-- A load of words with good check bits changes nothing (06 R196). -/
theorem Cell.viewLoad_good (c : Cell) {l : List (Nat × List (Nat × Nat))} (h : ∀ e ∈ l, fget ecc0 c.spdEcc (e.1 / 4) = .ok) :
    (c.viewLoad l).2 = c := by
  induction l with
  | nil => rfl
  | cons e l ih =>
    rw [Cell.viewLoad, c.spdRead_ok (h e List.mem_cons_self)]
    exact ih fun e he => h e (List.mem_cons_of_mem _ he)

/-! ### Stores of a view -/

/-- A store changes the scratchpad only. -/
theorem Cell.viewStore_eq (c : Cell) (r : VR) (l : List (Nat × List (Nat × Nat))) :
    ∃ m p e, c.viewStore r l = { c with spd := m, spdPoison := p, spdEcc := e } := by
  induction l generalizing c with
  | nil => exact ⟨_, _, _, rfl⟩
  | cons e l ih =>
    obtain ⟨m, p, e, heq⟩ := ih (c.spdWrite e.1 (collect r 0 e.2).1 (collect r 0 e.2).2)
    exact ⟨m, p, e, heq⟩

theorem Cell.noCtxs_viewStore (c : Cell) (r : VR) (l : List (Nat × List (Nat × Nat))) : (c.viewStore r l).noCtxs = c.noCtxs.viewStore r l := by
  induction l generalizing c with
  | nil => rfl
  | cons e l ih => exact ih _

@[simp] theorem Cell.ctx_viewStore (c : Cell) (r : VR) (l : List (Nat × List (Nat × Nat))) (j : Nat) : (c.viewStore r l).ctx j = c.ctx j := by
  obtain ⟨m, p, e, heq⟩ := c.viewStore_eq r l
  rw [heq]
  rfl

@[simp] theorem Cell.rd_viewStore (c : Cell) (r : VR) (l : List (Nat × List (Nat × Nat))) (f : Fld) : (c.viewStore r l).rd f = c.rd f := by
  obtain ⟨m, p, e, heq⟩ := c.viewStore_eq r l
  rw [heq]
  rfl

@[simp] theorem Cell.spdCheck_viewStore (c : Cell) (r : VR) (l : List (Nat × List (Nat × Nat))) (cls : Nat) (al : Bool) (ws : List Nat) :
    (c.viewStore r l).spdCheck cls al ws = c.spdCheck cls al ws := by
  obtain ⟨m, p, e, heq⟩ := c.viewStore_eq r l
  rw [heq]
  rfl

/-! ### Row view (06 R177) -/

/-- Words of the row view at an address, by their lanes. -/
def rowWords (a : Nat) (l : List Nat) : List (Nat × List (Nat × Nat)) := l.map fun j => (a + 4 * j, [(32, j)])

theorem viewMap_row (wc a : Nat) : viewMap false wc a = rowWords a (List.range 16) := rfl

/-- Bit `i` of a word put into lane `j` of a register. -/
theorem getLsbD_lane {v : Nat} (hv : v < 2 ^ 32) (j : Nat) {i : Nat} (hi : i < 512) :
    (BitVec.ofNat 512 (v * 2 ^ (32 * j))).getLsbD i = (decide (i / 32 = j) && v.testBit (i % 32)) := by
  rw [BitVec.getLsbD_ofNat, decide_eq_true hi, Bool.true_and, Nat.testBit_mul_two_pow]
  by_cases hj : i / 32 = j
  · rw [decide_eq_true hj, decide_eq_true (by omega : 32 * j ≤ i), show i - 32 * j = i % 32 by omega]
  · rw [decide_eq_false hj, Bool.false_and]
    by_cases hlo : 32 * j ≤ i
    · rw [decide_eq_true hlo, Bool.true_and]
      exact Nat.testBit_eq_false_of_lt (hv.trans_le (Nat.pow_le_pow_right (by decide) (by omega)))
    · rw [decide_eq_false hlo, Bool.false_and]

/-- Poison of a word put into lane `j` of a register. -/
theorem getLsbD_laneP (p : Bool) (j : Nat) {i : Nat} (hi : i < 16) :
    (BitVec.ofNat 16 (b2n p * 2 ^ j)).getLsbD i = (decide (i = j) && p) := by
  rw [BitVec.getLsbD_ofNat, decide_eq_true hi, Bool.true_and]
  cases p
  · simp [b2n]
  · rw [b2n, if_pos rfl, Nat.one_mul, Nat.testBit_two_pow, Bool.and_true, decide_eq_decide]
    exact eq_comm

/-- A register loaded from words of the row view, bit by bit. -/
theorem Cell.viewLoad_rowWords (c : Cell) {a : Nat} (hal : a % 4 = 0) {l : List Nat} (h : ∀ j ∈ l, fget ecc0 c.spdEcc (a / 4 + j) = .ok) :
    (∀ i < 512, (c.viewLoad (rowWords a l)).1.v.getLsbD i =
      (decide (i / 32 ∈ l) && (memRead c.spd (a + 4 * (i / 32)) 4).testBit (i % 32))) ∧
    ∀ i < 16, (c.viewLoad (rowWords a l)).1.p.getLsbD i = (decide (i ∈ l) && c.wordP (a + 4 * i)) := by
  induction l with
  | nil => exact ⟨fun i _ => by simp [rowWords, Cell.viewLoad], fun i _ => by simp [rowWords, Cell.viewLoad]⟩
  | cons j l ih =>
    obtain ⟨hv, hp⟩ := ih fun m hm => h m (List.mem_cons_of_mem _ hm)
    have hecc : fget ecc0 c.spdEcc ((a + 4 * j) / 4) = .ok := by
      rw [show (a + 4 * j) / 4 = a / 4 + j by omega]
      exact h j List.mem_cons_self
    have h4 : 4 * ((a + 4 * j) / 4) = a + 4 * j := by omega
    have hlt : memRead c.spd (a + 4 * j) 4 < 2 ^ 32 := memRead_lt ..
    have hload : (c.viewLoad (rowWords a (j :: l))).1 =
        ⟨(c.viewLoad (rowWords a l)).1.v ||| BitVec.ofNat 512 (memRead c.spd (a + 4 * j) 4 * 2 ^ (32 * j)),
         (c.viewLoad (rowWords a l)).1.p ||| BitVec.ofNat 16 (b2n (c.wordP (a + 4 * j)) * 2 ^ j)⟩ := by
      have hbits : bits (memRead c.spd (a + 4 * j) 4) 31 0 = memRead c.spd (a + 4 * j) 4 := Nat.mod_eq_of_lt hlt
      have hlane : 32 * j / 32 = j := by omega
      simp only [rowWords, List.map_cons, Cell.viewLoad, c.spdRead_ok hecc, h4, spread, Nat.zero_add, Nat.add_zero, Nat.or_zero,
        Nat.reduceSub, hbits, hlane]
    rw [hload]
    refine ⟨fun i hi => ?_, fun i hi => ?_⟩
    · rw [BitVec.getLsbD_or, hv i hi, getLsbD_lane hlt j hi]
      by_cases hj : i / 32 = j <;> simp [hj]
    · rw [BitVec.getLsbD_or, hp i hi, getLsbD_laneP _ j hi]
      by_cases hj : i = j <;> simp [hj]

/-- A lane loaded in row view is its word. -/
theorem Cell.elem_viewLoad_row (c : Cell) {a j : Nat} (hal : a % 4 = 0) (h : ∀ i < 16, fget ecc0 c.spdEcc (a / 4 + i) = .ok) (hj : j < 16) :
    (c.viewLoad (viewMap false 0 a)).1.elem 32 j = memRead c.spd (a + 4 * j) 4 := by
  obtain ⟨hv, -⟩ := c.viewLoad_rowWords hal (l := List.range 16) fun i hi => h i (List.mem_range.mp hi)
  have hlt : memRead c.spd (a + 4 * j) 4 < 2 ^ 32 := memRead_lt ..
  refine Nat.eq_of_testBit_eq fun b => ?_
  rw [VR.elem, Nat.testBit_mod_two_pow, Nat.testBit_shiftRight, viewMap_row]
  by_cases hb : b < 32
  · rw [decide_eq_true hb, Bool.true_and]
    refine (hv (32 * j + b) (by omega)).trans ?_
    rw [show (32 * j + b) / 32 = j by omega, show (32 * j + b) % 32 = b by omega, decide_eq_true (List.mem_range.mpr hj), Bool.true_and]
  · rw [decide_eq_false hb, Bool.false_and]
    exact (Nat.testBit_eq_false_of_lt (hlt.trans_le (Nat.pow_le_pow_right (by decide) (by omega)))).symm

theorem Cell.poison_viewLoad_row (c : Cell) {a j : Nat} (hal : a % 4 = 0) (h : ∀ i < 16, fget ecc0 c.spdEcc (a / 4 + i) = .ok) (hj : j < 16) :
    (c.viewLoad (viewMap false 0 a)).1.p.getLsbD j = c.wordP (a + 4 * j) := by
  obtain ⟨-, hp⟩ := c.viewLoad_rowWords hal (l := List.range 16) fun i hi => h i (List.mem_range.mp hi)
  rw [viewMap_row, hp j hj, decide_eq_true (List.mem_range.mpr hj), Bool.true_and]

/-- What a store of words of the row view writes: the lanes of its words, and no other byte. -/
theorem Cell.memRead_viewStore_rowWords (r : VR) {a : Nat} (hal : a % 4 = 0) (l : List Nat) (c : Cell) (j : Nat) :
    memRead (c.viewStore r (rowWords a l)).spd (a + 4 * j) 4 = if j ∈ l then r.elem 32 j else memRead c.spd (a + 4 * j) 4 := by
  induction l generalizing c with
  | nil => rfl
  | cons i l ih =>
    have h4 : 4 * ((a + 4 * i) / 4) = a + 4 * i := by omega
    have hword : collect r 0 [(32, i)] = (r.elem 32 i, r.elemP 32 i) := by simp [collect]
    have hset : memRead (c.spdWrite (a + 4 * i) (r.elem 32 i) (r.elemP 32 i)).spd (a + 4 * j) 4 =
        if j = i then r.elem 32 i else memRead c.spd (a + 4 * j) 4 := by
      rw [Cell.spdWrite_eq]
      show memRead (memWrite c.spd (4 * ((a + 4 * i) / 4)) 4 _) _ 4 = _
      rw [h4]
      split_ifs with hji
      · rw [hji, memRead_memWrite]
        exact VR.elem_mod r 32 i
      · rw [memRead_memWrite_out _ _ (by omega)]
    simp only [rowWords, List.map_cons, Cell.viewStore, hword]
    refine (ih _).trans ?_
    rw [hset]
    by_cases hjl : j ∈ l
    · rw [if_pos hjl, if_pos (List.mem_cons_of_mem _ hjl)]
    · rw [if_neg hjl]
      by_cases hji : j = i
      · rw [if_pos hji, if_pos (hji ▸ List.mem_cons_self), hji]
      · rw [if_neg hji, if_neg (by rw [List.mem_cons, not_or]; exact ⟨hji, hjl⟩)]

theorem Cell.memByte_viewStore_rowWords (r : VR) {a b : Nat} (hal : a % 4 = 0) {l : List Nat} (c : Cell)
    (h : ∀ j ∈ l, b < a + 4 * j ∨ a + 4 * j + 4 ≤ b) : memByte (c.viewStore r (rowWords a l)).spd b = memByte c.spd b := by
  induction l generalizing c with
  | nil => rfl
  | cons i l ih =>
    have hi := h i List.mem_cons_self
    exact (ih _ fun j hj => h j (List.mem_cons_of_mem _ hj)).trans (memByte_memWrite_out _ _ _ _ _ (by omega))

/-- A store in row view: its line reads as the register, and no other byte changes. -/
theorem Cell.memRead_viewStore_row (c : Cell) (r : VR) {a j : Nat} (hal : a % 4 = 0) (hj : j < 16) :
    memRead (c.viewStore r (viewMap false 0 a)).spd (a + 4 * j) 4 = r.elem 32 j := by
  rw [viewMap_row, Cell.memRead_viewStore_rowWords r hal, if_pos (List.mem_range.mpr hj)]

theorem Cell.sameBytes_viewStore_row (c : Cell) (r : VR) {a : Nat} (hal : a % 4 = 0) :
    SameBytes a 64 c.spd (c.viewStore r (viewMap false 0 a)).spd := fun b hb => by
  rw [viewMap_row]
  refine Cell.memByte_viewStore_rowWords r hal c fun j hj => ?_
  have := List.mem_range.mp hj
  omega

end Sys2Proof.Machine

/-! PROOF. Vector accesses: O23. -/

namespace Sys2Proof.Machine
open Sys2Proof

/-- What a transfer of VMEM or TILE needs: its access is admitted, and its words have good check bits. -/
def Cell.viewSound (c : Cell) (w a : Nat) : Prop :=
  c.spdCheck 1 (wordAligned w a) ((wordView w a).map (·.1)) = none ∧ ∀ e ∈ wordView w a, fget ecc0 c.spdEcc (e.1 / 4) = .ok

theorem Cell.viewSound_of_noCtxs {c d : Cell} (h : c.noCtxs = d.noCtxs) {w a : Nat} (hs : c.viewSound w a) : d.viewSound w a :=
  (Cell.eq_of_noCtxs (fun c => c.viewSound w a) (fun _ => rfl) h) ▸ hs

/-! ### VMEM (04 R101) -/

section
variable (e : Env) {k w : Nat} (ext : Nat) {c : Cell} {y : Ctx} (hy : c.ctx k = y.issuing) {a : Nat}
  (ha : a = (y.aReg (fAa w)).v.toNat + fOff13 w * 64) (hp : (y.aReg (fAa w)).p = false)
include hy ha hp

theorem bodyVmemLoad_loads (hs : c.viewSound w a) :
    bodyVmemLoad e k w ext c = c.done k (fun z => z.setV (bits w 19 16) (c.viewLoad (wordView w a)).1) := by
  obtain ⟨hcheck, hecc⟩ := hs
  unfold bodyVmemLoad
  simp only [hy, Ctx.aReg_issuing, ← ha, hp, hcheck, Bool.false_eq_true, if_false, c.viewLoad_good hecc]

theorem bodyVmemStore_stores (hs : c.viewSound w a) :
    bodyVmemStore e k w ext c = (c.viewStore (y.vReg (bits w 19 16)) (wordView w a)).advance k 1 := by
  obtain ⟨hcheck, -⟩ := hs
  unfold bodyVmemStore
  simp only [hy, Ctx.aReg_issuing, Ctx.vReg_issuing, ← ha, hp, hcheck, Bool.false_eq_true, if_false]

end

/-! ### TILE (04 R102) -/

/-- An instruction of a ready context that changes its context only, neither its PC nor its loops, and goes on. -/
theorem issued_passes {r : Row} {x : CtxRef} {s : State} {b : Env → Nat → Nat → Nat → Cell → Cell} {words : Nat} {d : Cell} {z : Ctx}
    (h : Ready r x s) (hn : NoReturn words x s) (hd : ((s.cell x.cell).take x.ctx).CtxIs d x.ctx z)
    (hb : b (s.env x.cell) x.ctx (s.wordOf x) (s.extOf x) ((s.cell x.cell).take x.ctx) = d.advance x.ctx words)
    (hz : z.pc = (s.ctxOf x).pc ∧ z.stepping = (s.ctxOf x).stepping ∧ ∀ n, z.lReg n = (s.ctxOf x).lReg n) :
    ∃ t, s.issue r (cellBody b) x = .next t ∧
      Issued x s t (s.cell x.cell) { z with pc := (s.ctxOf x).pc + BitVec.ofNat 10 words } := by
  obtain ⟨hpc, hstep, hloops⟩ := hz
  have hadv := hd.advance words fun n hn4 => by
    rw [hpc, hloops, Cell.rd_of_noCtxs hd.rest, Cell.rd_take]
    exact hn n hn4
  rw [hpc, ← hb] at hadv
  exact issued_ctxIs h hadv (hstep.trans h.free)

/-- The registers of a tile written in turn. -/
def Ctx.setTile (v : Nat → VR) (d : Nat) (l : List Nat) (z : Ctx) : Ctx := l.foldl (fun z i => z.setV (d + i) (v i)) z

theorem Ctx.setTile_keeps (v : Nat → VR) (d : Nat) (l : List Nat) (z : Ctx) :
    (z.setTile v d l).pc = z.pc ∧ (z.setTile v d l).stepping = z.stepping ∧ ∀ n, (z.setTile v d l).lReg n = z.lReg n := by
  induction l generalizing z with
  | nil => exact ⟨rfl, rfl, fun _ => rfl⟩
  | cons i l ih => exact ih _

/-- Writing the registers and moving the PC commute. -/
theorem Ctx.setTile_past (v : Nat → VR) (d : Nat) (l : List Nat) (y : Ctx) (n : Nat) :
    { y.issuing.setTile v d l with pc := y.pc + BitVec.ofNat 10 n } = (y.past n).setTile v d l :=
  (List.foldl_hom (fun z : Ctx => { z with pc := y.pc + BitVec.ofNat 10 n }) fun _ _ => rfl).symm

/-- The views of a tile stored in turn. -/
def Cell.storeTile (v : Nat → VR) (view : Nat → List (Nat × List (Nat × Nat))) (l : List Nat) (c : Cell) : Cell :=
  l.foldl (fun z i => z.viewStore (v i) (view i)) c

theorem Cell.noCtxs_storeTile (v : Nat → VR) (view : Nat → List (Nat × List (Nat × Nat))) (l : List Nat) (c : Cell) :
    (c.storeTile v view l).noCtxs = c.noCtxs.storeTile v view l :=
  (List.foldl_hom Cell.noCtxs fun d i => (d.noCtxs_viewStore (v i) (view i)).symm).symm

theorem Cell.storeTile_keeps (v : Nat → VR) (view : Nat → List (Nat × List (Nat × Nat))) (l : List Nat) (c : Cell) :
    (∀ j, (c.storeTile v view l).ctx j = c.ctx j) ∧ ∀ f, (c.storeTile v view l).rd f = c.rd f := by
  induction l generalizing c with
  | nil => exact ⟨fun _ => rfl, fun _ => rfl⟩
  | cons i l ih =>
    obtain ⟨hctx, hrd⟩ := ih (c.viewStore (v i) (view i))
    exact ⟨fun j => (hctx j).trans (Cell.ctx_viewStore ..), fun f => (hrd f).trans (Cell.rd_viewStore ..)⟩

/-- The address of a transfer of a tile. -/
def tileAddr (w base i : Nat) : Nat := base + i * bits w 9 0 * 64

/-- Tile loads from the `i`-th on write their registers and go on. -/
theorem tileGo_loads (e : Env) {k w base : Nat} {c : Cell} {v : Nat → VR} (hv : ∀ j, (c.viewLoad (wordView w (tileAddr w base j))).1 = v j)
    (n i : Nat) {d : Cell} {y : Ctx} (hd : c.CtxIs d k y) (hs : ∀ j, i ≤ j → j < i + n → c.viewSound w (tileAddr w base j)) :
    ∃ d', tileGo e k w base false i n d = d'.advance k 1 ∧ c.CtxIs d' k (y.setTile v (bits w 20 17) (List.range' i n)) := by
  induction n generalizing i d y with
  | zero => exact ⟨d, rfl, hd⟩
  | succ n ih =>
    obtain ⟨hcheck, hecc⟩ := Cell.viewSound_of_noCtxs hd.rest.symm (hs i (by omega) (by omega))
    have hvalue := (Cell.viewLoad_of_noCtxs hd.rest (wordView w (tileAddr w base i))).trans (hv i)
    obtain ⟨d', hgo, hctx⟩ := ih (i + 1) (hd.modCtx fun z => z.setV (bits w 20 17 + i) (d.viewLoad (wordView w (tileAddr w base i))).1)
      fun j h1 h2 => hs j (by omega) (by omega)
    refine ⟨d', ?_, ?_⟩
    · rw [← hgo, tileGo]
      unfold tileAddr at hcheck hecc ⊢
      simp only [hcheck, Bool.false_eq_true, if_false, d.viewLoad_good hecc]
    · rw [hvalue] at hctx
      exact hctx

/-- Tile stores from the `i`-th on store their registers and go on. -/
theorem tileGo_stores (e : Env) {k w base : Nat} {y : Ctx} (n i : Nat) {c : Cell} (hy : c.ctx k = y)
    (hs : ∀ j, i ≤ j → j < i + n → c.spdCheck 1 (wordAligned w (tileAddr w base j)) ((wordView w (tileAddr w base j)).map (·.1)) = none) :
    tileGo e k w base true i n c =
      (c.storeTile (fun j => y.vReg (bits w 20 17 + j)) (fun j => wordView w (tileAddr w base j)) (List.range' i n)).advance k 1 := by
  induction n generalizing i c with
  | zero => rfl
  | succ n ih =>
    have hcheck := hs i (by omega) (by omega)
    have hrest := ih (i + 1) (c := c.viewStore (y.vReg (bits w 20 17 + i)) (wordView w (tileAddr w base i))) ((Cell.ctx_viewStore ..).trans hy)
      fun j h1 h2 => (Cell.spdCheck_viewStore ..).trans (hs j (by omega) (by omega))
    rw [tileGo]
    unfold tileAddr at hcheck
    simp only [hcheck, hy, if_true]
    exact hrest

section
variable (e : Env) {k w : Nat} (ext : Nat) {c : Cell} {y : Ctx} (hy : c.ctx k = y.issuing) (hp : (y.aReg (bits w 16 14)).p = false)
include hy hp

theorem bodyTileLoad_eq : bodyTileLoad e k w ext c = tileGo e k w (y.aReg (bits w 16 14)).v.toNat false 0 (bits w 13 10 + 1) c := by
  unfold bodyTileLoad
  rw [hy]
  exact if_neg (ne_true_of_eq_false hp)

theorem bodyTileStore_eq : bodyTileStore e k w ext c = tileGo e k w (y.aReg (bits w 16 14)).v.toNat true 0 (bits w 13 10 + 1) c := by
  unfold bodyTileStore
  rw [hy]
  exact if_neg (ne_true_of_eq_false hp)

end

/-- Settles O23: VMEM by its transfer, TILE by its transfers in turn, the row view by its words. -/
theorem vectorAccessesMoveViews : Obligations.VectorAccessesMoveViews := by
  refine ⟨?_, fun c a j hal hj hecc => ⟨c.elem_viewLoad_row (by omega) hecc hj, c.poison_viewLoad_row (by omega) hecc hj⟩,
    fun c r a hal => ⟨c.sameBytes_viewStore_row r (by omega), fun j hj => c.memRead_viewStore_row r (by omega) hj⟩⟩
  intro x s hn y w c goes a b N
  have hsound {a : Nat} (hg : goes a) : (c.take x.ctx).viewSound w a := Cell.viewSound_of_noCtxs (c := c) rfl hg
  have hload (l : List (Nat × List (Nat × Nat))) : ((c.take x.ctx).viewLoad l).1 = (c.viewLoad l).1 :=
    Cell.viewLoad_of_noCtxs (c.noCtxs_take x.ctx) l
  have hrange : List.range' 0 N = List.range N := List.range_eq_range'.symm
  refine ⟨fun h hp hg => ?vload, fun h hp hg => ?vstore, fun h hp hg => ?tload, fun h hp hg => ?tstore⟩
  case vload =>
    have hb := bodyVmemLoad_loads (s.env x.cell) (s.extOf x) h.taken.self rfl hp (hsound hg)
    rw [hload] at hb
    exact issued_regs (b := bodyVmemLoad) h hn hb (by simp) (by simp) (by simp)
  case vstore =>
    have hb := bodyVmemStore_stores (s.env x.cell) (s.extOf x) h.taken.self rfl hp (hsound hg)
    exact issued_advance (b := bodyVmemStore) h hn hb (by rw [Cell.noCtxs_viewStore, Cell.noCtxs_viewStore, Cell.noCtxs_take])
      (fun _ => Cell.ctx_viewStore ..) (fun _ _ => Cell.rd_viewStore ..)
  case tload =>
    obtain ⟨d, hgo, hd⟩ := tileGo_loads (s.env x.cell) (w := w) (base := (y.aReg (bits w 16 14)).v.toNat) (fun j => hload _) N 0 h.taken
      fun j _ hj => hsound (hg j (by omega))
    have hb := (bodyTileLoad_eq _ (s.extOf x) h.taken.self hp).trans hgo
    have hi := issued_passes (b := bodyTileLoad) h hn hd hb (Ctx.setTile_keeps ..)
    rw [Ctx.setTile_past, hrange] at hi
    exact hi
  case tstore =>
    have hgo := tileGo_stores (s.env x.cell) (w := w) (base := (y.aReg (bits w 16 14)).v.toNat) N 0 h.taken.self
      fun j _ hj => (hsound (hg j (by omega))).1
    rw [hrange] at hgo
    have hb := (bodyTileStore_eq _ (s.extOf x) h.taken.self hp).trans hgo
    obtain ⟨hctx, hrd⟩ := Cell.storeTile_keeps (fun j => y.vReg (bits w 20 17 + j)) (fun j => wordView w (b j)) (List.range N) (c.take x.ctx)
    exact issued_advance (b := bodyTileStore) h hn hb (by rw [Cell.noCtxs_storeTile, Cell.noCtxs_take, ← Cell.noCtxs_storeTile]; rfl) hctx
      fun _ _ => hrd _

end Sys2Proof.Machine

/-! PROOF. Slot rings: O25. -/

namespace Sys2Proof.Machine
open Sys2Proof

/-! ### Bits of a ring's full-empty word -/

theorem testBit_sub_two_pow {x n : Nat} (h : x.testBit n = true) (i : Nat) : (x - 2 ^ n).testBit i = (decide (i ≠ n) && x.testBit i) := by
  have hlow : x % 2 ^ n < 2 ^ n := Nat.mod_lt _ (Nat.two_pow_pos n)
  have hx : x = 2 ^ n * (x / 2 ^ n) + x % 2 ^ n := (Nat.div_add_mod ..).symm
  rw [Nat.testBit_eq_decide_div_mod_eq, decide_eq_true_iff] at h
  generalize x / 2 ^ n = q at h hx
  generalize x % 2 ^ n = l at hlow hx
  obtain ⟨m, rfl⟩ : ∃ m, q = 2 * m + 1 := ⟨q / 2, by omega⟩
  have hsub : x - 2 ^ n = 2 ^ n * (2 * m) + l := by
    rw [hx, Nat.mul_succ]
    omega
  rw [hsub, hx, Nat.testBit_two_pow_mul_add _ hlow, Nat.testBit_two_pow_mul_add _ hlow]
  split_ifs with hi
  · rw [decide_eq_true (by omega : i ≠ n), Bool.true_and]
  · rcases Nat.eq_or_lt_of_le (Nat.not_lt.mp hi) with heq | hlt
    · simp [heq]
    · obtain ⟨j, hj⟩ : ∃ j, i - n = j + 1 := ⟨i - n - 1, by omega⟩
      rw [decide_eq_true (by omega : i ≠ n), Bool.true_and, hj, Nat.testBit_succ, Nat.testBit_succ]
      congr 1
      omega

/-- The full-empty word after a slot changed: full after a put, empty after a take. -/
def slotMarked (put : Bool) (fe n : Nat) : Nat := if put then fe ||| 2 ^ n else fe - b2n (bit fe n) * 2 ^ n

theorem bit_slotMarked (put : Bool) {fe n : Nat} (h : bit fe n = !put) (i : Nat) :
    bit (slotMarked put fe n) i = if i = n then put else bit fe i := by
  unfold slotMarked bit at *
  cases put
  · rw [h]
    show (fe - 1 * 2 ^ n).testBit i = _
    rw [Nat.one_mul, testBit_sub_two_pow h]
    by_cases hi : i = n <;> simp [hi]
  · rw [if_pos rfl, Nat.testBit_or, Nat.testBit_two_pow]
    by_cases hi : i = n
    · simp [hi]
    · simp [hi, Ne.symm hi]

/-! ### The registers of a ring after an access (06 R191, R194) -/

theorem Cell.wakeRing_eq (c : Cell) (r : Nat) : ∃ xs, c.wakeRing r = { c with ctxs := xs } := by
  unfold Cell.wakeRing
  refine List.foldlRecOn _ _ (motive := fun d : Cell => ∃ xs, d = { c with ctxs := xs }) ⟨c.ctxs, rfl⟩ (fun d hd k _ => ?_)
  obtain ⟨xs, rfl⟩ := hd
  split
  · exact ⟨_, rfl⟩
  · exact ⟨xs, rfl⟩

@[simp] theorem Cell.rd_wakeRing (c : Cell) (r : Nat) (f : Fld) : (c.wakeRing r).rd f = c.rd f := by
  obtain ⟨xs, hxs⟩ := c.wakeRing_eq r
  rw [hxs]
  rfl

@[simp] theorem Cell.spd_wakeRing (c : Cell) (r : Nat) : (c.wakeRing r).spd = c.spd := by
  obtain ⟨xs, hxs⟩ := c.wakeRing_eq r
  rw [hxs]

/-- A context that is not blocked is not woken. -/
theorem Cell.ctx_wakeRing {c : Cell} {k : Nat} (r : Nat) (h : (c.ctx k).state ≠ .blocked) : (c.wakeRing r).ctx k = c.ctx k := by
  unfold Cell.wakeRing
  refine List.foldlRecOn _ _ (motive := fun d : Cell => d.ctx k = c.ctx k) rfl (fun d hd j _ => ?_)
  split
  · rw [Cell.wake, Cell.ctx_modCtx]
    split_ifs with hj hb
    · exact absurd hb (by rw [← hj, hd]; exact h)
    · rw [← hj, hd]
    · exact hd
  · exact hd

/-- The pointer of a ring that a take or a put moves. -/
def ringPtr (put : Bool) : Fld := if put then SPD_RING_ST_PUT else SPD_RING_ST_TAKE

/-- A cell whose core has taken or put the slot at the ring's pointer. -/
def Cell.slotMoved (c : Cell) (put : Bool) (r : Nat) : Cell := if put then c.slotPutDone r else c.slotTook r

/-- What a take or a put makes of the ring's registers and of its cell. -/
theorem Cell.slotMoved_leaves (c : Cell) (put : Bool) (r : Nat) :
    let d := c.slotMoved put r
    let n := c.rd ((ringPtr put).ring r)
    d.rd (SPD_RING_ST_FE.ring r) = slotMarked put (c.rd (SPD_RING_ST_FE.ring r)) n % 2 ^ 32 ∧
    d.rd (SPD_RING_ST_FULL_CNT.ring r) = (if put then c.rd (SPD_RING_ST_FULL_CNT.ring r) + 1 else c.rd (SPD_RING_ST_FULL_CNT.ring r) - 1) %
      2 ^ SPD_RING_ST_FULL_CNT.width ∧
    d.rd ((ringPtr put).ring r) = c.slotNext r n % 2 ^ 5 ∧
    (∀ g : Fld, g.key < 0x800 * 64 → d.rd g = c.rd g) ∧ d.spd = c.spd ∧
    ∀ k, (c.ctx k).state ≠ .blocked → d.ctx k = c.ctx k := by
  intro d n
  have hd : d = (((c.wr (SPD_RING_ST_FE.ring r) (slotMarked put (c.rd (SPD_RING_ST_FE.ring r)) n)).wr (SPD_RING_ST_FULL_CNT.ring r)
      (if put then c.rd (SPD_RING_ST_FULL_CNT.ring r) + 1 else c.rd (SPD_RING_ST_FULL_CNT.ring r) - 1)).wr ((ringPtr put).ring r)
        (c.slotNext r n)).wakeRing r := by
    cases put <;> rfl
  have hfe : (SPD_RING_ST_FE.ring r).key = (0xA08 + 0x10 * r) * 64 + 32 := rfl
  have hcnt : (SPD_RING_ST_FULL_CNT.ring r).key = (0xA08 + 0x10 * r) * 64 + 16 := rfl
  have hptr : ((ringPtr put).ring r).key = (0xA08 + 0x10 * r) * 64 + (if put then 0 else 8) ∧ ((ringPtr put).ring r).width = 5 := by
    cases put <;> exact ⟨rfl, rfl⟩
  have hlsb : (if put then 0 else 8) < 16 := by cases put <;> decide
  obtain ⟨hkey, hwidth⟩ := hptr
  rw [hd]
  refine ⟨?fe, ?cnt, ?ptr, fun g hg => ?below, Cell.spd_wakeRing .., fun k hk => Cell.ctx_wakeRing r hk⟩
  case fe =>
    rw [Cell.rd_wakeRing, Cell.rd_wr_ne _ _ (by omega), Cell.rd_wr_ne _ _ (by omega), Cell.rd_wr_self]
    rfl
  case cnt =>
    rw [Cell.rd_wakeRing, Cell.rd_wr_ne _ _ (by omega), Cell.rd_wr_self]
    rfl
  case ptr => rw [Cell.rd_wakeRing, Cell.rd_wr_self, hwidth]
  case below =>
    rw [Cell.rd_wakeRing, Cell.rd_wr_mac _ _ hg (by omega), Cell.rd_wr_mac _ _ hg (by omega), Cell.rd_wr_mac _ _ hg (by omega)]

/-- The slots of a ring after one of them was taken or put. -/
theorem Cell.slotFull_slotMoved (c : Cell) {put : Bool} {r : Nat} (h : c.slotFull r (c.rd ((ringPtr put).ring r)) = !put) {i : Nat} (hi : i < 32) :
    (c.slotMoved put r).slotFull r i = if i = c.rd ((ringPtr put).ring r) then put else c.slotFull r i := by
  obtain ⟨hfe, -⟩ := c.slotMoved_leaves put r
  have hbit : ∀ v, bit (v % 2 ^ 32) i = bit v i := fun v => by
    rw [bit, Nat.testBit_mod_two_pow, decide_eq_true hi, Bool.true_and]
    rfl
  rw [Cell.slotFull, hfe, hbit]
  exact bit_slotMarked put h i

/-! ### SLOT take and put (04 R104, 06 R192) -/

/-- A record of a ring whose count is not that of its full slots changes nothing else. -/
theorem Cell.ringAudit_eq (e : Env) (r : Nat) (c : Cell) : ∃ fs, c.ringAudit e r = { c with faults := fs } := by
  unfold Cell.ringAudit
  split
  · exact ⟨c.faults, rfl⟩
  · exact ⟨_, rfl⟩

/-- What SLOT put makes of the scratchpad. -/
def Cell.slotStored (c : Cell) (y : Ctx) (w : Nat) : Cell :=
  if bit w 24 then c.viewStore (y.vReg (bits w 19 16)) (viewMap false 0 (c.slotAddr w)) else c.stored y (fRd w) (c.slotAddr w) 8

/-- What SLOT take makes of its context. -/
def Cell.slotLoaded (c : Cell) (w : Nat) (z : Ctx) : Ctx :=
  let a := c.slotAddr w
  if bit w 24 then z.setV (bits w 19 16) (c.viewLoad (viewMap false 0 a)).1
  else (z.setS (fRd w) ⟨BitVec.ofNat 32 (memRead c.spd a 4), c.wordP a⟩).setS (fRd w + 1)
    ⟨BitVec.ofNat 32 (memRead c.spd (a + 4) 4), c.wordP (a + 4)⟩

theorem Ctx.setV_keeps (z : Ctx) (i : Nat) (v : VR) :
    (z.setV i v).pc = z.pc ∧ (z.setV i v).stepping = z.stepping ∧ ∀ n, (z.setV i v).lReg n = z.lReg n := ⟨rfl, rfl, fun _ => rfl⟩

theorem Cell.slotLoaded_line (c : Cell) {w : Nat} (hv : bit w 24 = true) (z : Ctx) :
    c.slotLoaded w z = z.setV (bits w 19 16) (c.viewLoad (viewMap false 0 (c.slotAddr w))).1 := if_pos hv

theorem Cell.slotLoaded_double (c : Cell) {w : Nat} (hv : bit w 24 = false) (z : Ctx) : c.slotLoaded w z =
    (z.setS (fRd w) ⟨BitVec.ofNat 32 (memRead c.spd (c.slotAddr w) 4), c.wordP (c.slotAddr w)⟩).setS (fRd w + 1)
      ⟨BitVec.ofNat 32 (memRead c.spd (c.slotAddr w + 4) 4), c.wordP (c.slotAddr w + 4)⟩ := if_neg (ne_true_of_eq_false hv)

theorem Cell.slotLoaded_keeps (c : Cell) (w : Nat) (z : Ctx) :
    (c.slotLoaded w z).pc = z.pc ∧ (c.slotLoaded w z).stepping = z.stepping ∧ ∀ n, (c.slotLoaded w z).lReg n = z.lReg n := by
  cases hv : bit w 24
  · rw [c.slotLoaded_double hv]
    exact ⟨rfl, rfl, fun _ => rfl⟩
  · rw [c.slotLoaded_line hv]
    exact Ctx.setV_keeps ..

theorem Cell.slotAddr_aligned (c : Cell) (w : Nat) : c.slotAddr w % 8 = 0 := by
  have hsize : 8 ∣ slotSize w := by unfold slotSize; split <;> decide
  exact Nat.mod_eq_zero_of_dvd (Nat.dvd_add (Nat.dvd_mul_right_of_dvd (by decide) _) (Nat.dvd_mul_left_of_dvd hsize _))

/-- What a SLOT access of a full or an empty slot needs: the access is admitted, and its words have good check bits. -/
def Cell.slotSound (c : Cell) (w : Nat) : Prop :=
  c.spdCheck (if bit w 24 then 1 else 0) true ((List.range (slotSize w / 4)).map (fun i => c.slotAddr w + 4 * i)) = none ∧
    ∀ i < slotSize w / 4, fget ecc0 c.spdEcc (c.slotAddr w / 4 + i) = .ok

section
variable (e : Env) {k w : Nat} (ext : Nat) {c : Cell}

theorem bodySlotTake_bad (hb : c.slotBad w = true) : bodySlotTake e k w ext c =
    c.spdFault e k (c.ctx k).pc.toNat (if bit w 24 then 1 else 0) 0x46 (slotRing w) (c.slotAddr w) := if_pos hb

theorem bodySlotPut_bad (hb : c.slotBad w = true) : bodySlotPut e k w ext c =
    c.spdFault e k (c.ctx k).pc.toNat (if bit w 24 then 1 else 0) 0x46 (slotRing w) (c.slotAddr w) := if_pos hb

theorem bodySlotTake_blocks (hb : c.slotBad w = false) (hf : c.slotFull (slotRing w) (c.rd (SPD_RING_ST_TAKE.ring (slotRing w))) = false) :
    bodySlotTake e k w ext c = c.block k .slot (slotRing w) := by
  unfold bodySlotTake
  simp only [hb, hf, Bool.not_false, Bool.false_eq_true, if_false, if_true]

theorem bodySlotPut_blocks (hb : c.slotBad w = false) (hf : c.slotFull (slotRing w) (c.rd (SPD_RING_ST_PUT.ring (slotRing w))) = true) :
    bodySlotPut e k w ext c = c.block k .slot (slotRing w) := by
  unfold bodySlotPut
  simp only [hb, hf, Bool.false_eq_true, if_false, if_true]

theorem bodySlotTake_takes (hb : c.slotBad w = false) (hf : c.slotFull (slotRing w) (c.rd (SPD_RING_ST_TAKE.ring (slotRing w))) = true)
    (hs : c.slotSound w) : bodySlotTake e k w ext c =
      ((c.ringAudit e (slotRing w)).slotMoved false (slotRing w)).done k ((c.ringAudit e (slotRing w)).slotLoaded w) := by
  obtain ⟨hcheck, hecc⟩ := hs
  obtain ⟨fs, hfs⟩ := c.ringAudit_eq e (slotRing w)
  have hal := c.slotAddr_aligned w
  have hsame : ({ c with faults := fs } : Cell).slotAddr w = c.slotAddr w := rfl
  unfold bodySlotTake Cell.slotLoaded
  simp only [hb, hf, hcheck, hfs, hsame, Bool.not_true, Bool.false_eq_true, if_false]
  unfold slotSize at hecc
  by_cases hv : bit w 24 = true
  · rw [if_pos hv] at hecc
    have hgood : ∀ e ∈ viewMap false 0 (c.slotAddr w), fget ecc0 ({ c with faults := fs } : Cell).spdEcc (e.1 / 4) = .ok := by
      intro e he
      obtain ⟨j, hj, rfl⟩ := List.mem_map.mp he
      have := hecc j (List.mem_range.mp hj)
      rwa [show (c.slotAddr w + 4 * j) / 4 = c.slotAddr w / 4 + j by omega]
    simp only [if_pos hv, Cell.viewLoad_good _ hgood]
    rfl
  · rw [if_neg hv] at hecc
    have h0 : 4 * (c.slotAddr w / 4) = c.slotAddr w := by omega
    have h4 : 4 * ((c.slotAddr w + 4) / 4) = c.slotAddr w + 4 := by omega
    simp only [if_neg hv]
    rw [Cell.spdRead_ok { c with faults := fs } (hecc 0 (by decide)), Cell.spdRead_ok { c with faults := fs } (a := c.slotAddr w + 4) ?_]
    · simp only [h0, h4]
      rfl
    · exact (congrArg (fget ecc0 c.spdEcc) (by omega)).trans (hecc 1 (by decide))

theorem bodySlotPut_puts {y : Ctx} (hy : c.ctx k = y.issuing) (hb : c.slotBad w = false)
    (hf : c.slotFull (slotRing w) (c.rd (SPD_RING_ST_PUT.ring (slotRing w))) = false) (hs : c.slotSound w) : bodySlotPut e k w ext c =
      (((c.ringAudit e (slotRing w)).slotStored y w).slotMoved true (slotRing w)).advance k 1 := by
  obtain ⟨hcheck, -⟩ := hs
  obtain ⟨fs, hfs⟩ := c.ringAudit_eq e (slotRing w)
  unfold bodySlotPut Cell.slotStored
  simp only [hb, hf, hcheck, hy, Bool.false_eq_true, if_false]
  rw [hfs]
  rfl

end

/-- The store of a SLOT put: it changes the scratchpad only, inside the access. -/
theorem Cell.slotStored_leaves {c : Cell} {w : Nat} (y : Ctx) (hs : c.slotSound w) :
    SameBytes (c.slotAddr w) (slotSize w) c.spd (c.slotStored y w).spd ∧
      (bit w 24 = false → memRead (c.slotStored y w).spd (c.slotAddr w) 4 = (y.sReg (fRd w)).v.toNat ∧
        memRead (c.slotStored y w).spd (c.slotAddr w + 4) 4 = (y.sReg (fRd w + 1)).v.toNat) ∧
      (∀ j, (c.slotStored y w).ctx j = c.ctx j) ∧ ∀ f, (c.slotStored y w).rd f = c.rd f := by
  obtain ⟨-, hecc⟩ := hs
  have hal := c.slotAddr_aligned w
  unfold Cell.slotStored
  unfold slotSize at hecc ⊢
  by_cases hv : bit w 24 = true
  · simp only [if_pos hv]
    exact ⟨c.sameBytes_viewStore_row _ (by omega), fun h => absurd (h.symm.trans hv) Bool.false_ne_true, fun _ => Cell.ctx_viewStore ..,
      fun _ => Cell.rd_viewStore ..⟩
  · rw [if_neg hv] at hecc
    have hgood : fget ecc0 c.spdEcc (c.slotAddr w / 4) = .ok := hecc 0 (by decide)
    have hlow := c.memRead_stored y (fRd w) (a := c.slotAddr w) (n := 8) (by decide) hal hgood
    simp only [if_neg hv]
    refine ⟨c.sameBytes_stored y _ (by decide) hal hgood, fun _ => ⟨hlow.trans (Nat.mod_eq_of_lt ?_), c.memRead_stored_high y _ hal⟩,
      fun j => ?_, fun f => ?_⟩
    · exact (y.sReg (fRd w)).v.isLt.trans_le (by decide)
    · rw [c.stored_eq y (fRd w) hgood]
      rfl
    · rw [c.stored_eq y (fRd w) hgood]
      rfl

/-- What a SLOT access of a full or an empty slot leaves: the PC passed, the ring moved, and its slots else as they were. -/
structure SlotDone (x : CtxRef) (s t : State) (put : Bool) (r : Nat) : Prop where
  pc : (t.ctxOf x).pc = (s.ctxOf x).pc + 1
  ptr : (t.cell x.cell).rd ((ringPtr put).ring r) = (s.cell x.cell).slotNext r ((s.cell x.cell).rd ((ringPtr put).ring r))
  slots : ∀ i < 32, (t.cell x.cell).slotFull r i =
    if i = (s.cell x.cell).rd ((ringPtr put).ring r) then put else (s.cell x.cell).slotFull r i
  count : (t.cell x.cell).rd (SPD_RING_ST_FULL_CNT.ring r) = (if put then (s.cell x.cell).rd (SPD_RING_ST_FULL_CNT.ring r) + 1
    else (s.cell x.cell).rd (SPD_RING_ST_FULL_CNT.ring r) - 1) % 2 ^ SPD_RING_ST_FULL_CNT.width

/-- A cell that a ring access has made of the taken one: its contexts and its registers are those of the taken one. -/
structure Cell.TakenBut (x : CtxRef) (s : State) (d : Cell) : Prop where
  ctx : d.ctx x.ctx = (s.ctxOf x).issuing
  rd : ∀ g, d.rd g = (s.cell x.cell).rd g

section
variable {x : CtxRef} {s : State} {d : Cell} (put : Bool) (ring : Nat) (h : Cell.TakenBut x s d)
include h

theorem Cell.TakenBut.moved : (d.slotMoved put ring).CtxIs (d.slotMoved put ring) x.ctx (s.ctxOf x).issuing := by
  obtain ⟨-, -, -, -, -, hkeeps⟩ := d.slotMoved_leaves put ring
  refine ⟨rfl, (hkeeps _ ?_).trans h.ctx, fun _ _ => rfl⟩
  rw [h.ctx]
  exact CtxState.noConfusion

/-- The PC passes the access, whose context was changed to `z` on the way. -/
theorem Cell.TakenBut.passes (hk : x.ctx < 4) (hn : NoReturn 1 x s) {d' : Cell} {z : Ctx} (hd : (d.slotMoved put ring).CtxIs d' x.ctx z)
    (hpc : z.pc = (s.ctxOf x).pc) (hloops : ∀ n, z.lReg n = (s.ctxOf x).lReg n) :
    (d.slotMoved put ring).CtxIs (d'.advance x.ctx 1) x.ctx { z with pc := (s.ctxOf x).pc + 1 } := by
  obtain ⟨-, -, -, hbelow, -⟩ := d.slotMoved_leaves put ring
  have hadv := hd.advance 1 fun n hn4 => by
    rw [hpc, hloops, Cell.rd_of_noCtxs hd.rest, hbelow _ (loopEnd_key_lt hn4 hk), h.rd]
    exact hn n hn4
  rw [hpc] at hadv
  exact hadv

end

/-- A ring access after which the cell is `d` with the ring moved, and its context `z`. -/
theorem issued_slot {r : Row} {x : CtxRef} {s : State} {b : Env → Nat → Nat → Nat → Cell → Cell} {put : Bool} {ring : Nat} {d : Cell} {z : Ctx}
    (h : Ready r x s) (hd : Cell.TakenBut x s d)
    (hb : (d.slotMoved put ring).CtxIs (b (s.env x.cell) x.ctx (s.wordOf x) (s.extOf x) ((s.cell x.cell).take x.ctx)) x.ctx
      { z with pc := (s.ctxOf x).pc + 1 }) (hz : z.stepping = false)
    (hfull : (s.cell x.cell).slotFull ring ((s.cell x.cell).rd ((ringPtr put).ring ring)) = !put)
    (hslot : (s.cell x.cell).rd ((ringPtr put).ring ring) < 32) (hcount : (s.cell x.cell).rd (SPD_RING_CFG_COUNT.ring ring) < 32) :
    ∃ t, s.issue r (cellBody b) x = .next t ∧ SlotDone x s t put ring ∧ (t.cell x.cell).spd = d.spd ∧
      t.ctxOf x = { z with pc := (s.ctxOf x).pc + 1 } := by
  obtain ⟨-, hcnt, hptr, -, hspd, -⟩ := d.slotMoved_leaves put ring
  obtain ⟨t, ht, -, hc, hx⟩ := issued_cell h rfl (by rw [hb.self]; exact hz)
  have hc := hc.trans hb.rest
  have hctx : t.ctxOf x = { z with pc := (s.ctxOf x).pc + 1 } := (hx x.ctx).trans hb.self
  have hreads (g : Fld) : (t.cell x.cell).rd g = (d.slotMoved put ring).rd g := Cell.rd_of_noCtxs hc g
  have hnext : (s.cell x.cell).slotNext ring ((s.cell x.cell).rd ((ringPtr put).ring ring)) < 2 ^ 5 := by
    unfold Cell.slotNext
    split <;> omega
  have hsame (n : Nat) : d.slotNext ring n = (s.cell x.cell).slotNext ring n := by
    rw [Cell.slotNext, hd.rd]
    rfl
  have hslots (i : Nat) : d.slotFull ring i = (s.cell x.cell).slotFull ring i := congrArg (bit · i) (hd.rd _)
  refine ⟨t, ht, ⟨congrArg Ctx.pc hctx, ?ptr, fun i hi => ?slots, ?count⟩, (Cell.eq_of_noCtxs Cell.spd (fun _ => rfl) hc).trans hspd, hctx⟩
  case ptr => rw [hreads, hptr, hd.rd, hsame, Nat.mod_eq_of_lt hnext]
  case slots =>
    have hmoved := d.slotFull_slotMoved (put := put) (r := ring) (by rw [hd.rd, hslots]; exact hfull) hi
    rw [hd.rd, hslots] at hmoved
    rw [← hmoved]
    exact congrArg (bit · i) (hreads _)
  case count => rw [hreads, hcnt, hd.rd]

/-- The taken cell with its ring audited. -/
def audited (x : CtxRef) (s : State) (ring : Nat) : Cell := ((s.cell x.cell).take x.ctx).ringAudit (s.env x.cell) ring

theorem audited_eq (x : CtxRef) (s : State) (ring : Nat) : ∃ fs, audited x s ring = { (s.cell x.cell).take x.ctx with faults := fs } :=
  Cell.ringAudit_eq ..

theorem takenBut_audited {r : Row} {x : CtxRef} {s : State} (h : Ready r x s) (ring : Nat) : Cell.TakenBut x s (audited x s ring) := by
  obtain ⟨fs, hfs⟩ := audited_eq x s ring
  rw [hfs]
  exact ⟨h.taken.self, fun _ => rfl⟩

/-- Any instruction that reaches its own cell only leaves the others alone. -/
theorem issue_onlyCell {r : Row} {x : CtxRef} {s t : State} {b : Env → Nat → Nat → Nat → Cell → Cell} (h : Ready r x s)
    (ht : s.issue r (cellBody b) x = .next t) : OnlyCell x.cell s t := by
  rw [issue_ready _ h] at ht
  cases ht
  exact ((onlyCell_modCell x.cell s _).trans (onlyCell_modCell x.cell _ _)).trans (onlyCell_modCell x.cell _ _)

/-- What a ring access that R192 forbids leaves. -/
theorem issued_ringConfig {r : Row} {x : CtxRef} {s t : State} {b : Env → Nat → Nat → Nat → Cell → Cell} {cls ring a : Nat} (h : Ready r x s)
    (ht : s.issue r (cellBody b) x = .next t) (hb : b (s.env x.cell) x.ctx (s.wordOf x) (s.extOf x) ((s.cell x.cell).take x.ctx) =
      ((s.cell x.cell).take x.ctx).spdFault (s.env x.cell) x.ctx (((s.cell x.cell).take x.ctx).ctx x.ctx).pc.toNat cls 0x46 ring a) :
    (t.ctxOf x).state = .faulted ∧ ∃ f, (t.cell x.cell).faults = (s.cell x.cell).faults ++ [f] ∧ f.code = 0x46 := by
  obtain ⟨m, hm⟩ := Cell.spdCapture_eq x.ctx cls 0x46 a ((s.cell x.cell).take x.ctx)
  obtain ⟨hst, -, rec, hrec, hcode⟩ := Cell.spdFault_leaves (s.env x.cell) x.ctx (((s.cell x.cell).take x.ctx).ctx x.ctx).pc.toNat cls 0x46 ring a
    ((s.cell x.cell).take x.ctx)
  obtain ⟨u, hu, -, hc, hx⟩ := issued_cell h hb (by
    rw [Cell.spdFault, hm, Cell.ctx_raise, if_pos rfl]
    exact (congrArg Ctx.stepping h.taken.self).trans h.free)
  cases ht.symm.trans hu
  exact ⟨(congrArg Ctx.state (hx x.ctx)).trans hst, rec, (Cell.eq_of_noCtxs Cell.faults (fun _ => rfl) hc).trans hrec, hcode⟩

/-- An instruction of a ready context that blocks. -/
theorem issued_block {r : Row} {x : CtxRef} {s : State} {b : Env → Nat → Nat → Nat → Cell → Cell} {wk : WaitKind} {obj : Nat} (h : Ready r x s)
    (hb : b (s.env x.cell) x.ctx (s.wordOf x) (s.extOf x) ((s.cell x.cell).take x.ctx) = ((s.cell x.cell).take x.ctx).block x.ctx wk obj) :
    ∃ t, s.issue r (cellBody b) x = .next t ∧ Issued x s t (s.cell x.cell)
      { (s.ctxOf x).issuing with state := .blocked, wait := wk, waitObj := BitVec.ofNat 32 obj, waitElapsed := 0 } :=
  issued_ctxIs h (hb ▸ h.taken.block wk obj) h.free

/-- Settles O25: each access by the case of its ring. -/
theorem slotRingsTakeAndPut : Obligations.SlotRingsTakeAndPut := by
  intro x s put h hn hdir y w c r ptr slot
  obtain ⟨fs, hfs⟩ := audited_eq x s r
  have haudited := takenBut_audited h r
  cases put with
  | false =>
    obtain ⟨t, ht⟩ := issue_answers (cellBody bodySlotTake) h
    refine ⟨t, ht, issue_onlyCell h ht, fun hb => ?bad, fun hb hf => ?blocks, fun hb hf hcheck hecc hslot hcount => ?takes⟩
    case bad => exact issued_ringConfig h ht (bodySlotTake_bad _ _ hb)
    case blocks => exact of_next ht (issued_block h (bodySlotTake_blocks (c := c.take x.ctx) (w := w) _ _ hb hf))
    case takes =>
      have hb' := bodySlotTake_takes (c := c.take x.ctx) (w := w) (s.env x.cell) (s.extOf x) (k := x.ctx) hb hf ⟨hcheck, hecc⟩
      obtain ⟨hpc, hstep, hloops⟩ := (audited x s r).slotLoaded_keeps w y.issuing
      obtain ⟨hdone, hspd, hctx⟩ := of_next ht (issued_slot h haudited
        (hb' ▸ haudited.passes false r h.ctx hn ((haudited.moved false r).modCtx _) hpc hloops) (hstep.trans h.free) hf hslot hcount)
      refine ⟨hdone.pc, hdone.ptr, (hdone.slots _ hslot).trans (if_pos rfl), fun i hi h32 => (hdone.slots i h32).trans (if_neg hi), hdone.count,
        fun _ => ⟨hspd.trans (by rw [hfs]; rfl), fun hv => ?_⟩, fun h => absurd h Bool.false_ne_true⟩
      have hregs (i : Nat) : (t.ctxOf x).sReg i = ((audited x s r).slotLoaded w y.issuing).sReg i := by rw [hctx]; rfl
      simp only [Cell.slotLoaded_double _ hv, Ctx.sReg_setS] at hregs
      rw [hfs] at hregs
      exact ⟨(hregs _).trans (if_pos rfl), (hregs _).trans ((if_neg (by omega)).trans (if_pos rfl))⟩
  | true =>
    obtain ⟨t, ht⟩ := issue_answers (cellBody bodySlotPut) h
    refine ⟨t, ht, issue_onlyCell h ht, fun hb => ?bad, fun hb hf => ?blocks, fun hb hf hcheck hecc hslot hcount => ?puts⟩
    case bad => exact issued_ringConfig h ht (bodySlotPut_bad _ _ hb)
    case blocks => exact of_next ht (issued_block h (bodySlotPut_blocks (c := c.take x.ctx) (w := w) _ _ hb hf))
    case puts =>
      have hb' := bodySlotPut_puts (c := c.take x.ctx) (w := w) (s.env x.cell) (s.extOf x) (k := x.ctx) h.taken.self hb hf ⟨hcheck, hecc⟩
      have hsound : (audited x s r).slotSound w := by rw [hfs]; exact ⟨hcheck, hecc⟩
      obtain ⟨hsame, hwords, hsctx, hsrd⟩ := Cell.slotStored_leaves y hsound
      have hstored : Cell.TakenBut x s ((audited x s r).slotStored y w) :=
        ⟨(hsctx _).trans haudited.ctx, fun g => (hsrd g).trans (haudited.rd g)⟩
      obtain ⟨hdone, hspd, hctx⟩ := of_next ht (issued_slot (z := y.issuing) h hstored
        (hb' ▸ hstored.passes (z := y.issuing) true r h.ctx hn (hstored.moved true r) rfl (fun _ => rfl)) h.free hf hslot hcount)
      have hspd' : (audited x s r).spd = c.spd := by rw [hfs]; rfl
      have haddr : (audited x s r).slotAddr w = c.slotAddr w := by rw [hfs]; rfl
      rw [hspd', haddr] at hsame
      rw [haddr] at hwords
      refine ⟨hdone.pc, hdone.ptr, (hdone.slots _ hslot).trans (if_pos rfl), fun i hi h32 => (hdone.slots i h32).trans (if_neg hi), hdone.count,
        fun h => absurd h.symm Bool.false_ne_true, fun _ => ?_⟩
      rw [hspd]
      exact ⟨hsame, hwords⟩

end Sys2Proof.Machine

/-! PROOF. Sends: O40. -/

namespace Sys2Proof.Machine
open Sys2Proof

/-! ### Request tags (04 R113, R114, 08 R253) -/

/-- The next free tag depends on the tags outstanding and in quarantine only. -/
theorem nextTag_congr {c d : Cell} (ht : c.tags = d.tags) (hq : c.quar = d.quar) (k ctr n : Nat) : nextTag c k ctr n = nextTag d k ctr n := by
  induction n generalizing ctr with
  | zero => rfl
  | succ n ih => rw [nextTag, nextTag, ht, hq, ih]

/-- A tag found free is one of its context, neither outstanding nor in quarantine. -/
theorem nextTag_free {c : Cell} {k ctr n v : Nat} (h : nextTag c k ctr n = some v) :
    v < 1024 ∧ (∀ r ∈ c.tags, r.tag ≠ k * 1024 + v) ∧ k * 1024 + v ∉ c.quar := by
  induction n generalizing ctr with
  | zero => exact absurd h nofun
  | succ n ih =>
    rw [nextTag] at h
    split_ifs at h with hused
    · exact ih h
    · obtain rfl := Option.some.inj h
      rw [Bool.or_eq_true, not_or, Bool.not_eq_true, Bool.not_eq_true, List.any_eq_false] at hused
      obtain ⟨htags, hquar⟩ := hused
      exact ⟨Nat.mod_lt _ (by decide), fun r hr => by simpa using htags r hr, by simpa using hquar⟩

theorem Cell.freeTag_congr {c d : Cell} {k : Nat} (ht : c.tags = d.tags) (hq : c.quar = d.quar) (hx : (c.ctx k).tagCtr = (d.ctx k).tagCtr) :
    c.freeTag k = d.freeTag k := by
  rw [Cell.freeTag, Cell.freeTag, hx]
  exact nextTag_congr ht hq ..

/-- A context that need not wait for a tag has a free one. -/
theorem Cell.freeTag_of_room {c : Cell} {k : Nat} (h : c.tagsFull k = false) : ∃ v, c.freeTag k = some v := by
  rw [Cell.tagsFull, Bool.or_eq_false_iff, Option.isNone_eq_false_iff] at h
  exact Option.isSome_iff_exists.mp h.2

theorem Cell.freeTag_take (c : Cell) {k : Nat} (hk : k < 4) : (c.take k).freeTag k = c.freeTag k :=
  Cell.freeTag_congr rfl rfl (by rw [Cell.ctx_take_self _ _ hk]; rfl)

theorem Cell.tagsFull_take (c : Cell) {k : Nat} (hk : k < 4) : (c.take k).tagsFull k = c.tagsFull k := by
  rw [Cell.tagsFull, Cell.freeTag_take _ hk]
  rfl

/-- A context whose tag counter has passed a tag. -/
def Ctx.pastTag (y : Ctx) (v : Nat) : Ctx := { y with tagCtr := (v + 1) % 1024 }

theorem Cell.allocTag_eq {c : Cell} {k v : Nat} (h : c.freeTag k = some v) : c.allocTag k = (k * 1024 + v, c.modCtx k (fun z => z.pastTag v)) := by
  rw [Cell.allocTag, h]
  rfl

/-- A message sent and a tag recorded, with the tag's context moved past it: beside the context, the queue and the tags change only. -/
theorem Cell.CtxIs.tagged {c d : Cell} {k : Nat} {y : Ctx} (h : c.CtxIs d k y) (v : Nat) (m : Msg) (r : TagRec) :
    ((c.inject m).addTag r).CtxIs (((d.modCtx k (fun z => z.pastTag v)).inject m).addTag r) k (y.pastTag v) := by
  obtain ⟨hrest, hself, hother⟩ := h.modCtx (fun z => z.pastTag v)
  exact ⟨congrArg (fun c : Cell => (c.inject m).addTag r) hrest, hself, hother⟩

/-- A context held for a free tag. -/
def Ctx.heldForTag (y : Ctx) : Ctx :=
  { y with state := .blocked, wait := .tag, waitObj := BitVec.ofNat 32 (0x30 * 65536 + 0xFFF), waitElapsed := 0, waitMatch := (0x30, 0xFFF, 0xFFF) }

theorem Cell.CtxIs.blockTag {c d : Cell} {k : Nat} {y : Ctx} (h : c.CtxIs d k y) : c.CtxIs (d.blockTag k) k y.heldForTag :=
  (h.block _ _).modCtx _

/-- An instruction of a ready context that ends with `done` after its message was sent with a tag. -/
theorem issued_tagged {r : Row} {x : CtxRef} {s : State} {b : Env → Nat → Nat → Nat → Cell → Cell} {v : Nat} {m : Msg}
    {tr : TagRec} {f : Ctx → Ctx} (h : Ready r x s) (hn : NoReturn 1 x s) (hb : b (s.env x.cell) x.ctx (s.wordOf x) (s.extOf x) ((s.cell x.cell).take x.ctx) =
      (((((s.cell x.cell).take x.ctx).modCtx x.ctx (fun z => z.pastTag v)).inject m).addTag tr).done x.ctx f)
    (hp : ∀ z, (f z).pc = z.pc) (hl : ∀ z n, (f z).lReg n = z.lReg n) (hs : ∀ z, (f z).stepping = z.stepping) :
    ∃ t, s.issue r (cellBody b) x = .next t ∧ (t.cell x.cell).inj = (s.cell x.cell).inj ++ [m] ∧
      (t.cell x.cell).tags = (s.cell x.cell).tags ++ [tr] ∧
      Issued x s t { s.cell x.cell with inj := (s.cell x.cell).inj ++ [m], tags := (t.cell x.cell).tags }
        { f ((s.ctxOf x).issuing.pastTag v) with pc := (s.ctxOf x).pc + 1 } := by
  have hd := ((h.taken.tagged v m tr).modCtx f).advance 1 fun n hn4 => by
    rw [hl, hp]
    exact hn n hn4
  rw [hp] at hd
  obtain ⟨t, ht, hi⟩ := issued_changed (b := b) (y := { f ((s.ctxOf x).issuing.pastTag v) with pc := (s.ctxOf x).pc + 1 })
    (c1 := (((s.cell x.cell).take x.ctx).inject m).addTag tr)
    (c' := { s.cell x.cell with inj := (s.cell x.cell).inj ++ [m], tags := (s.cell x.cell).tags ++ [tr] }) h (by rw [hb]; exact hd) rfl
    (fun _ => rfl) ((hs _).trans h.free)
  obtain ⟨-, hc, -⟩ := id hi
  have htags : (t.cell x.cell).tags = (s.cell x.cell).tags ++ [tr] := Cell.eq_of_noCtxs Cell.tags (fun _ => rfl) hc
  exact ⟨t, ht, Cell.eq_of_noCtxs Cell.inj (fun _ => rfl) hc, htags, htags ▸ hi⟩

/-! ### SEND (04 R113) -/

/-- The message of a SEND: what its kind decides stands in the arguments. -/
def sendMsg (e : Env) (k w : Nat) (y : Ctx) (kind : MsgKind) (tag unit port dest : Nat) : Msg :=
  { kind := kind, len := bits w 10 4, srcCtx := k, tag := tag, unit := unit, port := port, dest := dest, src := e.logical
    poison := (sendPayload w y).2, payload := (sendPayload w y).1 }

section
variable (e : Env) {k w : Nat} (ext : Nat) {c : Cell} {y : Ctx} (hy : c.ctx k = y.issuing) (hp : (y.sReg (bits w 20 16)).p = false)
include hy hp

theorem bodySendPosted_sends (hv : validId e.small (bits (y.sReg (bits w 20 16)).v.toNat 13 0) = true) (hf : c.injFull = false) :
    let dv := (y.sReg (bits w 20 16)).v.toNat
    bodySendPosted e k w ext c = (c.inject (sendMsg e k w y .posted (bits (y.sReg (bits w 20 16 + 1)).v.toNat 11 0) (sendUnit dv false)
      (bits dv 19 14) (bits dv 13 0))).advance k 1 := by
  unfold bodySendPosted
  simp only [hy, Ctx.sReg_issuing, hp, hv, hf, Bool.not_true, Bool.false_eq_true, if_false]
  rfl

theorem bodySendPosted_waits (hv : validId e.small (bits (y.sReg (bits w 20 16)).v.toNat 13 0) = true) (hf : c.injFull = true) :
    bodySendPosted e k w ext c = c := by
  unfold bodySendPosted
  simp only [hy, Ctx.sReg_issuing, hp, hv, hf, Bool.not_true, Bool.false_eq_true, if_false, if_true]

theorem bodySendResponse_sends (hv : validId e.small (bits (y.sReg (bits w 20 16)).v.toNat 25 12) = true) (hf : c.injFull = false) :
    let dv := (y.sReg (bits w 20 16)).v.toNat
    bodySendResponse e k w ext c = (c.inject (sendMsg e k w y .response (bits dv 11 0) 0 0x30 (bits dv 25 12))).advance k 1 := by
  unfold bodySendResponse
  simp only [hy, Ctx.sReg_issuing, hp, hv, hf, Bool.not_true, Bool.false_eq_true, if_false]
  rfl

theorem bodySendRequest_blocks (hv : validId e.small (bits (y.sReg (bits w 20 16)).v.toNat 13 0) = true) (hf : c.tagsFull k = true) :
    bodySendRequest e k w ext c = c.blockTag k := by
  unfold bodySendRequest
  simp only [hy, Ctx.sReg_issuing, hp, hv, hf, Bool.not_true, Bool.false_eq_true, if_false, if_true]

theorem bodySendRequest_sends (hv : validId e.small (bits (y.sReg (bits w 20 16)).v.toNat 13 0) = true) (ht : c.tagsFull k = false)
    (hf : c.injFull = false) {v : Nat} (hfree : c.freeTag k = some v) :
    let dv := (y.sReg (bits w 20 16)).v.toNat
    let tag := k * 1024 + v
    bodySendRequest e k w ext c =
      (((c.modCtx k (fun z => z.pastTag v)).inject (sendMsg e k w y .request tag (sendUnit dv true) (bits dv 19 14) (bits dv 13 0))).addTag
        { tag := tag, ctx := k, kind := .send, pc := y.pc.toNat }).done k (fun z => z.setS (bits w 20 16 + 1)
          ⟨BitVec.ofNat 32 ((z.sReg (bits w 20 16 + 1)).v.toNat / 4096 * 4096 + tag), (z.sReg (bits w 20 16 + 1)).p⟩) := by
  unfold bodySendRequest
  simp only [hy, Ctx.sReg_issuing, hp, hv, ht, hf, Bool.not_true, Bool.false_eq_true, if_false, Cell.allocTag_eq hfree]
  rfl

end

/-- A SEND that needs no tag leaves its message at the end of the queue and goes on. -/
theorem issued_sends {r : Row} {x : CtxRef} {s : State} {b : Env → Nat → Nat → Nat → Cell → Cell} {m : Msg} (h : Ready r x s)
    (hn : NoReturn 1 x s) (hb : b (s.env x.cell) x.ctx (s.wordOf x) (s.extOf x) ((s.cell x.cell).take x.ctx) =
      (((s.cell x.cell).take x.ctx).inject m).advance x.ctx 1) :
    ∃ t, s.issue r (cellBody b) x = .next t ∧ (t.cell x.cell).inj = (s.cell x.cell).inj ++ [m] ∧
      Issued x s t { s.cell x.cell with inj := (s.cell x.cell).inj ++ [m] } ((s.ctxOf x).past 1) := by
  obtain ⟨t, ht, hi⟩ := issued_advance (c' := { s.cell x.cell with inj := (s.cell x.cell).inj ++ [m] }) h hn hb rfl (fun _ => rfl)
    (fun _ _ => rfl)
  obtain ⟨-, hc, -⟩ := id hi
  exact ⟨t, ht, Cell.eq_of_noCtxs Cell.inj (fun _ => rfl) hc, hi⟩

/-- Settles O40: each kind of SEND by what its body does to the taken cell. -/
theorem sendsQueueOneMessage : Obligations.SendsQueueOneMessage := by
  intro x s y w c D dv src queued
  refine ⟨fun h hp hv hf hn => ?posted, fun h hp hv hf => ?waits, fun h hp hv ht => ?blocks, fun h hp hv ht hf hn => ?request,
    fun h hp hv hf hn => ?response⟩
  case posted =>
    obtain ⟨t, ht, hinj, hi⟩ := issued_sends h hn (bodySendPosted_sends (s.env x.cell) (s.extOf x) h.taken.self hp hv hf)
    exact ⟨t, ht, _, ⟨hinj, rfl, rfl, rfl, rfl, rfl⟩, rfl, rfl, rfl, rfl, hi⟩
  case waits =>
    refine issued_ctxIs (b := bodySendPosted) h ?_ h.free
    rw [bodySendPosted_waits _ _ h.taken.self hp hv hf]
    exact h.taken
  case blocks =>
    have hb := bodySendRequest_blocks (s.env x.cell) (s.extOf x) h.taken.self hp hv ((c.tagsFull_take h.ctx).trans ht)
    obtain ⟨t, ht, ho, hc, hctx, -⟩ := issued_ctxIs (y := y.issuing.heldForTag) h (hb ▸ h.taken.blockTag) h.free
    exact ⟨t, ht, ho, congrArg Ctx.state hctx, (congrArg Ctx.pc hctx).trans rfl, Cell.eq_of_noCtxs Cell.inj (fun _ => rfl) hc,
      Cell.eq_of_noCtxs Cell.tags (fun _ => rfl) hc⟩
  case request =>
    obtain ⟨v, hfree⟩ := Cell.freeTag_of_room ht
    obtain ⟨hlt, htags, hquar⟩ := nextTag_free hfree
    have hb := bodySendRequest_sends (s.env x.cell) (s.extOf x) h.taken.self hp hv ((c.tagsFull_take h.ctx).trans ht) hf
      ((c.freeTag_take h.ctx).trans hfree)
    obtain ⟨t, ht, hinj, htag, hi⟩ := issued_tagged h hn hb (by simp) (by simp) (by simp)
    have hctr : (x.ctx * 1024 + v) % 1024 = v := by omega
    refine ⟨t, ht, _, ⟨hinj, rfl, rfl, rfl, rfl, rfl⟩, rfl, rfl, rfl, ?_, htags, hquar, htag, ?_⟩
    · show (x.ctx * 1024 + v) / 1024 = x.ctx
      omega
    · simp only [sendMsg, hctr]
      exact hi
  case response =>
    obtain ⟨t, ht, hinj, hi⟩ := issued_sends h hn (bodySendResponse_sends (s.env x.cell) (s.extOf x) h.taken.self hp hv hf)
    exact ⟨t, ht, _, ⟨hinj, rfl, rfl, rfl, rfl, rfl⟩, rfl, rfl, rfl, rfl, hi⟩

end Sys2Proof.Machine

/-! PROOF. Requests to a court: O41. -/

namespace Sys2Proof.Machine
open Sys2Proof

/-! ### What a read of the scratchpad leaves for the message that carries it (06 R196) -/

/-- From `c` to `d` the contexts, their loops' bounds, the scratchpad's bytes, and the queues and tags of messages are as before. -/
structure Cell.SameMessages (c d : Cell) : Prop where
  ctxs : d.ctxs = c.ctxs
  bound : ∀ n < 4, ∀ k < 4, d.rd ((loopEnd n).ctx k) = c.rd ((loopEnd n).ctx k)
  spd : d.spd = c.spd
  inj : d.inj = c.inj
  tags : d.tags = c.tags
  quar : d.quar = c.quar
  recvReq : d.recvReq = c.recvReq
  recvRsp : d.recvRsp = c.recvRsp

theorem Cell.SameMessages.refl (c : Cell) : c.SameMessages c := ⟨rfl, fun _ _ _ _ => rfl, rfl, rfl, rfl, rfl, rfl, rfl⟩

theorem Cell.SameMessages.trans {c d e : Cell} (h : c.SameMessages d) (g : d.SameMessages e) : c.SameMessages e :=
  ⟨g.ctxs.trans h.ctxs, fun n hn k hk => (g.bound n hn k hk).trans (h.bound n hn k hk), g.spd.trans h.spd, g.inj.trans h.inj,
    g.tags.trans h.tags, g.quar.trans h.quar, g.recvReq.trans h.recvReq, g.recvRsp.trans h.recvRsp⟩

theorem Cell.sameMessages_wr (c : Cell) {f : Fld} (v : Nat) (hf : 0x800 * 64 ≤ f.key) : c.SameMessages (c.wr f v) :=
  { Cell.SameMessages.refl c with bound := fun _ hn _ hk => c.rd_wr_mac v (loopEnd_key_lt hn hk) hf }

theorem Cell.sameMessages_spdRead (c : Cell) (a : Nat) : c.SameMessages (c.spdRead a).2.2 := by
  unfold Cell.spdRead
  dsimp only
  split
  · exact .refl c
  · exact (c.sameMessages_wr _ (by decide)).trans ⟨rfl, fun _ _ _ _ => rfl, rfl, rfl, rfl, rfl, rfl, rfl⟩
  · exact Cell.SameMessages.trans (d := { c with spdPoison := _, spdEcc := _ }) ⟨rfl, fun _ _ _ _ => rfl, rfl, rfl, rfl, rfl, rfl, rfl⟩
      ((Cell.sameMessages_wr _ _ (by decide)).trans ⟨rfl, fun _ _ _ _ => rfl, rfl, rfl, rfl, rfl, rfl, rfl⟩)

theorem Cell.sameMessages_viewLoad (c : Cell) (l : List (Nat × List (Nat × Nat))) : c.SameMessages (c.viewLoad l).2 := by
  induction l generalizing c with
  | nil => exact .refl c
  | cons p l ih => exact (c.sameMessages_spdRead p.1).trans (ih _)

/-- The held locks once a SYNC of operation `op` on object `o` has gone: a RELEASE gives its lock up (08 R261). -/
def Cell.released (c : Cell) (k op o : Nat) : Cell :=
  if op = 7 then { c with locks := c.locks.filter (fun h => !(h.ctx == k && h.obj == o)) } else c

theorem Cell.released_eq (c : Cell) (k op o : Nat) : ∃ ls, c.released k op o = { c with locks := ls } := by
  unfold Cell.released
  split
  · exact ⟨_, rfl⟩
  · exact ⟨c.locks, rfl⟩

theorem Cell.sameMessages_released (c : Cell) (k op o : Nat) : c.SameMessages (c.released k op o) := by
  obtain ⟨ls, h⟩ := c.released_eq k op o
  rw [h]
  exact ⟨rfl, fun _ _ _ _ => rfl, rfl, rfl, rfl, rfl, rfl, rfl⟩

theorem Cell.released_modCtx (c : Cell) (k op o : Nat) (f : Ctx → Ctx) : (c.modCtx k f).released k op o = (c.released k op o).modCtx k f := by
  unfold Cell.released
  split <;> rfl

/-! ### A message and its tag -/

/-- What an instruction leaves that sends one message and records `trs`. -/
structure SentOne (x : CtxRef) (s t : State) (m : Msg) (trs : List TagRec) : Prop where
  only : OnlyCell x.cell s t
  inj : (t.cell x.cell).inj = (s.cell x.cell).inj ++ [m]
  tags : (t.cell x.cell).tags = (s.cell x.cell).tags ++ trs
  spd : (t.cell x.cell).spd = (s.cell x.cell).spd
  recvReq : (t.cell x.cell).recvReq = (s.cell x.cell).recvReq
  recvRsp : (t.cell x.cell).recvRsp = (s.cell x.cell).recvRsp

section
variable {r : Row} {x : CtxRef} {s : State} {b : Env → Nat → Nat → Nat → Cell → Cell} {d : Cell} {m : Msg}
  (h : Ready r x s) (hd : ((s.cell x.cell).take x.ctx).SameMessages d)
include h hd

theorem Cell.SameMessages.ctxIs : d.CtxIs d x.ctx (s.ctxOf x).issuing :=
  ⟨rfl, (congrArg (fget ctx0 · x.ctx) hd.ctxs).trans h.taken.self, fun _ _ => rfl⟩

theorem Cell.SameMessages.noReturn (hn : NoReturn 1 x s) : ∀ n < 4, (s.ctxOf x).lReg n = 0 ∨
    d.rd ((loopEnd n).ctx x.ctx) ≠ ((s.ctxOf x).pc + BitVec.ofNat 10 (1 - 1)).toNat := fun n hn4 => by
  rw [hd.bound n hn4 _ h.ctx]
  exact hn n hn4

/-- The tag that the changed cell gives is the one its context would have got before. -/
theorem Cell.SameMessages.freeTag : d.freeTag x.ctx = (s.cell x.cell).freeTag x.ctx := by
  rw [← (s.cell x.cell).freeTag_take h.ctx]
  exact Cell.freeTag_congr hd.tags hd.quar (congrArg (fun l => (fget ctx0 l x.ctx).tagCtr) hd.ctxs)

/-- An instruction of a ready context that sends `m` from `d` and then changes its own context only. -/
theorem issued_sentOne {c1 : Cell} {y : Ctx} {trs : List TagRec} (hc : c1 = { d.inject m with tags := d.tags ++ trs })
    (hb : c1.CtxIs (b (s.env x.cell) x.ctx (s.wordOf x) (s.extOf x) ((s.cell x.cell).take x.ctx)) x.ctx y) (hs : y.stepping = false) :
    ∃ t, s.issue r (cellBody b) x = .next t ∧ SentOne x s t m trs ∧ t.ctxOf x = y := by
  obtain ⟨t, ht, ho, hrest, hx⟩ := issued_cell h rfl (by rw [hb.self]; exact hs)
  have hrest := hrest.trans (hb.rest.trans (congrArg Cell.noCtxs hc))
  refine ⟨t, ht, ⟨ho, ?_, ?_, ?_, ?_, ?_⟩, (hx x.ctx).trans hb.self⟩
  · exact (Cell.eq_of_noCtxs Cell.inj (fun _ => rfl) hrest).trans (congrArg (· ++ [m]) hd.inj)
  · exact (Cell.eq_of_noCtxs Cell.tags (fun _ => rfl) hrest).trans (congrArg (· ++ trs) hd.tags)
  · exact (Cell.eq_of_noCtxs Cell.spd (fun _ => rfl) hrest).trans hd.spd
  · exact (Cell.eq_of_noCtxs Cell.recvReq (fun _ => rfl) hrest).trans hd.recvReq
  · exact (Cell.eq_of_noCtxs Cell.recvRsp (fun _ => rfl) hrest).trans hd.recvRsp

/-- One without a tag goes on. -/
theorem issued_sentPosted (hn : NoReturn 1 x s) (hb : b (s.env x.cell) x.ctx (s.wordOf x) (s.extOf x) ((s.cell x.cell).take x.ctx) =
      (d.inject m).advance x.ctx 1) :
    ∃ t, s.issue r (cellBody b) x = .next t ∧ SentOne x s t m [] ∧ t.ctxOf x = (s.ctxOf x).past 1 := by
  obtain ⟨-, hself, -⟩ := hd.ctxIs h
  have hq : (d.inject m).CtxIs (d.inject m) x.ctx (s.ctxOf x).issuing := ⟨rfl, hself, fun _ _ => rfl⟩
  refine issued_sentOne h hd (c1 := d.inject m) (y := (s.ctxOf x).past 1) (by rw [List.append_nil]; rfl) ?_ h.free
  have hloops := hd.noReturn h hn
  rw [hb]
  exact hq.advance 1 hloops

/-- One with a tag writes it to a register and goes on. -/
theorem issued_sentTagged {v j : Nat} {q : PW} {tr : TagRec} (hn : NoReturn 1 x s)
    (hb : b (s.env x.cell) x.ctx (s.wordOf x) (s.extOf x) ((s.cell x.cell).take x.ctx) =
      (((d.modCtx x.ctx (fun z => z.pastTag v)).inject m).addTag tr).done x.ctx (fun z => z.setS j q)) :
    ∃ t, s.issue r (cellBody b) x = .next t ∧ SentOne x s t m [tr] ∧
      t.ctxOf x = { ((s.ctxOf x).issuing.pastTag v).setS j q with pc := (s.ctxOf x).pc + 1 } := by
  refine issued_sentOne h hd (c1 := (d.inject m).addTag tr) (y := { ((s.ctxOf x).issuing.pastTag v).setS j q with pc := (s.ctxOf x).pc + 1 })
    rfl ?_ h.free
  have hloops := hd.noReturn h hn
  rw [hb]
  exact (((hd.ctxIs h).tagged v m tr).modCtx (fun z => z.setS j q)).advance 1 hloops

/-- One that waits for the response blocks on its tag. -/
theorem issued_sentBlocked {v obj tag : Nat} {wk : WaitKind} {tr : TagRec}
    (hb : b (s.env x.cell) x.ctx (s.wordOf x) (s.extOf x) ((s.cell x.cell).take x.ctx) =
      ((((d.modCtx x.ctx (fun z => z.pastTag v)).inject m).block x.ctx wk obj).addTag tr).modCtx x.ctx (fun z => { z with waitTag := tag })) :
    ∃ t, s.issue r (cellBody b) x = .next t ∧ SentOne x s t m [tr] ∧
      t.ctxOf x = { (s.ctxOf x).issuing.pastTag v with
        state := .blocked, wait := wk, waitObj := BitVec.ofNat 32 obj, waitElapsed := 0, waitTag := tag } := by
  refine issued_sentOne h hd (c1 := (d.inject m).addTag tr) rfl ?_ h.free
  rw [hb]
  exact ((((hd.ctxIs h).tagged v m tr).block wk obj).modCtx (fun z => { z with waitTag := tag }))

end

/-! ### SYNC, RIF and DMA (04 R116 to R118) -/

/-- The message of a SYNC. -/
def syncMsg (e : Env) (k w : Nat) (y : Ctx) (kind : MsgKind) (tag : Nat) : Msg :=
  let o := (y.sReg (bits w 20 16)).v.toNat
  { kind := kind, len := 8, srcCtx := k, tag := tag, unit := 1, port := 0, dest := hubId (bits o 10 7) (bits o 14 11), src := e.logical
    payload := valBytes (y.pair (bits w 15 11)) 8, info := [bits w 24 21, o] }

/-- The message of a RIF. -/
def rifMsg (e : Env) (k w : Nat) (y : Ctx) (tag : Nat) : Msg :=
  { kind := .request, len := 8, srcCtx := k, tag := tag, unit := 2, port := minor w, dest := hubId (idX e.logical / 8) (idY e.logical / 8)
    src := e.logical, info := [(y.aReg (bits w 16 14)).v.toNat, bits w 20 17 + 1] }

/-- The message of a DMA whose descriptor is `line`. -/
def dmaMsg (e : Env) (k w : Nat) (y : Ctx) (line : VR) (kind : MsgKind) (tag : Nat) : Msg :=
  { kind := kind, len := 64, srcCtx := k, tag := tag, unit := 3, port := bits w 24 21, dest := hubId (idX e.logical / 8) (idY e.logical / 8)
    src := e.logical, poison := line.p != 0, payload := valBytes line.v.toNat 64, info := [y.pc.toNat] }

section
variable (e : Env) {k w : Nat} (ext : Nat) {c : Cell} {y : Ctx} (hy : c.ctx k = y.issuing)
include hy

section
variable (hp : (y.sReg (bits w 20 16)).p = false) (hq : y.pairP (bits w 15 11) = false)
  (ho : syncObjOk e.small (y.sReg (bits w 20 16)).v.toNat = true)
include hp hq ho

theorem bodySync_heldLimit (hop : bits w 24 21 = 6) (hheld : 8 ≤ (c.locks.filter (fun l => l.ctx == k)).length) :
    bodySync e k w ext c = c.done k (fun z => (z.setS (bits w 10 6)
      ⟨BitVec.ofNat 32 (Config.heldLimitValue (y.sReg (bits w 20 16)).v.toNat), false⟩).setS (bits w 10 6 + 1) ⟨7, false⟩) := by
  unfold bodySync
  simp only [hy, Ctx.sReg_issuing, Ctx.pairP_issuing, hp, hq, ho, hop, hheld, and_self, Bool.not_true, Bool.false_eq_true, if_false, if_true]

theorem bodySync_posted (hheld : bits w 24 21 = 6 → (c.locks.filter (fun l => l.ctx == k)).length < 8) (hpost : bit w 25 = true)
    (hf : c.injFull = false) :
    bodySync e k w ext c =
      ((c.released k (bits w 24 21) (y.sReg (bits w 20 16)).v.toNat).inject (syncMsg e k w y .posted 0)).advance k 1 := by
  have hlim : ¬(bits w 24 21 = 6 ∧ 8 ≤ (c.locks.filter (fun l => l.ctx == k)).length) := fun h => absurd h.2 (Nat.not_le.mpr (hheld h.1))
  unfold bodySync
  simp only [hy, Ctx.sReg_issuing, Ctx.pairP_issuing, hp, hq, ho, hlim, hpost, hf, Bool.not_true, Bool.false_eq_true, if_false, if_true]
  rfl

theorem bodySync_request (hheld : bits w 24 21 = 6 → (c.locks.filter (fun l => l.ctx == k)).length < 8) (hpost : bit w 25 = false)
    (ht : c.tagsFull k = false) (hf : c.injFull = false) {v : Nat} (hfree : c.freeTag k = some v) :
    let o := (y.sReg (bits w 20 16)).v.toNat
    let tag := k * 1024 + v
    bodySync e k w ext c =
      (((((c.released k (bits w 24 21) o).modCtx k (fun z => z.pastTag v)).inject (syncMsg e k w y .request tag)).block k .sync o).addTag
        { tag := tag, ctx := k, kind := .sync, pc := y.pc.toNat, obj := o, op := bits w 24 21, rd := bits w 10 6
          court := 12 * bits o 14 11 + bits o 10 7 }).modCtx k (fun z => { z with waitTag := tag }) := by
  have hlim : ¬(bits w 24 21 = 6 ∧ 8 ≤ (c.locks.filter (fun l => l.ctx == k)).length) := fun h => absurd h.2 (Nat.not_le.mpr (hheld h.1))
  unfold bodySync
  simp only [hy, Ctx.sReg_issuing, Ctx.pairP_issuing, hp, hq, ho, hlim, hpost, ht, hf, Bool.not_true, Bool.false_eq_true, if_false,
    Cell.allocTag_eq hfree, ← Cell.released_modCtx]
  rfl

end

theorem bodyRif_sends (hp : (y.aReg (bits w 16 14)).p = false) (ht : c.tagsFull k = false) (hf : c.injFull = false) {v : Nat}
    (hfree : c.freeTag k = some v) :
    let tag := k * 1024 + v
    bodyRif e k w ext c =
      (((c.modCtx k (fun z => z.pastTag v)).inject (rifMsg e k w y tag)).addTag
        { tag := tag, ctx := k, kind := .rif, pc := y.pc.toNat }).done k (fun z => z.setS (bits w 13 9) ⟨BitVec.ofNat 32 tag, false⟩) := by
  unfold bodyRif
  simp only [hy, Ctx.aReg_issuing, hp, ht, hf, Bool.false_eq_true, if_false, Cell.allocTag_eq hfree]
  rfl

section
variable {l : List (Nat × List (Nat × Nat))} (hl : viewMap false 0 (y.aReg (bits w 20 18)).v.toNat = l)
  (hp : (y.aReg (bits w 20 18)).p = false) (hf : c.injFull = false)
  (hs : c.spdCheck 1 ((y.aReg (bits w 20 18)).v.toNat % 64 == 0) (l.map (·.1)) = none)
include hl hp hf hs

theorem bodyDma_posted (hresp : bit w 25 = false) :
    bodyDma e k w ext c = ((c.viewLoad l).2.inject (dmaMsg e k w y (c.viewLoad l).1 .posted 0)).advance k 1 := by
  unfold bodyDma
  simp only [hy, Ctx.aReg_issuing, hl, hp, hf, hs, hresp, Bool.false_and, Bool.false_eq_true, if_false]
  rfl

theorem bodyDma_request (hresp : bit w 25 = true) (ht : c.tagsFull k = false) {v : Nat} (hfree : (c.viewLoad l).2.freeTag k = some v) :
    let tag := k * 1024 + v
    bodyDma e k w ext c =
      ((((c.viewLoad l).2.modCtx k (fun z => z.pastTag v)).inject (dmaMsg e k w y (c.viewLoad l).1 .request tag)).addTag
        { tag := tag, ctx := k, kind := .dma, pc := y.pc.toNat }).done k (fun z => z.setS (bits w 17 13) ⟨BitVec.ofNat 32 tag, false⟩) := by
  unfold bodyDma
  simp only [hy, Ctx.aReg_issuing, hl, hp, hf, hs, hresp, ht, Bool.and_false, Bool.false_eq_true, if_false, if_true, Cell.allocTag_eq hfree]
  rfl

end

end

/-- A tag that a context has been given is its own (04 R114). -/
theorem tag_owner {k ctr n v : Nat} {c : Cell} (h : nextTag c k ctr n = some v) : (k * 1024 + v) / 1024 = k := by
  have := (nextTag_free h).1
  omega

/-- Settles O41: each instruction by its one message, which leaves from the taken cell, for SYNC with a lock given up, for DMA with
its descriptor read. -/
theorem courtRequestsLeaveTheCell : Obligations.CourtRequestsLeaveTheCell := by
  intro x s hn y w c id own room o held sent tagged
  have leaves {t : State} {m : Msg} {trs : List TagRec} {k : Nat} (h : SentOne x s t m trs) (hk : m.unit = k) (hx : m.srcCtx = x.ctx)
      (hsrc : m.src = id) : sent t m k := ⟨h.only, h.inj, hk, hx, hsrc, h.spd, h.recvReq, h.recvRsp⟩
  have posted {t : State} {m : Msg} (h : SentOne x s t m []) : (t.cell x.cell).tags = c.tags := h.tags.trans (List.append_nil _)
  refine ⟨fun h hp hq ho hheld ⟨hf, ht⟩ => ?sync, fun h hp hq ho hop hheld => ?heldLimit, fun h hp ⟨hf, ht⟩ => ?rif,
    fun h hp ⟨hf, ht⟩ hs => ?dma⟩
  case sync =>
    have hsame := (c.take x.ctx).sameMessages_released x.ctx (bits w 24 21) o
    obtain ⟨v, hfree⟩ := Cell.freeTag_of_room ht
    cases hpost : bit w 25 with
    | true =>
      obtain ⟨t, ht, hsent, hctx⟩ := issued_sentPosted h hsame hn
        (bodySync_posted (s.env x.cell) (s.extOf x) h.taken.self hp hq ho hheld hpost hf)
      exact ⟨t, ht, _, leaves hsent rfl rfl rfl, rfl, rfl, rfl, fun _ => ⟨rfl, posted hsent, hctx⟩, nofun⟩
    | false =>
      obtain ⟨t, ht, hsent, hctx⟩ := issued_sentBlocked h hsame
        (bodySync_request (s.env x.cell) (s.extOf x) h.taken.self hp hq ho hheld hpost ((c.tagsFull_take h.ctx).trans ht) hf
          ((c.freeTag_take h.ctx).trans hfree))
      refine ⟨t, ht, _, leaves hsent rfl rfl rfl, rfl, rfl, rfl, nofun,
        fun _ => ⟨rfl, ⟨tag_owner hfree, _, hsent.tags, rfl, rfl, rfl, rfl⟩, ?_⟩⟩
      rw [hctx]
      exact ⟨rfl, rfl, rfl, rfl, fun _ => rfl⟩
  case heldLimit =>
    obtain ⟨t, ht, hi⟩ := issued_done (c' := c) h hn (bodySync_heldLimit (s.env x.cell) (s.extOf x) h.taken.self hp hq ho hop hheld)
      rfl (fun _ => rfl) (fun _ _ => rfl) rfl (fun _ => rfl) h.free
    exact ⟨t, _, ht, hi⟩
  case rif =>
    obtain ⟨v, hfree⟩ := Cell.freeTag_of_room ht
    obtain ⟨t, ht, hsent, hctx⟩ := issued_sentTagged h (.refl _) hn
      (bodyRif_sends (s.env x.cell) (s.extOf x) h.taken.self hp ((c.tagsFull_take h.ctx).trans ht) hf ((c.freeTag_take h.ctx).trans hfree))
    refine ⟨t, ht, _, leaves hsent rfl rfl rfl, rfl, rfl, rfl, rfl, ⟨tag_owner hfree, _, hsent.tags, rfl, rfl, rfl, rfl⟩, ?_, fun i => ?_⟩
    · rw [hctx]
    · rw [hctx]
      exact Ctx.sReg_setS ..
  case dma =>
    generalize hl : viewMap false 0 (y.aReg (bits w 20 18)).v.toNat = l at hs ⊢
    have hsame := (c.take x.ctx).sameMessages_viewLoad l
    have hline : ((c.take x.ctx).viewLoad l).1 = (c.viewLoad l).1 := Cell.viewLoad_of_noCtxs (c.noCtxs_take x.ctx) l
    have hcheck : (c.take x.ctx).spdCheck 1 ((y.aReg (bits w 20 18)).v.toNat % 64 == 0) (l.map (·.1)) = none := hs
    obtain ⟨v, hfree⟩ := Cell.freeTag_of_room ht
    cases hresp : bit w 25 with
    | false =>
      obtain ⟨t, ht, hsent, hctx⟩ := issued_sentPosted h hsame hn
        (bodyDma_posted (s.env x.cell) (s.extOf x) h.taken.self hl hp hf hcheck hresp)
      refine ⟨t, ht, _, leaves hsent rfl rfl rfl, rfl, rfl, by rw [hctx]; rfl, ?_, fun _ => ⟨rfl, posted hsent, fun i => ?_⟩, nofun⟩
      · rw [← hline]
        rfl
      · rw [hctx]
        rfl
    | true =>
      obtain ⟨t, ht, hsent, hctx⟩ := issued_sentTagged h hsame hn
        (bodyDma_request (s.env x.cell) (s.extOf x) h.taken.self hl hp hf hcheck hresp ((c.tagsFull_take h.ctx).trans ht)
          ((hsame.freeTag h).trans hfree))
      refine ⟨t, ht, _, leaves hsent rfl rfl rfl, rfl, rfl, by rw [hctx], ?_, nofun,
        fun _ => ⟨rfl, ⟨tag_owner hfree, _, hsent.tags, rfl, rfl, rfl, rfl⟩, fun i => ?_⟩⟩
      · rw [← hline]
        rfl
      · rw [hctx]
        exact Ctx.sReg_setS ..

end Sys2Proof.Machine

/-! PROOF. Privileged instructions: O45. -/

namespace Sys2Proof.Machine
open Sys2Proof

/-! ### PRIV_VIOLATION (04 R126) -/

/-- What a privileged instruction does outside the Restorer's context. -/
def privViolation (e : Env) (k w _ext : Nat) (c : Cell) : Cell := c.raiseHere e k 0x0A (bits w 31 21)

section
variable (s₀ : State) {n k : Nat} (w ext : Nat) {s : State} (h : (s.cell n).privOk k = false)
include h

theorem State.bodyRsig_denied : State.bodyRsig (s₀.env n) k w ext s = cellBody privViolation (s₀.env n) k w ext s := by
  unfold State.bodyRsig
  simp only [State.env_n, h, Bool.not_false, if_true]
  rfl

theorem State.bodyRaspend_denied : State.bodyRaspend (s₀.env n) k w ext s = cellBody privViolation (s₀.env n) k w ext s := by
  unfold State.bodyRaspend
  simp only [State.env_n, h, Bool.not_false, if_true]
  rfl

end

section
variable {r : Row} {x : CtxRef} {s t : State} {b : Body}

/-- The state once the issue stage has taken a context. -/
def State.taken (s : State) (x : CtxRef) : State := s.modCell x.cell (·.take x.ctx)

@[simp] theorem State.cell_taken (s : State) (x : CtxRef) : (s.taken x).cell x.cell = (s.cell x.cell).take x.ctx :=
  (State.cell_modCell ..).trans (if_pos rfl)

/-- An instruction of a ready context makes its effect on that state, and a STEP ends with it. -/
theorem issue_taken (h : Ready r x s) : s.issue r b x =
    .next ((b (s.env x.cell) x.ctx (s.wordOf x) (s.extOf x) (s.taken x)).modCell x.cell (Cell.stepEnd x.ctx r (s.ctxOf x).pc)) :=
  issue_ready b h

/-- Bodies that agree on that state have the same effect. -/
theorem issue_congr {b' : Body} (h : Ready r x s) (hb : b (s.env x.cell) x.ctx (s.wordOf x) (s.extOf x) (s.taken x) =
    b' (s.env x.cell) x.ctx (s.wordOf x) (s.extOf x) (s.taken x)) : s.issue r b x = s.issue r b' x := by
  rw [issue_taken h, issue_taken h, hb]

theorem issued_denied (h : Ready r x s) (ht : s.issue r b x = .next t)
    (hb : b (s.env x.cell) x.ctx (s.wordOf x) (s.extOf x) (s.taken x) =
      cellBody privViolation (s.env x.cell) x.ctx (s.wordOf x) (s.extOf x) (s.taken x)) :
    (t.ctxOf x).state = .faulted ∧ OnlyCell x.cell s t ∧
      ∃ rec, (t.cell x.cell).faults = (s.cell x.cell).faults ++ [rec] ∧ rec.code = 0x0A ∧ rec.detail = bits (s.wordOf x) 31 21 := by
  obtain ⟨u, hu, ho, hstate, hrec⟩ := issued_raise_record (b := privViolation) h rfl
  cases ((issue_congr h hb).symm.trans ht).symm.trans hu
  exact ⟨hstate, ho, hrec⟩

end

/-! ### RSIG (16 R479) -/

/-- A 64-bit signature rotated left by 5, as its number. -/
theorem rotateLeft_five {g : Nat} (hg : g < 2 ^ 64) : ((BitVec.ofNat 64 g).rotateLeft 5).toNat = g * 32 % 2 ^ 64 + g / 2 ^ 59 := by
  have hhigh : g * 32 % 2 ^ 64 = 2 ^ 5 * (g % 2 ^ 59) := by omega
  have hlow : g / 2 ^ 59 < 2 ^ 5 := by omega
  rw [BitVec.toNat_rotateLeft, BitVec.toNat_ofNat, Nat.mod_eq_of_lt hg, Nat.shiftLeft_eq, Nat.shiftRight_eq_div_pow, hhigh,
    Nat.two_pow_add_eq_or_of_lt hlow, ← hhigh]

/-- A signature with a register folded in (R479). -/
theorem signature_folded {g : Nat} (hg : g < 2 ^ 64) (v : BitVec 32) :
    BitVec.ofNat 64 (((g * 32 % 2 ^ 64 + g / 2 ^ 59) ^^^ v.toNat) % 2 ^ 64) = (BitVec.ofNat 64 g).rotateLeft 5 ^^^ v.setWidth 64 := by
  apply BitVec.eq_of_toNat_eq
  rw [BitVec.toNat_ofNat, Nat.mod_mod, BitVec.toNat_xor, rotateLeft_five hg, BitVec.toNat_setWidth, Nat.mod_eq_of_lt (v.isLt.trans (by decide)),
    Nat.mod_eq_of_lt (Nat.xor_lt_two_pow (by omega) (v.isLt.trans (by decide)))]

/-- The court's signature with a value folded in. -/
def Court.fold (c : Court) (v : Nat) : Court :=
  c.wr RES_RASP_SIG_SIG (((c.rd RES_RASP_SIG_SIG * 32) % 2 ^ 64 + c.rd RES_RASP_SIG_SIG / 2 ^ 59) ^^^ v)

theorem State.bodyRsig_folds (s₀ : State) {n k : Nat} (w ext : Nat) {s : State} (h : (s.cell n).privOk k = true) :
    State.bodyRsig (s₀.env n) k w ext s =
      (s.modCourt (cellCourt n) (·.fold (((s.cell n).ctx k).sReg (fRd w)).v.toNat)).modCell n (·.advance k 1) := by
  unfold State.bodyRsig
  simp only [State.env_n, h, Bool.not_true, Bool.false_eq_true, if_false]
  rfl

/-! ### RASPEND (03 R74, 16 R477) -/

/-- A cell in which no pass runs and context 3 is not the Restorer's. -/
structure Cell.PassOver (c : Cell) : Prop where
  rasp : c.rasp = false
  steps : c.raspSteps = 0
  restorer : c.rd (CTX_CONFIG_RESTORER.ctx 3) = 0

theorem Cell.passOver_of_restorer {c : Cell} (h : c.rd (CTX_CONFIG_RESTORER.ctx 3) = 0) :
    ({ c with rasp := false, raspSteps := 0, acc := [], openCfg := none } : Cell).PassOver := ⟨rfl, rfl, h⟩

theorem restorer_key : (CTX_CONFIG_RESTORER.ctx 3).key < 0x800 * 64 := by decide

/-- Registers of the MAC block restored leave those below them. -/
theorem Cell.restoreReg_eq (c : Cell) (off v : Nat) :
    ∃ m, c.restoreReg off v = { c with regs := m } ∧ ∀ g : Fld, g.key < off * 64 → ({ c with regs := m } : Cell).rd g = c.rd g := by
  refine ⟨_, rfl, ?_⟩
  refine List.foldlRecOn _ _ (motive := fun m => ∀ g : Fld, g.key < off * 64 → ({ c with regs := m } : Cell).rd g = c.rd g)
    (fun _ _ => rfl) fun m hm r _ => ?_
  refine List.foldlRecOn _ _ (motive := fun m => ∀ g : Fld, g.key < off * 64 → ({ c with regs := m } : Cell).rd g = c.rd g)
    hm fun m hm f _ => ?_
  split
  · exact hm
  · intro g hg
    have hne : g.key ≠ (⟨off, f.lsb, f.width⟩ : Fld).key := by
      unfold Fld.key at hg ⊢
      dsimp only
      omega
    exact (Cell.rd_wr_ne ({ c with regs := m } : Cell) _ hne).trans (hm g hg)

theorem Cell.PassOver.restoreRegs {c : Cell} (h : c.PassOver) (n v : Nat) : (c.restoreRegs 0x800 n v).PassOver := by
  refine List.foldlRecOn _ _ (motive := Cell.PassOver) h fun d hd i _ => ?_
  obtain ⟨m, heq, hrd⟩ := d.restoreReg_eq (0x800 + 8 * i) (bits v (64 * i + 63) (64 * i))
  rw [heq]
  exact ⟨hd.rasp, hd.steps, (hrd _ (restorer_key.trans_le (by omega))).trans hd.restorer⟩

theorem State.passOver_raspRewrite (s : State) (n : Nat) {c : Cell} (h : c.PassOver) : (s.raspRewrite n c).PassOver := by
  unfold State.raspRewrite
  split
  · exact h
  · exact h.restoreRegs ..

/-- The MAC block made idle with its flags restarted leaves the registers below it. -/
theorem Cell.rd_macRestart (c : Cell) {g : Fld} (hg : g.key < 0x800 * 64) :
    ((((((c.wr CELL_MAC_FLAGS_POISON 0).wr CELL_MAC_FLAGS_CVT_RANGE 0).wr CELL_MAC_FLAGS_INVALID 0).wr
      CELL_MAC_FLAGS_WINDOW_OVERFLOW 0).wr CELL_MAC_FLAGS_INEXACT 0).wr CELL_MAC_ACC_SEL_OPEN 0).macFlagsRestart.macEmpty.rd g = c.rd g := by
  have hempty (d : Cell) : d.macEmpty.rd g = ((((((d.wr CELL_MAC_STATUS_BUSY 0).wr CELL_MAC_STATUS_PHASE 0).wr
    CELL_MAC_STATUS_SLAB_HELD 0).wr CELL_MAC_STATUS_DRAINING 0).wr CELL_MAC_STATUS_VERDICT_WAIT 0)).rd g := rfl
  rw [hempty, Cell.macFlagsRestart]
  repeat rw [Cell.rd_wr_mac _ _ hg (by decide)]

/-- The cell of a pass as its end leaves it, once MODE SR has restored what it saved. -/
def State.leftPass (s : State) (n : Nat) (rewrite : Bool) (c : Cell) : Cell :=
  if c.raspSr then { c.wr (CTX_CONFIG_RESTORER.ctx 3) 0 with rasp := false, raspSteps := 0, raspSr := false }
  else
    let r := ((((((((c.resetCtx (s.env n) 3).wr (CTX_CONFIG_RESTORER.ctx 3) 0).wr CELL_MAC_FLAGS_POISON 0).wr CELL_MAC_FLAGS_CVT_RANGE 0).wr
      CELL_MAC_FLAGS_INVALID 0).wr CELL_MAC_FLAGS_WINDOW_OVERFLOW 0).wr CELL_MAC_FLAGS_INEXACT 0).wr CELL_MAC_ACC_SEL_OPEN 0).macFlagsRestart.macEmpty
    let r := { r with rasp := false, raspSteps := 0, acc := [], openCfg := none }
    if rewrite then s.raspRewrite n r else r

theorem State.raspLeave_eq (s : State) (n : Nat) : ∃ s' : State, s.raspLeave n = s'.modCell n (s'.leftPass n (s.runningNiche n)) := ⟨_, rfl⟩

/-- Whatever the mode, the pass is over in its cell. -/
theorem State.passOver_leftPass (s : State) (n : Nat) (rewrite : Bool) (c : Cell) : (s.leftPass n rewrite c).PassOver := by
  have hzero (d : Cell) : (d.wr (CTX_CONFIG_RESTORER.ctx 3) 0).rd (CTX_CONFIG_RESTORER.ctx 3) = 0 := Cell.rd_wr_self ..
  unfold State.leftPass
  split
  · exact ⟨rfl, rfl, hzero _⟩
  · have hreset := (Cell.rd_macRestart ((c.resetCtx (s.env n) 3).wr (CTX_CONFIG_RESTORER.ctx 3) 0) restorer_key).trans (hzero _)
    have hover := Cell.passOver_of_restorer hreset
    cases rewrite with
    | false => exact hover
    | true => exact s.passOver_raspRewrite n hover

theorem State.passOver_raspLeave (s : State) (n : Nat) : ((s.raspLeave n).cell n).PassOver := by
  obtain ⟨s', h⟩ := s.raspLeave_eq n
  rw [h, State.cell_modCell, if_pos rfl]
  exact s'.passOver_leftPass ..

/-- The end of a pass before the last step of its cell. -/
theorem State.raspEnd_counts {s : State} {n : Nat} (hcell : s.raspCell (cellCourt n) = n)
    (hstep : (s.court (cellCourt n)).rd RES_RASP_CTRL_STEP + (s.cell n).raspSteps < raspTotal (s.court (cellCourt n)).raspBanks) :
    s.raspEnd n = (s.raspLeave n).modCourt (cellCourt n)
      (·.wr RES_RASP_CTRL_STEP ((s.court (cellCourt n)).rd RES_RASP_CTRL_STEP + (s.cell n).raspSteps)) := by
  unfold State.raspEnd
  simp only [hcell, hstep, decide_true, Bool.not_true, Bool.false_eq_true, if_false, if_true]

section
variable (s₀ : State) {n k : Nat} (w ext : Nat) {s : State} (h : (s.cell n).privOk k = true)
include h

theorem State.bodyRaspend_passes (hr : (s.cell n).rasp = false) :
    State.bodyRaspend (s₀.env n) k w ext s = cellBody (fun _ k _ _ c => c.advance k 1) (s₀.env n) k w ext s := by
  unfold State.bodyRaspend
  simp only [State.env_n, h, hr, Bool.not_true, Bool.false_eq_true, if_false]
  rfl

theorem State.bodyRaspend_ends (hr : (s.cell n).rasp = true) : State.bodyRaspend (s₀.env n) k w ext s = s.raspEnd n := by
  unfold State.bodyRaspend
  simp only [State.env_n, h, hr, Bool.not_true, Bool.false_eq_true, if_false, if_true]

end

/-- What an instruction of a ready context leaves of the state `u` that its body makes. -/
theorem issued_state {r : Row} {x : CtxRef} {s u : State} {b : Body} (h : Ready r x s)
    (hb : b (s.env x.cell) x.ctx (s.wordOf x) (s.extOf x) (s.taken x) = u) :
    ∃ t, s.issue r b x = .next t ∧ u.CellTouched x.cell t ∧ (∀ p, t.court p = u.court p) ∧
      (t.cell x.cell).noCtxs = (u.cell x.cell).noCtxs ∧ (((u.cell x.cell).ctx x.ctx).stepping = false → t.ctxOf x = (u.cell x.cell).ctx x.ctx) := by
  have hcell : (u.modCell x.cell (Cell.stepEnd x.ctx r (s.ctxOf x).pc)).cell x.cell = (u.cell x.cell).stepEnd x.ctx r (s.ctxOf x).pc :=
    (State.cell_modCell ..).trans (if_pos rfl)
  refine ⟨_, by rw [issue_taken h, hb], u.cellTouched_modCell .., fun _ => rfl, ?_, fun hs => ?_⟩
  · rw [hcell, Cell.noCtxs_stepEnd]
  · exact (congrArg (Cell.ctx · x.ctx) hcell).trans (Cell.stepEnd_ctx _ _ _ _ hs _)

theorem issued_rsig {x : CtxRef} {s : State} (h : Ready .rsig x s) (hn : NoReturn 1 x s) (hp : (s.cell x.cell).privOk x.ctx = true)
    (hsig : (s.court (cellCourt x.cell)).rd RES_RASP_SIG_SIG < 2 ^ 64) :
    ∃ t, s.issue .rsig State.bodyRsig x = .next t ∧ t = { s with cells := t.cells, courts := t.courts } ∧ t.ctxOf x = (s.ctxOf x).past 1 ∧
      (t.cell x.cell).noCtxs = (s.cell x.cell).noCtxs ∧ (∀ n, n ≠ x.cell → t.cell n = s.cell n) ∧
      (∀ p, p ≠ cellCourt x.cell → t.court p = s.court p) ∧
      BitVec.ofNat 64 ((t.court (cellCourt x.cell)).rd RES_RASP_SIG_SIG) =
        (BitVec.ofNat 64 ((s.court (cellCourt x.cell)).rd RES_RASP_SIG_SIG)).rotateLeft 5 ^^^
          (((s.ctxOf x).sReg (fRd (s.wordOf x))).v.setWidth 64) := by
  obtain ⟨hrest, hself, -⟩ := h.passed hn
  have hb := State.bodyRsig_folds s (s.wordOf x) (s.extOf x) (s := s.taken x) (by rw [s.cell_taken]; exact hp)
  rw [s.cell_taken, h.taken.self, Ctx.sReg_issuing] at hb
  generalize ((s.ctxOf x).sReg (fRd (s.wordOf x))).v = v at hb ⊢
  obtain ⟨t, ht, htouched, hcourt, hcells, hctx⟩ := issued_state h hb
  rw [State.cell_modCell, if_pos rfl, State.cell_modCourt, s.cell_taken] at hcells hctx
  have hbody := (((s.cellTouched_modCell x.cell (·.take x.ctx)).trans (State.cellTouched_modCourt (s.taken x) x.cell (cellCourt x.cell)
    (·.fold v.toNat))).trans (State.cellTouched_modCell _ x.cell (·.advance x.ctx 1))).trans htouched
  refine ⟨t, ht, ?same, ?ctx, hcells.trans hrest, hbody.cell, fun p hne => ?courts, ?sig⟩
  case same =>
    obtain ⟨cs, qs, rfl⟩ := hbody.same
    rfl
  case ctx => rw [hctx (by rw [hself]; exact h.free), hself]
  case courts =>
    rw [hcourt, State.court_modCell, State.court_modCourt, if_neg hne]
    rfl
  case sig =>
    rw [hcourt, State.court_modCell, State.court_modCourt, if_pos rfl, Court.fold, Court.rd_wr_self]
    exact signature_folded hsig v

theorem issued_raspend {x : CtxRef} {s : State} (h : Ready .raspend x s) (hp : (s.cell x.cell).privOk x.ctx = true)
    (hr : (s.cell x.cell).rasp = true) (hcell : s.raspCell (cellCourt x.cell) = x.cell)
    (hstep : (s.court (cellCourt x.cell)).rd RES_RASP_CTRL_STEP + (s.cell x.cell).raspSteps <
      raspTotal (s.court (cellCourt x.cell)).raspBanks) :
    ∃ t, s.issue .raspend State.bodyRaspend x = .next t ∧ (t.cell x.cell).rasp = false ∧ (t.cell x.cell).raspSteps = 0 ∧
      (t.cell x.cell).rd (CTX_CONFIG_RESTORER.ctx 3) = 0 ∧ (t.court (cellCourt x.cell)).rd RES_RASP_CTRL_STEP =
        ((s.court (cellCourt x.cell)).rd RES_RASP_CTRL_STEP + (s.cell x.cell).raspSteps) % 2 ^ RES_RASP_CTRL_STEP.width := by
  have hsteps : ((s.taken x).cell x.cell).raspSteps = (s.cell x.cell).raspSteps := by
    rw [s.cell_taken]
    rfl
  have hend := State.raspEnd_counts (s := s.taken x) hcell (by rw [hsteps]; exact hstep)
  rw [hsteps] at hend
  have hb := (State.bodyRaspend_ends s (s.wordOf x) (s.extOf x) (by rw [s.cell_taken]; exact hp) (by rw [s.cell_taken]; exact hr)).trans hend
  obtain ⟨hrasp, hzero, hrestorer⟩ := (s.taken x).passOver_raspLeave x.cell
  generalize (s.taken x).raspLeave x.cell = u at hb hrasp hzero hrestorer
  obtain ⟨t, ht, -, hcourt, hcells, -⟩ := issued_state h hb
  rw [State.cell_modCourt] at hcells
  refine ⟨t, ht, (Cell.eq_of_noCtxs Cell.rasp (fun _ => rfl) hcells).trans hrasp,
    (Cell.eq_of_noCtxs Cell.raspSteps (fun _ => rfl) hcells).trans hzero, (Cell.rd_of_noCtxs hcells _).trans hrestorer, ?_⟩
  rw [hcourt, State.court_modCourt, if_pos rfl, Court.rd_wr_self]
  rfl

/-- Settles O45: the denied cases by the fault that their bodies share, the others by what each body does to the state. -/
theorem privilegedInstructions : Obligations.PrivilegedInstructions := by
  intro x s hn y w c q bad
  have leaves {r : Row} (b : Body) (h : Ready r x s) : ∃ t, s.issue r b x = .next t := ⟨_, issue_ready b h⟩
  have priv {a : Bool} (hp : c.privOk x.ctx = a) : ((s.taken x).cell x.cell).privOk x.ctx = a := by
    rw [s.cell_taken]
    exact hp
  refine ⟨fun h => ?rsig, fun h => ?raspend⟩
  case rsig =>
    obtain ⟨t, ht⟩ := leaves State.bodyRsig h
    exact ⟨t, ht, fun hp => issued_denied h ht (State.bodyRsig_denied s _ _ (priv hp)), fun hp hsig => of_next ht (issued_rsig h hn hp hsig)⟩
  case raspend =>
    obtain ⟨t, ht⟩ := leaves State.bodyRaspend h
    refine ⟨t, ht, fun hp => issued_denied h ht (State.bodyRaspend_denied s _ _ (priv hp)), fun hp hr => ?passes,
      fun hp hr hcell hstep => of_next ht (issued_raspend h hp hr hcell hstep)⟩
    case passes =>
      have hb := issue_congr h (State.bodyRaspend_passes s _ _ (priv hp) (by rw [s.cell_taken]; exact hr))
      exact of_next (hb.symm.trans ht) (issued_advance (c' := c) (b := fun _ k _ _ c => c.advance k 1) h hn rfl rfl (fun _ => rfl)
        (fun _ _ => rfl))

end Sys2Proof.Machine
